-- ==== Sys2Proof/Word.lean ====
section
/-! DEFINITION. The word types of the ZT4-40M model: bytes, 32-bit registers, digests and MAC addresses. -/
namespace Sys2Proof

/-- One byte of Tarn, SRAM or of a frame. -/
abbrev Byte := BitVec 8

/-- A register (R471), a binary32 pattern (R52) or any 32-bit word. -/
abbrev Word := BitVec 32

/-- A binary16 pattern, or one half of a master weight (R53). -/
abbrev Half := BitVec 16

/-- A SHA-384 digest; byte 0 is the most significant byte. -/
abbrev Digest := BitVec 384

/-- A MAC address; byte 0 on the wire is the most significant byte (R360). -/
abbrev Mac := BitVec 48

end Sys2Proof
end

