-- ==== Sys2Proof/Syntax.lean ====
section
/-! DEFINITION. The commands of the module (one constructor of `Instr` per row of the opcode table) and the data they carry:
frames, packets, program images and the tables of a program. -/
namespace Sys2Proof

/-! ## Requesters, ports and frames -/

/-- Who makes a register access: the command processor (host) or the Urhild bridge (R384, R473). -/
inductive Requester where
  | host | urhild
  deriving DecidableEq, Repr, Inhabited

/-- The two ports that carry command packets (R368, R446). -/
inductive CmdPort where
  | host | mgmt
  deriving DecidableEq, Repr, Inhabited

/-- An IP address (R359). -/
inductive Ip where
  | v4 (a : BitVec 32)
  | v6 (a : BitVec 128)
  deriving DecidableEq, Repr, Inhabited

/-- PTP transports, as HOST_PTP_CTRL.TRANSPORT numbers them (R366). -/
inductive PtpTransport where
  | udp4 | udp6 | eth
  deriving DecidableEq, Repr, Inhabited

/-- The data set of an Announce message that the best master clock algorithm compares (R366, IEEE 1588). -/
structure PtpDataset where
  priority1 : Nat
  clockClass : Nat
  accuracy : Nat
  variance : Nat
  priority2 : Nat
  identity : Nat
  steps : Nat
  deriving DecidableEq, Repr, Inhabited

/-- The PTP messages a slave-only ordinary clock handles (R366). Times are nanoseconds; `rx` is the
hardware timestamp of this port. `seq` is the sequenceId; `mine` says that the requestingPortIdentity of a Delay_Resp is this port's. -/
inductive PtpBody where
  | announce (ds : PtpDataset)
  | sync (identity seq : Nat) (origin rx : Int) (twoStep : Bool)
  | followUp (identity seq : Nat) (origin : Int)
  | delayResp (identity seq : Nat) (mine : Bool) (rxAtMaster : Int)
  | other
  deriving DecidableEq, Repr, Inhabited

/-- What a received Ethernet frame carries, as far as R358, R359 and R446 tell frames apart. `options`: its IP header has IPv4 options or
IPv6 extension headers; `fragment`: its IP packet is a fragment. -/
inductive EthBody where
  | arpRequest (target : BitVec 32)
  | neighborSolicitation (target : BitVec 128) (options fragment : Bool)
  | echoRequest (src dst : Ip) (options fragment : Bool) (data : List Byte)
  | ptp (transport : PtpTransport) (domain : Nat) (multicast options fragment : Bool) (body : PtpBody)
  | udp (src dst : Ip) (srcPort dstPort : Nat) (csumOk options fragment : Bool) (payload : List Byte)
  | other
  deriving DecidableEq, Repr, Inhabited

/-- A frame received on the host port or the management port. `vid` is the VID of its one C-tag, `stacked` says
that it carries more than one tag. `group` says that it was sent to the broadcast address or the solicited-node group. `len` is its length
in bytes, tag and FCS included. -/
structure EthFrame where
  fcsOk : Bool
  srcMac : Mac
  dstMac : Mac
  group : Bool
  vid : Option Nat
  stacked : Bool
  body : EthBody
  len : Nat
  deriving DecidableEq, Repr, Inhabited

/-- A frame on a peer port, before its link header is read (R295, R296); `len` is its length in bytes. -/
structure PeerHdr where
  fcsOk : Bool
  srcMac : Mac
  dstMac : Mac
  vid : Option Nat
  etype : Nat
  len : Nat
  deriving DecidableEq, Repr, Inhabited

/-- The payload of a collective frame (R319, R320): block exponents and codes, or plain data. A code of an L8G
block is 10 bits wide, one of an L8 block 8 bits, and an F32 element 32 bits; for BYTES each code is a byte. For SPARSE,
`rows` names the row of each block, and `last` says that the node ends with this frame. -/
structure SegPayload where
  exps : List Nat
  codes : List Nat
  rows : List Nat
  last : Bool
  deriving DecidableEq, Repr, Inhabited

/-- CTYPE of a collective frame (R319). -/
inductive CollType where
  | seg | credit | restart | fin | finq
  deriving DecidableEq, Repr, Inhabited

/-- A collective frame (R319). -/
structure CollFrame where
  ctype : CollType
  fmt : Nat
  blk : Nat
  grp : Nat
  dseq : Nat
  rgen : Nat
  level : Nat
  srcMember : Nat
  node : Nat
  seg : Nat
  offset : Nat
  count : Nat
  step : Nat
  credit : Nat
  payload : SegPayload
  deriving DecidableEq, Repr, Inhabited

/-- COP of a copy frame (R305). -/
inductive CopyOp where
  | write | readReq | readData | ack | mark
  deriving DecidableEq, Repr, Inhabited

/-- A copy frame (R305); `use` is 0 Spillway, 1 checkpoint, 2 twin exchange. -/
structure CopyFrame where
  cop : CopyOp
  use : Nat
  tag : Nat
  addr : Nat
  len : Nat
  step : Nat
  crc : Nat
  mark : Nat
  data : List Byte
  deriving DecidableEq, Repr, Inhabited

/-- A domain frame (R406) with its payload as bytes. -/
structure DomFrame where
  mtype : Nat
  down : Bool
  origin : Nat
  step : Nat
  attempt : Nat
  wgen : Nat
  arg : Nat
  payload : List Byte
  deriving DecidableEq, Repr, Inhabited

/-- What a DATA frame of the link layer carries (R300), by KIND. -/
inductive LinkData where
  | coll (f : CollFrame)
  | copy (f : CopyFrame)
  | dom (f : DomFrame)
  | bad (kind : Nat)
  deriving DecidableEq, Repr, Inhabited

/-! ## Formats -/

/-- The formats a Cutter copy can take (R129 FMT). -/
inductive Fmt where
  | l4 | l8 | l6 | f16
  deriving DecidableEq, Repr, Inhabited

/-- The format of a product (R83 FORMAT). -/
inductive PFmt where
  | l4 | l8 | f16 | cnm
  deriving DecidableEq, Repr, Inhabited

/-- The rungs of the trouble policy (R168, R179). -/
inductive Rung where
  | l4 | l8 | f16
  deriving DecidableEq, Repr, Inhabited

/-- Partition modes of a Facet (R101). -/
inductive PartMode where
  | whole | h2 | q4
  deriving DecidableEq, Repr, Inhabited

/-- Amax granularities (R134). -/
inductive Gran where
  | tensor | line | loc
  deriving DecidableEq, Repr, Inhabited

/-! ## Strand descriptors -/

/-- Where the inclusion path finds the operands of one task (R150, R151) and where it puts the result. -/
structure InclDesc where
  count : Nat
  aArea : Nat
  bArea : Nat
  aLine0 : Nat
  bLine0 : Nat
  result : Nat
  deriving DecidableEq, Repr, Inhabited

/-- What the fused drain kernel of a task needs beside the drained rows (R156 to R160, log 31): the column-tile index `c` of the tile and
the chunks of its row; for arrays in the pool that lie row by row, their row length and the column of the tile's first element in them;
SMX_STAT: where the scores go, the causal mask and the position of the tile's first row; SMX_DOT: the stashed P; RMS_DOT: gamma and x. -/
structure FusedDesc where
  c : Nat := 0
  chunks : Nat := 1
  pitch : Nat := 64
  col : Nat := 0
  z : Nat := 0
  causal : Bool := false
  pos0 : Nat := 0
  pFmt : Option Fmt := none
  pBlk : Nat := 0
  pCodes : Nat := 0
  pExps : Nat := 0
  gamma : Nat := 0
  x : Nat := 0
  deriving DecidableEq, Repr, Inhabited

/-- A Facet task descriptor (R83), with the logical cluster and Facet the program gives the task (R18).
Pool addresses are byte offsets in the pool of the cluster that runs the task (R10). `aLine` and `bLine` are the lines of the product's
wide sources that hold the tile's row 0 and column 0 (R172). -/
structure TileDesc where
  cluster : Nat
  facet : Nat
  format : PFmt
  kg : Nat
  mode : PartMode
  pidx : Nat
  k : Nat
  aBase : Nat
  bBase : Nat
  aeBase : Nat
  beBase : Nat
  aTag0 : Nat
  bTag0 : Nat
  tensor : Nat
  tile : Nat
  row0 : Nat
  col0 : Nat
  scales : Nat
  incl : Option InclDesc
  dest : Nat
  fused : Nat
  aLine : Nat
  bLine : Nat
  fk : FusedDesc := {}
  deriving DecidableEq, Repr, Inhabited

/-- One copy of a QUANT descriptor (R129). -/
structure CopyDesc where
  en : Bool
  fmt : Fmt
  blk : Nat
  rot : Nat
  gran : Gran
  tagBase : Nat
  line0 : Nat
  codes : Nat
  exps : Nat
  hist : Nat
  amaxv : Nat
  deriving DecidableEq, Repr, Inhabited

/-- A QUANT descriptor (R129). `shard` is `none` for a replicated tensor. -/
structure QuantDesc where
  cluster : Nat
  src : Nat
  srcH16 : Bool
  pr : Nat
  pc : Nat
  tensor : Nat
  tile : Nat
  shard : Option Nat
  parts : Nat
  tally : Nat
  row : CopyDesc
  col : CopyDesc
  inclAxis : Bool
  ch0 : Nat
  inclN : Nat
  inclList : Nat
  inclDst : Nat
  shiftEn : Bool
  shiftSideB : Bool
  shiftAddr : Nat
  xmap : Nat
  deriving DecidableEq, Repr, Inhabited

/-- The kernels that end in the quantize path (R157 to R160). -/
inductive ApplyKind where
  | rmsApply | rmsBwdApply | smxApply | smxBwdApply
  deriving DecidableEq, Repr, Inhabited

/-- An apply kernel: its rows, its chunk statistics and its other inputs in the pool, then the quantize path. `width` is the width W of
the whole row, whose chunks it folds; the kernel works on the panel of the quantize path, PC columns from column `col0` of the row on, and
its inputs and outputs lie panel by panel. `leafFirst`: the panel holds the first rows of its shard (R160). -/
structure ApplyDesc where
  kind : ApplyKind
  cluster : Nat
  rows : Nat
  width : Nat
  stat : Nat
  src : Nat
  dy : Nat
  gamma : Nat
  eps : Word
  rArea : Nat
  leaf : Nat
  causal : Bool
  pos0 : Nat
  pFmt : Option Fmt
  pBlk : Nat
  pCodes : Nat
  pExps : Nat
  dst : Nat
  quant : QuantDesc
  col0 : Nat := 0
  leafFirst : Bool := true
  deriving DecidableEq, Repr, Inhabited

/-- Elementwise operations (R128). -/
inductive ElemOp where
  | add | mul | scale | relu | silu
  deriving DecidableEq, Repr, Inhabited

/-- An elementwise kernel (R128), which may end in the quantize path. -/
structure ElemDesc where
  op : ElemOp
  cluster : Nat
  a : Nat
  b : Nat
  dst : Nat
  n : Nat
  scale : Word
  quant : Option QuantDesc
  deriving DecidableEq, Repr, Inhabited

/-- An NS_ITER kernel (R249): the staging area holds A, X0 and M0, each PB × PB binary32. -/
structure NsDesc where
  cluster : Nat
  pb : Nat
  stage : Nat
  root : Nat
  hdr : Nat
  die : Nat
  tensor : Nat
  block : Nat
  right : Bool
  deriving DecidableEq, Repr, Inhabited

/-- How the rows of a serving program's copy follow the events of the batch or pass that runs (R340, R343). `fixed`: they do not.
`event`: row j is of event j of the batch, at its position in its slot. `history`: for each event of the batch, one row for each position of its
slot up to its own. Where the other side of the copy is `fixed`, it holds the rows in order: by event, and for `history` CTX_MAX rows for
each event. -/
inductive SlotRows where
  | fixed | event | history
  deriving DecidableEq, Repr, Inhabited

/-- A program copy or fill (R279). In a serving program `srcRows` and `dstRows` may follow the batch: the address is then that of slot 0,
position 0, and the stride that between positions. -/
structure CopyStrand where
  fill : Bool
  src : Nat
  dst : Nat
  len : Nat
  rows : Nat
  sstride : Nat
  dstride : Nat
  srcRows : SlotRows := .fixed
  dstRows : SlotRows := .fixed
  deriving DecidableEq, Repr, Inhabited

/-- Collective operations (R307 OP). -/
inductive CollOp where
  | ag | bc | rs | ar
  deriving DecidableEq, Repr, Inhabited

/-- Collective formats (R306). -/
inductive CollFmt where
  | bytes | l8 | f32 | sparse
  deriving DecidableEq, Repr, Inhabited

/-- A collective descriptor (R307). `ownMap` gives the owner member of each segment (empty: k mod G), `lmap` the member that holds
each leaf (empty: the group table's map). `inletTensor` names the update entry fed under DKIND 1 or waited for under SRCWAIT, `cols`
the row length of a SPARSE tensor. -/
structure CollDesc where
  op : CollOp
  fmt : CollFmt
  blk : Nat
  grp : Nat
  pidx : Nat
  layer : Option Nat
  eng : Nat
  llog : Nat
  lmap : List Nat
  elems : Nat
  segLen : Nat
  src : Nat
  srce : Nat
  lstride : Nat
  dst : Nat
  dste : Nat
  toInlet : Bool
  inletTensor : Nat
  cols : Nat
  ownMap : List Nat
  srcWait : Bool
  segDone : List Nat
  strand : Nat
  deriving DecidableEq, Repr, Inhabited

/-- What one strand does (R25). -/
inductive StrandKind where
  | tile (d : TileDesc)
  | quant (d : QuantDesc)
  | apply (d : ApplyDesc)
  | elem (d : ElemDesc)
  | nsIter (d : NsDesc)
  | copy (d : CopyStrand)
  | coll (d : CollDesc)
  | hosted (d : CollDesc)
  | loss (addr n : Nat)
  | statsPass (die tensor : Nat)
  deriving DecidableEq, Repr, Inhabited

/-- One strand (R25, R26). `seg` names the segment it belongs to (layer, backward), `rung` the variant of the
segment it is part of (R168), `wide` the schedule: `none` for both, otherwise the wide one or the main one (R180). `shard` is the shard
it works on, `none` for what the shards share (R25, R34). -/
structure Strand where
  id : Nat
  phase : Nat
  kind : StrandKind
  deps : List Nat
  seg : Option (Nat × Bool)
  rung : Option Rung
  wide : Option Bool
  shard : Option Nat := none
  deriving DecidableEq, Repr, Inhabited

/-! ## Program tables -/

/-- Content classes (R210, R292). -/
inductive RClass where
  | param | state | rowcount | history | policy | shift | pond | data | scratch
  deriving DecidableEq, Repr, Inhabited

/-- One region of the region table (R210). -/
structure Region where
  base : Nat
  size : Nat
  versioned : Bool
  cls : RClass
  deriving DecidableEq, Repr, Inhabited

/-- A layer of the trouble table (R168): which rungs have a variant, and whether its backward segment is empty. -/
structure LayerEntry where
  num : Nat
  hasBwd : Bool
  rungs : List Rung
  deriving DecidableEq, Repr, Inhabited

/-- A copy of the trouble table (R168); `satLim` and `flushLim` are `none` where the register value is used. -/
structure CopyEntry where
  tensor : Nat
  col : Bool
  layer : Nat
  bwd : Bool
  satLim : Option Nat
  flushLim : Option Nat
  exempt : Bool
  loc : Bool
  shift : Nat
  deriving DecidableEq, Repr, Inhabited

/-- One side of a Loupe source descriptor (R172). `fmt` is 0 binary32, 1 H16, 2 binary16. -/
structure LoupeSide where
  src : Nat
  pool : Bool
  fmt : Nat
  stride : Nat
  rot : Nat
  ch0 : Nat
  inclList : Nat
  inclN : Nat
  shiftEn : Bool
  shiftSideB : Bool
  shiftAddr : Nat
  deriving DecidableEq, Repr, Inhabited

/-- A product of the trouble table (R168), with its optional Loupe source descriptor. `events`: its reduction axis runs over events
(R337). -/
structure ProductEntry where
  tensor : Nat
  aCopy : Nat × Bool
  bCopy : Nat × Bool
  loupe : Option (LoupeSide × LoupeSide)
  events : Bool := false
  deriving DecidableEq, Repr, Inhabited

/-- Update rules (R236). -/
inductive Rule where
  | fac | facu | pre
  deriving DecidableEq, Repr, Inhabited

/-- The addresses of an update entry that are given for each die (R237). -/
structure DieAddrs where
  wh : Nat
  wm : Nat
  momc : Nat
  mome : Nat
  stat : Nat
  root : Nat
  hdr : Nat
  rcnt : Nat
  scr : Nat
  grad : Nat
  grade : Nat
  stage : Nat
  deriving DecidableEq, Repr, Inhabited

/-- An entry of the update table (R236). `own` lists, for each piece or row unit, the (rank, die) of its owner.
The address fields hold for every die of the module that `dies` does not list with addresses of its own (R237). -/
structure UpdateEntry where
  tensor : Nat
  layer : Nat
  rule : Rule
  sparse : Bool
  frozen : Bool
  bc : Bool
  graft : Bool
  pb : Nat
  rows : Nat
  cols : Nat
  b1 : Word
  b2 : Word
  eps1 : Word
  eps2 : Word
  epsd : Word
  wd : Word
  lrm : Word
  gscale : Word
  wh : Nat
  wm : Nat
  momc : Nat
  mome : Nat
  stat : Nat
  root : Nat
  hdr : Nat
  rcnt : Nat
  scr : Nat
  grad : Nat
  grade : Nat
  stage : Nat
  own : List (Nat × Nat)
  dies : List (Nat × DieAddrs) := []
  deriving DecidableEq, Repr, Inhabited

/-- An entry of the stash table (R204). -/
structure StashEntry where
  id : Nat
  layer : Nat
  shard : Nat
  die : Nat
  bytesL4 : Nat
  bytesL8 : Nat
  bytesF16 : Nat
  first : Nat
  freeAt : Nat
  returnAt : Nat
  cls : Nat
  deriving DecidableEq, Repr, Inhabited

/-- A group of the group table (R308): the rank of each member and the leaves each member holds. -/
structure Group where
  grp : Nat
  ranks : List Nat
  leaves : List (List Nat)
  deriving DecidableEq, Repr, Inhabited

/-- One register value of a program's configuration block (R479): register offset in its block page, and the
value given for each instance. `block` is the page kind, numbered as R471 lists the blocks. -/
structure ConfigEntry where
  block : Nat
  off : Nat
  values : List Word
  deriving DecidableEq, Repr, Inhabited

/-- What a serving program declares (R337 to R351): INF, CTX_MAX and CTX_BYTES, the length of the final hidden row; its parameter tensors
with their rows and columns; the phases of a scoring batch, and the forward and the backward phases of an explanation point; the base of
the slots' contexts (R340); and the Tarn addresses at which its phases meet the batcher: input events (by slot and position), hidden rows
and scores (by event of the batch), and for a path point its binary32 inputs, the seed of each score, the gradients, and the attributions
(by slot). `rulesOk`: it keeps the rules of R148 and R337 that no field shows. -/
structure ServInfo where
  inf : Nat
  ctxMax : Nat
  ctxBytes : Nat
  ctxAddr : Nat
  hiddenLen : Nat
  params : List (Nat × Nat × Nat)
  batchPhases : List Nat
  pointPhases : List Nat
  backPhases : List Nat
  inputAddr : Nat
  hiddenAddr : Nat
  scoreAddr : Nat
  pointAddr : Nat
  seedAddr : Nat
  gradAddr : Nat
  attrAddr : Nat
  rulesOk : Bool
  deriving DecidableEq, Repr, Inhabited

/-- A weight copy that a calibration block names (R148, R339): its tensor, the copy (`codes` and `exps` are Tarn addresses), MARGIN, and
on the affected copy the inclusion list with its operand area and the shift vector. -/
structure WeightCopy where
  tensor : Nat
  col : Bool
  copy : CopyDesc
  margin : Nat
  affected : Bool
  list : List Nat
  inclDst : Nat
  shiftOn : Bool
  sideB : Bool
  shifts : List Byte
  deriving DecidableEq, Repr, Inhabited

/-- What a calibration block fixes for one copy of an activation tensor (R148, R339). -/
structure ActCopy where
  tensor : Nat
  col : Bool
  fmt : Fmt
  blk : Nat
  rot : Nat
  margin : Nat
  list : List Nat
  shiftOn : Bool
  sideB : Bool
  shifts : List Byte
  deriving DecidableEq, Repr, Inhabited

/-- What a calibration block spells (R339): SCORES, the rung of every layer, what it fixes for each activation copy, and
the weight copies. -/
structure Calib where
  scores : Nat
  rungs : List (Nat × Rung)
  acts : List ActCopy
  weights : List WeightCopy
  deriving DecidableEq, Repr, Inhabited

/-- An inclusion list of the program (R149): the copy it acts on and its channels, ascending. -/
structure InclList where
  tensor : Nat
  col : Bool
  channels : List Nat
  deriving DecidableEq, Repr, Inhabited

/-- A program image as the command processor reads it (R34, R168, R204, R210, R236, R308, R336). -/
structure Program where
  serving : Bool
  shards : Nat
  seed : BitVec 64
  cL : Nat
  fL : Nat
  config : List ConfigEntry
  regions : List Region
  layers : List LayerEntry
  copies : List CopyEntry
  products : List ProductEntry
  hasWide : Bool
  updates : List UpdateEntry
  updateOrder : List Nat
  stash : List StashEntry
  policyBase : Nat
  collCount : Nat
  groups : List Group
  shardMap : List Nat
  strands : List Strand
  ports : List Nat
  frozen : List Nat
  serv : Option ServInfo
  lists : List InclList := []
  programDigest : Digest
  numericsDigest : Digest
  deriving DecidableEq, Repr, Inhabited

/-! ## Faults and outcomes that an event brings with it -/

/-- The hardware faults that can strike a Facet task (R98). The word index is that of FCT_OPBUF_ERR. -/
inductive FacetFault where
  | none
  | skew
  | accParity
  | opbufCe (half : Bool) (word : Nat)
  | opbufUe (half : Bool) (word : Nat)
  deriving DecidableEq, Repr, Inhabited

/-- What a K-group's rescale meets: a fault that strikes, and whether a stop ramp is still running as issue resumes (R110). -/
structure FoldEvent where
  fault : FacetFault
  ramping : Bool := false
  deriving DecidableEq, Repr, Inhabited

/-- The hardware faults that can strike a Cutter kernel (R161). -/
inductive CutFault where
  | none
  | poolCe (word : Nat)
  | poolUe (word : Nat)
  | cutFault
  deriving DecidableEq, Repr, Inhabited

/-- What happens to the stored symbols of a line that is read (R267): how many are in error, and whether the decoder
places an error in an address symbol. `mis`: a pattern beyond what the decoder detects lies within correcting distance of another
codeword, which it delivers: the symbols it corrects, and the wrong line. -/
structure LineError where
  symbols : Nat
  address : Bool
  mis : Option (Nat × List Byte)
  deriving DecidableEq, Repr, Inhabited

/-- A Tarn transfer (R280, R281): a read, or a write of the given bytes from the first line on. -/
inductive Xfer where
  | read
  | write (data : List Byte)
  deriving DecidableEq, Repr, Inhabited

/-- The sensors of R437: die d sensor i, hub sensor i, Tarn base s. -/
inductive TempSensor where
  | die (d i : Nat)
  | hub (i : Nat)
  | tarn (s : Nat)
  deriving DecidableEq, Repr, Inhabited

/-- What a region's droop detector senses (R427): the region, and the core rail at its sense points in millivolts. -/
structure DroopSense where
  region : Nat
  railMv : Nat
  deriving DecidableEq, Repr, Inhabited

/-- An SMBus transaction (R446, R448): the slave address that it names, and whether its Packet Error Check passes. -/
structure SmbFrame where
  slave : Nat
  pecOk : Bool
  deriving DecidableEq, Repr, Inhabited

/-- The trouble sums of one copy in a report (R169). -/
structure CopySums where
  tensor : Nat
  col : Bool
  elems : Nat
  sat : Nat
  flush : Nat
  blocks : Nat
  dom : Nat
  excess : Nat
  deriving DecidableEq, Repr, Inhabited

/-- A trouble report of one segment attempt (R169): copy sums, and the products with a failed Loupe sample. -/
structure Report where
  sums : List CopySums
  failed : List Nat
  deriving DecidableEq, Repr, Inhabited

/-- What a rank answers to STATE_Q (R411). -/
structure RankState where
  committed : Nat
  base : Nat
  sentReady : Bool
  gotCommit : Bool
  program : Digest
  deriving DecidableEq, Repr, Inhabited

/-- What marks the module faulted among its clocks and crossings (R419): a PLL in use loses lock, or a crossing queue has a parity error;
and a compute die that stops answering on the crossbar (R20, log 91). -/
inductive ClkCause where
  | pll
  | crossing
  | silent
  deriving DecidableEq, Repr, Inhabited

/-- A stash block: its ID and shard (R204). -/
structure StashKey where
  id : Nat
  shard : Nat
  deriving DecidableEq, Repr, Inhabited

/-- A partition of a Facet (R101). -/
structure FacetPart where
  facet : Nat
  pidx : Nat
  deriving DecidableEq, Repr, Inhabited

/-! ## The commands: one constructor per row of the opcode table -/

/-- The commands of the module. -/
inductive Instr where
  /-- STANDBY_POWER_UP (R449). `siteB` and `laneSel` are the straps; `held` says that the supercapacitor held the calendar clock, which ran `elapsedUs` microseconds meanwhile -/
  | standbyPowerUp (siteB laneSel held : Bool) (elapsedUs : Nat)
  /-- STANDBY_LOST (R488) -/
  | standbyLost
  /-- MAIN_INPUT_APPLIED (R487) -/
  | mainInputApplied (millivolts : Nat)
  /-- MAIN_INPUT_FAULT (R487) -/
  | mainInputFault (millivolts : Nat)
  /-- MAIN_OFF (R449). `mgmt`: as the management port's command at the front of its queue; otherwise carried out by Urhild itself -/
  | mainOff (mgmt : Bool)
  /-- MAIN_ON (R450). as MAIN_OFF -/
  | mainOn (mgmt : Bool)
  /-- WARM_RESET (R449). as MAIN_OFF -/
  | warmReset (mgmt : Bool)
  /-- FULL_RESET (R449). as MAIN_OFF -/
  | fullReset (mgmt : Bool)
  /-- RAIL_POWER_GOOD_TIMEOUT (R450) -/
  | railPowerGoodTimeout (rail : Nat)
  /-- HUB_RESET_RELEASE (R450). whether the fuzzy extractor recovers the seed -/
  | hubResetRelease (pufOk : Bool)
  /-- DIE_RESET_RELEASE (R450) -/
  | dieResetRelease
  /-- TARN_TRAINING_DONE (R450) -/
  | tarnTrainingDone (stack : Nat)
  /-- MESH (R460) -/
  | mesh
  /-- COVER (R460) -/
  | cover
  /-- VGLITCH_CORE (R460) -/
  | vglitchCore
  /-- VGLITCH_STBY (R460) -/
  | vglitchStby
  /-- REFCLK_DRIFT (R460) -/
  | refclkDrift
  /-- REFCLK_LOSS (R460) -/
  | refclkLoss
  /-- TEMP_LOW (R460). hub sensor 0 or 1 -/
  | tempLow (sensor : Nat) (celsius : Int)
  /-- DEBUG_PORT (R460) -/
  | debugPort
  /-- THERM_THROTTLE (R437) -/
  | thermThrottle (sensor : TempSensor) (celsius : Int)
  /-- THROTTLE_CLEAR (R437) -/
  | throttleClear (readings : List (TempSensor × Int))
  /-- THERM_TRIP (R438) -/
  | thermTrip (sensor : TempSensor) (celsius : Int)
  /-- CLK_FAULT (R419). the cause, and the row in R418 of a crossing or the die that has stopped answering (log 91) -/
  | clkFault (cause : ClkCause) (n : Nat)
  /-- POWER_SAMPLE (R422) -/
  | powerSample (watts : Nat)
  /-- STEP_EVALUATION (R424) -/
  | stepEvaluation
  /-- FREQ_SWITCH (R421). the die that switches, and the CCLK cycles since the last droop response ended -/
  | freqSwitch (die quietCycles : Nat)
  /-- D_SLOW_NARROW (R425) -/
  | dSlowNarrow
  /-- D_SLOW_WIDEN (R425) -/
  | dSlowWiden
  /-- D_FAST_RECOVERY (R426) -/
  | dFastRecovery
  /-- CAP_STEP_WRITE (R420) -/
  | capStepWrite (who : Requester) (value : Word)
  /-- DROOP_RESPONSE (R427) -/
  | droopResponse (sense : DroopSense)
  /-- DROOP_HOLD_END (R427). the stretched cycles of the response -/
  | droopHoldEnd (region cycles : Nat)
  /-- TRIM_CHOICE (R433) -/
  | trimChoice (die : Nat)
  /-- TRIM_EXIT (R434) -/
  | trimExit (die : Nat)
  /-- RAIL_REACHED (R434) -/
  | railReached (die : Nat)
  /-- AGE_REPORT (R435) -/
  | ageReport (die region slack : Nat)
  /-- PWR_TRIM_DATA_WRITE (R431) -/
  | pwrTrimDataWrite (who : Requester) (value : Word)
  /-- PWR_CAL_WRITE (R436) -/
  | pwrCalWrite (who : Requester) (value : Word)
  /-- MGMT_PACKET (R446) -/
  | mgmtPacket (frame : EthFrame)
  /-- UMC_ALARM_READ (R447) -/
  | umcAlarmRead
  /-- UMC_ALARM_CLEAR (R447) -/
  | umcAlarmClear
  /-- UMC_TIME (R447) -/
  | umcTime
  /-- UMC_TIME_HI_WRITE (R470) -/
  | umcTimeHiWrite (who : Requester) (value : Word)
  /-- SMB_ADDRESS_WRITE (R448). six bytes -/
  | smbAddressWrite (frame : SmbFrame) (data : List Byte)
  /-- SMB_BLOCK_READ (R448) -/
  | smbBlockRead (frame : SmbFrame)
  /-- SMB_BLOCK_WRITE (R448). four bytes -/
  | smbBlockWrite (frame : SmbFrame) (data : List Byte)
  /-- SMB_POWER (R448) -/
  | smbPower (frame : SmbFrame) (action : Byte)
  /-- SMB_STATUS_READ (R448) -/
  | smbStatusRead (frame : SmbFrame)
  /-- SMB_ALARM_CLEAR (R448) -/
  | smbAlarmClear (frame : SmbFrame) (flags : Byte)
  /-- HOST_LINK (R386) -/
  | hostLink (up : Bool)
  /-- ARP_REQUEST (R362) -/
  | arpRequest (frame : EthFrame)
  /-- NEIGHBOR_SOLICITATION (R362) -/
  | neighborSolicitation (frame : EthFrame)
  /-- ECHO_REQUEST (R362) -/
  | echoRequest (frame : EthFrame)
  /-- PTP_MESSAGE (R366) -/
  | ptpMessage (frame : EthFrame)
  /-- PTP_SYNC_TIMEOUT (R367) -/
  | ptpSyncTimeout
  /-- COMMAND_PACKET (R369) -/
  | commandPacket (frame : EthFrame)
  /-- QUEUE_SYNC (R372). a SYNC that waits on the queue -/
  | queueSync (port : CmdPort) (queue : Nat)
  /-- NOP (R377). the command at the front of the queue, as for every opcode row -/
  | nop (port : CmdPort) (queue : Nat)
  /-- IDENT (R377) -/
  | ident (port : CmdPort) (queue : Nat)
  /-- SIZE_TABLE (R17) -/
  | sizeTable (queue : Nat)
  /-- STATUS (R377) -/
  | status (queue : Nat)
  /-- FENCE (R373) -/
  | fence (queue : Nat)
  /-- FENCE_COMPLETE (R373) -/
  | fenceComplete (queue : Nat)
  /-- FW_LOAD (R451) -/
  | fwLoad (queue : Nat)
  /-- FW_START (R452). what the two signature algorithms find: a verdict that is not theirs is no event (log 8) -/
  | fwStart (queue : Nat) (rsaOk slhOk : Bool)
  /-- CONFIG_END (R458) -/
  | configEnd (queue : Nat)
  /-- ATTEST (R456) -/
  | attest (queue : Nat)
  /-- REG_READ (R378). on the host port, or with Urhild's rights on the management port -/
  | regRead (port : CmdPort) (queue : Nat)
  /-- REG_WRITE (R378). as REG_READ -/
  | regWrite (port : CmdPort) (queue : Nat)
  /-- MEM_READ (R379) -/
  | memRead (queue : Nat)
  /-- MEM_WRITE (R379) -/
  | memWrite (queue : Nat)
  /-- MEM_FILL (R379) -/
  | memFill (queue : Nat)
  /-- MEM_DIGEST (R379) -/
  | memDigest (queue : Nat)
  /-- BULK_COMPLETE (R373) -/
  | bulkComplete
  /-- PROG_LOAD (R381). what the image spells -/
  | progLoad (queue : Nat) (prog : Program)
  /-- PROG_UNLOAD (R381) -/
  | progUnload (queue : Nat)
  /-- SETTLE_COMPLETE (R278) -/
  | settleComplete
  /-- RUN (R381) -/
  | run (queue : Nat)
  /-- STOP (R381) -/
  | stop (queue : Nat)
  /-- ABORT (R381) -/
  | abort (queue : Nat)
  /-- RESUME (R222) -/
  | resume (queue : Nat)
  /-- RESTORE (R381) -/
  | restore (queue : Nat)
  /-- TWIN_MODE (R392). of the host port, as for every command with this operand -/
  | twinMode (queue : Nat)
  /-- WELLHEAD_TAKE (R403) -/
  | wellheadTake (queue : Nat)
  /-- RANK_JOIN (R404) -/
  | rankJoin (queue : Nat)
  /-- TWIN_RESTORE (R400) -/
  | twinRestore (queue : Nat)
  /-- COLL_LAUNCH (R324). the descriptor that the first 64 bytes of the payload spell -/
  | collLaunch (queue : Nat) (desc : CollDesc)
  /-- MODEL_LOAD (R338). what the calibration block spells -/
  | modelLoad (queue : Nat) (cal : Calib)
  /-- MODEL_UNLOAD (R354) -/
  | modelUnload (queue : Nat)
  /-- SCORE (R341) -/
  | score (queue : Nat)
  /-- SLOT_RESET (R340) -/
  | slotReset (queue : Nat)
  /-- EXPLAIN (R349) -/
  | explain (queue : Nat)
  /-- PLAIN_REGISTER_WRITE (R378). a single access to the register at a device address -/
  | plainRegisterWrite (who : Requester) (addr : Nat) (value : Word)
  /-- W1C_CLEAR (R474) -/
  | w1cClear (who : Requester) (addr : Nat) (value : Word)
  /-- PAIR_LO_READ (R473) -/
  | pairLoRead (who : Requester) (addr : Nat)
  /-- HUB_LOG_LOST_READ (R476) -/
  | hubLogLostRead (who : Requester)
  /-- HUB_POND_HWM_READ (R476) -/
  | hubPondHwmRead (who : Requester)
  /-- PWR_AGE_READ (R476) -/
  | pwrAgeRead (who : Requester)
  /-- HOST_MAC_LO_WRITE (R360) -/
  | hostMacLoWrite (who : Requester) (value : Word)
  /-- HOST_MAC_HI_WRITE (R360) -/
  | hostMacHiWrite (who : Requester) (value : Word)
  /-- HOST_CTRL_WRITE (R388) -/
  | hostCtrlWrite (who : Requester) (value : Word)
  /-- HOST_EGR_CFG_WRITE (R363) -/
  | hostEgrCfgWrite (who : Requester) (value : Word)
  /-- HUB_STEP_NUM_WRITE (R29) -/
  | hubStepNumWrite (who : Requester) (value : Word)
  /-- INL_LR_STEP_WRITE (R252). slot `k` -/
  | inlLrStepWrite (k : Nat) (who : Requester) (value : Word)
  /-- LOG_RING_SET (R459). the value written to HUB_LOG_BASE_HI -/
  | logRingSet (who : Requester) (value : Word)
  /-- HUB_LOG_TAIL_WRITE (R192) -/
  | hubLogTailWrite (who : Requester) (value : Word)
  /-- INL_RLOG_TAIL_WRITE (R256) -/
  | inlRlogTailWrite (who : Requester) (value : Word)
  /-- HUB_PRV_TAIL_WRITE (R348) -/
  | hubPrvTailWrite (who : Requester) (value : Word)
  /-- HUB_SRV_FILL_WRITE (R342) -/
  | hubSrvFillWrite (who : Requester) (value : Word)
  /-- HUB_SRV_WAIT_WRITE (R342) -/
  | hubSrvWaitWrite (who : Requester) (value : Word)
  /-- STRAND_START (R26). `ra`: of the run-ahead -/
  | strandStart (ra : Bool) (id : Nat)
  /-- PHASE_BARRIER (R26). every other module that takes part has completed the phase -/
  | phaseBarrier (ra : Bool) (phase : Nat)
  /-- TASK_DESCRIPTOR (R83). the strand; `ramping`: a stop ramp is still running -/
  | taskDescriptor (ra : Bool) (id : Nat) (ramping : Bool)
  /-- STOP_RAMP (R110) -/
  | stopRamp (facet : Nat)
  /-- K_GROUP_RESCALE (R87). the cell within the partition, and what it meets -/
  | kGroupRescale (facet pidx row col : Nat) (event : FoldEvent)
  /-- TASK_REPLAY (R95). `ramping`: a stop ramp is still running -/
  | taskReplay (part : FacetPart) (ramping : Bool)
  /-- SCALE_LOAD (R92) -/
  | scaleLoad (facet pidx : Nat)
  /-- DRAIN_ROW_READ (R90). `parity`: the read meets a parity error -/
  | drainRowRead (facet pidx : Nat) (parity : Bool)
  /-- TASK_COMPLETE (R94) -/
  | taskComplete (facet pidx : Nat)
  /-- MODE_CHANGE (R103) -/
  | modeChange (facet : Nat)
  /-- INCLUSION_TASK (R151) -/
  | inclusionTask (part : FacetPart) (fault : CutFault)
  /-- FCT_SPARE_WRITE (R108) -/
  | fctSpareWrite (facet : Nat) (who : Requester) (value : Word)
  /-- FCT_ROW_DLY_WRITE (R108). FCT_ROW_DLY_k -/
  | fctRowDlyWrite (facet k : Nat) (who : Requester) (value : Word)
  /-- PILOT_START (R106) -/
  | pilotStart (facet : Nat) (who : Requester) (value : Word)
  /-- PILOT_DONE (R107). the lowest physical row a defect shows in (0x7F: none), and its mismatches in the worst pass -/
  | pilotDone (facet firstBad badCount : Nat)
  /-- FCT_ENABLE_WRITE (R108) -/
  | fctEnableWrite (facet : Nat) (who : Requester) (value : Word)
  /-- QUANT (R130). the strand, and what strikes the pass -/
  | quant (ra : Bool) (id : Nat) (fault : CutFault)
  /-- RMS_APPLY (R157) -/
  | rmsApply (ra : Bool) (id : Nat) (fault : CutFault)
  /-- RMS_BWD_APPLY (R160) -/
  | rmsBwdApply (ra : Bool) (id : Nat) (fault : CutFault)
  /-- SMX_APPLY (R158) -/
  | smxApply (ra : Bool) (id : Nat) (fault : CutFault)
  /-- SMX_BWD_APPLY (R159) -/
  | smxBwdApply (ra : Bool) (id : Nat) (fault : CutFault)
  /-- ELEM_ADD (R128) -/
  | elemAdd (ra : Bool) (id : Nat) (fault : CutFault)
  /-- ELEM_MUL (R128) -/
  | elemMul (ra : Bool) (id : Nat) (fault : CutFault)
  /-- ELEM_SCALE (R128) -/
  | elemScale (ra : Bool) (id : Nat) (fault : CutFault)
  /-- ELEM_RELU (R128) -/
  | elemRelu (ra : Bool) (id : Nat) (fault : CutFault)
  /-- ELEM_SILU (R128) -/
  | elemSilu (ra : Bool) (id : Nat) (fault : CutFault)
  /-- NS_ITER (R249) -/
  | nsIter (ra : Bool) (id : Nat) (fault : CutFault)
  /-- RMS_STAT (R157). the row delivered to the kernel (for the other fused kernels too) -/
  | rmsStat (facet pidx row : Nat) (fault : CutFault)
  /-- SMX_STAT (R158). the kernel's operands as the descriptor has them (log 31) -/
  | smxStat (facet pidx row : Nat) (fault : CutFault) (causal : Bool) (pos0 z : Nat)
  /-- SMX_DOT (R159). the kernel's operands as the descriptor has them (log 31) -/
  | smxDot (facet pidx row : Nat) (fault : CutFault) (fmt : Option Fmt) (blk codes exps pitch : Nat)
  /-- RMS_DOT (R160). the kernel's operands as the descriptor has them (log 31) -/
  | rmsDot (facet pidx row : Nat) (fault : CutFault) (gamma x : Nat)
  /-- KERNEL_COMPLETE (R131) -/
  | kernelComplete (cluster : Nat)
  /-- AMAX (R140) -/
  | amax
  /-- LOUPE_VERDICT (R174) -/
  | loupeVerdict (region : Nat) (parity : Bool)
  /-- VERDICT_POINT (R169). `ra`: of the run-ahead -/
  | verdictPoint (ra : Bool) (layer : Nat) (bwd : Bool)
  /-- REPORT (R181) -/
  | report
  /-- DECISION_CLEAR (R182) -/
  | decisionClear
  /-- DECISION_REPLAY (R183) -/
  | decisionReplay
  /-- DECISION_WIDEN (R182) -/
  | decisionWiden
  /-- DECISION_GLOBAL (R184) -/
  | decisionGlobal
  /-- DECISION_EXHAUSTED (R185) -/
  | decisionExhausted
  /-- STEP_OPEN (R409) -/
  | stepOpen
  /-- OPEN (R407) -/
  | openAttempt
  /-- POLICY (R223) -/
  | policy
  /-- XMAP (R155) -/
  | xmap
  /-- PROGRAM_END (R217) -/
  | programEnd
  /-- END (R217) -/
  | endCount
  /-- TWIN_DIGEST (R396) -/
  | twinDigest
  /-- READY (R217) -/
  | readyCount
  /-- COMMIT (R218) -/
  | commit
  /-- FLIP_COMPLETE (R218) -/
  | flipComplete
  /-- DONE (R217) -/
  | doneCount
  /-- VETO (R216) -/
  | veto
  /-- LVOTE (R214) -/
  | lvote (layer : Nat)
  /-- GATE (R214) -/
  | gate
  /-- DOMAIN_ABORT (R220) -/
  | domainAbort
  /-- SPILL (R206) -/
  | spill (block : StashKey)
  /-- STASH_RETURN (R207) -/
  | stashReturn (block : StashKey)
  /-- GRADIENT_BLOCK (R245). `ue`: the block buffer word that meets an uncorrectable error -/
  | gradientBlock (die : Nat) (ue : Option Nat)
  /-- ROW_RECORD (R250) -/
  | rowRecord (die : Nat)
  /-- PRE_BLOCK (R248). the PRE block, or the pair of them that shares its gradient blocks -/
  | preBlock (die tensor unit : Nat)
  /-- STATISTICS_PASS (R247). the strand of the pass -/
  | statisticsPass (id : Nat)
  /-- STATISTICS_RESULT (R247). Tarn addresses of the sums delivered -/
  | statisticsResult (die tensor rowSums colSums : Nat)
  /-- ROOT_REFRESH (R249). the NS_ITER strand it stages for -/
  | rootRefresh (id : Nat)
  /-- RATIO (R255) -/
  | ratio
  /-- TARN_TRANSFER (R281). the requester asks for `count` lines of the channel of `addr`, while the rivals ask for the same channel; `lines` of them move; `errs` strike the lines read, in order; a version table entry meets a parity error -/
  | tarnTransfer (stack req addr count lines : Nat) (rivals : List Nat) (x : Xfer) (errs : List LineError) (vtParity : Bool)
  /-- OVERSTAY_CUTOFF (R283). MCLK cycles since the grant -/
  | overstayCutoff (stack chan cycles : Nat)
  /-- OVERSTAY_BAR_END (R283) -/
  | overstayBarEnd (stack chan req : Nat)
  /-- CE_WRITEBACK (R271) -/
  | ceWriteback (stack : Nat)
  /-- SCRUB_LINE (R272) -/
  | scrubLine (stack : Nat) (err : LineError)
  /-- SCRUB_PERIOD_END (R272) -/
  | scrubPeriodEnd (stack : Nat)
  /-- TRN_RPR_DATA_WRITE (R273) -/
  | trnRprDataWrite (stack : Nat) (who : Requester) (value : Word)
  /-- TRN_HPW_WRITE (R285). the base or the size of window `k` -/
  | trnHpwWrite (stack k : Nat) (size : Bool) (who : Requester) (value : Word)
  /-- PROGRAM_COPY (R279) -/
  | programCopy (ra : Bool) (id : Nat)
  /-- PATTERN_FILL (R279) -/
  | patternFill (ra : Bool) (id : Nat)
  /-- COPY_COMPLETE (R279) -/
  | copyComplete (ra : Bool) (id : Nat)
  /-- EPOCH_START (R286) -/
  | epochStart (stack : Nat)
  /-- CKEND (R288) -/
  | ckend
  /-- EPOCH_HELD (R286) -/
  | epochHeld
  /-- PEER_PHY_UP (R300) -/
  | peerPhyUp (port : Nat)
  /-- PEER_PHY_DOWN (R302) -/
  | peerPhyDown (port : Nat)
  /-- INIT_TIMER (R300) -/
  | initTimer (port : Nat)
  /-- INIT (R300). `rank` and `domain` are SRC_RANK and DOMAIN of its link header -/
  | initFrame (port : Nat) (hdr : PeerHdr) (twin : Bool) (rank domain : Nat)
  /-- INIT_ACK (R300) -/
  | initAck (port : Nat) (hdr : PeerHdr) (twin : Bool) (rank domain : Nat)
  /-- DATA (R302) -/
  | dataFrame (port : Nat) (hdr : PeerHdr) (seq ack : Nat) (data : LinkData)
  /-- LINK_ACK (R302) -/
  | linkAck (port : Nat) (hdr : PeerHdr) (ack : Nat)
  /-- NAK (R302) -/
  | nak (port : Nat) (hdr : PeerHdr) (ack : Nat)
  /-- KEEPALIVE (R302) -/
  | keepalive (port : Nat) (hdr : PeerHdr) (ack : Nat)
  /-- ACK_TIMER (R302). the link of the port to that peer; the time has passed (as for every timer row) -/
  | ackTimer (port : Nat) (mac : Mac)
  /-- KEEPALIVE_TIMER (R302) -/
  | keepaliveTimer (port : Nat) (mac : Mac)
  /-- RETRY_TIMEOUT (R302) -/
  | retryTimeout (port : Nat) (mac : Mac)
  /-- LINK_SILENCE (R302) -/
  | linkSilence (port : Nat) (mac : Mac)
  /-- PFC_FRAME (R303) -/
  | pfcFrame (port priority quanta : Nat)
  /-- PAUSE_FRAME (R295) -/
  | pauseFrame (port : Nat)
  /-- PAUSE_EXPIRY (R303) -/
  | pauseExpiry (port priority : Nat)
  /-- PFC_REPEAT_TIMER (R303) -/
  | pfcRepeatTimer (port : Nat)
  /-- PFC_WATCHDOG (R304) -/
  | pfcWatchdog (port : Nat)
  /-- CE_LNK_RECONFIG (R330). a write to CE_LNK_CTRL, or to CE_LNK_MAC_LO or _HI -/
  | ceLnkReconfig (port : Nat) (mac hi : Bool) (who : Requester) (value : Word)
  /-- CE_RT_MAC_HI_WRITE (R333) -/
  | ceRtMacHiWrite (who : Requester) (value : Word)
  /-- COPY_WRITE (R305) -/
  | copyWrite
  /-- READ_REQ (R305) -/
  | readReq
  /-- READ_DATA (R305) -/
  | readData
  /-- COPY_ACK (R305) -/
  | copyAck
  /-- HELLO (R392) -/
  | hello
  /-- DIGEST (R397) -/
  | digest
  /-- ABORTED (R397) -/
  | aborted
  /-- HALTED (R397) -/
  | halted
  /-- PROGDIG (R395) -/
  | progdig
  /-- RESTORE_END (R400) -/
  | restoreEnd
  /-- ALL_GATHER (R313). the die whose engine issues and moves on, as for every collective row -/
  | allGather (die : Nat)
  /-- BROADCAST (R313) -/
  | broadcast (die : Nat)
  /-- REDUCE_SCATTER (R313) -/
  | reduceScatter (die : Nat)
  /-- ALL_REDUCE (R313) -/
  | allReduce (die : Nat)
  /-- SEG (R312) -/
  | seg
  /-- CREDIT (R321) -/
  | credit
  /-- RESTART (R327) -/
  | restart
  /-- FIN (R326) -/
  | fin
  /-- FINQ (R327) -/
  | finq
  /-- COLL_STALL (R327) -/
  | collStall (die dseq : Nat)
  /-- PARTNER_LOSS_TIMEOUT (R390) -/
  | partnerLossTimeout
  /-- MEMBER_SILENCE_TIMEOUT (R408) -/
  | memberSilenceTimeout (rank : Nat)
  /-- BEAT_TIMER (R407) -/
  | beatTimer
  /-- BEAT (R407) -/
  | beat
  /-- JOIN (R404) -/
  | join
  /-- JOIN_ACK (R404) -/
  | joinAck
  /-- RANKS (R410) -/
  | ranks
  /-- LOST (R408) -/
  | lost
  /-- STATE_Q (R411) -/
  | stateQ
  /-- STATE (R411) -/
  | state
  /-- PLANNED_HANDOVER (R410) -/
  | plannedHandover
  /-- MAX_WAIT_EXPIRY (R342) -/
  | maxWaitExpiry
  /-- BATCH_LAUNCH (R342) -/
  | batchLaunch
  /-- BATCH_COMPLETE (R343) -/
  | batchComplete
  /-- BATCH_FAULT (R343) -/
  | batchFault
  /-- EXPLAIN_PASS_START (R350). the free slot it borrows -/
  | explainPassStart (slot : Nat)
  /-- PATH_POINT (R353) -/
  | pathPoint
  /-- INPUT_OK_CHANGE (R487) -/
  | inputOkChange (millivolts : Nat)
  /-- PLL_LOCK_FAILURE (R450) -/
  | pllLockFailure
  /-- TARN_REFRESH_DOUBLING (R437) -/
  | tarnRefreshDoubling (stack : Nat) (celsius : Int)
  /-- HOST_FRAME_DISCARD (R359) -/
  | hostFrameDiscard (frame : EthFrame)
  /-- PEER_FRAME_DISCARD (R296) -/
  | peerFrameDiscard (port : Nat) (hdr : PeerHdr) (ver ftype kind : Nat)
  deriving DecidableEq, Repr

end Sys2Proof
end

