-- ==== Sys2Proof/WellFormed.lean ====
section
/-! DEFINITION. Which commands can be given at all: unit numbers that exist (R15, R471), and fields within the widths that the manual
gives them. -/
namespace Sys2Proof

/-- A number of `w` bits. -/
def fits (w n : Nat) : Bool := decide (n < 2 ^ w)

/-! ## Unit numbers -/

def facetWf (f : Nat) : Bool := decide (f < 640)

def clusterWf (c : Nat) : Bool := decide (c < 160)

def regionWf (g : Nat) : Bool := decide (g < 16)

def dieWf (d : Nat) : Bool := decide (d < 4)

def stackWf (i : Nat) : Bool := decide (i < 8)

def portWf (n : Nat) : Bool := decide (n < 12)

def slotWf (k : Nat) : Bool := decide (k < 2048)

/-- A queue: 0 to 15 on the host port, 0 on the management port (R371, R446). -/
def queueWf : CmdPort → Nat → Bool
  | .host, q => decide (q < 16)
  | .mgmt, q => q == 0

def hostQueueWf (q : Nat) : Bool := decide (q < 16)

/-- A sensor of R437. -/
def sensorWf : TempSensor → Bool
  | .die d i => decide (d < 4 ∧ i < 4)
  | .hub i => decide (i < 2)
  | .tarn s => decide (s < 8)

/-- A requester of R280. -/
def requesterWf (r : Nat) : Bool := decide (r ≤ 5 ∨ (8 ≤ r ∧ r ≤ 14))

/-- A device address (R8). -/
def addrWf (a : Nat) : Bool := fits 48 a

/-! ## Frames (R296, R300, R305, R319, R359, R406) -/

def ethBodyWf : EthBody → Bool
  | .ptp _ d _ _ _ _ => fits 8 d
  | .udp _ _ sp dp _ _ _ l => fits 16 sp && fits 16 dp && decide (l.length ≤ 8192)
  | _ => true

def ethWf (f : EthFrame) : Bool := f.vid.all (fits 12) && ethBodyWf f.body

def peerWf (h : PeerHdr) : Bool := h.vid.all (fits 12) && fits 16 h.etype && fits 16 h.len

def segPayloadWf (p : SegPayload) : Bool :=
  p.exps.all (fits 8) && p.codes.all (fits 32) && p.rows.all (fits 32)

def collFrameWf (f : CollFrame) : Bool :=
  fits 4 f.fmt && fits 4 f.blk && fits 16 f.grp && fits 32 f.dseq && fits 8 f.rgen && fits 8 f.level && fits 10 f.srcMember &&
    fits 32 f.node && fits 32 f.seg && fits 32 f.offset && fits 16 f.count && fits 32 f.step && fits 32 f.credit &&
    segPayloadWf f.payload

def copyFrameWf (f : CopyFrame) : Bool :=
  fits 8 f.use && fits 32 f.tag && addrWf f.addr && fits 32 f.len && fits 32 f.step && fits 32 f.crc && fits 32 f.mark &&
    decide (f.data.length ≤ 8192)

def domFrameWf (f : DomFrame) : Bool :=
  fits 8 f.mtype && fits 10 f.origin && fits 32 f.step && fits 8 f.attempt && fits 8 f.wgen && fits 32 f.arg &&
    decide (f.payload.length ≤ 8192)

def linkDataWf : LinkData → Bool
  | .coll f => collFrameWf f
  | .copy f => copyFrameWf f
  | .dom f => domFrameWf f
  | .bad k => decide (3 ≤ k) && fits 8 k

/-! ## Descriptors (R83, R129, R279, R307) -/

def tileWf (d : TileDesc) : Bool :=
  clusterWf d.cluster && decide (d.facet < 4) && decide (d.kg < 3) && fits 2 d.pidx && fits 21 d.k && fits 17 d.aBase &&
    fits 17 d.bBase && fits 17 d.aeBase && fits 17 d.beBase && fits 4 d.aTag0 && fits 4 d.bTag0 && fits 24 d.tensor &&
    fits 32 d.tile && fits 6 d.row0 && fits 6 d.col0 && fits 40 d.scales && fits 40 d.dest && fits 8 d.fused

def copyDescWf (d : CopyDesc) : Bool :=
  decide (d.blk < 3) && decide (d.rot < 4) && fits 4 d.tagBase && fits 24 d.line0 && fits 40 d.codes && fits 40 d.exps &&
    fits 40 d.hist && fits 40 d.amaxv

def quantWf (d : QuantDesc) : Bool :=
  clusterWf d.cluster && fits 40 d.src && fits 13 d.pr && fits 13 d.pc && fits 24 d.tensor && fits 32 d.tile &&
    d.shard.all (fits 17) && fits 12 d.parts && fits 40 d.tally && copyDescWf d.row && copyDescWf d.col && fits 24 d.ch0 &&
    fits 8 d.inclN && fits 40 d.inclList && fits 40 d.inclDst && fits 40 d.shiftAddr && fits 40 d.xmap

def copyStrandWf (d : CopyStrand) : Bool :=
  addrWf d.src && addrWf d.dst && fits 32 d.len && fits 24 d.rows && fits 32 d.sstride && fits 32 d.dstride

def collDescWf (d : CollDesc) : Bool :=
  decide (d.blk < 3) && fits 16 d.grp && fits 24 d.pidx && d.layer.all (fits 10) && dieWf d.eng && decide (d.llog ≤ 16) &&
    fits 40 d.elems && fits 24 d.segLen && addrWf d.src && addrWf d.srce && fits 40 d.lstride && addrWf d.dst && addrWf d.dste &&
    fits 24 d.strand

def strandKindWf : StrandKind → Bool
  | .tile d => tileWf d
  | .quant d => quantWf d
  | .apply d => clusterWf d.cluster && quantWf d.quant
  | .elem d => clusterWf d.cluster && d.quant.all quantWf
  | .nsIter d => clusterWf d.cluster && dieWf d.die && decide (d.pb < 3)
  | .copy d => copyStrandWf d
  | .coll d => collDescWf d
  | .hosted d => collDescWf d
  | .loss a _ => fits 40 a
  | .statsPass d t => dieWf d && fits 24 t

def strandWf (t : Strand) : Bool := fits 24 t.id && strandKindWf t.kind

/-! ## Program tables (R168, R204, R210, R236, R308) -/

/-- Base and size in multiples of 4 KiB (R210). -/
def progRegionWf (r : Region) : Bool := r.base % 4096 == 0 && r.size % 4096 == 0 && addrWf r.base

def stashWf (e : StashEntry) : Bool :=
  fits 24 e.id && fits 10 e.layer && fits 17 e.shard && dieWf e.die && e.bytesL4 % 4096 == 0 && e.bytesL8 % 4096 == 0 &&
    e.bytesF16 % 4096 == 0 && fits 24 e.first && fits 24 e.freeAt && fits 24 e.returnAt && decide (e.cls < 3)

def updateWf (e : UpdateEntry) : Bool :=
  fits 24 e.tensor && fits 10 e.layer && decide (e.pb < 3) && decide (1 ≤ e.rows ∧ e.rows ≤ 2 ^ 24) &&
    decide (e.cols % 128 = 0 ∧ 128 ≤ e.cols ∧ e.cols ≤ 32768)

def copyEntryWf (e : CopyEntry) : Bool := fits 24 e.tensor && fits 10 e.layer && e.satLim.all (fits 24) && e.flushLim.all (fits 16)

def groupWf (g : Group) : Bool := fits 16 g.grp && g.ranks.all (fits 10)

def programWf (p : Program) : Bool :=
  p.regions.all progRegionWf && p.stash.all stashWf && p.updates.all updateWf && p.copies.all copyEntryWf && p.groups.all groupWf &&
    p.strands.all strandWf && p.layers.all fun e => fits 10 e.num

/-- A weight copy of a calibration block (R339). -/
def weightWf (w : WeightCopy) : Bool := fits 24 w.tensor && copyDescWf w.copy && decide (w.list.length ≤ 128)

def calibWf (c : Calib) : Bool := fits 8 c.scores && c.rungs.all (fun e => fits 10 e.1) && c.weights.all weightWf

/-! ## Events with operands -/

/-- A Tarn transfer of 1 to 64 lines (R281). -/
def transferWf (stack req addr count lines : Nat) (rivals : List Nat) : Bool :=
  stackWf stack && requesterWf req && addrWf addr && decide (1 ≤ count ∧ count ≤ 64 ∧ lines ≤ count) && rivals.all requesterWf

/-- Rows and columns of a partition. -/
def cellWf (facet pidx row col : Nat) : Bool := facetWf facet && fits 2 pidx && fits 6 row && fits 6 col

/-- The command's operands lie within their ranges. -/
def Instr.wf : Instr → Bool
  | .mgmtPacket f => ethWf f
  | .arpRequest f => ethWf f
  | .neighborSolicitation f => ethWf f
  | .echoRequest f => ethWf f
  | .ptpMessage f => ethWf f
  | .commandPacket f => ethWf f
  | .hostFrameDiscard f => ethWf f
  | .tarnTrainingDone i => stackWf i
  | .tarnRefreshDoubling i _ => stackWf i
  | .tempLow n _ => decide (n < 2)
  | .thermThrottle x _ => sensorWf x
  | .thermTrip x _ => sensorWf x
  | .throttleClear l => l.all fun r => sensorWf r.1
  | .clkFault c n => match c with
    | .pll => decide (n = 0)
    | .crossing => fits 8 n
    | .silent => decide (n < 4)
  | .freqSwitch d _ => dieWf d
  | .droopResponse x => regionWf x.region
  | .droopHoldEnd g _ => regionWf g
  | .trimChoice d => dieWf d
  | .trimExit d => dieWf d
  | .railReached d => dieWf d
  | .ageReport d g k => dieWf d && regionWf g && fits 8 k
  | .smbAddressWrite _ l => l.length == 6
  | .smbBlockWrite _ l => l.length == 4
  | .queueSync p q => queueWf p q
  | .nop p q => queueWf p q
  | .ident p q => queueWf p q
  | .regRead p q => queueWf p q
  | .regWrite p q => queueWf p q
  | .sizeTable q => hostQueueWf q
  | .status q => hostQueueWf q
  | .fence q => hostQueueWf q
  | .fenceComplete q => hostQueueWf q
  | .fwLoad q => hostQueueWf q
  | .fwStart q _ _ => hostQueueWf q
  | .configEnd q => hostQueueWf q
  | .attest q => hostQueueWf q
  | .memRead q => hostQueueWf q
  | .memWrite q => hostQueueWf q
  | .memFill q => hostQueueWf q
  | .memDigest q => hostQueueWf q
  | .progLoad q p => hostQueueWf q && programWf p
  | .progUnload q => hostQueueWf q
  | .run q => hostQueueWf q
  | .stop q => hostQueueWf q
  | .abort q => hostQueueWf q
  | .resume q => hostQueueWf q
  | .restore q => hostQueueWf q
  | .twinMode q => hostQueueWf q
  | .wellheadTake q => hostQueueWf q
  | .rankJoin q => hostQueueWf q
  | .twinRestore q => hostQueueWf q
  | .collLaunch q d => hostQueueWf q && collDescWf d
  | .modelLoad q c => hostQueueWf q && calibWf c
  | .modelUnload q => hostQueueWf q
  | .score q => hostQueueWf q
  | .slotReset q => hostQueueWf q
  | .explain q => hostQueueWf q
  | .plainRegisterWrite _ a _ => addrWf a
  | .w1cClear _ a _ => addrWf a
  | .pairLoRead _ a => addrWf a
  | .inlLrStepWrite k _ _ => decide (k < 2)
  | .strandStart _ i => fits 24 i
  | .taskDescriptor _ i _ => fits 24 i
  | .stopRamp f => facetWf f
  | .kGroupRescale f p r c _ => cellWf f p r c
  | .taskReplay x _ => cellWf x.facet x.pidx 0 0
  | .scaleLoad f p => cellWf f p 0 0
  | .drainRowRead f p _ => cellWf f p 0 0
  | .taskComplete f p => cellWf f p 0 0
  | .modeChange f => facetWf f
  | .inclusionTask x _ => cellWf x.facet x.pidx 0 0
  | .fctSpareWrite f _ _ => facetWf f
  | .fctRowDlyWrite f k _ _ => facetWf f && decide (k < 5)
  | .pilotStart f _ _ => facetWf f
  | .pilotDone f r n => facetWf f && fits 7 r && decide (n ≤ 4096)
  | .fctEnableWrite f _ _ => facetWf f
  | .quant _ i _ => fits 24 i
  | .rmsApply _ i _ => fits 24 i
  | .rmsBwdApply _ i _ => fits 24 i
  | .smxApply _ i _ => fits 24 i
  | .smxBwdApply _ i _ => fits 24 i
  | .elemAdd _ i _ => fits 24 i
  | .elemMul _ i _ => fits 24 i
  | .elemScale _ i _ => fits 24 i
  | .elemRelu _ i _ => fits 24 i
  | .elemSilu _ i _ => fits 24 i
  | .nsIter _ i _ => fits 24 i
  | .rmsStat f p r _ => cellWf f p r 0
  | .smxStat f p r _ _ _ _ => cellWf f p r 0
  | .smxDot f p r _ _ _ _ _ _ => cellWf f p r 0
  | .rmsDot f p r _ _ _ => cellWf f p r 0
  | .kernelComplete c => clusterWf c
  | .loupeVerdict g _ => regionWf g
  | .verdictPoint _ l _ => fits 10 l
  | .lvote l => fits 10 l
  | .spill b => fits 24 b.id && fits 17 b.shard
  | .stashReturn b => fits 24 b.id && fits 17 b.shard
  | .gradientBlock d _ => dieWf d
  | .rowRecord d => dieWf d
  | .preBlock d t _ => dieWf d && fits 24 t
  | .statisticsPass i => fits 24 i
  | .statisticsResult d t _ _ => dieWf d && fits 24 t
  | .rootRefresh i => fits 24 i
  | .tarnTransfer i r a n k l _ _ _ => transferWf i r a n k l
  | .overstayCutoff i c _ => stackWf i && fits 5 c
  | .overstayBarEnd i c r => stackWf i && fits 5 c && requesterWf r
  | .ceWriteback i => stackWf i
  | .scrubLine i _ => stackWf i
  | .scrubPeriodEnd i => stackWf i
  | .trnRprDataWrite i _ _ => stackWf i
  | .trnHpwWrite i k _ _ _ => stackWf i && decide (k < 4)
  | .programCopy _ i => fits 24 i
  | .patternFill _ i => fits 24 i
  | .copyComplete _ i => fits 24 i
  | .epochStart i => stackWf i
  | .peerPhyUp n => portWf n
  | .peerPhyDown n => portWf n
  | .initTimer n => portWf n
  | .initFrame n h _ r d => portWf n && peerWf h && fits 10 r && fits 32 d
  | .initAck n h _ r d => portWf n && peerWf h && fits 10 r && fits 32 d
  | .dataFrame n h q a d => portWf n && peerWf h && fits 32 q && fits 32 a && linkDataWf d
  | .linkAck n h a => portWf n && peerWf h && fits 32 a
  | .nak n h a => portWf n && peerWf h && fits 32 a
  | .keepalive n h a => portWf n && peerWf h && fits 32 a
  | .ackTimer n _ => portWf n
  | .keepaliveTimer n _ => portWf n
  | .retryTimeout n _ => portWf n
  | .linkSilence n _ => portWf n
  | .pfcFrame n p q => portWf n && fits 3 p && fits 16 q
  | .pauseFrame n => portWf n
  | .pauseExpiry n p => portWf n && fits 3 p
  | .pfcRepeatTimer n => portWf n
  | .pfcWatchdog n => portWf n
  | .ceLnkReconfig n _ _ _ _ => portWf n
  | .allGather d => dieWf d
  | .broadcast d => dieWf d
  | .reduceScatter d => dieWf d
  | .allReduce d => dieWf d
  | .collStall d q => dieWf d && fits 32 q
  | .memberSilenceTimeout r => fits 10 r
  | .explainPassStart k => slotWf k
  | .peerFrameDiscard n h v t k => portWf n && peerWf h && fits 8 v && fits 8 t && fits 8 k
  | .standbyPowerUp _ _ _ _ => true
  | .standbyLost => true
  | .mainInputApplied _ => true
  | .mainInputFault _ => true
  | .inputOkChange _ => true
  | .mainOff _ => true
  | .mainOn _ => true
  | .warmReset _ => true
  | .fullReset _ => true
  | .railPowerGoodTimeout _ => true
  | .hubResetRelease _ => true
  | .dieResetRelease => true
  | .mesh => true
  | .cover => true
  | .vglitchCore => true
  | .vglitchStby => true
  | .refclkDrift => true
  | .refclkLoss => true
  | .debugPort => true
  | .pllLockFailure => true
  | .powerSample _ => true
  | .stepEvaluation => true
  | .dSlowNarrow => true
  | .dSlowWiden => true
  | .dFastRecovery => true
  | .capStepWrite _ _ => true
  | .pwrTrimDataWrite _ _ => true
  | .pwrCalWrite _ _ => true
  | .umcAlarmRead => true
  | .umcAlarmClear => true
  | .umcTime => true
  | .umcTimeHiWrite _ _ => true
  | .smbBlockRead _ => true
  | .smbPower _ _ => true
  | .smbStatusRead _ => true
  | .smbAlarmClear _ _ => true
  | .hostLink _ => true
  | .ptpSyncTimeout => true
  | .bulkComplete => true
  | .settleComplete => true
  | .hubLogLostRead _ => true
  | .hubPondHwmRead _ => true
  | .pwrAgeRead _ => true
  | .hostMacLoWrite _ _ => true
  | .hostMacHiWrite _ _ => true
  | .hostCtrlWrite _ _ => true
  | .hostEgrCfgWrite _ _ => true
  | .hubStepNumWrite _ _ => true
  | .logRingSet _ _ => true
  | .hubLogTailWrite _ _ => true
  | .inlRlogTailWrite _ _ => true
  | .hubPrvTailWrite _ _ => true
  | .hubSrvFillWrite _ _ => true
  | .hubSrvWaitWrite _ _ => true
  | .phaseBarrier _ _ => true
  | .amax => true
  | .report => true
  | .decisionClear => true
  | .decisionReplay => true
  | .decisionWiden => true
  | .decisionGlobal => true
  | .decisionExhausted => true
  | .stepOpen => true
  | .openAttempt => true
  | .policy => true
  | .xmap => true
  | .programEnd => true
  | .endCount => true
  | .twinDigest => true
  | .readyCount => true
  | .commit => true
  | .flipComplete => true
  | .doneCount => true
  | .veto => true
  | .gate => true
  | .domainAbort => true
  | .ratio => true
  | .ckend => true
  | .epochHeld => true
  | .ceRtMacHiWrite _ _ => true
  | .copyWrite => true
  | .readReq => true
  | .readData => true
  | .copyAck => true
  | .hello => true
  | .digest => true
  | .aborted => true
  | .halted => true
  | .progdig => true
  | .restoreEnd => true
  | .seg => true
  | .credit => true
  | .restart => true
  | .fin => true
  | .finq => true
  | .partnerLossTimeout => true
  | .beatTimer => true
  | .beat => true
  | .join => true
  | .joinAck => true
  | .ranks => true
  | .lost => true
  | .stateQ => true
  | .state => true
  | .plannedHandover => true
  | .maxWaitExpiry => true
  | .batchLaunch => true
  | .batchComplete => true
  | .batchFault => true
  | .pathPoint => true

end Sys2Proof
end

