-- ==== Sys2Proof/Decode.lean ====
section
/-! DEFINITION. The module is a block: no row of the opcode table gives bits, so no word spells a command (log 48). -/
namespace Sys2Proof

/-- The command that a word of `nbits` bits spells: none, for every word. -/
def decodeTableWord (_nbits _w : Nat) : Option Instr := none

end Sys2Proof
end

