-- ==== Sys2Proof/Machine/Sha.lean ====
section
/-! DEFINITION. Digests and checks over bytes: CRC-32C, SHA-384, and little-endian and big-endian fields. -/
namespace Sys2Proof.Machine

/-! ## Byte fields -/

/-- The `n` low bytes of `v`, least significant first (R11). -/
def leBytes : Nat → Nat → List Byte
  | 0, _ => []
  | n + 1, v => BitVec.ofNat 8 v :: leBytes n (v / 256)

/-- The number that bytes spell, least significant first. -/
def leNat : List Byte → Nat
  | [] => 0
  | b :: t => b.toNat + 256 * leNat t

/-- The `n` low bytes of `v`, most significant first (network order, and digests in byte order). -/
def beBytes (n v : Nat) : List Byte := (leBytes n v).reverse

/-- The number that bytes spell, most significant first. -/
def beNat (l : List Byte) : Nat := l.foldl (fun a b => 256 * a + b.toNat) 0

/-- The `n` bytes at offset `o`. -/
def slice (o n : Nat) (l : List Byte) : List Byte := (l.drop o).take n

/-- The little-endian field of `n` bytes at offset `o`. -/
def leAt (o n : Nat) (l : List Byte) : Nat := leNat (slice o n l)

/-! ## CRC-32C (R208, R368): reflected polynomial 0x82F63B78, initial value and final inversion all ones -/

def crcBit (c : Word) : Word := if c.getLsbD 0 then (c >>> 1) ^^^ 0x82F63B78 else c >>> 1

def crcByte (c : Word) (b : Byte) : Word :=
  let x := c ^^^ b.setWidth 32
  crcBit (crcBit (crcBit (crcBit (crcBit (crcBit (crcBit (crcBit x)))))))

def crc32c (l : List Byte) : Word := ~~~ (l.foldl crcByte 0xFFFFFFFF)

/-! ## SHA-384 (FIPS 180-4) -/

abbrev W64 := BitVec 64

/-- The largest `r` below `r0 + 2 ^ bits` whose `k`-th power is at most `n`, found bit by bit from the top. -/
def rootBelow (k n : Nat) : Nat → Nat → Nat
  | 0, r => r
  | bits + 1, r => rootBelow k n bits (if (r + 2 ^ bits) ^ k ≤ n then r + 2 ^ bits else r)

/-- The first 64 bits of the fractional part of the `k`-th root of `p`. -/
def rootFraction (k p : Nat) : W64 := BitVec.ofNat 64 (rootBelow k (p * 2 ^ (64 * k)) 70 0)

/-- The first 80 primes: those up to 409. -/
def firstPrimes : List Nat := (List.range 410).filter fun n => decide (1 < n) && (List.range n).all fun d => decide (d < 2) || n % d != 0

/-- The round constants: from the cube roots of the first 80 primes. -/
def shaK : List W64 := firstPrimes.map (rootFraction 3)

/-- The initial state of SHA-384: from the square roots of the ninth to the sixteenth prime. -/
def shaInit : List W64 := ((firstPrimes.drop 8).take 8).map (rootFraction 2)

def ror64 (x : W64) (n : Nat) : W64 := (x >>> n) ||| (x <<< (64 - n))

/-- The message schedule, newest word first. -/
def shaSchedule : Nat → List W64 → List W64
  | 0, w => w
  | n + 1, w =>
    let a := w.getD 1 0
    let b := w.getD 14 0
    let s1 := ror64 a 19 ^^^ ror64 a 61 ^^^ (a >>> 6)
    let s0 := ror64 b 1 ^^^ ror64 b 8 ^^^ (b >>> 7)
    shaSchedule n ((s1 + w.getD 6 0 + s0 + w.getD 15 0) :: w)

def shaRound (h : List W64) (kw : W64 × W64) : List W64 :=
  match h with
  | [a, b, c, d, e, f, g, i] =>
    let s1 := ror64 e 14 ^^^ ror64 e 18 ^^^ ror64 e 41
    let ch := (e &&& f) ^^^ (~~~ e &&& g)
    let t1 := i + s1 + ch + kw.1 + kw.2
    let s0 := ror64 a 28 ^^^ ror64 a 34 ^^^ ror64 a 39
    let mj := (a &&& b) ^^^ (a &&& c) ^^^ (b &&& c)
    [t1 + (s0 + mj), a, b, c, d + t1, e, f, g]
  | other => other

def shaWords : Nat → List Byte → List W64
  | 0, _ => []
  | n + 1, l => BitVec.ofNat 64 (beNat (l.take 8)) :: shaWords n (l.drop 8)

def shaBlock (h : List W64) (block : List Byte) : List W64 :=
  let w := (shaSchedule 64 (shaWords 16 block).reverse).reverse
  List.zipWith (· + ·) h ((shaK.zip w).foldl shaRound h)

def shaBlocks : Nat → List W64 → List Byte → List W64
  | 0, h, _ => h
  | n + 1, h, l => shaBlocks n (shaBlock h (l.take 128)) (l.drop 128)

def shaPad (l : List Byte) : List Byte :=
  let n := l.length
  l ++ [0x80] ++ List.replicate ((239 - n % 128) % 128) 0 ++ beBytes 16 (8 * n)

/-- SHA-384 of a byte string; byte 0 of the digest is its most significant byte. -/
def sha384 (l : List Byte) : Digest :=
  let p := shaPad l
  let h := shaBlocks (p.length / 128) shaInit p
  BitVec.ofNat 384 ((h.take 6).foldl (fun a w => 2 ^ 64 * a + w.toNat) 0)

/-- The 48 bytes of a digest, in byte order. -/
def digestBytes (d : Digest) : List Byte := beBytes 48 d.toNat

end Sys2Proof.Machine
end

