-- ==== Sys2Proof/Machine/Numerics.lean ====
section
/-! DEFINITION. Number formats, rounding and conversions (R41 to R67): exact dyadic numbers, the three rounding modes, binary32 and
binary16 arithmetic, and the narrowing of blocks. -/
namespace Sys2Proof.Machine

/-! ## Exact numbers -/

/-- The exact number `m × 2^e`. -/
structure Dy where
  m : Int
  e : Int
  deriving DecidableEq, Repr, Inhabited

/-- `m` shifted left by a non-negative exponent difference. -/
def shlI (m : Int) (k : Int) : Int := m * 2 ^ k.toNat

def Dy.add (a b : Dy) : Dy :=
  let e := min a.e b.e
  ⟨shlI a.m (a.e - e) + shlI b.m (b.e - e), e⟩

def Dy.neg (a : Dy) : Dy := ⟨-a.m, a.e⟩

def Dy.sub (a b : Dy) : Dy := a.add b.neg

def Dy.mul (a b : Dy) : Dy := ⟨a.m * b.m, a.e + b.e⟩

def Dy.abs (a : Dy) : Dy := ⟨a.m.natAbs, a.e⟩

def Dy.lt (a b : Dy) : Bool := decide ((a.sub b).m < 0)

def Dy.le (a b : Dy) : Bool := decide ((a.sub b).m ≤ 0)

def dyZero : Dy := ⟨0, 0⟩

def dyOfNat (n : Nat) : Dy := ⟨n, 0⟩

/-! ## Rounding of magnitudes -/

/-- An IEEE binary format by its precision, the exponent of its smallest subnormal, and the pattern of its infinity. -/
structure Ieee where
  p : Nat
  tmin : Int
  inf : Nat

def ieee32 : Ieee := ⟨24, -149, 0x7F800000⟩

def ieee16 : Ieee := ⟨11, -24, 0x7C00⟩

/-- A magnitude cut at the last place of a format: the exponent of that place, the truncated significand, the remainder and the
half of one unit in the same scale, and whether more was lost below. -/
structure Cut3 where
  t : Int
  q : Nat
  rem : Nat
  half : Nat
  sticky : Bool

/-- Truncates the magnitude `m × 2^e`, of which a positive amount below `2^e` may be missing (`sticky`). -/
def cutMag (f : Ieee) (m : Nat) (e : Int) (sticky : Bool) : Cut3 :=
  let t := max (m.log2 + e - (f.p - 1 : Nat)) f.tmin
  if t ≤ e then ⟨t, m * 2 ^ (e - t).toNat, 0, 1, sticky⟩
  else
    let k := (t - e).toNat
    ⟨t, m / 2 ^ k, m % 2 ^ k, 2 ^ (k - 1), sticky⟩

def Cut3.inexact (c : Cut3) : Bool := decide (c.rem ≠ 0) || c.sticky

/-- The pattern of the magnitude `q × 2^t`, or of the infinity where it lies beyond the format. -/
def packMag (f : Ieee) (t : Int) (q : Nat) : Nat := min f.inf ((t - f.tmin).toNat * 2 ^ (f.p - 1) + q)

/-- roundTiesToEven (R56). -/
def rneMag (f : Ieee) (m : Nat) (e : Int) (sticky : Bool) : Nat :=
  if m = 0 then 0
  else
    let c := cutMag f m e sticky
    let up := decide (c.half < c.rem) || (decide (c.rem = c.half) && (c.sticky || c.q % 2 == 1))
    packMag f c.t (c.q + (if up then 1 else 0))

/-- Round to odd (R59): a magnitude beyond the largest finite value becomes that value. -/
def rtoMag (f : Ieee) (m : Nat) (e : Int) : Nat :=
  if m = 0 then 0
  else
    let c := cutMag f m e false
    min (f.inf - 1) (packMag f c.t (if c.inexact ∧ c.q % 2 = 0 then c.q + 1 else c.q))

/-- Rounding toward +∞ of a magnitude (R174). -/
def rupMag (f : Ieee) (m : Nat) (e : Int) (sticky : Bool) : Nat :=
  if m = 0 then (if sticky then 1 else 0)
  else
    let c := cutMag f m e sticky
    packMag f c.t (if c.inexact then c.q + 1 else c.q)

/-- Stochastic rounding with the 24-bit draw `r` (R60). -/
def srMag (f : Ieee) (m : Nat) (e : Int) (r : Nat) : Nat :=
  if m = 0 then 0
  else
    let c := cutMag f m e false
    if 128 ≤ m.log2 + e then f.inf
    else if c.rem = 0 then packMag f c.t c.q
    else
      let d := c.rem * 2 ^ 24 / (2 * c.half)
      packMag f c.t (if 2 ^ 24 ≤ d + r then c.q + 1 else c.q)

/-! ## IEEE values -/

/-- The value of an IEEE pattern; zeros keep their sign. -/
inductive Fl where
  | nan
  | inf (neg : Bool)
  | fin (neg : Bool) (m : Nat) (e : Int)
  deriving DecidableEq, Repr, Inhabited

def nan32 : Word := 0x7FC00000

def inf32 : Word := 0x7F800000

def ninf32 : Word := 0xFF800000

/-- The value of a pattern of `w` significand bits and the given bias. -/
def decodeFl (v w ew : Nat) (tmin : Int) : Fl :=
  let neg := v / 2 ^ (w + ew) % 2 == 1
  let ex := v / 2 ^ w % 2 ^ ew
  let fr := v % 2 ^ w
  if ex = 2 ^ ew - 1 then (if fr = 0 then .inf neg else .nan)
  else if ex = 0 then .fin neg fr tmin
  else .fin neg (2 ^ w + fr) (tmin + (ex - 1 : Nat))

def fl32 (x : Word) : Fl := decodeFl x.toNat 23 8 (-149)

def fl16 (x : Half) : Fl := decodeFl x.toNat 10 5 (-24)

/-- The exact value; 0 for what is not finite. -/
def Fl.dy : Fl → Dy
  | .fin neg m e => ⟨if neg then -(m : Int) else m, e⟩
  | _ => dyZero

def Fl.finite : Fl → Bool
  | .fin _ _ _ => true
  | _ => false

def Fl.isZero : Fl → Bool
  | .fin _ m _ => decide (m = 0)
  | _ => false

def Fl.negate : Fl → Fl
  | .nan => .nan
  | .inf n => .inf (!n)
  | .fin n m e => .fin (!n) m e

def Fl.isNeg : Fl → Bool
  | .nan => false
  | .inf n => n
  | .fin n _ _ => n

/-- An exact number as a value; an exact zero takes the sign given. -/
def ofDy (d : Dy) (zeroNeg : Bool) : Fl := .fin (if d.m = 0 then zeroNeg else decide (d.m < 0)) d.m.natAbs d.e

def Fl.add : Fl → Fl → Fl
  | .nan, _ => .nan
  | _, .nan => .nan
  | .inf a, .inf b => if a = b then .inf a else .nan
  | .inf a, _ => .inf a
  | _, .inf b => .inf b
  | .fin a m e, .fin b n f => ofDy ((Fl.fin a m e).dy.add (Fl.fin b n f).dy) (a && b)

def Fl.mul : Fl → Fl → Fl
  | .nan, _ => .nan
  | _, .nan => .nan
  | .inf a, .inf b => .inf (a != b)
  | .inf a, .fin b n _ => if n = 0 then .nan else .inf (a != b)
  | .fin a m _, .inf b => if m = 0 then .nan else .inf (a != b)
  | .fin a m e, .fin b n f => .fin (a != b) (m * n) (e + f)

/-- A sign and a magnitude pattern as a binary32. -/
def word32 (neg : Bool) (mag : Nat) : Word := BitVec.ofNat 32 (mag + if neg then 2 ^ 31 else 0)

/-- Rounding to nearest into binary32 (R56); every NaN is the canonical one (R52). -/
def rne32 : Fl → Word
  | .nan => nan32
  | .inf n => word32 n 0x7F800000
  | .fin n m e => word32 n (rneMag ieee32 m e false)

/-- Rounding to odd into binary32 (R59). -/
def rto32 : Fl → Word
  | .nan => nan32
  | .inf n => word32 n 0x7F800000
  | .fin n m e => word32 n (rtoMag ieee32 m e)

/-- Rounding toward +∞ of a non-negative value (R174). -/
def rup32 : Fl → Word
  | .nan => nan32
  | .inf n => word32 n 0x7F800000
  | .fin _ m e => word32 false (rupMag ieee32 m e false)

/-- Stochastic rounding into binary32 (R60). -/
def rsr32 (r : Nat) : Fl → Word
  | .nan => nan32
  | .inf n => word32 n 0x7F800000
  | .fin n m e => word32 n (srMag ieee32 m e r)

/-! ## binary32 arithmetic (R127) -/

def fAdd (a b : Word) : Word := rne32 ((fl32 a).add (fl32 b))

def fSub (a b : Word) : Word := rne32 ((fl32 a).add (fl32 b).negate)

def fMul (a b : Word) : Word := rne32 ((fl32 a).mul (fl32 b))

/-- One rounding: a × b + c. -/
def fMa (a b c : Word) : Word := rne32 (((fl32 a).mul (fl32 b)).add (fl32 c))

/-- The quotient of two magnitudes as `q × 2^k` with what is missing below. -/
def quotMag (m n : Nat) : Nat × Int × Bool :=
  let k := 32 + n.log2
  let a := m * 2 ^ k
  (a / n, -(k : Int), decide (a % n ≠ 0))

def fDiv (a b : Word) : Word :=
  match fl32 a, fl32 b with
  | .nan, _ => nan32
  | _, .nan => nan32
  | .inf _, .inf _ => nan32
  | .inf x, .fin y _ _ => word32 (x != y) 0x7F800000
  | .fin x _ _, .inf y => word32 (x != y) 0
  | .fin x m e, .fin y n f =>
    if n = 0 then (if m = 0 then nan32 else word32 (x != y) 0x7F800000)
    else
      let (q, k, st) := quotMag m n
      word32 (x != y) (rneMag ieee32 q (k + e - f) st)

/-- The largest `r < 2^k` with `r × r ≤ n`, bit by bit. -/
def isqrtBits (n : Nat) : Nat → Nat → Nat
  | 0, r => r
  | k + 1, r => isqrtBits n k (if (r + 2 ^ k) * (r + 2 ^ k) ≤ n then r + 2 ^ k else r)

/-- The integer square root. -/
def isqrt (n : Nat) : Nat := isqrtBits n (n.log2 / 2 + 1) 0

/-- The square root of a positive magnitude as `r × 2^k` with what is missing below. -/
def sqrtMag (m : Nat) (e : Int) : Nat × Int × Bool :=
  let k : Int := if e % 2 = 0 then 64 else 65
  let a := m * 2 ^ k.toNat
  let r := isqrt a
  (r, (e - k) / 2, decide (r * r ≠ a))

/-- The correctly rounded square root. -/
def fSqrt (a : Word) : Word :=
  match fl32 a with
  | .nan => nan32
  | .inf n => if n then nan32 else inf32
  | .fin n m e =>
    if m = 0 then a
    else if n then nan32
    else
      let (r, k, st) := sqrtMag m e
      word32 false (rneMag ieee32 r k st)

/-- rsqrt(a), the binary32 nearest to 1/√a. -/
def fRsqrt (a : Word) : Word :=
  match fl32 a with
  | .nan => nan32
  | .inf n => if n then nan32 else 0
  | .fin n m e =>
    if m = 0 then word32 n 0x7F800000
    else if n then nan32
    else
      let m2 := if e % 2 = 0 then m else 2 * m
      let e2 := if e % 2 = 0 then e else e - 1
      let k := 64 + m2.log2
      let r := isqrt (2 ^ (2 * k) / m2)
      word32 false (rneMag ieee32 r (-(k : Int) - e2 / 2) (decide (r * r * m2 ≠ 2 ^ (2 * k))))

/-! ### The power of two (log 26): fixed point with 256 fraction bits -/

/-- Terms `n` down to 1 of the series of ln 2, the sum of 1 / (k × 2^k). -/
def ln2Series : Nat → Nat
  | 0 => 0
  | k + 1 => 2 ^ 256 / ((k + 1) * 2 ^ (k + 1)) + ln2Series k

def ln2Fix : Nat := ln2Series 256

/-- The exponential series from term `k` on: `term` is x^k / k!. -/
def expSeries (x : Nat) : Nat → Nat → Nat → Nat
  | 0, _, _ => 0
  | n + 1, k, term => term + expSeries x n (k + 1) (term * x / 2 ^ 256 / (k + 1))

/-- 2^f for the fraction f = `x` / 2^256. -/
def pow2Frac (x : Nat) : Nat := expSeries (x * ln2Fix / 2 ^ 256) 80 0 (2 ^ 256)

/-- ex2(t), the binary32 nearest to 2^t, with ex2(−∞) = +0. -/
def fEx2 (t : Word) : Word :=
  match fl32 t with
  | .nan => nan32
  | .inf n => if n then 0 else inf32
  | .fin n m e =>
    if 8 ≤ m.log2 + e ∧ m ≠ 0 then (if n then 0 else inf32)
    else
      let v : Int := (if n then -(m : Int) else m) * 2 ^ (e + 256).toNat
      let k := v / 2 ^ 256
      let f := (v % 2 ^ 256).toNat
      if f = 0 then word32 false (rneMag ieee32 1 k false)
      else word32 false (rneMag ieee32 (pow2Frac f) (k - 256) true)

/-- exp(x) := ex2(rne32(x × L2E)) (R127). -/
def fExp (x : Word) : Word := fEx2 (fMul x 0x3FB8AA3B)

def fOne : Word := 0x3F800000

/-- x × 2^k, rounded once to nearest. -/
def fScale (x : Word) (k : Int) : Word :=
  match fl32 x with
  | .nan => nan32
  | .inf n => word32 n 0x7F800000
  | .fin n m e => word32 n (rneMag ieee32 m (e + k) false)

/-- A NaN or an infinity. -/
def notFinite (x : Word) : Bool := !(fl32 x).finite

/-- |x| as a pattern: magnitudes compare as their patterns do. -/
def magBits (x : Word) : Nat := x.toNat % 2 ^ 31

def isZero32 (x : Word) : Bool := magBits x == 0

/-- a < b for values that are not NaN. -/
def fLt (a b : Word) : Bool :=
  match fl32 a, fl32 b with
  | .nan, _ => false
  | _, .nan => false
  | .inf x, .inf y => x && !y
  | .inf x, _ => x
  | _, .inf y => !y
  | x, y => x.dy.lt y.dy

def fMax (a b : Word) : Word := if fLt a b then b else a

/-- A natural number as a binary32. -/
def f32Nat (n : Nat) : Word := word32 false (rneMag ieee32 n 0 false)

/-! ## F16 and H16 (R53, R66) -/

/-- F32 to F16: the pattern, whether the source was non-finite, and whether it counts as saturated. `ieee` is CUT_CONV.IEEE. -/
def toF16 (ieee : Bool) (x : Word) : Half × Bool × Bool :=
  match fl32 x with
  | .nan => (0x7E00, true, false)
  | .inf n => (if n then 0xFC00 else 0x7C00, true, false)
  | .fin n m e =>
    let r := rneMag ieee16 m e false
    let sg := if n then 2 ^ 15 else 0
    if r = 0x7C00 then (BitVec.ofNat 16 (sg + if ieee then 0x7C00 else 0x7BFF), false, true)
    else (BitVec.ofNat 16 (sg + r), false, false)

/-- F16 to F32, exact; a NaN becomes the canonical one. -/
def f16to32 (h : Half) : Word := rne32 (fl16 h)

/-- H16 to F32: 16 zero bits. -/
def h16to32 (h : Half) : Word := BitVec.ofNat 32 (h.toNat * 2 ^ 16)

/-! ## Log formats (R42 to R49, R57, R63 to R65) -/

/-- T8[j]: the significand of the binary32 nearest to 2^(j/8) (R45). -/
def t8 : List Nat := [0x800000, 0x8B95C2, 0x9837F0, 0xA5FED7, 0xB504F3, 0xC5672A, 0xD744FD, 0xEAC0C7]

/-- C32[t]: the significand of the binary32 nearest to 2^(t/32) (R46). -/
def c32 : List Nat := [
  0x800000, 0x82CD87, 0x85AAC3, 0x88980F, 0x8B95C2, 0x8EA43A, 0x91C3D3, 0x94F4F0, 0x9837F0, 0x9B8D3A, 0x9EF532, 0xA27043,
  0xA5FED7, 0xA9A15B, 0xAD583F, 0xB123F6, 0xB504F3, 0xB8FBAF, 0xBD08A4, 0xC12C4D, 0xC5672A, 0xC9B9BE, 0xCE248C, 0xD2A81E,
  0xD744FD, 0xDBFBB8, 0xE0CCDF, 0xE5B907, 0xEAC0C7, 0xEFE4BA, 0xF5257D, 0xFA83B3]

/-- A log format (R42): steps per octave, largest magnitude code, thresholds W (R57), significand and exponent of VTOP (R64), largest
legal E8, and the width of a code. -/
structure LogFmt where
  q : Nat
  top : Nat
  w : List Nat
  vtop : Nat
  vexp : Int
  maxE : Nat
  width : Nat

def logL4 : LogFmt := ⟨2, 7, [0x9837F0, 0xD744FD], 0x800000, 3, 0xFB, 4⟩

def logL6 : LogFmt := ⟨4, 31, [0x8B95C2, 0xA5FED7, 0xC5672A, 0xEAC0C7], 0xB504F3, 7, 0xF7, 6⟩

def logL8 : LogFmt :=
  ⟨8, 127, [0x85AAC3, 0x91C3D3, 0x9EF532, 0xAD583F, 0xBD08A4, 0xCE248C, 0xE0CCDF, 0xF5257D], 0xD744FD, 15, 0xEF, 8⟩

/-- How narrowing treats one element (R58). -/
inductive Narrowed where
  | none | flushed | saturated
  deriving DecidableEq, Repr

/-- narrow (R63), on an exact number. -/
def narrowDy (f : LogFmt) (x : Dy) (e : Nat) : Nat × Narrowed :=
  let m := x.m.natAbs
  let sg := if x.m < 0 then f.top + 1 else 0
  if m = 0 then (0, .none)
  else
    let k := (m.log2 : Int) + x.e + 127 - e
    if k < -1 then (0, .flushed)
    else
      let h := if k < 0 then 0
        else f.q * k.toNat + (f.w.filter fun w => decide (w * 2 ^ m.log2 ≤ m * 2 ^ 23)).length
      if f.top ≤ h then (sg + f.top, .saturated) else (sg + (h + 1), .none)

/-- The fit exponent (R64) of an exact magnitude. -/
def fitDy (f : LogFmt) (amax : Dy) : Nat :=
  let m := amax.m.natAbs
  if m = 0 then 0
  else
    let e0 := (m.log2 : Int) + amax.e - f.vexp
    let e1 := if m * 2 ^ 23 ≤ f.vtop * 2 ^ m.log2 then e0 else e0 + 1
    min (max (127 + e1) 1).toNat f.maxE

/-- A narrowed block: its E8, its codes, and how many elements were flushed and saturated. -/
structure NBlock where
  e8 : Nat
  codes : List Nat
  flushed : List Bool
  saturated : List Bool
  poisoned : Bool
  deriving DecidableEq, Repr, Inhabited

/-- narrow_block (R63) of exact numbers, none of them non-finite. -/
def narrowBlockDy (f : LogFmt) (xs : List Dy) (e : Nat) : NBlock :=
  let r := xs.map fun x => narrowDy f x e
  let codes := r.map (·.1)
  ⟨if codes.all (· == 0) then 0 else e, codes, r.map (·.2 == .flushed), r.map (·.2 == .saturated), false⟩

/-- narrow_block (R63) of binary32 values. -/
def narrowBlock (f : LogFmt) (xs : List Word) (e : Nat) : NBlock :=
  if xs.any notFinite then
    ⟨0xFF, xs.map fun _ => 0, xs.map fun _ => false, xs.map fun _ => false, true⟩
  else narrowBlockDy f (xs.map fun x => (fl32 x).dy) e

/-- The largest magnitude among the finite elements, as a pattern: +0 if none. -/
def amaxOf (xs : List Word) : Nat := xs.foldl (fun a x => if notFinite x then a else max a (magBits x)) 0

/-- fit of a binary32 magnitude times 2^margin. -/
def fit32 (f : LogFmt) (a : Word) (margin : Nat) : Nat :=
  let d := (fl32 a).dy
  fitDy f ⟨d.m, d.e + margin⟩

/-- The L8 magnitude that a code of a format spells, and its sign; magnitude 0 reads as zero (R43 to R47). -/
def codeParts (f : LogFmt) (c : Nat) : Bool × Nat :=
  let n := c % (f.top + 1)
  (c / (f.top + 1) % 2 == 1, if n = 0 then 0 else 8 / f.q * (n - 1) + 1)

/-- The value of an L8 magnitude: T8[h mod 8] × 2^(h div 8). -/
def l8Value (n : Nat) : Dy :=
  if n = 0 then dyZero else ⟨(t8[(n - 1) % 8]?).getD 0, ((n - 1) / 8 : Nat) - 23⟩

/-- A block that is read as poisoned (R49). -/
def poisonedE (f : LogFmt) (e : Nat) : Bool := decide (f.maxE < e)

/-- An illegal E8: above the format's largest legal one, and not 0xFF (R49). -/
def illegalE (f : LogFmt) (e : Nat) : Bool := decide (f.maxE < e ∧ e ≠ 0xFF)

/-- Decoding (R65): the value of a code in a block of exponent `e`; `none` in a poisoned block. -/
def decodeDy (f : LogFmt) (e c : Nat) : Option Dy :=
  if poisonedE f e then none
  else if e = 0 then some dyZero
  else
    let (neg, n) := codeParts f c
    let v := l8Value n
    some ⟨if neg then -v.m else v.m, v.e + (e : Int) - 127⟩

/-- Decoding to binary32, exact (R65). -/
def decode32 (f : LogFmt) (e c : Nat) : Word :=
  match decodeDy f e c with
  | some d => rne32 (ofDy d false)
  | none => nan32

def logFmt : Fmt → LogFmt
  | .l4 => logL4
  | .l6 => logL6
  | _ => logL8

/-! ### L8G (R46, R59) -/

/-- The value of an L8G code (R46). -/
def l8gValue (c : Nat) : Dy :=
  let g := c % 512
  let m : Dy := if g < 4 then ⟨g, -2⟩ else ⟨(c32[(g - 4) % 32]?).getD 0, ((g - 4) / 32 : Nat) - 23⟩
  if c / 512 % 2 = 1 then m.neg else m

/-- to_l8g (R59). -/
def toL8g (v : Dy) (e : Nat) : Nat :=
  let m := v.m.natAbs
  if m = 0 then 0
  else
    let y : Dy := ⟨m, v.e + 127 - e⟩
    let k := (m.log2 : Int) + y.e
    let g :=
      if k < 0 then
        let a : Dy := ⟨m, y.e + 2⟩
        let fl := if a.e < 0 then m / 2 ^ (-a.e).toNat else m * 2 ^ a.e.toNat
        let exact := if a.e < 0 then decide (m % 2 ^ (-a.e).toNat = 0) else true
        if exact then fl else if fl % 2 = 0 then fl + 1 else fl
      else
        let t := (c32.filter fun c => decide (c * 2 ^ m.log2 ≤ m * 2 ^ 23)).length - 1
        let g0 := 4 + 32 * k.toNat + t
        let exact := (c32[t]?).getD 0 * 2 ^ m.log2 == m * 2 ^ 23
        min 511 (if exact then g0 else if g0 % 2 = 0 then g0 + 1 else g0)
    g + (if v.m < 0 ∧ g ≠ 0 then 512 else 0)

/-- L8G to L8 to nearest (R59): the code, and whether it saturates. -/
def l8gToL8 (c : Nat) : Nat × Bool :=
  let g := c % 512
  let n := g / 4 + (if 2 ≤ g % 4 then 1 else 0)
  let r := min n 127
  (r + (if c / 512 % 2 = 1 ∧ r ≠ 0 then 128 else 0), decide (127 < n))

/-! ### Between log formats (R67) -/

/-- How many codes of `g` one step of `f` spans, or the other way round: the formats have 2, 4 and 8 codes to an octave. -/
def codeRatio (f g : LogFmt) : Nat := max f.q g.q / min f.q g.q

/-- A code of one format in another at the same E8 (R67), and whether it saturates. To a finer format n := r·(m − 1) + 1, exactly; to a
coarser one h := (h + r/2) / r on the index h of the code, a tie upward. -/
def logToLog (f g : LogFmt) (c : Nat) : Nat × Bool :=
  let n := c % (f.top + 1)
  let sign := if c / (f.top + 1) % 2 = 1 then g.top + 1 else 0
  if n = 0 then (0, false)
  else
    let h := n - 1
    let r := codeRatio f g
    let x := if f.q ≤ g.q then r * h else (h + r / 2) / r
    (sign + min (x + 1) g.top, decide (g.top < x + 1))

/-! ### Packing (R54) -/

/-- The codes that `n` elements occupy at a bit offset of packed bytes. -/
def unpackCodes (w n : Nat) (l : List Byte) : List Nat :=
  let v := leNat l
  (List.range n).map fun i => v / 2 ^ (w * i) % 2 ^ w

/-- Codes of `w` bits packed one after the other from the lowest bit on; for L8G a group of 4 codes takes 5 bytes. -/
def packCodes (w : Nat) (cs : List Nat) : List Byte :=
  leBytes ((cs.length * w + 7) / 8) ((cs.zipIdx).foldl (fun a c => a + c.1 % 2 ^ w * 2 ^ (w * c.2)) 0)

/-! ## Random draws (R61, R62) -/

def mix64 (z : BitVec 64) : BitVec 64 :=
  let a := (z ^^^ (z >>> 29)) * 0xB7E34C196A2FD853
  let b := (a ^^^ (a >>> 32)) * 0x8F1DA365C70B2E49
  b ^^^ (b >>> 28)

/-- tkey of R61. -/
def tileKey (seed : BitVec 64) (n tensor tile : Nat) : BitVec 64 :=
  let k0 := mix64 seed
  let k1 := mix64 (k0 ^^^ BitVec.ofNat 64 (n % 2 ^ 32 * 2 ^ 24 + tensor % 2 ^ 24))
  mix64 (k1 ^^^ BitVec.ofNat 64 (tile % 2 ^ 32))

/-- The 24-bit draw r(c). -/
def draw24 (tkey : BitVec 64) (c : Nat) : Nat := (mix64 (tkey ^^^ (BitVec.ofNat 64 c * 0xA7C15E932B4D68F1)) >>> 40).toNat

/-- The counter of R62. -/
def srCounter (g i j : Nat) : Nat := g * 2 ^ 12 + i * 2 ^ 6 + j

/-! ## Sums -/

/-- One level of the pairwise tree of R156. -/
def pairUp : List Word → List Word
  | a :: b :: t => fAdd a b :: pairUp t
  | l => l

/-- sum64 (R156). -/
def sum64 (l : List Word) : Word :=
  (pairUp (pairUp (pairUp (pairUp (pairUp (pairUp l)))))).headD 0

/-- Folds values from +0 in order, rounding after each addition. -/
def foldAdd (l : List Word) : Word := l.foldl fAdd 0

/-- A list cut into runs of `n`. -/
def runsOf (n : Nat) (l : List α) : List (List α) :=
  (List.range ((l.length + n - 1) / n)).map fun i => (l.drop (i * n)).take n

/-- sum64 of each 64-element run, the runs folded in ascending order (R247). -/
def sumRuns (l : List Word) : Word := foldAdd ((runsOf 64 l).map sum64)

end Sys2Proof.Machine
end

