-- ==== Sys2Proof/Machine/Crypto.lean ====
section
/-! DEFINITION. The key derivation and the signatures that R452, R454 and R456 name: HMAC and HKDF over SHA-384, the curve P-384 with ECDSA
(FIPS 186-5), and RSASSA-PSS. The spec names these algorithms and does not print them (log 95). -/
namespace Sys2Proof.Machine

/-! ## HMAC and HKDF -/

def xorBytes (l : List Byte) (c : Byte) : List Byte := l.map (· ^^^ c)

/-- HMAC over SHA-384, whose block is 128 bytes; a key here is never longer. -/
def hmac (key msg : List Byte) : List Byte :=
  let k := key ++ List.replicate (128 - key.length) 0
  digestBytes (sha384 (xorBytes k 0x5C ++ digestBytes (sha384 (xorBytes k 0x36 ++ msg))))

/-- The first 96 bytes of HKDF with an empty salt. -/
def hkdf (key info : List Byte) : List Byte :=
  let prk := hmac (List.replicate 48 0) key
  let t1 := hmac prk (info ++ [1])
  t1 ++ hmac prk (t1 ++ info ++ [2])

/-! ## P-384 -/

/-- The prime of the field. -/
def ecPrime : Nat := 2 ^ 384 - 2 ^ 128 - 2 ^ 96 + 2 ^ 32 - 1

/-- The order of the group. -/
def ecOrder : Nat := 0xFFFFFFFFFFFFFFFFFFFFFFFFFFFFFFFFFFFFFFFFFFFFFFFFC7634D81F4372DDF581A0DB248B0A77AECEC196ACCC52973

/-- The base point. -/
def ecBase : Nat × Nat :=
  (0xAA87CA22BE8B05378EB1C71EF320AD746E1D3B628BA79B9859F741E082542A385502F25DBF55296C3A545E3872760AB7,
   0x3617DE4A96262C6F5D9E98BF9292DC29F8F41DBD289A147CE9DA3113B5F0B8C00A60B1CE1D7E819D7A431D7C90EA0E5F)

/-- `a` to the power `e` modulo `m`, over the `bits` low bits of `e`. -/
def powMod (m : Nat) : Nat → Nat → Nat → Nat
  | 0, _, _ => 1 % m
  | bits + 1, a, e =>
    let r := powMod m bits (a * a % m) (e / 2)
    if e % 2 = 1 then a * r % m else r

/-- The inverse modulo a prime below 2^384. -/
def invMod (m a : Nat) : Nat := powMod m 384 (a % m) (m - 2)

def subMod (m a b : Nat) : Nat := (a + (m - b % m)) % m

/-- The third point of the line through a point with slope `l`, mirrored. -/
def ecChord (l : Nat) (a : Nat × Nat) (x2 : Nat) : Nat × Nat :=
  let x := subMod ecPrime (l * l) (a.1 + x2)
  (x, subMod ecPrime (l * subMod ecPrime a.1 x) a.2)

/-- The sum of two points; `none` is the point at infinity. The curve is y² = x³ − 3x + b. -/
def ecAdd : Option (Nat × Nat) → Option (Nat × Nat) → Option (Nat × Nat)
  | none, q => q
  | p, none => p
  | some a, some b =>
    if a.1 ≠ b.1 then some (ecChord (subMod ecPrime b.2 a.2 * invMod ecPrime (subMod ecPrime b.1 a.1) % ecPrime) a b.1)
    else if (a.2 + b.2) % ecPrime = 0 then none
    else some (ecChord (subMod ecPrime (3 * a.1 * a.1) 3 * invMod ecPrime (2 * a.2) % ecPrime) a b.1)

/-- `k` times a point, over the `bits` low bits of `k`. -/
def ecMul : Nat → Nat → Option (Nat × Nat) → Option (Nat × Nat)
  | 0, _, _ => none
  | bits + 1, k, p =>
    let r := ecMul bits (k / 2) (ecAdd p p)
    if k % 2 = 1 then ecAdd p r else r

/-- The uncompressed encoding of the public key of a private key: 97 bytes (R454). -/
def ecPublic (d : Nat) : List Byte :=
  match ecMul 384 d (some ecBase) with
  | some (x, y) => 4 :: (beBytes 48 x ++ beBytes 48 y)
  | none => []

/-- The private key that a seed gives (R454). -/
def privateKey (seed : BitVec 384) : Nat :=
  let info : List Byte := [0x5A, 0x54, 0x34, 0x20, 0x69, 0x64, 0x65, 0x6E, 0x74, 0x69, 0x74, 0x79]
  beNat ((hkdf (digestBytes seed) info).take 56) % (ecOrder - 1) + 1

/-! ## ECDSA with a derived k (FIPS 186-5) -/

/-- One more draw of the generator that derives k: its key, its value, and the k that the value spells. -/
def nextK (key v : List Byte) : List Byte × List Byte × Nat :=
  let w := hmac key v
  (key, w, beNat w)

/-- Signs the digest number `h` with private key `d`: the first derived k that serves. -/
def ecSignFrom (d h : Nat) : Nat → List Byte → List Byte → List Byte
  | 0, _, _ => List.replicate 96 0
  | n + 1, key, v =>
    let (_, w, k) := nextK key v
    let r := ((ecMul 384 k (some ecBase)).map (·.1)).getD 0 % ecOrder
    let s := invMod ecOrder k * (h + r * d) % ecOrder
    if 0 < k ∧ k < ecOrder ∧ r ≠ 0 ∧ s ≠ 0 then beBytes 48 r ++ beBytes 48 s
    else
      let key' := hmac key (w ++ [0])
      ecSignFrom d h n key' (hmac key' w)

/-- The signature r ‖ s of a message. -/
def ecSign (d : Nat) (msg : List Byte) : List Byte :=
  let h := (sha384 msg).toNat
  let x := beBytes 48 d ++ beBytes 48 (h % ecOrder)
  let v0 : List Byte := List.replicate 48 1
  let k1 := hmac (List.replicate 48 0) (v0 ++ [0] ++ x)
  let v1 := hmac k1 v0
  let k2 := hmac k1 (v1 ++ [1] ++ x)
  ecSignFrom d h 128 k2 (hmac k2 v1)

/-! ## RSASSA-PSS with RSA-3072, SHA-384, MGF1 and a salt of 48 bytes (R452) -/

/-- The first 336 bytes of MGF1. -/
def mgf1 (seed : List Byte) : List Byte := (List.range 7).flatMap fun i => digestBytes (sha384 (seed ++ beBytes 4 i))

/-- The signature verifies over a message under a modulus and the exponent 65,537. -/
def pssVerifies (modulus msg sig : List Byte) : Bool :=
  let n := beNat modulus
  let em := beBytes 384 (powMod n 17 (beNat sig) 65537)
  let h := slice 335 48 em
  let db := List.zipWith (· ^^^ ·) (em.take 335) (mgf1 h)
  let db' := (db.take 1).map (· &&& 0x7F) ++ db.drop 1
  let salt := db'.drop 287
  decide (2 ^ 3071 ≤ n ∧ beNat sig < n) && em.drop 383 == [0xBC] && decide (beNat (em.take 1) < 0x80) &&
    db'.take 287 == List.replicate 286 0 ++ [1] &&
    h == digestBytes (sha384 (List.replicate 8 0 ++ digestBytes (sha384 msg) ++ salt))

end Sys2Proof.Machine
end

