-- ==== Sys2Proof/Config.lean ====
section
/-! DEFINITION. What the manual leaves open: the free values. Each is a constant without a body, so nothing can be proved about
its value. -/
namespace Sys2Proof.Config

/-- What an undefined byte of Tarn or SRAM reads as (R213, R274, R449): `token` names the event that made it undefined. -/
opaque freeByte : Nat → Nat → BitVec 8

/-- A free natural number, by the value of State.free at which it is drawn. -/
opaque freeNat : Nat → Nat

/-- The program digest of an image whose byte layout the manual does not give (R34). -/
opaque programDigest : Program → Digest

/-- The numerics digest (R34): over what it covers of an image, and the values in force of the numerics-relevant registers. -/
opaque numericsDigest : Program → List Word → Digest

/-- The seed that this silicon's PUF gives with the fuse helper data (R454). -/
opaque pufSeed : List Byte → BitVec 384

/-- SLH-DSA-SHA2-192s verification (FIPS 205, pure form, empty context; R452): over a public key, a message and a signature. -/
opaque slhVerifies : List Byte → List Byte → List Byte → Bool

/-- The relative error of a CNM product in the stated bound (R76): R75 gives none. -/
opaque cnmLambda : BitVec 32

end Sys2Proof.Config
end

