-- ==== Sys2Proof/Machine/Bank.lean ====
section
/-! DEFINITION. Sparse tables: a list of (key, value) pairs in one canonical form (keys strictly rising, no entry equal to
what an unlisted key reads as), so that equal tables are equal data. -/
namespace Sys2Proof.Machine

/-- A sparse table. What an unlisted key reads as is given to every operation as `d`. -/
abbrev Bank (α : Type) := List (Nat × α)

/-- The value at key `k`. -/
def Bank.get {α : Type} (d : Nat → α) : Bank α → Nat → α
  | [], k => d k
  | (j, v) :: t, k => if k = j then v else Bank.get d t k

/-- The table with value `v` at key `k`; a value equal to the default removes the entry. -/
def Bank.put {α : Type} [DecidableEq α] (d : Nat → α) : Bank α → Nat → α → Bank α
  | [], k, v => if v = d k then [] else [(k, v)]
  | (j, w) :: t, k, v =>
    if k < j then (if v = d k then (j, w) :: t else (k, v) :: (j, w) :: t)
    else if k = j then (if v = d k then t else (k, v) :: t)
    else (j, w) :: Bank.put d t k v

/-- Every key of the table is above `lo`. -/
def Bank.above {α : Type} (lo : Nat) : Bank α → Bool
  | [] => true
  | (j, _) :: t => decide (lo < j) && Bank.above lo t

/-- The canonical form. -/
def Bank.wf {α : Type} [DecidableEq α] (d : Nat → α) : Bank α → Bool
  | [] => true
  | (j, v) :: t => Bank.above j t && decide (v ≠ d j) && Bank.wf d t

/-- The table with every entry whose key `p` accepts dropped: those keys read as the default again. -/
def Bank.drop {α : Type} (p : Nat → Bool) : Bank α → Bank α
  | [] => []
  | (j, v) :: t => if p j then Bank.drop p t else (j, v) :: Bank.drop p t

/-- The table with every value changed by `f`, which keeps what an unlisted key reads as. -/
def Bank.mapV {α : Type} [DecidableEq α] (d : Nat → α) (f : α → α) (b : Bank α) : Bank α :=
  (b.map fun e => (e.1, f e.2)).filter fun e => decide (e.2 ≠ d e.1)

/-- As `mapV`, with a function of the key. -/
def Bank.mapK {α : Type} [DecidableEq α] (d : Nat → α) (f : Nat → α → α) (b : Bank α) : Bank α :=
  (b.map fun e => (e.1, f e.1 e.2)).filter fun e => decide (e.2 ≠ d e.1)

/-- Writes consecutive keys from `k` on. -/
def Bank.putRange {α : Type} [DecidableEq α] (d : Nat → α) (b : Bank α) (k : Nat) : List α → Bank α
  | [] => b
  | v :: t => Bank.putRange d (Bank.put d b k v) (k + 1) t

/-- Reads `n` consecutive keys from `k` on. -/
def Bank.getRange {α : Type} (d : Nat → α) (b : Bank α) (k : Nat) : Nat → List α
  | 0 => []
  | n + 1 => Bank.get d b k :: Bank.getRange d b (k + 1) n

end Sys2Proof.Machine
end

