-- ==== Sys2Proof/Machine/RegMap.lean ====
section
/-! DEFINITION. The register map (R471): the pages, and for every register its offset, access type (R12), reset value, writable
bits, stated field ranges, lock and owner, as the field tables of each chapter give them. -/
namespace Sys2Proof.Machine

/-- The blocks of R471, in the order of its table. -/
inductive Block where
  | sys | host | policy | step | serv | pwr | sec | umc | twn | inl | ceEng | cePort | trn | lpe | cut | inc | fct
  deriving DecidableEq, Repr, Inhabited

/-- Access types (R12). -/
inductive RegKind where
  | ro | rw | w1c | wo | rc
  deriving DecidableEq, Repr, Inhabited

/-- What refuses a write with access status LOCKED (R378): a loaded program (R35, R196, R261, R299, and R458 for the port registers, log 98), the end of
configuration load (R108, R273, R431), a loaded model (R357), an open step (R293, R414), a latched slot (R254),
or the times of R29. -/
inductive LockClass where
  | none | program | config | model | step | slot0 | slot1 | stepNum
  deriving DecidableEq, Repr, Inhabited

/-- A field with a stated range: its low bit, its width, and the smallest and largest value. -/
structure FieldRange where
  lo : Nat
  width : Nat
  min : Nat
  max : Nat
  deriving DecidableEq, Repr, Inhabited

/-- One register of a page. `urhild` marks the registers that only Urhild may write (R383). -/
structure RegDesc where
  name : String
  off : Nat
  kind : RegKind
  reset : Nat
  mask : Nat
  ranges : List FieldRange
  lock : LockClass
  urhild : Bool
  deriving DecidableEq, Repr, Inhabited

def sysRegs : List RegDesc := [
  ⟨"SYS_CAPS", 0, .ro, 0, 0, [], .none, false⟩,
  ⟨"SYS_EVSUM", 0x10, .ro, 0, 0, [], .none, false⟩]

def hostRegs0 : List RegDesc := [
  ⟨"HOST_STATUS", 0, .ro, 0, 0, [], .none, false⟩,
  ⟨"HOST_EVENT", 4, .w1c, 0, 0x3f, [], .none, false⟩,
  ⟨"HOST_EVCNT_0", 8, .ro, 0, 0, [], .none, false⟩,
  ⟨"HOST_EVCNT_1", 0xc, .ro, 0, 0, [], .none, false⟩,
  ⟨"HOST_CTRL", 0x10, .rw, 0x80001000, 0xfffff000, [⟨12, 12, 1, 0xffe⟩], .none, false⟩,
  ⟨"HOST_MAC_LO", 0x14, .rw, 0, 0xffffffff, [], .none, false⟩,
  ⟨"HOST_MAC_HI", 0x18, .rw, 0, 0xffff, [], .none, false⟩,
  ⟨"HOST_UDP", 0x1c, .rw, 0x5a54, 0xffff, [⟨0, 16, 1, 0xffff⟩], .none, false⟩,
  ⟨"HOST_IP4", 0x20, .rw, 0, 0xffffffff, [], .none, false⟩,
  ⟨"HOST_IP6_0", 0x30, .rw, 0, 0xffffffff, [], .none, false⟩,
  ⟨"HOST_IP6_1", 0x34, .rw, 0, 0xffffffff, [], .none, false⟩,
  ⟨"HOST_IP6_2", 0x38, .rw, 0, 0xffffffff, [], .none, false⟩,
  ⟨"HOST_IP6_3", 0x3c, .rw, 0, 0xffffffff, [], .none, false⟩,
  ⟨"HOST_PTP_CTRL", 0x50, .rw, 0, 0xe0ff0000, [⟨29, 2, 0, 2⟩, ⟨16, 8, 0, 0x7f⟩], .none, false⟩,
  ⟨"HOST_PTP_STATUS", 0x54, .ro, 0, 0, [], .none, false⟩,
  ⟨"HOST_EGR_IDX", 0x60, .rw, 0, 0x3f, [], .none, true⟩,
  ⟨"HOST_EGR_ADDR_0", 0x64, .rw, 0, 0xffffffff, [], .none, true⟩,
  ⟨"HOST_EGR_ADDR_1", 0x68, .rw, 0, 0xffffffff, [], .none, true⟩,
  ⟨"HOST_EGR_ADDR_2", 0x6c, .rw, 0, 0xffffffff, [], .none, true⟩,
  ⟨"HOST_EGR_ADDR_3", 0x70, .rw, 0, 0xffffffff, [], .none, true⟩,
  ⟨"HOST_EGR_PORTS", 0x74, .rw, 0, 0xffffffff, [], .none, true⟩,
  ⟨"HOST_EGR_CFG", 0x78, .rw, 0, 0xe00000ff, [⟨29, 2, 0, 2⟩], .none, true⟩,
  ⟨"HOST_TX_LIMIT", 0x80, .rw, 0x3200064, 0x3ffffff, [⟨16, 10, 1, 0x320⟩, ⟨0, 16, 1, 0xffff⟩], .none, true⟩,
  ⟨"HOST_Q_IDX", 0x90, .rw, 0, 0xf, [], .none, false⟩]

def hostRegs1 : List RegDesc := [
  ⟨"HOST_Q_NEXT", 0x94, .ro, 0, 0, [], .none, false⟩,
  ⟨"HOST_Q_STATE", 0x98, .ro, 0, 0, [], .none, false⟩,
  ⟨"HOST_RXF", 0xa0, .ro, 0, 0, [], .none, false⟩,
  ⟨"HOST_TXF", 0xa4, .ro, 0, 0, [], .none, false⟩,
  ⟨"HOST_RX_DISC", 0xa8, .ro, 0, 0, [], .none, false⟩,
  ⟨"HOST_DROP_HDR", 0xac, .ro, 0, 0, [], .none, false⟩,
  ⟨"HOST_DROP_SRC", 0xb0, .ro, 0, 0, [], .none, false⟩,
  ⟨"HOST_DROP_EGR", 0xb4, .ro, 0, 0, [], .none, false⟩,
  ⟨"HOST_DUPS", 0xb8, .ro, 0, 0, [], .none, false⟩]

def hostRegs : List RegDesc := hostRegs0 ++ hostRegs1

def policyRegs : List RegDesc := [
  ⟨"HUB_TRB_STATUS", 0, .ro, 0, 0, [], .none, false⟩,
  ⟨"HUB_TRB_EVENT", 4, .w1c, 0, 0xff, [], .none, false⟩,
  ⟨"HUB_TRB_EVCNT_0", 8, .ro, 0, 0, [], .none, false⟩,
  ⟨"HUB_TRB_EVCNT_1", 0xc, .ro, 0, 0, [], .none, false⟩,
  ⟨"HUB_TRB_LIMITS", 0x10, .rw, 0x1004, 0xff0f, [⟨8, 8, 1, 0x40⟩], .program, false⟩,
  ⟨"HUB_TRB_NARROW", 0x14, .rw, 0xc8, 0xffff, [], .program, false⟩,
  ⟨"HUB_TRB_SAT", 0x18, .rw, 0x400, 0xffffff, [], .program, false⟩,
  ⟨"HUB_TRB_FLUSH", 0x1c, .rw, 0x10008000, 0xffffffff, [], .program, false⟩,
  ⟨"HUB_LOG_BASE_LO", 0x40, .rw, 0, 0xfffff000, [], .program, false⟩,
  ⟨"HUB_LOG_BASE_HI", 0x44, .rw, 0, 0xffff, [], .program, false⟩,
  ⟨"HUB_LOG_SIZE", 0x48, .rw, 0x10, 0x1f, [⟨0, 5, 8, 0x18⟩], .program, false⟩,
  ⟨"HUB_LOG_HEAD", 0x4c, .ro, 0, 0, [], .none, false⟩,
  ⟨"HUB_LOG_TAIL", 0x50, .rw, 0, 0xffffffff, [], .none, false⟩,
  ⟨"HUB_LOG_LOST", 0x54, .rc, 0, 0, [], .none, false⟩,
  ⟨"HUB_TRB_REPLAYS", 0x60, .ro, 0, 0, [], .none, false⟩,
  ⟨"HUB_TRB_WIDENS", 0x64, .ro, 0, 0, [], .none, false⟩,
  ⟨"HUB_TRB_RERUNS", 0x68, .ro, 0, 0, [], .none, false⟩]

def stepRegs : List RegDesc := [
  ⟨"HUB_STEP_STATUS", 0, .ro, 0, 0, [], .none, false⟩,
  ⟨"HUB_STEP_EVENT", 4, .w1c, 0, 0xff, [], .none, false⟩,
  ⟨"HUB_STEP_EVCNT_0", 8, .ro, 0, 0, [], .none, false⟩,
  ⟨"HUB_STEP_EVCNT_1", 0xc, .ro, 0, 0, [], .none, false⟩,
  ⟨"HUB_STEP_CFG", 0x10, .rw, 0, 1, [], .program, false⟩,
  ⟨"HUB_STEP_CTRL", 0x14, .rw, 0x21, 0xf1, [], .none, false⟩,
  ⟨"HUB_STEP_NUM", 0x18, .rw, 0, 0xffffffff, [], .stepNum, false⟩,
  ⟨"HUB_STEP_ABORT", 0x1c, .ro, 0, 0, [], .none, false⟩,
  ⟨"HUB_STEP_GATE", 0x20, .ro, 0, 0, [], .none, false⟩,
  ⟨"HUB_RA_HOLD", 0x24, .ro, 0, 0, [], .none, false⟩,
  ⟨"HUB_POND_CAP", 0x30, .ro, 0, 0, [], .none, false⟩,
  ⟨"HUB_POND_USED", 0x34, .ro, 0, 0, [], .none, false⟩,
  ⟨"HUB_POND_HWM", 0x38, .rc, 0, 0, [], .none, false⟩,
  ⟨"HUB_SPW_CTRL", 0x3c, .rw, 0, 0xc00003ff, [], .none, false⟩,
  ⟨"HUB_SPW_SIZE", 0x40, .rw, 0, 0x1fffff, [], .none, false⟩,
  ⟨"HUB_SPW_USED", 0x44, .ro, 0, 0, [], .none, false⟩,
  ⟨"HUB_STEP_COMMITS", 0x50, .ro, 0, 0, [], .none, false⟩,
  ⟨"HUB_STEP_ABORTS", 0x54, .ro, 0, 0, [], .none, false⟩,
  ⟨"HUB_RA_SQUASHES", 0x58, .ro, 0, 0, [], .none, false⟩,
  ⟨"HUB_SPILLS", 0x5c, .ro, 0, 0, [], .none, false⟩]

def servRegs : List RegDesc := [
  ⟨"HUB_SRV_STATUS", 0, .ro, 0, 0, [], .none, false⟩,
  ⟨"HUB_SRV_EVENT", 4, .w1c, 0, 7, [], .none, false⟩,
  ⟨"HUB_SRV_EVCNT", 8, .ro, 0, 0, [], .none, false⟩,
  ⟨"HUB_SRV_FILL", 0x10, .rw, 0x100, 0xfff, [⟨0, 12, 1, 0x800⟩], .none, false⟩,
  ⟨"HUB_SRV_WAIT", 0x14, .rw, 0x1f4, 0xffffffff, [⟨0, 32, 1, 0xffffffff⟩], .none, false⟩,
  ⟨"HUB_PRV_BASE_LO", 0x20, .rw, 0, 0xfffff000, [], .model, false⟩,
  ⟨"HUB_PRV_BASE_HI", 0x24, .rw, 0, 0xffff, [], .model, false⟩,
  ⟨"HUB_PRV_SIZE", 0x28, .rw, 0x10, 0x1f, [⟨0, 5, 8, 0x18⟩], .model, false⟩,
  ⟨"HUB_PRV_HEAD", 0x2c, .ro, 0, 0, [], .none, false⟩,
  ⟨"HUB_PRV_TAIL", 0x30, .rw, 0, 0xffffffff, [], .none, false⟩,
  ⟨"HUB_SRV_BATCHES", 0x40, .ro, 0, 0, [], .none, false⟩,
  ⟨"HUB_SRV_SCORES", 0x44, .ro, 0, 0, [], .none, false⟩,
  ⟨"HUB_SRV_EXPLAINS", 0x48, .ro, 0, 0, [], .none, false⟩]

def pwrRegs : List RegDesc := [
  ⟨"PWR_STATUS", 0, .ro, 0x10000000, 0, [], .none, false⟩,
  ⟨"PWR_EVENT", 4, .w1c, 0, 0xff, [], .none, false⟩,
  ⟨"PWR_EVCNT_0", 8, .ro, 0, 0, [], .none, false⟩,
  ⟨"PWR_EVCNT_1", 0xc, .ro, 0, 0, [], .none, false⟩,
  ⟨"PWR_LIMIT", 0x10, .rw, 0xa28, 0xfff, [⟨0, 12, 0x320, 0xa28⟩], .none, false⟩,
  ⟨"PWR_CEIL", 0x14, .rw, 0xa28, 0xfff, [⟨0, 12, 0x320, 0xa28⟩], .none, true⟩,
  ⟨"PWR_CTRL", 0x18, .rw, 0x32, 0x700ff, [⟨16, 3, 0, 4⟩, ⟨0, 8, 0xa, 0xff⟩], .none, false⟩,
  ⟨"PWR_DROOP", 0x1c, .rw, 0x4028, 0xffff, [⟨8, 8, 0x10, 0xff⟩, ⟨0, 8, 0xf, 0x3c⟩], .none, false⟩,
  ⟨"PWR_THERM", 0x20, .rw, 0x64, 0xff, [⟨0, 8, 0x46, 0x69⟩], .none, false⟩,
  ⟨"PWR_GUARD", 0x24, .rw, 0, 0x1f, [⟨0, 5, 0, 0x1e⟩], .none, false⟩,
  ⟨"PWR_AGE_CTRL", 0x28, .rw, 8, 0xff, [⟨0, 8, 2, 0x3f⟩], .none, false⟩,
  ⟨"PWR_TRIM_IDX", 0x30, .rw, 0, 0x1f, [], .config, false⟩,
  ⟨"PWR_TRIM_DATA", 0x34, .rw, 0x803c, 0x8000f03f, [⟨12, 4, 1, 8⟩, ⟨0, 6, 0x14, 0x3c⟩], .config, false⟩,
  ⟨"PWR_CAL", 0x38, .rw, 0x3c0000, 0xf03f0000, [⟨16, 6, 0x14, 0x3c⟩], .none, false⟩,
  ⟨"PWR_P1MS", 0x40, .ro, 0, 0, [], .none, false⟩,
  ⟨"PWR_AGE", 0x44, .rc, 0xffffffff, 0, [], .none, false⟩,
  ⟨"PWR_TEMP_0", 0x48, .ro, 0, 0, [], .none, false⟩,
  ⟨"PWR_TEMP_1", 0x4c, .ro, 0, 0, [], .none, false⟩,
  ⟨"PWR_ENERGY_LO", 0x60, .ro, 0, 0, [], .none, false⟩,
  ⟨"PWR_ENERGY_HI", 0x64, .ro, 0, 0, [], .none, false⟩,
  ⟨"PWR_FSTEPS", 0x68, .ro, 0, 0, [], .none, false⟩,
  ⟨"PWR_STRETCH", 0x6c, .ro, 0, 0, [], .none, false⟩,
  ⟨"PWR_GATE_US", 0x70, .ro, 0, 0, [], .none, false⟩]

def secRegs0 : List RegDesc := [
  ⟨"SEC_STATUS", 0, .ro, 0, 0, [], .none, false⟩,
  ⟨"SEC_EVENT", 4, .w1c, 0, 0xf, [], .none, false⟩,
  ⟨"SEC_EVCNT", 8, .ro, 0, 0, [], .none, false⟩,
  ⟨"SEC_PTX_IDX", 0x10, .rw, 0, 0xf, [⟨0, 4, 0, 0xb⟩], .none, true⟩,
  ⟨"SEC_PTX_LIMIT", 0x14, .rw, 0x640, 0x7ff, [⟨0, 11, 1, 0x640⟩], .none, true⟩,
  ⟨"SEC_SERIAL", 0x18, .ro, 0, 0, [], .none, false⟩,
  ⟨"SEC_FWDIG_0", 0x40, .ro, 0, 0, [], .none, false⟩,
  ⟨"SEC_FWDIG_1", 0x44, .ro, 0, 0, [], .none, false⟩,
  ⟨"SEC_FWDIG_2", 0x48, .ro, 0, 0, [], .none, false⟩,
  ⟨"SEC_FWDIG_3", 0x4c, .ro, 0, 0, [], .none, false⟩,
  ⟨"SEC_FWDIG_4", 0x50, .ro, 0, 0, [], .none, false⟩,
  ⟨"SEC_FWDIG_5", 0x54, .ro, 0, 0, [], .none, false⟩,
  ⟨"SEC_FWDIG_6", 0x58, .ro, 0, 0, [], .none, false⟩,
  ⟨"SEC_FWDIG_7", 0x5c, .ro, 0, 0, [], .none, false⟩,
  ⟨"SEC_FWDIG_8", 0x60, .ro, 0, 0, [], .none, false⟩,
  ⟨"SEC_FWDIG_9", 0x64, .ro, 0, 0, [], .none, false⟩,
  ⟨"SEC_FWDIG_10", 0x68, .ro, 0, 0, [], .none, false⟩,
  ⟨"SEC_FWDIG_11", 0x6c, .ro, 0, 0, [], .none, false⟩,
  ⟨"SEC_CFGDIG_0", 0x70, .ro, 0, 0, [], .none, false⟩,
  ⟨"SEC_CFGDIG_1", 0x74, .ro, 0, 0, [], .none, false⟩,
  ⟨"SEC_CFGDIG_2", 0x78, .ro, 0, 0, [], .none, false⟩,
  ⟨"SEC_CFGDIG_3", 0x7c, .ro, 0, 0, [], .none, false⟩,
  ⟨"SEC_CFGDIG_4", 0x80, .ro, 0, 0, [], .none, false⟩,
  ⟨"SEC_CFGDIG_5", 0x84, .ro, 0, 0, [], .none, false⟩]

def secRegs1 : List RegDesc := [
  ⟨"SEC_CFGDIG_6", 0x88, .ro, 0, 0, [], .none, false⟩,
  ⟨"SEC_CFGDIG_7", 0x8c, .ro, 0, 0, [], .none, false⟩,
  ⟨"SEC_CFGDIG_8", 0x90, .ro, 0, 0, [], .none, false⟩,
  ⟨"SEC_CFGDIG_9", 0x94, .ro, 0, 0, [], .none, false⟩,
  ⟨"SEC_CFGDIG_10", 0x98, .ro, 0, 0, [], .none, false⟩,
  ⟨"SEC_CFGDIG_11", 0x9c, .ro, 0, 0, [], .none, false⟩,
  ⟨"SEC_ATTESTS", 0xb0, .ro, 0, 0, [], .none, false⟩]

def secRegs : List RegDesc := secRegs0 ++ secRegs1

def umcRegs : List RegDesc := [
  ⟨"UMC_STATUS", 0, .ro, 0, 0, [], .none, true⟩,
  ⟨"UMC_EVENT", 4, .w1c, 0, 1, [], .none, true⟩,
  ⟨"UMC_EVCNT", 8, .ro, 0, 0, [], .none, true⟩,
  ⟨"UMC_CTRL", 0x10, .rw, 0, 0x80000000, [], .none, true⟩,
  ⟨"UMC_SVN_MIN", 0x14, .rw, 0, 0xff, [], .none, true⟩,
  ⟨"UMC_TIME_LO", 0x18, .rw, 0, 0xffffffff, [], .none, true⟩,
  ⟨"UMC_TIME_HI", 0x1c, .rw, 0, 0xffff, [], .none, true⟩,
  ⟨"UMC_MGMT_IP4", 0x20, .rw, 0, 0xffffffff, [], .none, true⟩,
  ⟨"UMC_ALARMS", 0x30, .ro, 0, 0, [], .none, true⟩,
  ⟨"UMC_RESETS", 0x34, .ro, 0, 0, [], .none, true⟩]

def twnRegs : List RegDesc := [
  ⟨"TWN_STATUS", 0, .ro, 0, 0, [], .none, false⟩,
  ⟨"TWN_EVENT", 4, .w1c, 0, 0x3f, [], .none, false⟩,
  ⟨"TWN_EVCNT_0", 8, .ro, 0, 0, [], .none, false⟩,
  ⟨"TWN_EVCNT_1", 0xc, .ro, 0, 0, [], .none, false⟩,
  ⟨"TWN_CTRL", 0x10, .rw, 0x140014, 0x3ff03ff, [⟨16, 10, 2, 0x3e8⟩, ⟨0, 10, 2, 0x3e8⟩], .none, false⟩,
  ⟨"TWN_ROLE", 0x14, .ro, 0, 0, [], .none, false⟩,
  ⟨"TWN_BASE", 0x18, .ro, 0, 0, [], .none, false⟩,
  ⟨"TWN_DIGEST_0", 0x20, .ro, 0, 0, [], .none, false⟩,
  ⟨"TWN_DIGEST_1", 0x24, .ro, 0, 0, [], .none, false⟩,
  ⟨"TWN_DIGEST_2", 0x28, .ro, 0, 0, [], .none, false⟩,
  ⟨"TWN_DIGEST_3", 0x2c, .ro, 0, 0, [], .none, false⟩,
  ⟨"TWN_DIGEST_STEP", 0x30, .ro, 0xffffffff, 0, [], .none, false⟩,
  ⟨"TWN_SPW_AREA_LO", 0x40, .rw, 0, 0xfffff000, [], .step, false⟩,
  ⟨"TWN_SPW_AREA_HI", 0x44, .rw, 0, 0xffff, [], .step, false⟩,
  ⟨"TWN_SPW_AREA_SIZE", 0x48, .rw, 0, 0x1fffff, [], .step, false⟩,
  ⟨"TWN_SPW_SRC", 0x4c, .rw, 0, 0xc00003ff, [], .step, false⟩,
  ⟨"TWN_RT_IDX", 0x60, .rw, 0, 0x3ff, [], .none, false⟩,
  ⟨"TWN_RT_INFO", 0x64, .ro, 0, 0, [], .none, false⟩,
  ⟨"TWN_DIGESTS", 0x70, .ro, 0, 0, [], .none, false⟩,
  ⟨"TWN_MISMATCHES", 0x74, .ro, 0, 0, [], .none, false⟩]

def inlRegs0 : List RegDesc := [
  ⟨"INL_STATUS", 0, .ro, 0, 0, [], .none, false⟩,
  ⟨"INL_EVENT", 4, .w1c, 0, 0x1f, [], .none, false⟩,
  ⟨"INL_EVCNT_0", 8, .ro, 0, 0, [], .none, false⟩,
  ⟨"INL_EVCNT_1", 0xc, .ro, 0, 0, [], .none, false⟩,
  ⟨"INL_LR_HOLD", 0x10, .rw, 0, 1, [], .program, false⟩,
  ⟨"INL_FROZEN_ABORT", 0x14, .rw, 0, 1, [], .program, false⟩,
  ⟨"INL_PRE", 0x18, .rw, 0x40180a, 0xffff3f1f, [⟨16, 16, 1, 0xffff⟩, ⟨8, 6, 1, 0x3f⟩, ⟨0, 5, 4, 0x17⟩], .program, false⟩,
  ⟨"INL_RATIO_MAX", 0x1c, .rw, 0x3c23d70a, 0xffffffff, [⟨0, 32, 1, 0x7f800000⟩], .none, false⟩,
  ⟨"INL_LR_VAL_0", 0x20, .rw, 0, 0xffffffff, [⟨0, 32, 0, 0x7f7fffff⟩], .slot0, false⟩,
  ⟨"INL_LR_STEP_0", 0x24, .rw, 0xffffffff, 0xffffffff, [], .slot0, false⟩,
  ⟨"INL_LR_VAL_1", 0x28, .rw, 0, 0xffffffff, [⟨0, 32, 0, 0x7f7fffff⟩], .slot1, false⟩,
  ⟨"INL_LR_STEP_1", 0x2c, .rw, 0xffffffff, 0xffffffff, [], .slot1, false⟩,
  ⟨"INL_LR_CUR", 0x30, .ro, 0, 0, [], .none, false⟩,
  ⟨"INL_LR_CUR_STEP", 0x34, .ro, 0xffffffff, 0, [], .none, false⟩,
  ⟨"INL_RLOG_BASE_LO", 0x40, .rw, 0, 0xfffff000, [], .program, false⟩,
  ⟨"INL_RLOG_BASE_HI", 0x44, .rw, 0, 0xffff, [], .program, false⟩,
  ⟨"INL_RLOG_SIZE", 0x48, .rw, 0xc, 0x1f, [⟨0, 5, 8, 0x14⟩], .program, false⟩,
  ⟨"INL_RLOG_HEAD", 0x4c, .ro, 0, 0, [], .none, false⟩,
  ⟨"INL_RLOG_TAIL", 0x50, .rw, 0, 0xffffffff, [], .none, false⟩,
  ⟨"INL_ELEMS_LO", 0x60, .ro, 0, 0, [], .none, false⟩,
  ⟨"INL_ELEMS_HI", 0x64, .ro, 0, 0, [], .none, false⟩,
  ⟨"INL_ROWS", 0x68, .ro, 0, 0, [], .none, false⟩,
  ⟨"INL_FROZEN_CNT", 0x6c, .ro, 0, 0, [], .none, false⟩,
  ⟨"INL_REDELIVER", 0x70, .ro, 0, 0, [], .none, false⟩]

def inlRegs1 : List RegDesc := [
  ⟨"INL_PRE_KEPT", 0x74, .ro, 0, 0, [], .none, false⟩]

def inlRegs : List RegDesc := inlRegs0 ++ inlRegs1

def ceEngRegs : List RegDesc := [
  ⟨"CE_STATUS", 0, .ro, 0, 0, [], .none, false⟩,
  ⟨"CE_EVENT", 4, .w1c, 0, 0xf, [], .none, false⟩,
  ⟨"CE_EVCNT", 8, .ro, 0, 0, [], .none, false⟩,
  ⟨"CE_TIMEOUT", 0x10, .rw, 0x3000a, 0xf03ff, [⟨0, 10, 1, 0x3e8⟩], .none, false⟩,
  ⟨"CE_CREDIT", 0x14, .rw, 0x400008, 0xff00ff, [⟨16, 8, 8, 0xff⟩, ⟨0, 8, 1, 0x20⟩], .none, false⟩,
  ⟨"CE_LAST_DSEQ", 0x18, .ro, 0, 0, [], .none, false⟩,
  ⟨"CE_DOMAIN", 0x20, .rw, 0, 0xffffffff, [], .program, false⟩,
  ⟨"CE_RANK", 0x24, .ro, 0, 0, [], .none, false⟩,
  ⟨"CE_RT_IDX", 0x28, .rw, 0, 0x3ff, [], .program, false⟩,
  ⟨"CE_RT_LINKS", 0x2c, .rw, 0, 0x7ffff, [⟨16, 3, 0, 4⟩], .program, false⟩,
  ⟨"CE_RT_MAC_LO", 0x30, .rw, 0, 0xffffffff, [], .program, false⟩,
  ⟨"CE_RT_MAC_HI", 0x34, .rw, 0, 0x8000ffff, [], .program, false⟩,
  ⟨"CE_COLLS", 0x40, .ro, 0, 0, [], .none, false⟩,
  ⟨"CE_RESTARTS", 0x44, .ro, 0, 0, [], .none, false⟩,
  ⟨"CE_STALE", 0x48, .ro, 0, 0, [], .none, false⟩,
  ⟨"CE_EARLY_HELD", 0x4c, .ro, 0, 0, [], .none, false⟩]

def cePortRegs : List RegDesc := [
  ⟨"CE_LNK_STATUS", 0, .ro, 0, 0, [], .none, false⟩,
  ⟨"CE_LNK_EVENT", 4, .w1c, 0, 0x3f, [], .none, false⟩,
  ⟨"CE_LNK_EVCNT_0", 8, .ro, 0, 0, [], .none, false⟩,
  ⟨"CE_LNK_EVCNT_1", 0xc, .ro, 0, 0, [], .none, false⟩,
  ⟨"CE_LNK_CTRL", 0x10, .rw, 0x3c001000, 0xfefff000, [⟨12, 12, 1, 0xffe⟩], .program, false⟩,
  ⟨"CE_LNK_MAC_LO", 0x14, .rw, 0, 0xffffffff, [], .program, false⟩,
  ⟨"CE_LNK_MAC_HI", 0x18, .rw, 0x88b50000, 0xffffffff, [⟨16, 16, 0x600, 0xffff⟩], .program, false⟩,
  ⟨"CE_LNK_RETRY", 0x1c, .rw, 0x810, 0xfff, [⟨8, 4, 1, 0xf⟩, ⟨0, 8, 1, 0xff⟩], .program, false⟩,
  ⟨"CE_LNK_PFC", 0x20, .rw, 0x80054020, 0x80ffffff, [⟨8, 8, 1, 0x7f⟩, ⟨0, 8, 8, 0x60⟩], .program, false⟩,
  ⟨"CE_LNK_TXF", 0x30, .ro, 0, 0, [], .none, false⟩,
  ⟨"CE_LNK_RXF", 0x34, .ro, 0, 0, [], .none, false⟩,
  ⟨"CE_LNK_DISC", 0x38, .ro, 0, 0, [], .none, false⟩,
  ⟨"CE_LNK_RETRIES", 0x3c, .ro, 0, 0, [], .none, false⟩,
  ⟨"CE_LNK_PAUSE_US", 0x40, .ro, 0, 0, [], .none, false⟩]

def trnRegs0 : List RegDesc := [
  ⟨"TRN_STATUS", 0, .ro, 0, 0, [], .none, false⟩,
  ⟨"TRN_EVENT", 4, .w1c, 0, 0xff, [], .none, false⟩,
  ⟨"TRN_EVCNT_0", 8, .ro, 0, 0, [], .none, false⟩,
  ⟨"TRN_EVCNT_1", 0xc, .ro, 0, 0, [], .none, false⟩,
  ⟨"TRN_ECC", 0x10, .rw, 0, 1, [], .config, false⟩,
  ⟨"TRN_SCRUB", 0x14, .rw, 0x18, 0xff, [], .none, false⟩,
  ⟨"TRN_ARB", 0x18, .rw, 0x2080, 0xffff, [⟨8, 8, 8, 0xff⟩, ⟨0, 8, 8, 0xff⟩], .none, false⟩,
  ⟨"TRN_RPR_IDX", 0x20, .rw, 0, 0x1fff, [], .config, false⟩,
  ⟨"TRN_RPR_DATA", 0x24, .rw, 0, 0x8003ffff, [], .config, false⟩,
  ⟨"TRN_ERR_ADDR_LO", 0x30, .ro, 0, 0, [], .none, false⟩,
  ⟨"TRN_ERR_ADDR_HI", 0x34, .ro, 0, 0, [], .none, false⟩,
  ⟨"TRN_ERR_INFO", 0x38, .ro, 0, 0, [], .none, false⟩,
  ⟨"TRN_HPW_BASE_0", 0x40, .rw, 0, 0xffff, [], .none, true⟩,
  ⟨"TRN_HPW_SIZE_0", 0x44, .rw, 0, 0xffff, [], .none, true⟩,
  ⟨"TRN_HPW_BASE_1", 0x48, .rw, 0, 0xffff, [], .none, true⟩,
  ⟨"TRN_HPW_SIZE_1", 0x4c, .rw, 0, 0xffff, [], .none, true⟩,
  ⟨"TRN_HPW_BASE_2", 0x50, .rw, 0, 0xffff, [], .none, true⟩,
  ⟨"TRN_HPW_SIZE_2", 0x54, .rw, 0, 0xffff, [], .none, true⟩,
  ⟨"TRN_HPW_BASE_3", 0x58, .rw, 0, 0xffff, [], .none, true⟩,
  ⟨"TRN_HPW_SIZE_3", 0x5c, .rw, 0, 0xffff, [], .none, true⟩,
  ⟨"TRN_CKPT_CTRL", 0x60, .rw, 0, 0xc0000000, [], .step, false⟩,
  ⟨"TRN_CKPT_DST_LO", 0x64, .rw, 0, 0xfffff000, [], .step, false⟩,
  ⟨"TRN_CKPT_DST_HI", 0x68, .rw, 0, 0xffff, [], .step, false⟩,
  ⟨"TRN_CKPT_AREA_LO", 0x6c, .rw, 0, 0xfffff000, [], .step, false⟩]

def trnRegs1 : List RegDesc := [
  ⟨"TRN_CKPT_AREA_HI", 0x70, .rw, 0, 0xffff, [], .step, false⟩,
  ⟨"TRN_CKPT_AREA_SIZE", 0x74, .rw, 0, 0x1ffffff, [⟨0, 25, 2, 0x1000000⟩], .step, false⟩,
  ⟨"TRN_CKPT_SENT", 0x78, .ro, 0xffffffff, 0, [], .none, false⟩,
  ⟨"TRN_CKPT_HELD", 0x7c, .ro, 0xffffffff, 0, [], .none, false⟩,
  ⟨"TRN_VPAGES", 0x80, .ro, 0, 0, [], .none, false⟩,
  ⟨"TRN_TOUCHED", 0x84, .ro, 0, 0, [], .none, false⟩,
  ⟨"TRN_CKPT_PEND", 0x88, .ro, 0, 0, [], .none, false⟩,
  ⟨"TRN_CE_CNT", 0x90, .ro, 0, 0, [], .none, false⟩,
  ⟨"TRN_UE_CNT", 0x94, .ro, 0, 0, [], .none, false⟩,
  ⟨"TRN_REVOKES", 0x98, .ro, 0, 0, [], .none, false⟩,
  ⟨"TRN_OVERSTAYS", 0x9c, .ro, 0, 0, [], .none, false⟩,
  ⟨"TRN_SCRUB_PASSES", 0xa0, .ro, 0, 0, [], .none, false⟩]

def trnRegs : List RegDesc := trnRegs0 ++ trnRegs1

def lpeRegs : List RegDesc := [
  ⟨"LPE_STATUS", 0, .ro, 0, 0, [], .none, false⟩,
  ⟨"LPE_EVENT", 4, .w1c, 0, 3, [], .none, false⟩,
  ⟨"LPE_EVCNT", 8, .ro, 0, 0, [], .none, false⟩,
  ⟨"LPE_SLACK", 0x10, .rw, 0x100, 0xffff, [⟨0, 16, 1, 0xffff⟩], .program, false⟩,
  ⟨"LPE_PERIOD", 0x14, .rw, 0xa, 0x1f, [], .program, false⟩,
  ⟨"LPE_SAMPLES", 0x20, .ro, 0, 0, [], .none, false⟩,
  ⟨"LPE_FAILS", 0x24, .ro, 0, 0, [], .none, false⟩,
  ⟨"LPE_VOIDS", 0x28, .ro, 0, 0, [], .none, false⟩]

def cutRegs : List RegDesc := [
  ⟨"CUT_STATUS", 0, .ro, 0, 0, [], .none, false⟩,
  ⟨"CUT_EVENT", 4, .w1c, 0, 0xff, [], .none, false⟩,
  ⟨"CUT_EVCNT_0", 8, .ro, 0, 0, [], .none, false⟩,
  ⟨"CUT_EVCNT_1", 0xc, .ro, 0, 0, [], .none, false⟩,
  ⟨"CUT_SR_KMIN", 0x10, .rw, 0x1000, 0x1fffff, [], .program, false⟩,
  ⟨"CUT_CONV", 0x14, .rw, 0, 1, [], .program, false⟩,
  ⟨"CUT_FLUSH_LIMIT", 0x18, .rw, 0x40, 0xff, [⟨0, 8, 0, 0x80⟩], .program, false⟩,
  ⟨"CUT_AMAX", 0x1c, .rw, 0x10, 0x37f, [⟨0, 7, 1, 0x40⟩], .program, false⟩,
  ⟨"CUT_INCL", 0x20, .rw, 0x20, 0x71, [⟨4, 3, 1, 7⟩], .program, false⟩,
  ⟨"CUT_POOL_ERR", 0x30, .ro, 0, 0, [], .none, false⟩,
  ⟨"CUT_KERNELS", 0x40, .ro, 0, 0, [], .none, false⟩,
  ⟨"CUT_ELEMS_LO", 0x44, .ro, 0, 0, [], .none, false⟩,
  ⟨"CUT_ELEMS_HI", 0x48, .ro, 0, 0, [], .none, false⟩,
  ⟨"CUT_JIT", 0x4c, .ro, 0, 0, [], .none, false⟩]

def incRegs : List RegDesc := [
  ⟨"INC_STATUS", 0, .ro, 0, 0, [], .none, false⟩,
  ⟨"INC_TASKS", 0x10, .ro, 0, 0, [], .none, false⟩,
  ⟨"INC_CHANNELS", 0x14, .ro, 0, 0, [], .none, false⟩]

def fctRegs : List RegDesc := [
  ⟨"FCT_CTRL", 0, .rw, 0, 1, [], .config, false⟩,
  ⟨"FCT_STATUS", 4, .ro, 0, 0, [], .none, false⟩,
  ⟨"FCT_EVENT", 8, .w1c, 0, 0x3f, [], .none, false⟩,
  ⟨"FCT_EVCNT_0", 0xc, .ro, 0, 0, [], .none, false⟩,
  ⟨"FCT_EVCNT_1", 0x10, .ro, 0, 0, [], .none, false⟩,
  ⟨"FCT_SPARE", 0x20, .rw, 0x7f7f, 0x7f7f, [], .config, false⟩,
  ⟨"FCT_ROW_DLY_0", 0x24, .rw, 0, 0xffffffff, [], .config, false⟩,
  ⟨"FCT_ROW_DLY_1", 0x28, .rw, 0, 0xffffffff, [], .config, false⟩,
  ⟨"FCT_ROW_DLY_2", 0x2c, .rw, 0, 0xffffffff, [], .config, false⟩,
  ⟨"FCT_ROW_DLY_3", 0x30, .rw, 0, 0xffffffff, [], .config, false⟩,
  ⟨"FCT_ROW_DLY_4", 0x34, .rw, 0, 0xf, [], .config, false⟩,
  ⟨"FCT_PILOT", 0x40, .wo, 0, 1, [], .config, false⟩,
  ⟨"FCT_PILOT_STAT", 0x44, .ro, 0x7f0000, 0, [], .none, false⟩,
  ⟨"FCT_OPBUF_ERR", 0x50, .ro, 0, 0, [], .none, false⟩,
  ⟨"FCT_ACTIVE_LO", 0x60, .ro, 0, 0, [], .none, false⟩,
  ⟨"FCT_ACTIVE_HI", 0x64, .ro, 0, 0, [], .none, false⟩,
  ⟨"FCT_TASKS", 0x68, .ro, 0, 0, [], .none, false⟩,
  ⟨"FCT_REPLAYS", 0x6c, .ro, 0, 0, [], .none, false⟩,
  ⟨"FCT_RAMPS", 0x70, .ro, 0, 0, [], .none, false⟩]

/-- The registers of a block's pages. -/
def regsOf : Block → List RegDesc
  | .sys => sysRegs
  | .host => hostRegs
  | .policy => policyRegs
  | .step => stepRegs
  | .serv => servRegs
  | .pwr => pwrRegs
  | .sec => secRegs
  | .umc => umcRegs
  | .twn => twnRegs
  | .inl => inlRegs
  | .ceEng => ceEngRegs
  | .cePort => cePortRegs
  | .trn => trnRegs
  | .lpe => lpeRegs
  | .cut => cutRegs
  | .inc => incRegs
  | .fct => fctRegs

/-- Page base of instance 0 (R471). -/
def pageBase : Block → Nat
  | .sys => 0x020000000000
  | .host => 0x020000001000
  | .policy => 0x020000002000
  | .step => 0x020000003000
  | .serv => 0x020000004000
  | .pwr => 0x020000005000
  | .sec => 0x020000006000
  | .umc => 0x020000007000
  | .twn => 0x020000008000
  | .inl => 0x020000010000
  | .ceEng => 0x020000014000
  | .cePort => 0x020000018000
  | .trn => 0x020000030000
  | .lpe => 0x020000040000
  | .cut => 0x020000100000
  | .inc => 0x020000200000
  | .fct => 0x020000400000

/-- Instances of each block (R471). -/
def instances : Block → Nat
  | .inl | .ceEng => 4
  | .cePort => 12
  | .trn => 8
  | .lpe => 16
  | .cut | .inc => 160
  | .fct => 640
  | _ => 1

/-- UNIT code of a block's records (R190, R471). -/
def unitCode : Block → Nat
  | .fct => 0
  | .cut => 1
  | .lpe => 2
  | .inc => 3
  | .trn => 4
  | .inl => 5
  | .ceEng | .cePort => 6
  | .policy | .step | .serv => 7
  | .host => 8
  | .pwr => 9
  | .sec => 10
  | .umc => 11
  | .sys => 12
  | .twn => 13

def allBlocks : List Block :=
  [.sys, .host, .policy, .step, .serv, .pwr, .sec, .umc, .twn, .inl, .ceEng, .cePort, .trn, .lpe, .cut, .inc, .fct]

/-- The address of a register: instance `i` of block `b`, offset `o` (R471). -/
def regAddr (b : Block) (i o : Nat) : Nat := pageBase b + 0x1000 * i + o

/-- The page an address lies in, with the instance and the offset; none where no page lies (R472). -/
def pageOf (a : Nat) : Option (Block × Nat × Nat) :=
  (allBlocks.find? fun b => decide (pageBase b ≤ a ∧ a < pageBase b + 0x1000 * instances b)).map
    fun b => (b, (a - pageBase b) / 0x1000, (a - pageBase b) % 0x1000)

/-- The register at an offset of a block's page. -/
def regDesc (b : Block) (o : Nat) : Option RegDesc := (regsOf b).find? fun r => r.off == o

/-- The reset value of the register word at an address; 0 where no register lies. -/
def regReset (a : Nat) : BitVec 32 :=
  match pageOf a with
  | none => 0
  | some (b, _, o) =>
    match regDesc b o with
    | none => 0
    | some r => BitVec.ofNat 32 r.reset

/-- Every ranged field of the value lies in its range. -/
def inRanges (v : BitVec 32) : List FieldRange → Bool
  | [] => true
  | f :: t =>
    let x := v.toNat / 2 ^ f.lo % 2 ^ f.width
    decide (f.min ≤ x ∧ x ≤ f.max) && inRanges v t

end Sys2Proof.Machine
end

