-- ==== Sys2Proof/Machine/Parts.lean ====
section
/-! DEFINITION. The parts of the machine's state: the fixed part, Urhild, security, power, the host port, the command queues and
the event log. Every field's default is its value at reset (before standby power is first applied). -/
namespace Sys2Proof.Machine

/-! ## Fixed in silicon and fuses -/

/-- The three variants (R2, R3). -/
inductive Variant where
  | m | n | e
  deriving DecidableEq, Repr, Inhabited

/-- What is fixed at manufacture (R3, R444, R445): the defaults are the model's choice (log 6). `vendorKeys` are the hashes of slots 0 and 1:
of the RSA modulus, and of the SLH-DSA key (R452). -/
structure Part where
  variant : Variant := .m
  stepping : Nat := 1
  serial : Word := 0
  svnFloor : Nat := 0
  slotRevoked : List Nat := []
  pufHelper : List Byte := []
  vendorKeys : List (Digest × Digest) := []
  bootRomDigest : Digest := 0
  deriving DecidableEq, Repr, Inhabited

/-! ## Urhild (R444 to R450, R460 to R462) -/

/-- Where the power-up sequence of R450 stands. -/
inductive Phase where
  | off | rails | hub | dies
  deriving DecidableEq, Repr, Inhabited

/-- An alarm record (R462). -/
structure Alarm where
  secs : Nat
  frac : Nat
  code : Nat
  level : Nat
  cpstate : Nat
  count : Nat
  deriving DecidableEq, Repr, Inhabited

structure Umc where
  standby : Bool := false
  siteB : Bool := false
  laneSel : Bool := false
  inputMv : Nat := 0
  precharged : Bool := false
  phase : Phase := .off
  autoOn : Bool := false
  /-- AUTO_ON is still to be carried out since the last standby power-up (R449, code 0). -/
  autoDue : Bool := false
  calValid : Bool := false
  /-- The calendar clock in microseconds. -/
  calUs : Nat := 0
  /-- The low half last written to UMC_TIME_LO. -/
  timeLo : Word := 0
  alarms : List Alarm := []
  alevel : Nat := 0
  zeroised : Bool := false
  tamper : Bool := false
  trip : Bool := false
  lastReset : Nat := 0
  /-- A MODULE_RESET is still to be raised (R466). -/
  resetDue : Bool := false
  /-- Main power went off by UMC_POWER 0: UMC_POWER 1 is then a full reset (R449, code 1). -/
  offByCommand : Bool := false
  /-- A warm reset has put the sequence back before its 5 ms row. -/
  warm : Bool := false
  /-- A thermal trip waits to be recorded after the next power-up (R438): the sensor and its temperature. -/
  tripSensor : Option (Nat × Nat) := none
  /-- The register address last given over SMBus (R448). -/
  smbAddr : Nat := 0
  /-- The time base when standby power came up, and whether the supercapacitor was charged when it was lost (R490). -/
  standbySince : Nat := 0
  charged : Bool := false
  deriving DecidableEq, Repr, Inhabited

/-! ## Security block (R451 to R464) -/

/-- SEC_STATUS.KEYS. -/
inductive Keys where
  | none | ready | zeroised | pufFailed
  deriving DecidableEq, Repr, Inhabited

structure Sec where
  keys : Keys := .none
  /-- The key store: the seed and the private key, 0 where it holds none, and the public half, empty where it holds none (R444, R454,
  R455). -/
  seed : BitVec 384 := 0
  privKey : Nat := 0
  pubKey : List Byte := []
  level : Nat := 0
  fw : Bool := false
  svn : Nat := 0
  fwDigest : Digest := 0
  cfgDigest : Digest := 0
  cfgFormed : Bool := false
  /-- SEC_PTX_LIMIT of each port, by port. -/
  ptx : Bank Word := []
  /-- The hub's instruction SRAM, 4 MiB (R451). -/
  image : Bank Byte := []
  deriving DecidableEq, Repr, Inhabited

/-! ## Power controller (R416 to R443) -/

/-- Why a frequency switch was started (R441, FREQ_STEP byte 2). -/
inductive SwitchCause where
  | limit | fast | thermal | capStep | up
  deriving DecidableEq, Repr, Inhabited

structure Die where
  /-- Core rail in millivolts (R430). -/
  railMv : Nat := 750
  /-- The activity cap in force (R432). -/
  cap : Nat := 8
  /-- The rail is on its way up to the untrimmed set point (R434). -/
  rising : Bool := false
  aged : Bool := false
  forced : Bool := false
  /-- Peak activity over the last 1 ms (R433). -/
  peak : Nat := 0
  deriving DecidableEq, Repr, Inhabited

structure Pwr where
  /-- Step in force (R420). -/
  step : Nat := 0
  /-- A switch in progress: its target, its cause, and the dies that have switched (R421). -/
  switching : Option (Nat × SwitchCause × List Nat) := none
  /-- A fast trip during a switch: a further step down follows (R440). -/
  fastPending : Bool := false
  up : Nat := 0
  dSlow : Nat := 8
  dFast : Nat := 8
  /-- The last 1,000 samples of P, newest first, in W. -/
  samples : List Nat := []
  /-- Energy below one millijoule, in microjoules (R439). -/
  energyUj : Nat := 0
  throttle : Bool := false
  /-- Temperatures by sensor number of R441, in °C above -128. -/
  temps : Bank Int := []
  droop : List Nat := []
  dies : Bank Die := []
  trims : Bank Word := []
  age : Bank Nat := []
  /-- FCT_STATUS.ACTIVITY of each Facet, in eighths (R119, R432). -/
  activity : Bank Nat := []
  /-- Facets that issue CNM slices, which no cap narrows (R432). -/
  uncapped : List Nat := []
  /-- PWR_CAL.PEAK. -/
  calPeak : Nat := 0
  /-- Tarn bases that refresh at double rate (R437). -/
  refresh2 : List Nat := []
  deriving DecidableEq, Repr, Inhabited

/-! ## Host port and commands (R358 to R388) -/

/-- An entry of the egress allow-list (R363), as its registers hold it. -/
structure Egress where
  addr : List Word
  ports : Word
  cfg : Word
  deriving DecidableEq, Repr, Inhabited

/-- To whom and from where a reply goes (R362). -/
structure Sender where
  mac : Mac
  ip : Ip
  port : Nat
  ipTo : Ip
  vid : Option Nat
  deriving DecidableEq, Repr, Inhabited

/-- A command packet whose header is sound (R368). -/
structure Packet where
  sync : Bool
  pcrc : Bool
  opcode : Nat
  tag : Nat
  queue : Nat
  seq : Nat
  payload : List Byte
  src : Sender
  deriving DecidableEq, Repr, Inhabited

/-- One accepted command in the reply cache: its reply once sent (R374). -/
structure Cached where
  seq : Nat
  tag : Nat
  opcode : Nat
  reply : Option (List Byte)
  deriving DecidableEq, Repr, Inhabited

/-- One command queue (R371, R372). `accepted` waits for its issue point, first in first out. `busy` is the class S command
that has started and not completed. `issued` are the class Q commands that their units hold. -/
structure Queue where
  next : Word := 0
  held : List Packet := []
  cache : List Cached := []
  lastSync : Option (Nat × Nat × Nat) := none
  syncWait : Option Packet := none
  apart : List Packet := []
  accepted : List Packet := []
  busy : Option Packet := none
  issued : List Packet := []
  deriving DecidableEq, Repr, Inhabited

/-- CPSTATE (R376). -/
inductive CpState where
  | boot | config | ready | loaded | faulted
  deriving DecidableEq, Repr, Inhabited

structure HostPort where
  link : Bool := false
  /-- The lane mode in use. -/
  lanes : Bool := false
  mac : Mac := 0
  macLo : Option Word := none
  macSet : Bool := false
  egress : Bank Egress := []
  /-- The entry being written, before HOST_EGR_CFG commits it. -/
  egrNew : Egress := ⟨[0, 0, 0, 0], 0, 0⟩
  /-- The port clock in nanoseconds. -/
  clockNs : Int := 0
  synced : Bool := false
  offsetNs : Int := 0
  goodOffsets : Nat := 0
  master : Option PtpDataset := none
  /-- The last Sync of the master chosen: its origin time, its receipt time, and the time its Delay_Req left. -/
  syncOrigin : Option Int := none
  syncRx : Int := 0
  delayTx : Int := 0
  /-- The sequenceId of a two-step Sync whose Follow_Up is still to come, and that of the last Delay_Req. -/
  syncSeq : Option Nat := none
  delaySeq : Nat := 0
  pathDelay : Int := 0
  /-- Non-reply frames sent in the millisecond `nonReplyMs`. -/
  nonReply : Nat := 0
  nonReplyMs : Nat := 0
  deriving DecidableEq, Repr, Inhabited

/-- The header of a frame this module sends on a peer port (R295 to R300): the port, the destination address, the VID and PCP of its
C-tag, the EtherType, and SRC_RANK. Its source address is the port's own. -/
structure TxHdr where
  port : Nat
  mac : Mac
  vid : Nat
  pcp : Nat
  etype : Nat
  rank : Nat
  deriving DecidableEq, Repr, Inhabited

/-- How a frame leaves the host port or the management port (R362, R446): its addresses, and the VID and PCP of its C-tag. -/
structure EthHdr where
  port : CmdPort
  src : Mac
  dst : Mac
  tag : Option (Nat × Nat)
  deriving DecidableEq, Repr, Inhabited

/-- A frame the module has sent (the model's own record of its outputs). -/
inductive Sent where
  /-- A UDP reply packet (R370), on the host port or the management port. -/
  | reply (h : EthHdr) (src dst : Ip) (srcPort dstPort : Nat) (data : List Byte)
  | arpReply (h : EthHdr) (ip : BitVec 32)
  | advert (h : EthHdr) (ip : BitVec 128)
  | echoReply (h : EthHdr) (src dst : Ip) (data : List Byte)
  | delayReq (h : EthHdr) (transport : PtpTransport) (seq : Nat)
  /-- A control frame of the link layer on a peer port, by frame type (R300), with its ACK field. -/
  | linkCtl (h : TxHdr) (ftype ack : Nat)
  /-- INIT (`ack` false) or INIT_ACK, with TWIN and DOMAIN. -/
  | linkInit (h : TxHdr) (ack twin : Bool) (domain : Nat)
  | linkData (h : TxHdr) (seq ack : Nat) (data : LinkData)
  /-- A PFC frame for one priority (R303): a pause time of 0xFFFF quanta, or of 0. -/
  | pfc (port priority : Nat) (pause : Bool)
  /-- A byte answered over SMBus (R448). -/
  | smbus (data : List Byte)
  deriving DecidableEq, Repr, Inhabited


/-! ## Tarn (R263 to R291) -/

/-- A version table entry (R276). -/
structure VtEntry where
  vb : Bool := false
  t : Bool := false
  c : Bool := false
  deriving DecidableEq, Repr, Inhabited

/-- A granted channel transfer (R280 to R283): who holds the channel, how many lines it has moved, and of how many. -/
structure Grant where
  req : Nat
  line : Nat
  count : Nat
  done : Nat
  write : Bool
  deriving DecidableEq, Repr, Inhabited

/-- A checkpoint epoch being sent (R286): its step, the pages still to be sent and acknowledged. -/
structure Epoch where
  step : Nat
  unsent : List Nat
  unacked : List Nat
  markSent : Bool
  deriving DecidableEq, Repr, Inhabited

/-- One Tarn base. -/
structure Stack where
  /-- Channel training and zero-fill are done (R450). -/
  trained : Bool := false
  /-- Which free value its undefined lines read as before training. -/
  token : Nat := 0
  /-- The version table, by frame-0 page number (device address / 4,096), for both groups. -/
  vt : Bank VtEntry := []
  /-- The poison list: line numbers (device address / 64), newest first (R269). -/
  poison : List Nat := []
  /-- Corrected lines queued for write-back (R271). -/
  wb : List Nat := []
  /-- The row-repair map by entry index (R273). -/
  rpr : Bank Word := []
  /-- The scrubber's next line within the stack, and whether its pass is late (R272). -/
  scrubNext : Nat := 0
  scrubLate : Bool := false
  /-- By channel: the grant in force; the last static requester granted. -/
  grants : List (Nat × Grant) := []
  lastStatic : Bank Nat := []
  /-- By channel: the transfers cut short, each with its progress count (R282). -/
  progress : List (Nat × Grant) := []
  /-- Requesters barred from a channel (R283): 16 × channel + requester. -/
  barred : List Nat := []
  /-- TRN_ERR_INFO holds an uncorrectable error of this attempt (R124, R294). -/
  ueHeld : Bool := false
  /-- What the last read transfer delivered (the model's own record). -/
  delivered : List Byte := []
  /-- A committed step whose epoch has not started (R286); the epoch in progress; and whether the next one must send every page. -/
  due : Option Nat := none
  epoch : Option Epoch := none
  fullNext : Bool := true
  /-- Pages received of an epoch whose CKEND has not come, and whether it failed (R270). -/
  receiving : Bool := false
  recvFailed : Bool := false
  deriving DecidableEq, Repr, Inhabited

/-- A run of undefined bytes: device addresses from `lo` up to but not including `hi`, read as free values of `token`. -/
structure Undef where
  lo : Nat
  hi : Nat
  token : Nat
  deriving DecidableEq, Repr, Inhabited

/-! ## The event log (R190 to R192, R459) -/

/-- An event record before it is written (R190); `seq` and the LOST flag are given at the write. -/
structure EventRec where
  code : Nat
  unit : Nat
  flags : Nat
  inst : Nat
  part : Nat
  attempt : Nat
  step : Nat
  tensor : Nat
  tile : Nat
  layer : Nat
  segtry : Nat
  detail : List Byte
  time : Nat
  deriving DecidableEq, Repr, Inhabited

structure Log where
  /-- HUB_LOG_BASE_HI has been written since power-up (R459). -/
  set : Bool := false
  /-- The boot buffer, oldest first. -/
  boot : List EventRec := []
  /-- Class 0x01 records that wait for room, oldest first (R192). -/
  held : List EventRec := []
  /-- The next record written carries the LOST flag. -/
  lost : Bool := false
  /-- SEQ of the next record. -/
  seq : Nat := 0
  /-- By limited event: the millisecond after that of its last record, 0 for none; and the occurrences since. -/
  lastMs : Bank Nat := []
  since : Bank Nat := []
  deriving DecidableEq, Repr, Inhabited

/-- The result of the last register access (R378): the model's own field, what a requester is answered. -/
inductive Access where
  | ok | unmapped | badField | locked | owned | badState
  deriving DecidableEq, Repr, Inhabited

end Sys2Proof.Machine
end

