-- ==== Sys2Proof/Machine/FabricParts.lean ====
section
/-! DEFINITION. The parts of the machine's state: peer ports, links, routes and the collective engines (R295 to R335). -/
namespace Sys2Proof.Machine

/-- A DATA frame of a replay queue (R302): its sequence number and whether it has been sent. -/
structure TxFrame where
  seq : Nat
  data : LinkData
  sent : Bool
  deriving DecidableEq, Repr, Inhabited

/-- One link: a local port and the peer's MAC address (R298). Sequence numbers start at 0 whenever it comes up. -/
structure Link where
  port : Nat
  mac : Mac
  twin : Bool := false
  up : Bool := false
  txNext : Nat := 0
  rxNext : Nat := 0
  replay : List TxFrame := []
  /-- Data not yet sent: it has no sequence number, and waits for the port's turn, its pause or room in the replay queue. -/
  waiting : List LinkData := []
  /-- Frames accepted since the last acknowledgement was sent. -/
  unacked : Nat := 0
  /-- When the last NAK for the present gap was sent, in µs. -/
  nakAt : Option Nat := none
  retries : Nat := 0
  /-- The payload so far of a domain message that comes in several frames (R406, log 22). -/
  part : List Byte := []
  deriving DecidableEq, Repr, Inhabited

structure Port where
  phy : Bool := false
  /-- Priorities that the peer has paused (R303). -/
  paused : List Nat := []
  /-- The port's links are held down by the watchdog (R304). -/
  held : Bool := false
  /-- This port has paused the peer's data priority (R303). -/
  pfcSent : Bool := false
  /-- Control frames that wait while their priority is paused. -/
  ctl : List Sent := []
  deriving DecidableEq, Repr, Inhabited

/-- A frame in a receive buffer (R303): the port, the sender and what it carries. Port 255 stands for the module's own messages
to itself. -/
structure RxFrame where
  port : Nat
  mac : Mac
  rank : Nat
  data : LinkData
  deriving DecidableEq, Repr, Inhabited

/-- A route table entry in use (R299). -/
structure Route where
  mac : Mac
  ports : List Nat
  deriving DecidableEq, Repr, Inhabited

/-- The value of a tree node or of a segment (R306): log blocks (L8, or L8G where `g`), binary32 values, bytes, or the row
records of a SPARSE node: one entry per block, with its row. -/
inductive SegVal where
  | blocks (g : Bool) (l : List (Nat × List Nat))
  | f32 (l : List Nat)
  | bytes (l : List Nat)
  | rows (g : Bool) (l : List (Nat × Nat × List Nat))
  deriving DecidableEq, Repr, Inhabited

/-- A node of the canonical tree held by an engine: its segment, its level (0xFE the root, 0xFF data of an AG or BC), and its
first leaf (the source member for an AG or BC). `whole` says that all of it is there. -/
structure CollNode where
  seg : Nat
  level : Nat
  first : Nat
  whole : Bool
  val : SegVal
  deriving DecidableEq, Repr, Inhabited

/-- How much of a node has been sent to a member: the segment, the node, the member and the frames sent. -/
structure CollSent where
  seg : Nat
  level : Nat
  first : Nat
  member : Nat
  frames : Nat
  deriving DecidableEq, Repr, Inhabited

/-- One collective an engine carries (R310), or one that waits to be issued. -/
structure Coll where
  die : Nat
  /-- The collective strand, and the attempt's step, number, and whether it is the run-ahead. -/
  id : Nat
  dseq : Nat
  step : Nat
  attempt : Nat
  ra : Bool
  desc : CollDesc
  /-- The ranks of the group's members, this member's index, and the leaves each member holds. -/
  ranks : List Nat
  me : Nat
  leaves : List (List Nat)
  aligned : Bool
  /-- The command packet of a hosted launch, and its queue. -/
  packet : Option (Nat × Packet)
  rgen : Nat := 0
  /-- Restarts, queries and adopted RGENs so far (R328). -/
  count : Nat := 0
  nodes : List CollNode := []
  sent : List CollSent := []
  /-- Destination segments written: for an AG, source member × segments + segment. -/
  written : List Nat := []
  /-- Crossing levels (aligned) or members (not aligned) whose FIN is held. -/
  fins : List Nat := []
  /-- Crossing levels or members a FIN has been sent to. -/
  finsTo : List Nat := []
  /-- Frames that each peer may still be sent; a peer not listed may be sent EARLY frames. -/
  credit : List (Nat × Nat) := []
  /-- Frames consumed from each peer since the last grant to it. -/
  used : List (Nat × Nat) := []
  /-- A frame of it was lost with its link (R302): it cannot complete without a restart. -/
  lost : Bool := false
  deriving DecidableEq, Repr, Inhabited

/-- A completed collective, as FINQ asks for it (R327). -/
structure CollDone where
  dseq : Nat
  rgen : Nat
  grp : Nat
  step : Nat
  ranks : List Nat
  me : Nat
  deriving DecidableEq, Repr, Inhabited

/-- One collective engine. -/
structure Engine where
  /-- It has issued a collective since the last PROG_LOAD (R310). -/
  issuedAny : Bool := false
  active : List Coll := []
  waiting : List Coll := []
  /-- Collective frames held early, oldest first (R321). -/
  early : List CollFrame := []
  /-- The last 64 collectives completed, newest first (R327). -/
  finished : List CollDone := []
  /-- RESTARTs recorded for collectives not yet issued: DSEQ and RGEN. -/
  restarts : List (Nat × Nat) := []
  deriving DecidableEq, Repr, Inhabited

structure Fabric where
  ports : Bank Port := []
  links : List Link := []
  routes : Bank (Option Route) := []
  /-- The receive buffers of all ports, oldest first, and the module's messages to itself. -/
  inbox : List RxFrame := []
  engines : Bank Engine := []
  deriving DecidableEq, Repr, Inhabited

end Sys2Proof.Machine
end

