-- ==== Sys2Proof/Machine/StepParts.lean ====
section
/-! DEFINITION. The parts of the machine's state: step attempts, the trouble policy, the stash, the domain and the twin pair
(R167 to R234, R389 to R415). -/
namespace Sys2Proof.Machine

/-! ## Causes and cuts (R216, R221, R229) -/

/-- Where an abort cause puts the cut in update order (R229); `outside` for causes outside the program. -/
inductive Cut where
  | outside
  | beforeAll
  | at (layer : Nat)
  | after (layer : Nat)
  deriving DecidableEq, Repr, Inhabited

/-- An abort cause found on this module or reported to the wellhead; `layer` is 0xFFFF for none, and 0xFFFE marks a twin mismatch. -/
structure Cause where
  code : Nat
  layer : Nat
  cut : Cut
  step : Nat
  /-- For code 0x14: it halts the domain (R397, R408). -/
  halt : Bool
  deriving DecidableEq, Repr, Inhabited

/-! ## Trouble policy (R167 to R189) -/

/-- A layer's policy state within an attempt. -/
structure LayerState where
  rung : Rung := .l4
  /-- The JIT set J: tensor and whether the column copy. -/
  jit : List (Nat × Bool) := []
  c : Nat := 0
  widened : Bool := false
  replayed : Bool := false
  deriving DecidableEq, Repr, Inhabited

/-- A segment within an attempt. -/
structure SegState where
  /-- SEGTRY: the segment attempt (R190). -/
  tries : Nat := 0
  /-- Its trouble report has been sent for this segment attempt. -/
  reported : Bool := false
  clear : Bool := false
  /-- Once CLEAR: the rung it ran at, which a later widening of its layer leaves as it is (R182, R183). -/
  rung : Rung := .l4
  /-- Products with a failed Loupe sample in this segment attempt. -/
  failed : List Nat := []
  deriving DecidableEq, Repr, Inhabited

/-- The trouble found in one copy (R170): the tests that failed, as sat, flush, dom, excess, Loupe, and the failing sums. -/
structure Trouble where
  tensor : Nat
  col : Bool
  sat : Bool
  flush : Bool
  dom : Bool
  excess : Bool
  loupe : Bool
  satSum : Nat
  flushSum : Nat
  domSum : Nat
  deriving DecidableEq, Repr, Inhabited

/-- Decisions of R181. -/
inductive Decision where
  | clear | replay | widen | global | exhausted
  deriving DecidableEq, Repr, Inhabited

/-! ## Scale history groups in flight (R138, R140) -/

/-- The partial amax of one group: its tensor and copy, its line (granularity LINE), where its history record lies, the largest
magnitude so far as a binary32 pattern, and how many kernels have posted of those that hold part of it. -/
structure AmaxPart where
  tensor : Nat
  col : Bool
  group : Nat
  hist : Nat
  value : Word
  parts : Nat
  need : Nat
  /-- The tensor is replicated: the group spans the domain. -/
  shared : Bool
  /-- ARG of its AMAX messages: the segment and its attempt. -/
  arg : Nat
  sent : Bool
  /-- The group amax that came back. -/
  back : Option Word
  deriving DecidableEq, Repr, Inhabited

/-! ## Attempts (R184, R217 to R227, R409) -/

structure Attempt where
  step : Nat
  number : Nat
  base : Nat
  /-- The latched step size; none for a run-ahead before its OPEN. -/
  lr : Option Word
  wide : Bool
  rerun : Bool
  skip : Bool
  /-- In serving: the only phases that run (R336). -/
  only : Option (List Nat) := none
  /-- Strands issued and strands complete. -/
  started : List Nat := []
  done : List Nat := []
  /-- Phases whose barrier is complete. -/
  phases : List Nat := []
  layers : Bank LayerState := []
  segs : Bank SegState := []
  w : Nat := 0
  /-- The trouble vote is clear and POLICY has been sent or received. -/
  policy : Bool := false
  amax : List AmaxPart := []
  /-- Excess-channel bitmaps of this module and of the domain: tensor and copy, then the channel. -/
  xmap : List (Nat × Nat) := []
  xmapAll : Option (List (Nat × Nat)) := none
  /-- The layers of the vetoes found on this module (0xFFFF for the loss). -/
  vetoes : List Nat := []
  endSent : Bool := false
  readySent : Bool := false
  gotCommit : Bool := false
  /-- Gates received, in order; layers whose LVOTE this module has sent, a gated layer's twice. -/
  gates : List Nat := []
  lvoted : List Nat := []
  /-- Update pieces applied: tensor and piece; PRE blocks; row units (R240). -/
  applied : List (Nat × Nat) := []
  /-- Held history entries of a run-ahead, oldest first: address and bytes (R225). -/
  hold : List (Nat × List Byte) := []
  /-- Held event records of a run-ahead (R226). -/
  records : List EventRec := []
  /-- A veto of a run-ahead, held until COMMIT(n) (R227). -/
  heldCauses : List Cause := []
  deriving DecidableEq, Repr, Inhabited

/-! ## The stash (R203 to R209) -/

/-- A stash block of one shard resident in a Pond. `ra` says that it belongs to the run-ahead. -/
structure Block4 where
  id : Nat
  shard : Nat
  ra : Bool
  addr : Nat
  size : Nat
  /-- It may be spilled: class 1, or class 2 not yet considered. -/
  spillable : Bool
  deriving DecidableEq, Repr, Inhabited

/-- A stash block in the Spillway area: the target that holds it, its offset, size and the CRC-32C of each page; `unacked` pages have not
landed. `returning` is the Pond address a return copies to, with the pages back. -/
structure Spilled where
  id : Nat
  shard : Nat
  ra : Bool
  toTwin : Bool
  peer : Nat
  offset : Nat
  size : Nat
  crcs : List Word
  addr : Nat
  unacked : List Nat
  returning : Option (Nat × List Nat)
  deriving DecidableEq, Repr, Inhabited

structure Stash where
  resident : List Block4 := []
  spilled : List Spilled := []
  /-- Spillway settings latched at step open (R230). -/
  enabled : Bool := false
  toTwin : Bool := false
  peer : Nat := 0
  areaMib : Nat := 0
  hwm : Nat := 0
  deriving DecidableEq, Repr, Inhabited

/-! ## The step sequencer -/

/-- HUB_STEP_ABORT as it was last written. -/
structure LastAbort where
  inprog : Bool
  code : Nat
  cut : Nat
  deriving DecidableEq, Repr, Inhabited

structure StepSeq where
  att : Option Attempt := none
  ra : Option Attempt := none
  /-- COMMIT has been received and the flip is not complete (R218). -/
  committing : Bool := false
  halted : Option Nat := none
  /-- The halt came from TRB_EXHAUSTED, and no RESTORE has completed since (R185). -/
  exhausted : Bool := false
  openedSinceLoad : Bool := false
  /-- ATTEMPT of the next attempt of step n, and how many automatic retries it has had. -/
  nextAttempt : Nat := 0
  retries : Nat := 0
  /-- The next attempt is a skip (R222), or a whole-step L8 rerun (R184). -/
  skipNext : Bool := false
  rerunNext : Bool := false
  lastAbort : Option LastAbort := none
  lastGate : Option Nat := none
  /-- Causes found here and not yet reported, oldest first. -/
  causes : List Cause := []
  /-- On the wellhead: the last attempt of this step was aborted by a twin mismatch (R397). -/
  mismatchedAt : Option Nat := none
  /-- Run-ahead as enabled at the last step open (R234). -/
  raEn : Bool := false
  /-- On the wellhead: a RESUME has ended the halt, and the next OPEN tells the members so (R222). -/
  resumed : Bool := false
  deriving DecidableEq, Repr, Inhabited

/-! ## Domain (R402 to R412) -/

/-- A rank table entry (R408): 0 not joined, 1 joined, 2 LOST; the digest of the program the rank has loaded, zero for none; and the
identity key hash that the module joined with (R404, R407). -/
structure RankEntry where
  state : Nat := 0
  digest : Digest := 0
  key : Digest := 0
  deriving DecidableEq, Repr, Inhabited

/-- A handover in progress on the new wellhead (R411): the answers collected, and the old wellhead's rank. -/
structure Takeover where
  answers : List (Nat × RankState)
  old : Nat
  deriving DecidableEq, Repr, Inhabited

structure Domain where
  size : Nat := 0
  wgen : Nat := 0
  wh : Nat := 0
  rank : Nat := 0
  rankValid : Bool := false
  ranks : Bank RankEntry := []
  /-- This module's contributions to combined messages, not yet combined (R407). -/
  own : List DomFrame := []
  /-- On the wellhead: the last sequence base issued. -/
  lastBase : Nat := 0
  /-- On the wellhead: a RUN has been given; commits left, if limited; STOP has been given. -/
  running : Bool := false
  limit : Option Nat := none
  stopping : Bool := false
  /-- On the wellhead: every DONE of the last committed step is in. -/
  doneIn : Bool := true
  /-- On the wellhead: causes held under R216. -/
  held : List Cause := []
  /-- On the wellhead: the finite vote of the open attempt is clear; layer votes that are in and clear, a gated layer's twice; layer
  votes that are in and not clear. -/
  finiteClear : Bool := false
  lvotes : List Nat := []
  lfailed : List Nat := []
  /-- On the wellhead: the next POLICY or OPEN may reuse the run-ahead's base. -/
  raBase : Option (Nat × Bool) := none
  /-- STEP_BLOCKED has been raised for this step (R253). -/
  blocked : Option Nat := none
  /-- On the wellhead: the folded update ratios received: update entry, piece or row unit, SD, SW (R255). -/
  ratios : List (Nat × Nat × Word × Word) := []
  /-- On the wellhead: a ratio record that waits for room in its ring (R256). -/
  ratioHeld : List Byte := []
  /-- A planned handover that waits: the new wellhead's rank and its queue (R410). -/
  handover : Option Nat := none
  takeover : Option Takeover := none
  /-- This module is faulted and has reported itself lost (R408). -/
  faultSent : Bool := false
  /-- On the wellhead: ranks whose report that they have carried out the last halting abort is still to come (R381, log 55). -/
  halting : List Nat := []
  deriving DecidableEq, Repr, Inhabited

/-! ## The Inlets (R235 to R262) -/

/-- A gradient block or row record posted to an Inlet (R238, R313): its tensor, piece or row unit, its number (row-major dense block,
or row), and where its codes and block exponents lie. -/
structure InlPost where
  die : Nat
  tensor : Nat
  unit : Nat
  index : Nat
  codes : Nat
  exps : Nat
  /-- Its updates of V pages are done; those of U pages wait for the layer's gate (R214). -/
  vDone : Bool := false
  deriving DecidableEq, Repr, Inhabited

/-- The partials of one applied 64-element run (R255). -/
structure RatioPart where
  tensor : Nat
  unit : Nat
  index : Nat
  sd : Word
  sw : Word
  deriving DecidableEq, Repr, Inhabited

structure InletSt where
  /-- Step-size slots armed (R252), the step whose size is latched (R254), whether one has been latched since the load, and whether
  the last latch held the previous value (R253). -/
  armed : List Nat := []
  latched : Option Nat := none
  ever : Bool := false
  held : Bool := false
  /-- Blocks and row records that wait, oldest first, and those that have been taken in this attempt. -/
  posts : List InlPost := []
  seen : List InlPost := []
  /-- Partials of R255 by 64-element run, numbered row-major over the tensor. -/
  parts : List RatioPart := []
  /-- The update count t of each tensor updated in this attempt: die, tensor, t (R245). -/
  counts : List (Nat × Nat × Nat) := []
  /-- PRE units updated: tensor and unit (R248); and those whose updates of V pages are done (R214). -/
  pre : List (Nat × Nat) := []
  preV : List (Nat × Nat) := []
  /-- Tensors whose statistics pass has run, and whose statistics are updated, in this attempt: die and tensor. -/
  passed : List (Nat × Nat) := []
  stats : List (Nat × Nat) := []
  /-- NS_ITER strands whose root refresh has been staged, and whether the previous root is kept (R249). -/
  staged : List (Nat × Bool) := []
  /-- Owned blocks that kept a root at this step's refresh: die, tensor and block. -/
  kept : List (Nat × Nat × Nat) := []
  deriving DecidableEq, Repr, Inhabited

/-! ## Twin pair (R389 to R400) -/

/-- What the partner's last HELLO named (R391). -/
structure Hello where
  mode : Nat
  caps : Nat
  key : Digest
  domain : Nat
  rank : Nat
  deriving DecidableEq, Repr, Inhabited

/-- A TWIN_RESTORE this module sends (R400): its queue and packet, stack mask and step; the stacks whose header page is not yet
accepted, and the TAGs of the pages sent and not acknowledged. -/
structure RestoreTx where
  queue : Nat
  packet : Packet
  mask : Nat
  step : Nat
  headers : List Nat
  pages : List Nat
  deriving DecidableEq, Repr, Inhabited

structure TwinSt where
  mode : Nat := 0
  paired : Bool := false
  unpaired : Bool := false
  hello : Option Hello := none
  /-- The partner is lost: LOSS_MS has passed with no twin link up (R390). -/
  lost : Bool := false
  /-- This module's digest, and the partner's: step, attempt, the 16 bytes. -/
  mine : Option (Nat × Nat × List Byte) := none
  theirs : Option (Nat × Nat × List Byte) := none
  /-- The partner's program digest, from PROGDIG. -/
  progdig : Option Digest := none
  /-- A PROG_LOAD waits for PROGDIG (R395): its queue. -/
  loadWait : Option (Nat × Program) := none
  sending : Option RestoreTx := none
  /-- The stacks whose committed frames the partner restores, with the number of pages still to come (R400); and the stacks the
  command names. -/
  receiving : List (Nat × Nat) := []
  wanted : Nat := 0
  deriving DecidableEq, Repr, Inhabited

end Sys2Proof.Machine
end

