-- ==== Sys2Proof/Machine/UnitParts.lean ====
section
/-! DEFINITION. The parts of the machine's state: Facets, Cutters, Loupes and copies in progress (R78 to R178, R279). Every field's
default is its value at reset. -/
namespace Sys2Proof.Machine

/-! ## Facets -/

/-- What a task reads of one row or column for one K-group (R82): its codes or binary16 values, its E8 and its tag. -/
structure Operand where
  codes : List Nat := []
  e8 : Nat := 0
  tag : Nat := 0
  deriving DecidableEq, Repr, Inhabited

/-- A task on a Facet (R83): its strand, its partition, and the bank it accumulates into. -/
structure FTask where
  id : Nat
  ra : Bool
  pidx : Nat
  bank : Nat
  /-- By cell (64 × row + column within the partition): K-groups folded, and the accumulator. -/
  cells : Bank (Nat × Word) := []
  /-- Rows the drain has read (R90). -/
  next : Nat := 0
  /-- The scale set loaded for it (R92): 64 row scales, then 64 column scales. -/
  scales : Option (List Word) := none
  /-- Its place in the issue order of its cluster's tasks (R152). -/
  turn : Nat := 0
  /-- For a task whose operands do not fit in the halves, what it has read (R96): rows at 128 × K-group + row, columns 64 further. -/
  fetched : Bank Operand := []
  /-- Its inclusion result is in place. -/
  incl : Bool := false
  /-- Rows delivered to its fused drain kernel and not reduced yet (R91): the row and its values. -/
  chunks : List (Nat × List Word) := []
  /-- Rows that its fused drain kernel has reduced (R156). -/
  stats : List Nat := []
  /-- A fault has struck it: it waits for its replay (R97). -/
  faulted : Bool := false
  /-- For a tile the Loupe samples: the E8 that each row and each column of K-group g read, at 64 × g + row or column, and the values
  the drain delivered, at 64 × row + column of the tile. -/
  ea : Bank Nat := []
  eb : Bank Nat := []
  ys : Bank Word := []
  deriving DecidableEq, Repr, Inhabited

structure FacetSt where
  mode : PartMode := .whole
  /-- The tasks issued and not complete, in issue order. -/
  tasks : List FTask := []
  /-- Banks used so far in this attempt, by partition: the number of tasks started, modulo 2. -/
  banks : Bank Nat := []
  /-- Tasks that have had their replay in this attempt (R97). -/
  replayed : List (Nat × Bool) := []
  /-- FCT_OPBUF_ERR holds an uncorrectable error of this attempt (R124). -/
  ueHeld : Bool := false
  /-- Slices are being issued: no start ramp is needed (R109). -/
  issuing : Bool := false
  /-- A pilot test is running: the map and the delays in force at its start, and whether one has been written since (R106, R108). -/
  pilot : Option (Word × List Word × Bool) := none
  deriving DecidableEq, Repr, Inhabited

/-! ## Cutters -/

structure CutterSt where
  /-- The kernel queue (R126): the kernels issued and not complete, in order of issue: strand, run-ahead. -/
  queue : List (Nat × Bool) := []
  /-- The queued kernel in progress: its strand, whether of the run-ahead, and whether its outputs are written. -/
  kernel : Option (Nat × Bool × Bool) := none
  /-- It waits for its group amax (R140). -/
  waiting : Bool := false
  /-- CUT_POOL_ERR holds an uncorrectable error of this attempt (R166). -/
  ueHeld : Bool := false
  /-- Halted after POOL_UE or CUT_FAULT until the step abort completes (R163); `haltRa`: by work of a run-ahead, whose squash ends it. -/
  halted : Bool := false
  haltRa : Bool := false
  deriving DecidableEq, Repr, Inhabited

/-! ## Loupes -/

/-- A selected tile in a Loupe's queue (R175, R176): its attempt's base, its segment attempt, and what the task read and drained. -/
structure LoupeTask where
  id : Nat
  ra : Bool
  base : Nat
  seg : Option (Nat × Bool)
  tries : Nat
  /-- The task is complete: the sample can be judged. -/
  ready : Bool
  scales : List Word
  ea : Bank Nat
  eb : Bank Nat
  ys : Bank Word
  deriving DecidableEq, Repr, Inhabited

structure LoupeSt where
  queue : List LoupeTask := []
  halted : Bool := false
  deriving DecidableEq, Repr, Inhabited

structure Units where
  facets : Bank FacetSt := []
  cutters : Bank CutterSt := []
  loupes : Bank LoupeSt := []
  /-- Copies and fills whose data has moved and that are not complete: strand, run-ahead. -/
  copied : List (Nat × Bool) := []
  deriving DecidableEq, Repr, Inhabited

end Sys2Proof.Machine
end

