-- ==== Sys2Proof/Machine/ServParts.lean ====
section
/-! DEFINITION. The parts of the machine's state: the hub bulk engine's commands, and serving (R336 to R357, R373, R379). Every field's
default is its value at reset. -/
namespace Sys2Proof.Machine

/-- A bulk command that has moved its data and whose reply is due (R373): its queue and packet, and what it replies. -/
structure BulkJob where
  queue : Nat
  packet : Packet
  code : Nat
  detail : Nat
  payload : List Byte
  deriving DecidableEq, Repr, Inhabited

/-- A score request (R341): its command, and when it was accepted. -/
structure Request where
  queue : Nat
  packet : Packet
  slot : Nat
  count : Nat
  pos : Nat
  data : List Byte
  at' : Nat
  deriving DecidableEq, Repr, Inhabited

/-- A slot (R340, R345): its committed length, its chain after the last event (none: no event yet), and its queue. -/
structure Slot where
  len : Nat := 0
  chain : Option Digest := none
  queue : List Request := []
  deriving DecidableEq, Repr, Inhabited

/-- A batch that runs (R343). -/
structure Batch where
  reqs : List Request
  retried : Bool
  deriving DecidableEq, Repr, Inhabited

/-- An EXPLAIN command (R349). -/
structure Explain where
  queue : Nat
  packet : Packet
  recSlot : Nat
  recInput : Digest
  recOutput : Digest
  pos : Nat
  events : Nat
  out : Nat
  n : Nat
  target : Nat
  base : Nat
  baseAddr : Nat
  deriving DecidableEq, Repr, Inhabited

/-- The explanation pass in progress (R350, R351): the slot it borrows, its events, its inputs and baseline widened, the path point it is at (0 the
verification), whether that point runs and has run before, and the gradients summed. -/
structure Pass where
  ex : Explain
  slot : Nat
  data : List Byte
  x : List Word
  b : List Word
  point : Nat
  running : Bool
  retried : Bool
  sum : List Word
  output : Digest
  deriving DecidableEq, Repr, Inhabited

/-- A loaded model (R338): its commit digest, the address ranges that stay locked, and its calibration. -/
structure Model where
  commit : Digest
  ranges : List (Nat × Nat)
  calib : Calib
  deriving DecidableEq, Repr, Inhabited

structure Serv where
  model : Option Model := none
  slots : Bank Slot := []
  batch : Option Batch := none
  /-- MAX_WAIT has passed for the oldest pending request (R342). -/
  due : Bool := false
  /-- A batch waits for ring room (R348). -/
  prvFull : Bool := false
  /-- TRN_ACCESS has been raised for a record that is held because its place lies outside every window (R499). -/
  prvOut : Bool := false
  /-- Passes that wait, oldest first. -/
  passes : List Explain := []
  pass : Option Pass := none
  /-- RSEQ of the next record (R347). -/
  rseq : Nat := 0
  deriving DecidableEq, Repr, Inhabited

end Sys2Proof.Machine
end

