-- ==== Sys2Proof/Machine/State.lean ====
section
/-! DEFINITION. The state of the module, the reasons a step can stop, and the state after reset. -/
namespace Sys2Proof.Machine

structure State where
  /-- The commands that wait, first in first out. -/
  pending : List Instr := []
  /-- The model's own field: the number of free values drawn so far (log 4). -/
  free : Nat := 0
  /-- Microseconds since standby power came up: the model's time base (log 3). -/
  us : Nat := 0
  part : Part := {}
  /-- Every register word that has a home of its own, by address; a word at its reset value is not listed. -/
  regs : Bank Word := []
  /-- The HI latches of R473, by 2 × address of the LO register + (1 for Urhild). -/
  latches : Bank Word := []
  /-- The answer to the last register access (the model's own record). -/
  access : Access := .ok
  readValue : Word := 0
  /-- Tarn and SRAM bytes by device address; an unlisted byte reads as 0 (log 5). -/
  mem : List Host.Cell := []
  /-- The undefined bytes of Tarn and SRAM: after reset, all of SRAM (log 5). -/
  undef : List Undef := [⟨0x010000000000, 0x01004A000000, 0⟩]
  tarns : Bank Stack := []
  /-- The program loaded (R381). -/
  prog : Option Program := none
  /-- The physical cluster of each logical cluster of the program (R18). -/
  bound : List Nat := []
  units : Units := {}
  step : StepSeq := {}
  stash : Stash := {}
  dom : Domain := {}
  twin : TwinSt := {}
  fab : Fabric := {}
  inl : InletSt := {}
  umc : Umc := {}
  sec : Sec := {}
  pwr : Pwr := {}
  host : HostPort := {}
  cp : CpState := .boot
  /-- The command queues: 0 to 15 of the host port, 16 the management port's. -/
  queues : Bank Queue := []
  log : Log := {}
  /-- Bulk commands whose replies are due, in order (R373). -/
  bulk : List BulkJob := []
  serv : Serv := {}
  out : List Sent := []
  deriving DecidableEq, Repr

/-- The reasons a step can stop with a fault: the manual names no behaviour that stops the block, so there is none. -/
inductive Fault where
  deriving DecidableEq, Repr

/-- The reasons a step can be refused. -/
inductive Refusal where
  /-- A command without a meaning in this model. Safe: the model stops. -/
  | notModelled (mnemonic : String)
  deriving DecidableEq, Repr

/-- The machine before standby power is first applied: everything off, every register at its reset value. -/
def State.reset : State := {}

end Sys2Proof.Machine
end

