-- ==== Sys2Proof/Machine/Ops.lean ====
section
/-! DEFINITION. The named operations over the state: registers, memory bytes, windows, versioned pages, the clock. -/
namespace Sys2Proof.Machine

/-! ## Registers -/

/-- The register word stored at a device address. -/
def State.regAt (s : State) (a : Nat) : Word := Bank.get regReset s.regs a

def State.setRegAt (s : State) (a : Nat) (v : Word) : State := { s with regs := Bank.put regReset s.regs a v }

/-- The stored word of instance `i` of a block at offset `o`. -/
def State.reg (s : State) (b : Block) (i o : Nat) : Word := s.regAt (regAddr b i o)

def State.setReg (s : State) (b : Block) (i o : Nat) (v : Word) : State := s.setRegAt (regAddr b i o) v

/-- The field of `w` bits at bit `lo` of a word. -/
def bits (v : Word) (lo w : Nat) : Nat := v.toNat / 2 ^ lo % 2 ^ w

def bit (v : Word) (i : Nat) : Bool := v.getLsbD i

/-- A field of a stored register. -/
def State.field (s : State) (b : Block) (i o lo w : Nat) : Nat := bits (s.reg b i o) lo w

/-- A counter register: adds `n`, wrapping at 2^32. -/
def State.bump (s : State) (b : Block) (i o n : Nat) : State :=
  s.setReg b i o (s.reg b i o + BitVec.ofNat 32 n)

/-- A 64-bit counter pair with LO at `o` and HI at `o + 4`. -/
def State.bump64 (s : State) (b : Block) (i o n : Nat) : State :=
  let v := (s.reg b i o).toNat + 2 ^ 32 * (s.reg b i (o + 4)).toNat + n
  (s.setReg b i o (BitVec.ofNat 32 v)).setReg b i (o + 4) (BitVec.ofNat 32 (v / 2 ^ 32))

/-- Draws a free value: its index, and the state with the counter advanced. -/
def State.draw (s : State) : Nat × State := (s.free, { s with free := s.free + 1 })

def b2n (b : Bool) : Nat := if b then 1 else 0

/-! ## SYS_CAPS (R3) -/

def portMask : Variant → Nat
  | .n => 0x924
  | _ => 0xFFF

def variantCode : Variant → Nat
  | .m => 0x4D
  | .n => 0x4E
  | .e => 0x45

/-- LOUPE, CNM and PRE are present (R3). -/
def Variant.full : Variant → Bool
  | .e => false
  | _ => true

def sysCaps (p : Part) : Word :=
  BitVec.ofNat 32 (variantCode p.variant * 2 ^ 24 + p.stepping % 16 * 2 ^ 20 + 2 ^ 16
    + b2n p.variant.full * (2 ^ 15 + 2 ^ 14 + 2 ^ 13) + portMask p.variant)

/-- Peer port `n` is enabled (R3). -/
def portEnabled (p : Part) (n : Nat) : Bool := decide (n < 12) && (portMask p.variant).testBit n

/-! ## Stacks and addresses (R263, R264) -/

def stackDefault (_ : Nat) : Stack := {}

def State.stack (s : State) (i : Nat) : Stack := Bank.get stackDefault s.tarns i

def State.setStack (s : State) (i : Nat) (x : Stack) : State := { s with tarns := Bank.put stackDefault s.tarns i x }

def tarnTop : Nat := 2 ^ 40

/-- The stack of a Tarn address. -/
def stackOf (a : Nat) : Nat := a / 2 ^ 37

def lineOf (a : Nat) : Nat := a / 64

def poolBase (c : Nat) : Nat := 0x010000000000 + 0x400000 * c

def opbufBase (f : Nat) : Nat := 0x010040000000 + 0x40000 * f

/-- An address inside an SRAM window (R9). -/
def inSram (a : Nat) : Bool :=
  decide (poolBase 0 ≤ a ∧ a < poolBase 160) || decide (opbufBase 0 ≤ a ∧ a < opbufBase 640)

/-! ## Bytes of memory -/

def memDefault (_ : Nat) : Byte := 0

/-- The memory's canonical form: addresses strictly rising, no entry equal to an unlisted byte. -/
def Memory.wf (m : List Host.Cell) : Bool := Bank.wf memDefault m

/-- The undefined run an address lies in. -/
def State.undefAt (s : State) (a : Nat) : Option Undef := s.undef.find? fun u => decide (u.lo ≤ a ∧ a < u.hi)

/-- The byte stored at a device address: a free value while the stack is untrained (R449) or the byte is undefined. -/
def State.byte (s : State) (a : Nat) : Byte :=
  if a < tarnTop ∧ (s.stack (stackOf a)).trained = false then Config.freeByte (s.stack (stackOf a)).token a
  else match s.undefAt a with
    | some u => Config.freeByte u.token a
    | none => Bank.get memDefault s.mem a

/-- The undefined runs without the bytes from `a` to `b`. -/
def carve (a b : Nat) (us : List Undef) : List Undef :=
  us.flatMap fun u =>
    if u.hi ≤ a ∨ b ≤ u.lo then [u]
    else (if u.lo < a then [⟨u.lo, a, u.token⟩] else []) ++ (if b < u.hi then [⟨b, u.hi, u.token⟩] else [])

/-- Lines wholly covered by a write of `n` bytes at `a` leave the poison list: they hold fresh codewords (R269). -/
def State.freshen (s : State) (a n : Nat) : State :=
  let k := s.stack (stackOf a)
  if a < tarnTop ∧ k.poison ≠ [] then
    s.setStack (stackOf a) { k with poison := k.poison.filter fun l => !decide (a ≤ 64 * l ∧ 64 * l + 64 ≤ a + n) }
  else s

/-- Stores bytes from an address on. -/
def State.putBytes (s : State) (a : Nat) (l : List Byte) : State :=
  let t := s.freshen a l.length
  { t with mem := Bank.putRange memDefault t.mem a l, undef := carve a (a + l.length) t.undef }

/-- Reads `n` bytes from an address on. -/
def State.bytes (s : State) (a n : Nat) : List Byte := (List.range n).map fun i => s.byte (a + i)

/-- Makes the bytes from `a` up to `b` undefined under a fresh free value. -/
def State.makeUndef (s : State) (a b : Nat) : State :=
  { s with
    free := s.free + 1
    mem := Bank.drop (fun k => decide (a ≤ k ∧ k < b)) s.mem
    undef := ⟨a, b, s.free⟩ :: carve a b s.undef }

def State.word (s : State) (a : Nat) : Word := BitVec.ofNat 32 (leNat (s.bytes a 4))

def State.putWord (s : State) (a : Nat) (v : Word) : State := s.putBytes a (leBytes 4 v.toNat)

def State.putWords (s : State) (a : Nat) (l : List Word) : State := s.putBytes a (l.flatMap fun v => leBytes 4 v.toNat)

def State.words (s : State) (a n : Nat) : List Word := (List.range n).map fun i => s.word (a + 4 * i)

/-! ## Host-private windows (R285) -/

/-- Window `k` of stack `i`: its first address and the address after its last; empty when SIZE is 0. -/
def State.window (s : State) (i k : Nat) : Nat × Nat :=
  let b := i * 2 ^ 37 + s.field .trn i (0x40 + 8 * k) 0 16 * 2 ^ 21
  (b, b + s.field .trn i (0x44 + 8 * k) 0 16 * 2 ^ 21)

/-- The range from `a` up to `b` lies wholly inside one window. -/
def State.inOneWindow (s : State) (a b : Nat) : Bool :=
  decide (a < tarnTop) && (List.range 4).any fun k =>
    let w := s.window (stackOf a) k
    decide (w.1 ≤ a ∧ b ≤ w.2)

/-- An address inside some window. -/
def State.inWindow (s : State) (a : Nat) : Bool := s.inOneWindow a (a + 1)

/-! ## Versioned pages (R210, R275 to R277) -/

def State.regions (s : State) : List Region :=
  match s.prog with
  | none => []
  | some p => p.regions

/-- The program's V pages of a stack, ascending, as page numbers of frame 0. -/
def State.vPages (s : State) (i : Nat) : List Nat :=
  (sortNat ((s.regions.filter fun r => r.versioned && stackOf r.base == i).map fun r => r.base)).flatMap fun b =>
    match s.regions.find? fun r => r.versioned && r.base == b with
    | some r => (List.range (r.size / 4096)).map fun j => b / 4096 + j
    | none => []
where
  /-- Insertion sort. -/
  sortNat : List Nat → List Nat
    | [] => []
    | x :: t => ins x (sortNat t)
  /-- Insertion into a rising list. -/
  ins (x : Nat) : List Nat → List Nat
    | [] => [x]
    | y :: t => if x ≤ y then x :: y :: t else y :: ins x t

/-- The checkpoint area stack `i` receives into (R288): its base and its size in bytes before doubling; none while RECV is 0. -/
def State.ckptArea (s : State) (i : Nat) : Option (Nat × Nat) :=
  if bit (s.reg .trn i 0x60) 30 then
    some ((s.reg .trn i 0x6C).toNat + s.field .trn i 0x70 0 16 * 2 ^ 32, s.field .trn i 0x74 0 25 * 4096)
  else none

/-- Where a frame-0 address lies: the size of its V region and whether it belongs to a checkpoint area (G = 1). -/
def State.vRegion (s : State) (a : Nat) : Option (Nat × Bool) :=
  match s.regions.find? fun r => r.versioned && decide (r.base ≤ a ∧ a < r.base + r.size) with
  | some r => some (r.size, false)
  | none =>
    match s.ckptArea (stackOf a) with
    | some (b, z) => if a < tarnTop ∧ b ≤ a ∧ a < b + z then some (z, true) else none
    | none => none

/-- An address in the frame-1 half of a V region (R275). -/
def State.isFrame1 (s : State) (a : Nat) : Bool :=
  (s.regions.any fun r => r.versioned && decide (r.base + r.size ≤ a ∧ a < r.base + 2 * r.size)) ||
  (match s.ckptArea (stackOf a) with
   | some (b, z) => decide (a < tarnTop ∧ b + z ≤ a ∧ a < b + 2 * z)
   | none => false)

def vtDefault (_ : Nat) : VtEntry := {}

/-- The version table entry of the page of a frame-0 address. -/
def State.vtOf (s : State) (a : Nat) : VtEntry := Bank.get vtDefault (s.stack (stackOf a)).vt (a / 4096)

def State.setVt (s : State) (a : Nat) (e : VtEntry) : State :=
  let k := s.stack (stackOf a)
  s.setStack (stackOf a) { k with vt := Bank.put vtDefault k.vt (a / 4096) e }

/-- The address in the committed frame (VB) of a byte; the byte itself outside V regions (R277). -/
def State.committedAddr (s : State) (a : Nat) : Nat :=
  match s.vRegion a with
  | some (z, _) => if (s.vtOf a).vb then a + z else a
  | none => a

/-- The address a strand reads: frame VB xor T (R277). -/
def State.strandAddr (s : State) (a : Nat) : Nat :=
  match s.vRegion a with
  | some (z, _) => if (s.vtOf a).vb != (s.vtOf a).t then a + z else a
  | none => a

/-- The address of the shadow frame (not VB). -/
def State.shadowAddr (s : State) (a : Nat) : Nat :=
  match s.vRegion a with
  | some (z, _) => if (s.vtOf a).vb then a else a + z
  | none => a

/-- COPY_ON_FIRST_WRITE (R277): the first write to a V page touches it, and copies frame VB into the shadow first unless the
write covers the whole page. -/
def State.touch (s : State) (a : Nat) (whole : Bool) : State :=
  match s.vRegion a with
  | none => s
  | some _ =>
    let e := s.vtOf a
    if e.t then s
    else
      let p := a / 4096 * 4096
      let s1 := if whole then s else s.putBytes (s.shadowAddr p) (s.bytes (s.committedAddr p) 4096)
      s1.setVt p { e with t := true }

/-- Writes bytes as a strand does: the pages of V regions in their shadow frames, everything else in place (R211, R213). `n` bounds
the number of pages. -/
def State.storeAux : Nat → State → Nat → List Byte → State
  | 0, s, _, _ => s
  | n + 1, s, a, l =>
    if l.isEmpty then s
    else
      let k := 4096 - a % 4096
      let now := l.take k
      let t := s.touch a (decide (k = 4096 ∧ now.length = 4096))
      let b := if (t.vRegion a).isSome then t.shadowAddr a else a
      State.storeAux n (t.putBytes b now) (a + now.length) (l.drop k)

def State.store (s : State) (a : Nat) (l : List Byte) : State := State.storeAux (l.length / 4096 + 2) s a l

/-- Reads bytes as a strand does (R277). -/
def State.load (s : State) (a n : Nat) : List Byte := (List.range n).map fun i => s.byte (s.strandAddr (a + i))

/-- Reads bytes as the host or an epoch does: the committed copy (R277). -/
def State.loadCommitted (s : State) (a n : Nat) : List Byte := (List.range n).map fun i => s.byte (s.committedAddr (a + i))

def State.loadWord (s : State) (a : Nat) : Word := BitVec.ofNat 32 (leNat (s.load a 4))

def State.loadWords (s : State) (a n : Nat) : List Word := (List.range n).map fun i => s.loadWord (a + 4 * i)

def State.storeWord (s : State) (a : Nat) (v : Word) : State := s.store a (leBytes 4 v.toNat)

def State.storeWords (s : State) (a : Nat) (l : List Word) : State := s.store a (l.flatMap fun v => leBytes 4 v.toNat)

/-! ## Clock and calendar -/

/-- Calendar seconds (R444). -/
def State.calSecs (s : State) : Nat := s.umc.calUs / 1000000

/-- The 15-bit fraction of the calendar second (R462). -/
def State.calFrac (s : State) : Nat := s.umc.calUs % 1000000 * 32768 / 1000000

/-- The hub answers on the bridge: hub reset is released and the rails are on (R450, R470). -/
def State.hubUp (s : State) : Bool :=
  match s.umc.phase with
  | .hub | .dies => true
  | _ => false

/-- The main rails are on (R470). -/
def State.mainOn (s : State) : Bool :=
  match s.umc.phase with
  | .off => false
  | _ => true

/-- The main input lies from 48 V to 54 V and precharge is complete (R487). -/
def State.inputOk (s : State) : Bool :=
  s.umc.standby && s.umc.precharged && decide (48000 ≤ s.umc.inputMv ∧ s.umc.inputMv ≤ 54000)

def cpCode : CpState → Nat
  | .boot => 0
  | .config => 1
  | .ready => 2
  | .loaded => 3
  | .faulted => 4

/-- CPSTATE as alarm records and IDENT show it: 0xFF while the hub is down (R447, R462). -/
def State.cpByte (s : State) : Nat := if s.hubUp then cpCode s.cp else 0xFF

/-- The end of configuration load has not come (R458): CONFIG_END forms the configuration digest (R457). -/
def State.configOpen (s : State) : Bool := !s.sec.cfgFormed

end Sys2Proof.Machine
end

