-- ==== Sys2Proof/Machine/Flags.lean ====
section
/-! DEFINITION. Event flags and their set counts (R474, R475), event records and the log ring (R190 to R192, R459, R480, R499). -/
namespace Sys2Proof.Machine

/-! ## W1C flags -/

/-- Offset of a block's W1C register. -/
def evReg : Block → Nat
  | .fct => 8
  | _ => 4

/-- Offset of the register that holds the set count of bit `b` (R475). -/
def cntReg (blk : Block) (b : Nat) : Nat := evReg blk + 4 + 4 * (b / 4)

/-- A word with its 8-bit field `k` replaced. -/
def setByte (v : Word) (k n : Nat) : Word :=
  BitVec.ofNat 32 (v.toNat - v.toNat / 2 ^ (8 * k) % 256 * 2 ^ (8 * k) + n % 256 * 2 ^ (8 * k))

/-- The set count of a W1C bit. -/
def State.setCount (s : State) (blk : Block) (i b : Nat) : Nat := s.field blk i (cntReg blk b) (8 * (b % 4)) 8

def State.setSetCount (s : State) (blk : Block) (i b n : Nat) : State :=
  s.setReg blk i (cntReg blk b) (setByte (s.reg blk i (cntReg blk b)) (b % 4) n)

/-- One occurrence of an event: the bit becomes 1 and its count rises, saturating at 0xFF (R474). -/
def State.raiseFlag (s : State) (blk : Block) (i b : Nat) : State :=
  (s.setReg blk i (evReg blk) (s.reg blk i (evReg blk) ||| BitVec.ofNat 32 (2 ^ b))).setSetCount blk i b
    (min 0xFF (s.setCount blk i b + 1))

/-- A write to a W1C register clears each bit written 1, and its count (R12, R474). -/
def State.clearFlags (s : State) (blk : Block) (i : Nat) (v : Word) : State :=
  let m := BitVec.ofNat 32 ((regDesc blk (evReg blk)).map (·.mask) |>.getD 0)
  let s1 := s.setReg blk i (evReg blk) (s.reg blk i (evReg blk) &&& ~~~ (v &&& m))
  (List.range 8).foldl (fun t b => if bit (v &&& m) b then t.setSetCount blk i b 0 else t) s1

/-! ## The event table (R480) -/

/-- The W1C bit an event sets, as block and bit; none for events reported by their record alone. -/
def evFlag : Nat → Option (Block × Nat)
  | 0x0110 => some (.cut, 2)
  | 0x0111 => some (.cut, 3)
  | 0x0112 => some (.cut, 4)
  | 0x0120 => some (.policy, 0)
  | 0x0121 => some (.policy, 1)
  | 0x0122 => some (.policy, 2)
  | 0x0123 => some (.lpe, 0)
  | 0x0124 => some (.policy, 3)
  | 0x0125 => some (.policy, 4)
  | 0x0126 => some (.policy, 5)
  | 0x0127 => some (.policy, 6)
  | 0x0128 => some (.policy, 7)
  | 0x0130 => some (.step, 0)
  | 0x0131 => some (.step, 1)
  | 0x0132 => some (.step, 2)
  | 0x0201 => some (.fct, 0)
  | 0x0202 => some (.fct, 1)
  | 0x0203 => some (.fct, 2)
  | 0x0204 => some (.fct, 3)
  | 0x0205 => some (.fct, 4)
  | 0x0206 => some (.fct, 5)
  | 0x0210 => some (.cut, 5)
  | 0x0211 => some (.cut, 6)
  | 0x0212 => some (.cut, 7)
  | 0x0220 => some (.lpe, 1)
  | 0x0301 => some (.trn, 0)
  | 0x0302 => some (.trn, 1)
  | 0x0303 => some (.trn, 2)
  | 0x0304 => some (.trn, 3)
  | 0x0305 => some (.trn, 4)
  | 0x0306 => some (.trn, 5)
  | 0x0307 => some (.trn, 6)
  | 0x0308 => some (.trn, 7)
  | 0x0330 => some (.step, 3)
  | 0x0331 => some (.step, 4)
  | 0x0401 => some (.cePort, 0)
  | 0x0402 => some (.cePort, 1)
  | 0x0403 => some (.cePort, 2)
  | 0x0404 => some (.cePort, 3)
  | 0x0405 => some (.cePort, 4)
  | 0x0406 => some (.cePort, 5)
  | 0x0410 => some (.ceEng, 0)
  | 0x0411 => some (.ceEng, 1)
  | 0x0412 => some (.ceEng, 2)
  | 0x0413 => some (.ceEng, 3)
  | 0x0420 => some (.twn, 0)
  | 0x0421 => some (.twn, 1)
  | 0x0422 => some (.twn, 2)
  | 0x0423 => some (.twn, 3)
  | 0x0424 => some (.twn, 4)
  | 0x0425 => some (.twn, 5)
  | 0x0501 => some (.inl, 0)
  | 0x0502 => some (.inl, 1)
  | 0x0503 => some (.inl, 2)
  | 0x0504 => some (.inl, 3)
  | 0x0505 => some (.inl, 4)
  | 0x0540 => some (.step, 5)
  | 0x0541 => some (.step, 6)
  | 0x0542 => some (.step, 7)
  | 0x0601 => some (.pwr, 0)
  | 0x0602 => some (.pwr, 1)
  | 0x0603 => some (.pwr, 2)
  | 0x0604 => some (.pwr, 3)
  | 0x0605 => some (.pwr, 4)
  | 0x0606 => some (.pwr, 5)
  | 0x0607 => some (.pwr, 6)
  | 0x0608 => some (.pwr, 7)
  | 0x0701 => some (.sec, 0)
  | 0x0702 => some (.sec, 1)
  | 0x0703 => some (.sec, 2)
  | 0x0704 => some (.sec, 3)
  | 0x0705 => some (.umc, 0)
  | 0x0801 => some (.host, 0)
  | 0x0802 => some (.host, 1)
  | 0x0803 => some (.host, 2)
  | 0x0804 => some (.host, 3)
  | 0x0805 => some (.host, 4)
  | 0x0806 => some (.host, 5)
  | 0x0840 => some (.serv, 0)
  | 0x0841 => some (.serv, 1)
  | 0x0842 => some (.serv, 2)
  | _ => none

/-! ## Records -/

/-- What ties a record to a step, tensor and tile (R190); `none` leaves the valid flag 0. -/
structure EvCtx where
  step : Option Nat := none
  tensor : Option Nat := none
  tile : Option Nat := none
  rung : Nat := 0
  seg : Nat := 0
  part : Nat := 0
  attempt : Nat := 0
  rerun : Bool := false
  layer : Nat := 0xFFFF
  segtry : Nat := 0
  /-- Raised by a run-ahead strand: its record is held (R226). -/
  ra : Bool := false

def mkRec (s : State) (code unit inst : Nat) (c : EvCtx) (detail : List Byte) : EventRec where
  code := code
  unit := unit
  flags := b2n c.step.isSome + 2 * b2n c.tensor.isSome + 4 * b2n c.tile.isSome + 8 * b2n c.rerun
  inst := inst
  part := c.part
  attempt := min 255 c.attempt
  step := c.step.getD 0
  tensor := c.tensor.getD 0 % 2 ^ 24 + c.rung % 4 * 2 ^ 24 + c.seg % 2 * 2 ^ 26
  tile := c.tile.getD 0
  layer := c.layer
  segtry := min 0xFFFF c.segtry
  detail := (detail ++ List.replicate 8 0).take 8
  time := (s.host.clockNs % 2 ^ 64).toNat

/-- The 48 bytes of a record (R190). -/
def recBytes (r : EventRec) (lost : Bool) (seq : Nat) : List Byte :=
  leBytes 2 r.code ++ leBytes 1 r.unit ++ leBytes 1 (r.flags + 16 * b2n lost) ++ leBytes 2 r.inst ++ leBytes 1 r.part
    ++ leBytes 1 r.attempt ++ leBytes 4 r.step ++ leBytes 4 r.tensor ++ leBytes 4 r.tile ++ leBytes 2 r.layer
    ++ leBytes 2 r.segtry ++ leBytes 4 seq ++ leBytes 4 0 ++ r.detail ++ leBytes 8 r.time

/-- A record of class 0x01: a covered result, never dropped (R190, R192). -/
def EventRec.numerics (r : EventRec) : Bool := r.code / 256 == 1

/-- Base of a ring whose BASE_LO lies at `o` and BASE_HI at `o + 4` (R196, R262, R357). -/
def State.ringBase (s : State) (b : Block) (o : Nat) : Nat :=
  (s.reg b 0 o).toNat + 2 ^ 32 * s.field b 0 (o + 4) 0 16

/-- HEAD − TAIL of a ring with HEAD at `h` and TAIL at `t`. -/
def State.ringUsed (s : State) (b : Block) (h t : Nat) : Nat := (s.reg b 0 h - s.reg b 0 t).toNat

/-- The event ring's size in records. -/
def State.logSize (s : State) : Nat := 2 ^ s.field .policy 0 0x48 0 5

/-- Where the next record goes. -/
def State.logPlace (s : State) : Nat :=
  s.ringBase .policy 0x40 + 48 * ((s.reg .policy 0 0x4C).toNat % s.logSize)

/-- The log ring has room for a record. -/
def State.logRoom (s : State) : Bool := decide (s.ringUsed .policy 0x4C 0x50 < s.logSize)

/-- Counts a dropped record (R192). -/
def State.logDrop (s : State) : State :=
  let l := s.reg .policy 0 0x54
  { s.setReg .policy 0 0x54 (if l = 0xFFFFFFFF then l else l + 1) with log := { s.log with lost := true } }

/-- The lines, among those the bytes `a` up to `b` touch, that the poison list of their stack holds. -/
def State.poisoned (s : State) (a b : Nat) : List Nat :=
  if a < tarnTop then
    (s.stack (stackOf a)).poison.filter fun l => decide (lineOf a ≤ l ∧ l * 64 < b)
  else []

/-- Takes lines off the poison list: they hold fresh codewords. -/
def State.unpoison (s : State) (i : Nat) (ls : List Nat) : State :=
  let k := s.stack i
  s.setStack i { k with poison := k.poison.filter fun l => !ls.contains l }

/-- Raises the flag of an event, where it has one: instance `inst` of the flag's block. -/
def State.flagEvent (s : State) (code inst : Nat) : State :=
  match evFlag code with
  | some (b, i) => s.raiseFlag b inst i
  | none => s

/-- TRN_ERR_ADDR and TRN_ERR_INFO, with the precedence of R124. -/
def State.keepTrnError (s : State) (i l syms cls req : Nat) (ue addr : Bool) : State :=
  let k := s.stack i
  if k.ueHeld && !ue then s
  else
    let info := 2 ^ 31 + b2n ue * 2 ^ 30 + b2n addr * 2 ^ 29 + syms * 2 ^ 20 + cls * 2 ^ 16 + req
    (((s.setStack i { k with ueHeld := ue }).setReg .trn i 0x30 (BitVec.ofNat 32 (64 * l))).setReg .trn i 0x34
      (BitVec.ofNat 32 (64 * l / 2 ^ 32))).setReg .trn i 0x38 (BitVec.ofNat 32 info)

/-- Writes one record at the ring's head and advances HEAD; `lost` adds the LOST flag to a pending one. -/
def State.logWrite (s : State) (r : EventRec) (lost : Bool) : State :=
  let t := (s.putBytes s.logPlace (recBytes r (s.log.lost || lost) s.log.seq)).bump .policy 0 0x4C 1
  { t with log := { t.log with lost := false, seq := (t.log.seq + 1) % 2 ^ 32 } }

/-- Writes one record in the hub log writer's way (R499): outside every window it is held or dropped, as the record of TRN_ACCESS is, and
an uncorrectable line that it covers in part is written whole with zeros, TRN_UE is recorded and LOST is carried. -/
def State.logPut (s : State) (r : EventRec) : State :=
  let a := s.logPlace
  if s.inOneWindow a (a + 48) then
    match s.poisoned a (a + 48) with
    | [] => s.logWrite r false
    | l :: ls =>
      let i := stackOf a
      let s1 := (l :: ls).foldl (fun t x => t.putBytes (64 * x) (List.replicate 64 0)) s
      let s2 := (l :: ls).foldl (fun (t : State) x =>
        ((t.flagEvent 0x0302 i).bump .trn i 0x94 1).keepTrnError i x 0 11 9 true false) (s1.unpoison i (l :: ls))
      (l :: ls).foldl (fun (t : State) x =>
        if t.logRoom && t.inOneWindow t.logPlace (t.logPlace + 48) && (t.poisoned t.logPlace (t.logPlace + 48)).isEmpty
        then t.logWrite (mkRec s 0x0302 4 i {} (leBytes 6 (64 * x) ++ [11, 0])) false else t.logDrop) (s2.logWrite r true)
  else
    let s1 := (s.flagEvent 0x0305 (stackOf a % 8)).logDrop
    if r.numerics then { s1 with log := { s1.log with held := s1.log.held ++ [r] } } else s1.logDrop

/-- EVENT_RECORD_WRITE (R192, R459): a raised record goes to the boot buffer before the ring is set, else to the ring, or is
held or dropped when the ring is full. -/
def State.logRecord (s : State) (r : EventRec) : State :=
  if !s.log.set then
    if s.log.boot.length < 64 then { s with log := { s.log with boot := s.log.boot ++ [r] } }
    else if r.numerics then { s with log := { s.log with held := s.log.held ++ [r] } }
    else { s with log := { s.log with lost := true } }
  else if !s.log.held.isEmpty then
    if r.numerics then { s with log := { s.log with held := s.log.held ++ [r] } } else s.logDrop
  else if s.logRoom then s.logPut r
  else if r.numerics then { s with log := { s.log with held := s.log.held ++ [r] } }
  else s.logDrop

/-- Writes held records while there is room for them, at most `n`. -/
def State.logDrain : Nat → State → State
  | 0, s => s
  | n + 1, s =>
    match s.log.held with
    | [] => s
    | r :: t =>
      if s.log.set && s.logRoom && s.inOneWindow s.logPlace (s.logPlace + 48) then
        State.logDrain n (({ s with log := { s.log with held := t } } : State).logPut r)
      else s

/-- INSTANCE of a record: a peer port's is 16 + n (R331). -/
def recInst (code inst : Nat) : Nat := if 0x0401 ≤ code ∧ code ≤ 0x0406 then 16 + inst else inst

/-- Writes a record, or holds it where a run-ahead strand raised it (R226). -/
def State.logOrHold (s : State) (ra : Bool) (r : EventRec) : State :=
  match ra, s.step.ra with
  | true, some a => { s with step := { s.step with ra := some { a with records := a.records ++ [r] } } }
  | _, _ => s.logRecord r

/-- Raises an event: its flag and its record (R480, R481). With the hub down only Urhild's flag is kept (log 12). -/
def State.raiseCtx (s : State) (code inst unit : Nat) (c : EvCtx) (detail : List Byte) : State :=
  if s.mainOn then (s.flagEvent code inst).logOrHold c.ra (mkRec s code unit (recInst code inst) c detail)
  else if code = 0x0705 then s.flagEvent code inst
  else s

/-- Raises an event that names no step, by the unit whose block its flag lies in. -/
def State.raiseEv (s : State) (code inst : Nat) (detail : List Byte) : State :=
  s.raiseCtx code inst ((evFlag code).map (fun f => unitCode f.1) |>.getD 0) {} detail

/-- Raises an event that is recorded at most once per millisecond, by `key` (R271, R386, R441): every occurrence sets the flag;
the record's detail is given the occurrences since the last record. -/
def State.raiseLimited (s : State) (code inst key : Nat) (detail : Nat → List Byte) : State :=
  let k := code * 2 ^ 16 + key
  let n := Bank.get (fun _ => 0) s.log.since k + 1
  let ms := s.us / 1000 + 1
  if Bank.get (fun _ => 0) s.log.lastMs k = ms then
    let t := if s.mainOn then s.flagEvent code inst else s
    { t with log := { t.log with since := Bank.put (fun _ => 0) t.log.since k n } }
  else
    let t := s.raiseEv code inst (detail n)
    { t with log := { t.log with
        since := Bank.put (fun _ => 0) t.log.since k 0
        lastMs := Bank.put (fun _ => 0) t.log.lastMs k ms } }

/-- A bit u of SYS_EVSUM.PEND: some W1C bit is 1 in a page of the blocks whose UNIT code is u (R477). -/
def State.evPending (s : State) (u : Nat) : Bool :=
  allBlocks.any fun b =>
    decide (unitCode b = u) && (regDesc b (evReg b)).any (fun r => r.kind == .w1c) &&
      (List.range (instances b)).any fun i => s.reg b i (evReg b) != 0

/-! ## Faults of the module (R20) -/

/-- A cause of R221 found on this module in an open attempt: it is reported to the wellhead (R216). -/
def State.addCause (s : State) (c : Cause) : State :=
  { s with step := { s.step with causes := s.step.causes ++ [c] } }

/-- A cause outside the program that strikes the open attempt (R221). -/
def State.reqAbort (s : State) (cause : Nat) : State :=
  match s.step.att with
  | some a => s.addCause ⟨cause, 0xFFFF, .outside, a.step, decide (cause = 0x14)⟩
  | none => s

/-- The module is marked faulted (R20, R376): only Urhild's resets leave the state, and the open step aborts with cause 0x14. -/
def State.markFaulted (s : State) : State := { s.reqAbort 0x14 with cp := .faulted }

end Sys2Proof.Machine
end

