-- ==== Sys2Proof/Machine/PowerUp.lean ====
section
/-! DEFINITION. Resets and the power-up sequence (R444, R449, R450, R487, R488), identity (R454), the status outputs (R485) and the alarms (R460 to R462). -/
namespace Sys2Proof.Machine

/-- The module with a unit untouched where it is not enabled: a command whose condition the manual states does not hold changes
nothing (log 2). -/
def guarded (c : Bool) (s : State) (t : State) : Host.Outcome State Fault Refusal := .next (if c then t else s)

/-! ## Resets -/

/-- The page of Urhild keeps its registers over every reset but that of standby (R469). -/
def isUmcReg (a : Nat) : Bool := decide (pageBase .umc ≤ a ∧ a < pageBase .umc + 0x1000)

def freshStacks (n : Nat) : Bank Stack :=
  if n = 0 then [] else (List.range 8).map fun i => (i, { token := n })

/-- Everything on the hub, the dies and the Tarn bases at its reset value; Tarn and SRAM contents undefined (R444, R449); every
command queue of the host port is cleared (R383). Urhild's part, with its own queue, the fixed part and the time base stay, and so do
the model's own fields. -/
def State.hubReset (s : State) : State :=
  { State.reset with
    pending := s.pending
    free := s.free + 1
    us := s.us
    part := s.part
    out := s.out
    umc := s.umc
    queues := Bank.drop (fun i => i != 16) s.queues
    regs := Bank.drop (fun a => !isUmcReg a) s.regs
    tarns := freshStacks s.free
    undef := [⟨0x010000000000, 0x01004A000000, s.free⟩] }

/-- The main rails are removed: the hub and all it holds is gone, keys included (R444, R449). -/
def State.railsOff (s : State) : State :=
  let t := s.hubReset
  { t with umc := { t.umc with phase := .off, warm := false, zeroised := false } }

/-- Urhild records a reset (R449): its code, the count, and a MODULE_RESET that is still to be raised (R466). -/
def State.recordReset (s : State) (code : Nat) : State :=
  let t := s.bump .umc 0 0x34 1
  { t with umc := { t.umc with lastReset := code, resetDue := true } }

/-- A full reset (R449, code 1): the highest alarm level starts afresh (R468). -/
def State.recordFull (s : State) : State :=
  let t := s.recordReset 1
  { t with sec := { t.sec with level := 0 } }

/-- MODULE_RESET at the first step of R450 after a reset (R466). -/
def State.raiseReset (s : State) : State :=
  if s.umc.resetDue then
    let t := s.raiseEv 0x0705 0 (leBytes 1 s.umc.lastReset ++ [0] ++ leBytes 6 s.calSecs)
    { t with umc := { t.umc with resetDue := false } }
  else s

/-- The port clock is loaded from the calendar clock, in whole seconds (R367). -/
def State.loadPortClock (s : State) : State := { s with host := { s.host with clockNs := 1000000000 * (s.calSecs : Int) } }

/-- The regulators start (R450, 0 ms): the trip latch clears (R470), the port clock is loaded (R367), and a power-up after UMC_POWER 0
is a full reset. -/
def State.startRails (s : State) : State :=
  let s1 := if s.umc.offByCommand then s.recordFull else s
  let s2 : State := { s1 with umc := { s1.umc with
    phase := .rails, trip := false, offByCommand := false, warm := false, zeroised := false, autoDue := false } }
  s2.loadPortClock.raiseReset

/-- UMC_POWER 1 is refused with BAD_STATE: TAMPER set, input out of range, or main already on (R447). -/
def State.powerOnOk (s : State) : Bool := s.umc.standby && !s.umc.tamper && s.inputOk && !s.mainOn

/-- UMC_POWER 1; nothing is enabled where it is refused. -/
def State.powerOn (s : State) : State := if s.powerOnOk then s.startRails else s

/-- UMC_POWER 0: the main rails are removed, and host commands in flight end without a reply (R449, R465). -/
def State.powerOff (s : State) : State :=
  if s.umc.standby then
    let t := if s.mainOn then s.railsOff else s
    { t with umc := { t.umc with offByCommand := true } }
  else s

/-- UMC_POWER 2: every hub, die and Tarn base unit is reset with the rails on; the key store keeps the key pair, or is zeroised
still (R449, R455). The energy counter goes on, as main power is present (R439). The sequence goes on from its 5 ms row. -/
def State.warmReset (s : State) : State :=
  if s.umc.standby && s.mainOn then
    let t := s.hubReset
    let t1 : State := { t with
      sec := { t.sec with
        keys := s.sec.keys, seed := s.sec.seed, privKey := s.sec.privKey, pubKey := s.sec.pubKey, level := s.sec.level }
      pwr := { t.pwr with energyUj := s.pwr.energyUj }
      umc := { t.umc with phase := .rails, warm := true } }
    ((t1.setReg .pwr 0 0x60 (s.reg .pwr 0 0x60)).setReg .pwr 0 0x64 (s.reg .pwr 0 0x64)).recordReset 2
  else s

/-- UMC_POWER 3: the rails go off for at least 100 ms, then the sequence of R450 runs; the keys are derived anew (R449). -/
def State.fullReset (s : State) : State :=
  if s.umc.standby then
    let t := ((if s.mainOn then s.railsOff else s).recordFull)
    let t1 : State := { t with umc := { t.umc with offByCommand := false } }
    t1.powerOn
  else s

/-- UMC_POWER with an ACTION: the state after it, and whether it replies BAD_STATE (R447). -/
def State.umcPower (s : State) (action : Nat) : State × Bool :=
  match action with
  | 0 => (s.powerOff, false)
  | 1 => (s.powerOn, !s.powerOnOk)
  | 2 => (s.warmReset, false)
  | _ => (s.fullReset, false)

/-! ## Status outputs (R485) -/

/-- The outputs of the STATUS and MDIO groups; `true` is high, or released where the pin is open-drain. -/
structure StatusPins where
  strapHi : Bool
  mainGood : Bool
  tripN : Bool
  presentN : Bool
  phyRstN : Bool
  deriving DecidableEq, Repr

/-- What the outputs show in a state: all but PRESENT_N, which is tied to ground, are of the standby domain (R485, log 74). -/
def State.statusPins (s : State) : StatusPins where
  strapHi := s.umc.standby
  mainGood := s.mainOn
  tripN := !(s.umc.trip || s.umc.tamper)
  presentN := false
  phyRstN := s.umc.standby

/-! ## Alarms (R460 to R462) -/

/-- Records below level `lv` that may be overwritten: the index of the oldest of level `lv`. -/
def oldestOfLevel (lv : Nat) : List Alarm → Nat → Option Nat
  | [], _ => none
  | a :: t, i => if a.level = lv then some i else oldestOfLevel lv t (i + 1)

/-- The alarm log, oldest first, with one record more (R462). -/
def addAlarm (l : List Alarm) (a : Alarm) : List Alarm :=
  if l.length < 128 then l ++ [a]
  else match oldestOfLevel 1 l 0 with
    | some i => l.eraseIdx i ++ [a]
    | none =>
      if a.level = 1 then l
      else match oldestOfLevel 2 l 0 with
        | some i => l.eraseIdx i ++ [a]
        | none => l

/-- A record of the same sensor within the same second counts the repeat (R462, COUNT). -/
def repeatAlarm (a : Alarm) : List Alarm → Option (List Alarm)
  | [] => none
  | b :: t =>
    if b.code = a.code ∧ b.secs = a.secs then some ({ b with count := min 0xFFFF (b.count + 1) } :: t)
    else (repeatAlarm a t).map (b :: ·)

def logAlarm (l : List Alarm) (a : Alarm) : List Alarm := (repeatAlarm a l).getD (addAlarm l a)

/-- Level 1 (R461): an alarm record is written and SEC_ALARM is raised. -/
def State.alarmRecord (s : State) (code level : Nat) : State :=
  let a : Alarm := ⟨s.calSecs, s.calFrac, code, level, s.cpByte, 0⟩
  let s1 : State := { s with
    umc := { s.umc with alarms := logAlarm s.umc.alarms a, alevel := max s.umc.alevel level }
    sec := { s.sec with level := max s.sec.level level } }
  s1.raiseEv 0x0701 0 (leBytes 1 code ++ leBytes 1 level ++ leBytes 6 s.calSecs)

/-- The key store erases the seed and the private key (R461, level 2). -/
def State.zeroise (s : State) (code : Nat) : State :=
  let s1 : State := { s with
    umc := { s.umc with zeroised := true }
    sec := { s.sec with keys := if s.sec.keys = .ready then .zeroised else s.sec.keys, seed := 0, privKey := 0 } }
  s1.raiseEv 0x0702 0 (leBytes 1 code)

/-- ALARM_LEVEL_ACTION (R461). -/
def State.alarm (s : State) (code level : Nat) : State :=
  let s1 := s.alarmRecord code level
  if level < 2 then s1
  else
    let s2 := s1.zeroise code
    if level < 3 then s2
    else
      let s3 := s2.railsOff
      let s4 : State := { s3 with umc := { s3.umc with tamper := true, zeroised := true, offByCommand := false, autoDue := false } }
      s4.recordReset 4

/-! ## The derived MAC (R360, R454) -/

/-- The MAC formed from six bytes of a digest: bit 1 of byte 0 set, bit 0 cleared. -/
def macOfDigest (d : Digest) : Mac :=
  BitVec.ofNat 48 (beNat ((digestBytes d).take 6)) &&& 0xFEFFFFFFFFFF ||| 0x020000000000

/-- The identity key's hash, which IDENT returns; zero where the store holds no public key (log 96). -/
def State.keyHash (s : State) : Digest := if s.sec.pubKey = [] then 0 else sha384 s.sec.pubKey

/-- The derived MAC: from the public key's hash, or 0A:5A and the serial number after PUF_FAIL. -/
def State.derivedMac (s : State) : Mac :=
  if s.sec.keys = .pufFailed then BitVec.ofNat 48 (0x0A5A * 2 ^ 32 + s.part.serial.toNat)
  else macOfDigest s.keyHash

/-- The boot ROM derives the identity key (R454); the key store keeps what it holds over a warm reset, and while ZEROISED is set it keeps no
seed and no private key (R449, R461). -/
def State.deriveKeys (s : State) (pufOk : Bool) : State :=
  if s.umc.warm ∧ s.sec.keys ≠ .none then s
  else if !pufOk then { s with sec := { s.sec with keys := .pufFailed } }
  else
    let seed := Config.pufSeed s.part.pufHelper
    let d := privateKey seed
    { s with sec := { s.sec with
        keys := if s.umc.zeroised then .zeroised else .ready
        seed := if s.umc.zeroised then 0 else seed
        privKey := if s.umc.zeroised then 0 else d
        pubKey := ecPublic d } }

/-! ## The rows -/

/-- The supercapacitor held the calendar clock over `elapsedUs` without standby power: charged, for at least 72 hours (R490); otherwise, or
beyond that, what the row says (log 97). -/
def State.clockHeld (s : State) (held : Bool) (elapsedUs : Nat) : Bool :=
  held || (s.umc.charged && decide (elapsedUs ≤ 72 * 3600 * 1000000))

/-- STANDBY_POWER_UP (R449 code 0, R484): the straps are sampled, LAST_RESET 0 is recorded, and with AUTO_ON set UMC_POWER 1 is
carried out once the input is in range. -/
def execStandbyPowerUp (siteB laneSel held : Bool) (elapsedUs : Nat) (s : State) : Host.Outcome State Fault Refusal :=
  let kept := s.clockHeld held elapsedUs
  let u : Umc := {
    siteB := siteB, laneSel := laneSel, standby := true, standbySince := s.us
    inputMv := s.umc.inputMv, precharged := s.umc.precharged
    autoOn := kept && s.umc.autoOn, autoDue := kept && s.umc.autoOn, calValid := kept && s.umc.calValid
    calUs := if kept then s.umc.calUs + elapsedUs else 0 }
  let t := ({ s.hubReset with umc := u, regs := [], queues := [] } : State).recordReset 0
  guarded (!s.umc.standby) s (if u.autoOn then t.powerOn else t)

/-- STANDBY_LOST (R465, R488): Urhild stops and the main rails are removed; the calendar clock and AUTO_ON survive. Thirty minutes of standby
power have charged the supercapacitor (R490). -/
def execStandbyLost (s : State) : Host.Outcome State Fault Refusal :=
  let u : Umc := {
    charged := decide (1800000000 ≤ s.us - s.umc.standbySince)
    autoOn := s.umc.autoOn, calValid := s.umc.calValid, calUs := s.umc.calUs
    inputMv := s.umc.inputMv, precharged := s.umc.precharged }
  guarded s.umc.standby s { s.hubReset with umc := u, regs := [], queues := [] }

/-- The input monitor sees a new voltage: the main input that comes into range first after a standby power-up with AUTO_ON set powers the
module up (R449, R487). -/
def State.inputAt (s : State) (mv : Nat) : State :=
  let t : State := { s with umc := { s.umc with inputMv := mv, precharged := true } }
  if t.umc.autoDue && t.umc.autoOn && !t.mainOn then t.powerOn else t

/-- MAIN_INPUT_APPLIED (R487): every voltage has the rule's effect; damage above 60 V (R486) is not modelled (log 49). -/
def execMainInputApplied (millivolts : Nat) (s : State) : Host.Outcome State Fault Refusal :=
  .next (s.inputAt millivolts)

/-- INPUT_OK_CHANGE (R487). -/
def execInputOkChange (millivolts : Nat) (s : State) : Host.Outcome State Fault Refusal :=
  .next (s.inputAt millivolts)

/-- MAIN_INPUT_FAULT (R487, R449 code 5): outside 44 to 57 V for 20 µs with the rails on. -/
def execMainInputFault (millivolts : Nat) (s : State) : Host.Outcome State Fault Refusal :=
  let t := s.railsOff
  let t1 : State := { t with umc := { t.umc with inputMv := millivolts, offByCommand := false } }
  guarded (s.mainOn && decide (millivolts < 44000 ∨ 57000 < millivolts)) s (t1.recordReset 5)

/-- RAIL_POWER_GOOD_TIMEOUT (R450): the sequence stops and the rails are removed. -/
def execRailPowerGoodTimeout (_rail : Nat) (s : State) : Host.Outcome State Fault Refusal :=
  guarded (s.umc.phase == .rails && !s.umc.warm) s s.railsOff

/-- PLL_LOCK_FAILURE (R450): as a rail failure, while the sequence still runs. -/
def execPllLockFailure (s : State) : Host.Outcome State Fault Refusal :=
  guarded (s.mainOn && !(List.range 8).any fun i => (s.stack i).trained) s s.railsOff

/-- HUB_RESET_RELEASE (R450, 5 ms): the boot ROM derives the identity (R454), sets the derived MAC and starts host port training.
After a warm reset the hub has lost its port clock, which is loaded again (R367). -/
def execHubResetRelease (pufOk : Bool) (s : State) : Host.Outcome State Fault Refusal :=
  let derived := s.deriveKeys pufOk
  let s0 := if s.umc.warm then derived.loadPortClock else derived
  let s1 : State := { s0 with
    umc := { s.umc with phase := .hub, warm := false, tripSensor := none }
    cp := .boot }
  let s2 : State := { s1 with host := { s1.host with
    mac := s1.derivedMac, lanes := s.umc.laneSel } }
  let s3 := s2.setReg .host 0 0x10 (s2.reg .host 0 0x10 ||| BitVec.ofNat 32 (b2n s.umc.laneSel * 2 ^ 30))
  let s4 := s3.raiseReset
  let s5 := match s.umc.tripSensor with
    | some (n, c) => s4.raiseEv 0x0606 0 (leBytes 1 n ++ leBytes 1 c)
    | none => s4
  let s6 := if derived.sec.keys = .pufFailed ∧ s.sec.keys ≠ .pufFailed then (s5.raiseEv 0x0704 0 []).alarm 10 2 else s5
  guarded (s.umc.phase == .rails) s s6

/-- DIE_RESET_RELEASE (R450, 10 ms). -/
def execDieResetRelease (s : State) : Host.Outcome State Fault Refusal :=
  guarded (s.umc.phase == .hub) s { s with umc := { s.umc with phase := .dies } }

/-- TARN_TRAINING_DONE (R450): every line of the stack is zero with a valid code, and its TRN registers accept writes. -/
def execTarnTrainingDone (stack : Nat) (s : State) : Host.Outcome State Fault Refusal :=
  let lo := stack * 2 ^ 37
  let hi := lo + 2 ^ 37
  let s1 : State := { s with
    mem := Bank.drop (fun k => decide (lo ≤ k ∧ k < hi)) s.mem
    undef := carve lo hi s.undef }
  guarded (s.umc.phase == .dies && decide (stack < 8) && !(s.stack stack).trained) s
    (s1.setStack stack { s1.stack stack with trained := true, poison := [] })

/-- MESH (R460): level 3. -/
def execMesh (s : State) : Host.Outcome State Fault Refusal := guarded s.umc.standby s (s.alarm 1 3)

/-- COVER (R460): level 3, sensed on standby power. -/
def execCover (s : State) : Host.Outcome State Fault Refusal := guarded s.umc.standby s (s.alarm 2 3)

/-- VGLITCH_CORE (R460): level 2; there is a core or hub rail only with main power on. -/
def execVglitchCore (s : State) : Host.Outcome State Fault Refusal := guarded s.mainOn s (s.alarm 3 2)

/-- VGLITCH_STBY (R460): level 2. -/
def execVglitchStby (s : State) : Host.Outcome State Fault Refusal := guarded s.umc.standby s (s.alarm 4 2)

/-- REFCLK_DRIFT (R460): level 1; REFCLK is needed only while the main rails are on (R491). -/
def execRefclkDrift (s : State) : Host.Outcome State Fault Refusal := guarded s.mainOn s (s.alarm 5 1)

/-- DEBUG_PORT (R460): level 1. -/
def execDebugPort (s : State) : Host.Outcome State Fault Refusal := guarded s.umc.standby s (s.alarm 8 1)

end Sys2Proof.Machine
end

