-- ==== Sys2Proof/Machine/PowerCtl.lean ====
section
/-! DEFINITION. Clock steps, the power limit, droop, margin trim, ageing and temperature (R416 to R443). -/
namespace Sys2Proof.Machine

/-! ## The limit and the averages (R422, R423) -/

/-- LIM := min(PWR_LIMIT, PWR_CEIL) in W (R423). -/
def State.lim (s : State) : Nat := min (s.field .pwr 0 0x10 0 12) (s.field .pwr 0 0x14 0 12)

def State.hyst (s : State) : Nat := s.field .pwr 0 0x18 0 8

def State.capStep (s : State) : Nat := s.field .pwr 0 0x18 16 3

/-- The sum of the last `n` samples: `n` times the sliding average; samples not yet taken count 0 (log 15). -/
def State.powerSum (s : State) (n : Nat) : Nat := (s.pwr.samples.take n).foldl (· + ·) 0

/-- The duty D (R425). -/
def State.duty (s : State) : Nat := min s.pwr.dSlow s.pwr.dFast

/-- f(k) in units of 125 MHz (R420). -/
def stepFreq (k : Nat) : Nat := 8 - k

/-- P1 is above LIM. -/
def State.overLimit (s : State) : Bool := decide (s.lim * 1000 < s.powerSum 1000)

/-- P1 is at or below LIM − HYST. -/
def State.underLimit (s : State) : Bool := decide (s.powerSum 1000 ≤ (s.lim - s.hyst) * 1000)

/-- Sets the two duties; D falling below 8 raises DUTY_GATE (R425, R441). -/
def State.setDuty (s : State) (slow fast : Nat) : State :=
  let t : State := { s with pwr := { s.pwr with dSlow := slow, dFast := fast } }
  if s.duty = 8 ∧ t.duty < 8 then
    t.raiseLimited 0x0604 0 0 fun _ => leBytes 4 t.duty ++ leBytes 4 (s.powerSum 1000 / 1000)
  else t

/-! ## Switches (R420, R421) -/

def causeCode : SwitchCause → Nat
  | .limit => 0
  | .fast => 1
  | .thermal => 2
  | .capStep => 3
  | .up => 4

/-- Sets a target; the controller carries out one switch at a time (R421). -/
def State.startSwitch (s : State) (target : Nat) (c : SwitchCause) : State :=
  if target ≠ s.pwr.step ∧ s.pwr.switching.isNone then
    { s with pwr := { s.pwr with switching := some (target, c, []) } }
  else s

/-- PWR_FAST (R426): P20 exceeds 3,100 W. -/
def State.fastTrip (s : State) : State :=
  let t := s.setDuty s.pwr.dSlow (min s.pwr.dFast 2)
  let t1 := if s.pwr.switching.isSome then { t with pwr := { t.pwr with fastPending := true } }
    else if s.pwr.step < 4 then t.startSwitch (s.pwr.step + 1) .fast else t
  t1.raiseEv 0x0602 0 (leBytes 4 (s.powerSum 20 / 20))

/-- One microsecond more on each port whose data priority the peer pauses (R334). -/
def State.countPauses (s : State) : State :=
  s.fab.ports.foldl (fun (t : State) e =>
    if e.2.paused.contains (t.field .cePort e.1 0x10 28 3) then t.bump .cePort e.1 0x40 1 else t) s

/-- POWER_SAMPLE (R422, R439): one microsecond. The sample enters the averages and the energy counter, the clocks advance, and the
fast ceiling is tested. With the main rails off there is nothing to sample, and only the time base and the calendar go on. -/
def execPowerSample (watts : Nat) (s : State) : Host.Outcome State Fault Refusal :=
  let uj := s.pwr.energyUj + watts
  let s1 : State := { s with
    us := s.us + 1
    umc := { s.umc with calUs := s.umc.calUs + 1 }
    host := { s.host with clockNs := s.host.clockNs + 1000 }
    pwr := { s.pwr with samples := (watts :: s.pwr.samples).take 1000, energyUj := uj % 1000 } }
  let s2 := s1.bump64 .pwr 0 0x60 (uj / 1000)
  let s3 := (if s.duty < 8 then s2.bump .pwr 0 0x70 1 else s2).countPauses
  if s.mainOn then .next (if 3100 * 20 < s3.powerSum 20 then s3.fastTrip else s3)
  else guarded s.umc.standby s { s with us := s.us + 1, umc := { s.umc with calUs := s.umc.calUs + 1 } }

/-- STEP_EVALUATION (R424). -/
def execStepEvaluation (s : State) : Host.Outcome State Fault Refusal :=
  let k := s.pwr.step
  let upTo (n : Nat) : State := { s with pwr := { s.pwr with up := n } }
  let hot := decide (s.lim * 100 < s.powerSum 100)
  let t :=
    if k < s.capStep then (upTo 0).startSwitch s.capStep .capStep
    else if k < 4 ∧ (hot || s.pwr.throttle) then (upTo 0).startSwitch (k + 1) (if hot then .limit else .thermal)
    else if s.capStep < k ∧ s.pwr.throttle = false ∧
        s.powerSum 100 * stepFreq (k - 1) ≤ (s.lim - s.hyst) * 100 * stepFreq k then
      if s.pwr.up + 1 = 10 then (upTo 0).startSwitch (k - 1) .up else upTo (s.pwr.up + 1)
    else upTo 0
  guarded s.mainOn s t

/-- A step up that no die has carried out yet is blocked while throttle holds (R437, R440); a fast trip that waited for it has its step down
now (R426). -/
def State.blockUp (s : State) : State :=
  match s.pwr.switching with
  | some (_, .up, []) =>
    let t : State := { s with pwr := { s.pwr with switching := none, fastPending := false } }
    if s.pwr.fastPending ∧ s.pwr.step < 4 then t.startSwitch (s.pwr.step + 1) .fast else t
  | _ => s

/-- FREQ_SWITCH (R421, R428): one die moves to the new step, once no region has a droop response in progress and 256 cycles have
passed since the last; the step in force changes when the last die has switched. A CAP_STEP written meanwhile that is slower than the
new step, or a fast trip, has its own switch then (R420, R440). -/
def execFreqSwitch (die quietCycles : Nat) (s : State) : Host.Outcome State Fault Refusal :=
  match s.pwr.switching with
  | none => .next s
  | some (target, c, done) =>
    let done' := die :: done
    let t :=
      if done'.length < 4 then { s with pwr := { s.pwr with switching := some (target, c, done') } }
      else
        let t1 : State := { s with pwr := { s.pwr with step := target, switching := none, fastPending := false } }
        let t2 := (t1.bump .pwr 0 0x68 1).raiseLimited 0x0601 0 0 fun n =>
          leBytes 1 s.pwr.step ++ leBytes 1 target ++ leBytes 2 (causeCode c) ++ leBytes 4 n
        if target < s.capStep then t2.startSwitch s.capStep .capStep
        else if s.pwr.fastPending ∧ target < 4 then t2.startSwitch (target + 1) .fast else t2
    guarded (decide (die < 4) && !done.contains die && s.pwr.droop.isEmpty && decide (256 ≤ quietCycles)) s t

/-- D_SLOW_NARROW (R425). -/
def execDSlowNarrow (s : State) : Host.Outcome State Fault Refusal :=
  guarded (s.mainOn && s.overLimit) s (s.setDuty (max 1 (s.pwr.dSlow - 1)) s.pwr.dFast)

/-- D_SLOW_WIDEN (R425). -/
def execDSlowWiden (s : State) : Host.Outcome State Fault Refusal :=
  guarded (s.mainOn && decide (s.pwr.dSlow < 8) && s.underLimit) s (s.setDuty (s.pwr.dSlow + 1) s.pwr.dFast)

/-- D_FAST_RECOVERY (R426). -/
def execDFastRecovery (s : State) : Host.Outcome State Fault Refusal :=
  guarded (s.mainOn && decide (s.powerSum 20 ≤ 2900 * 20)) s (s.setDuty s.pwr.dSlow (min 8 (s.pwr.dFast + 1)))

/-- What a write of PWR_CTRL does beside storing it (R420): a CAP_STEP slower than the step starts a switch straight to it. -/
def State.capEffect (s : State) : State :=
  if s.pwr.step < s.capStep then s.startSwitch s.capStep .capStep else s

/-! ## Droop (R427 to R429) -/

def dieDefault (_ : Nat) : Die := {}

def State.die (s : State) (d : Nat) : Die := Bank.get dieDefault s.pwr.dies d

def State.setDie (s : State) (d : Nat) (x : Die) : State :=
  { s with pwr := { s.pwr with dies := Bank.put dieDefault s.pwr.dies d x } }

/-- The untrimmed set point in mV (R430). -/
def State.untrimmed (s : State) : Nat := 750 + s.field .pwr 0 0x24 0 5

/-- The set point of a die's rail in mV: while the rail rises, that which it rises to (R434). -/
def State.setPoint (s : State) (d : Nat) : Nat := if (s.die d).rising then s.untrimmed else (s.die d).railMv

/-- A rail reading lies below a die's set point less PWR_DROOP.THRESH (R427). -/
def State.drooped (s : State) (d railMv : Nat) : Bool := decide (railMv + s.field .pwr 0 0x1C 0 8 < s.setPoint d)

/-- DROOP_RESPONSE (R427): the region's cycles are stretched until the response ends. Region r is on die r / 4. -/
def execDroopResponse (sense : DroopSense) (s : State) : Host.Outcome State Fault Refusal :=
  let r := sense.region
  let t : State := { s with pwr := { s.pwr with droop := r :: s.pwr.droop } }
  guarded (s.umc.phase == .dies && decide (r < 16) && !s.pwr.droop.contains r && s.drooped (r / 4) sense.railMv) s
    (t.raiseLimited 0x0603 0 r fun n => leBytes 4 r ++ leBytes 4 n)

/-- DROOP_HOLD_END (R427): HOLD stretched cycles have passed since the rail's recovery. -/
def execDroopHoldEnd (region cycles : Nat) (s : State) : Host.Outcome State Fault Refusal :=
  let t : State := { s with pwr := { s.pwr with droop := s.pwr.droop.filter (· != region) } }
  guarded (s.pwr.droop.contains region && decide (s.field .pwr 0 0x1C 8 8 ≤ cycles)) s (t.bump .pwr 0 0x6C cycles)

/-! ## Margin trim (R430 to R436) -/

/-- A die whose rail lies below its untrimmed set point is trimmed (R433). -/
def State.trimmed (s : State) (d : Nat) : Bool := decide ((s.die d).railMv < s.untrimmed)

/-- Trim entry `i` as PWR_TRIM_DATA holds it. -/
def State.trim (s : State) (i : Nat) : Word := Bank.get (fun _ => 0x803C) s.pwr.trims i

/-- The ACTIVITY of a Facet (R119). -/
def State.activity (s : State) (f : Nat) : Nat := Bank.get (fun _ => 0) s.pwr.activity f

/-- A Facet that may be bound and run tasks: FCT_CTRL.ENABLE is 1. -/
def State.usable (s : State) (f : Nat) : Bool := bit (s.reg .fct f 0) 0

/-- The activity of a die: the largest over its usable Facets (R432). -/
def State.dieActivity (s : State) (d : Nat) : Nat :=
  (List.range 160).foldl (fun m i => if s.usable (160 * d + i) then max m (s.activity (160 * d + i)) else m) 0

/-- Sets a Facet's activity: the die's peak and PWR_CAL.PEAK follow it (R433, R436). -/
def State.setActivity (s : State) (f a : Nat) : State :=
  let d := f / 160
  let x := s.die d
  let t := s.setDie d { x with peak := max x.peak a }
  { t with pwr := { t.pwr with
      activity := Bank.put (fun _ => 0) t.pwr.activity f a
      calPeak := if s.field .pwr 0 0x38 28 2 = d then max t.pwr.calPeak a else t.pwr.calPeak } }

/-- The widest slice of a Facet in eighths (R432): its die's cap, which does not hold for CNM. -/
def State.width (s : State) (f : Nat) (cnm : Bool) : Nat := if cnm then 8 else min 8 (s.die (f / 160)).cap

/-- A Facet issues slices at its widest (R109, R432); the steps of a ramp are timing. -/
def State.issueWide (s : State) (f : Nat) (cnm : Bool) : State :=
  let t : State := { s with pwr := { s.pwr with uncapped :=
    let l := s.pwr.uncapped.filter (· != f)
    if cnm then f :: l else l } }
  t.setActivity f (t.width f cnm)

/-- The Facets of a die that issue follow a new cap (R432 to R434). -/
def State.recap (s : State) (d : Nat) : State :=
  (List.range 160).foldl (fun (t : State) i =>
    let f := 160 * d + i
    if s.activity f = 0 then t else t.setActivity f (s.width f (s.pwr.uncapped.contains f))) s

/-- The valid entries of die `d` that cover activity `a`, as (MARGIN, TAG) (R431, R433). -/
def State.covering (s : State) (d a : Nat) : List (Nat × Nat) :=
  (List.range 8).filterMap fun i =>
    let v := s.trim (8 * d + i)
    if bit v 31 ∧ a ≤ min 8 (bits v 12 4 + 1) then some (bits v 0 6, bits v 12 4) else none

/-- The entry with the smallest MARGIN, then the smallest TAG. -/
def bestTrim : List (Nat × Nat) → Option (Nat × Nat)
  | [] => none
  | e :: t =>
    match bestTrim t with
    | none => some e
    | some b => if e.1 < b.1 ∨ (e.1 = b.1 ∧ e.2 ≤ b.2) then some e else some b

/-- The rail starts its way up to the untrimmed set point (R434); a die already there has cap 8 at once. -/
def State.raiseRail (s : State) (d : Nat) : State :=
  if s.trimmed d then s.setDie d { s.die d with rising := true }
  else (s.setDie d { s.die d with cap := 8, rising := false }).recap d

/-- The entry that a die chooses: none where its trims are disabled (R433, R435). -/
def State.trimChoice (s : State) (d : Nat) : Option (Nat × Nat) :=
  if (s.die d).aged then none else bestTrim (s.covering d (max (s.die d).peak (s.dieActivity d)))

/-- The peak of the millisecond that begins: the activity that is held then. -/
def State.restartPeak (s : State) (d : Nat) : State := s.setDie d { s.die d with peak := s.dieActivity d }

/-- TRIM_CHOICE (R433). -/
def execTrimChoice (die : Nat) (s : State) : Host.Outcome State Fault Refusal :=
  let x := s.die die
  let t :=
    match s.trimChoice die with
    | some (m, tag) => (s.setDie die { x with
        cap := min 8 (tag + 1), railMv := if x.forced then x.railMv else 690 + m, rising := false }).recap die
    | none => if x.forced then s else s.raiseRail die
  guarded (s.umc.phase == .dies && decide (die < 4)) s (t.restartPeak die)

/-- TRIM_EXIT (R434): the cap holds back a slice on a trimmed die. -/
def execTrimExit (die : Nat) (s : State) : Host.Outcome State Fault Refusal :=
  guarded (s.umc.phase == .dies && decide (die < 4) && s.trimmed die && !(s.die die).forced && decide ((s.die die).cap < 8))
    s (s.raiseRail die)

/-- RAIL_REACHED (R434): the cap is lifted to 8 when the regulator reports the rail reached. -/
def execRailReached (die : Nat) (s : State) : Host.Outcome State Fault Refusal :=
  guarded (decide (die < 4) && (s.die die).rising) s
    ((s.setDie die { s.die die with railMv := s.untrimmed, cap := 8, rising := false }).recap die)

/-- The smallest slack a die has reported since the last read (R435). -/
def State.ageOf (s : State) (d : Nat) : Nat := Bank.get (fun _ => 0xFF) s.pwr.age d

/-- AGE_REPORT (R435, R436). -/
def execAgeReport (die region slack : Nat) (s : State) : Host.Outcome State Fault Refusal :=
  let s1 : State := { s with pwr := { s.pwr with age := Bank.put (fun _ => 0xFF) s.pwr.age die (min (s.ageOf die) (min slack 0xFF)) } }
  let low := decide (slack < s.field .pwr 0 0x28 0 8)
  let x := s.die die
  let how := if x.forced then 2 else if s.trimmed die then 0 else 1
  let s2 := if x.forced || s.trimmed die then
      (s1.setDie die { x with forced := false, aged := x.aged || s.trimmed die }).raiseRail die
    else s1
  let s3 := if low then s2.raiseEv 0x0607 0 (leBytes 1 die ++ leBytes 1 region ++ leBytes 1 slack ++ leBytes 1 how) else s1
  guarded (s.umc.phase == .dies && decide (die < 4) && decide (region / 4 = die)) s s3

/-- What a write of PWR_TRIM_DATA does (R431): the entry at INDEX is stored, and INDEX advances by one. -/
def State.trimWrite (s : State) (v : Word) : State :=
  let i := s.field .pwr 0 0x30 0 5
  let t : State := { s with pwr := { s.pwr with trims := Bank.put (fun _ => 0x803C) s.pwr.trims i v } }
  t.setReg .pwr 0 0x30 (BitVec.ofNat 32 ((i + 1) % 32))

/-- What a write of PWR_CAL does (R436): EN can be set only before CONFIG_END and stays set; PEAK restarts from
the activity of DIE; with EN, FORCE holds
the rail of DIE at 0.690 V + MARGIN, and a die that is no longer forced goes back to its untrimmed rail. -/
def State.calWrite (s : State) (v : Word) : State :=
  let old := s.reg .pwr 0 0x38
  let en := bit old 31 || (bit v 31 && s.configOpen)
  let w := (v &&& 0x7FFFFFFF) ||| BitVec.ofNat 32 (b2n en * 2 ^ 31)
  let s1 := s.setReg .pwr 0 0x38 w
  let s2 : State := { s1 with pwr := { s1.pwr with calPeak := s.dieActivity (bits v 28 2) } }
  let free := (List.range 4).foldl (fun t d =>
    if (t.die d).forced then (t.setDie d { t.die d with forced := false }).raiseRail d else t) s2
  if en && bit w 30 then
    let d := bits w 28 2
    free.setDie d { free.die d with forced := true, railMv := 690 + bits w 16 6, rising := false }
  else free

/-- What a write of PWR_GUARD does (R435): it applies at once to every untrimmed die. `old` is the state before the write. -/
def State.guardEffect (old s : State) : State :=
  (List.range 4).foldl (fun t d =>
    if old.trimmed d || (old.die d).forced then t else t.setDie d { t.die d with railMv := t.untrimmed }) s

/-! ## Temperature (R437, R438) -/

/-- The sensor numbers of THERM_THROTTLE records (R441). -/
def sensorNo : TempSensor → Nat
  | .die d i => 4 * d + i
  | .hub i => 16 + i
  | .tarn s => 24 + s

def sensorOk : TempSensor → Bool
  | .die d i => decide (d < 4 ∧ i < 4)
  | .hub i => decide (i < 2)
  | .tarn s => decide (s < 8)

def isTarn : TempSensor → Bool
  | .tarn _ => true
  | _ => false

def State.temp (s : State) (n : Nat) : Int := Bank.get (fun _ => 0) s.pwr.temps n

def State.setTemp (s : State) (x : TempSensor) (c : Int) : State :=
  { s with pwr := { s.pwr with temps := Bank.put (fun _ => 0) s.pwr.temps (sensorNo x) c } }

/-- PWR_THERM.THROTTLE. -/
def State.throttleAt (s : State) : Int := (s.field .pwr 0 0x20 0 8 : Nat)

def dieHubSensors : List Nat := List.range 18

def tarnSensors : List Nat := (List.range 8).map (24 + ·)

/-- The throttle condition begins (R437). -/
def State.tooHot (s : State) : Bool :=
  dieHubSensors.any (fun n => decide (s.throttleAt ≤ s.temp n)) || tarnSensors.any (fun n => decide (95 ≤ s.temp n))

/-- The throttle condition clears (R437). -/
def State.cool (s : State) : Bool :=
  dieHubSensors.all (fun n => decide (s.temp n ≤ s.throttleAt - 5)) && tarnSensors.all (fun n => decide (s.temp n ≤ 90))

/-- The first sensor, by number, that makes the condition begin. -/
def State.hotSensor (s : State) : Nat :=
  ((dieHubSensors.find? fun n => decide (s.throttleAt ≤ s.temp n)).orElse fun _ => tarnSensors.find? fun n => decide (95 ≤ s.temp n)).getD 0

/-- The throttle condition follows the readings and PWR_THERM (R437): it begins, with its event, or clears. -/
def State.evalThrottle (s : State) : State :=
  if s.pwr.throttle then (if s.cool then { s with pwr := { s.pwr with throttle := false } } else s)
  else if s.tooHot then
    let t := ({ s with pwr := { s.pwr with throttle := true } } : State).blockUp
    t.raiseEv 0x0605 0 (leBytes 1 s.hotSensor ++ leBytes 1 (s.temp s.hotSensor).toNat)
  else s

/-- THERM_THROTTLE (R437): a sensor's reading, which PWR_TEMP shows from then on. -/
def execThermThrottle (sensor : TempSensor) (celsius : Int) (s : State) : Host.Outcome State Fault Refusal :=
  guarded (s.umc.phase == .dies && sensorOk sensor) s (s.setTemp sensor celsius).evalThrottle

/-- THROTTLE_CLEAR (R437): readings of several sensors; where they bring every sensor to its clear level or below, throttle clears. -/
def execThrottleClear (readings : List (TempSensor × Int)) (s : State) : Host.Outcome State Fault Refusal :=
  let t := readings.foldl (fun u r => u.setTemp r.1 r.2) s
  guarded (s.umc.phase == .dies && readings.all (fun r => sensorOk r.1)) s t.evalThrottle

/-- THERM_TRIP (R438, R449 code 3): the rails are removed and Urhild latches the trip; with TAMPER set LAST_RESET reads 4. -/
def execThermTrip (sensor : TempSensor) (celsius : Int) (s : State) : Host.Outcome State Fault Refusal :=
  let t := s.railsOff
  let t1 : State := { t with umc := { t.umc with
    trip := true, tripSensor := some (sensorNo sensor, celsius.toNat), offByCommand := false } }
  guarded (s.mainOn && sensorOk sensor && decide ((if isTarn sensor then 105 else 115) ≤ celsius)) s
    (t1.recordReset (if s.umc.tamper then 4 else 3))

/-- TARN_REFRESH_DOUBLING (R437): timing only. -/
def execTarnRefreshDoubling (stack : Nat) (celsius : Int) (s : State) : Host.Outcome State Fault Refusal :=
  let t := (s.setTemp (.tarn stack) celsius).evalThrottle
  let l := t.pwr.refresh2.filter (· != stack)
  guarded (s.umc.phase == .dies && decide (stack < 8)) s
    { t with pwr := { t.pwr with refresh2 := if 85 < celsius then stack :: l else l } }

/-- TEMP_LOW (R460): level 2, a hub sensor below −20 °C while main power is on. -/
def execTempLow (sensor : Nat) (celsius : Int) (s : State) : Host.Outcome State Fault Refusal :=
  guarded (s.mainOn && decide (sensor < 2) && decide (celsius < -20)) s ((s.setTemp (.hub sensor) celsius).evalThrottle.alarm 7 2)

/-! ## Clock faults (R419) -/

/-- CLK_FAULT: the module is marked faulted. A die that stops answering marks it too, with no event of its own (R20, log 91). -/
def State.clkFault (s : State) (cause : ClkCause) (n : Nat) : State :=
  (match cause with
   | .pll => s.raiseEv 0x0608 0 (leBytes 1 0 ++ leBytes 1 0)
   | .crossing => s.raiseEv 0x0608 0 (leBytes 1 1 ++ leBytes 1 n)
   | .silent => s).markFaulted

/-- CLK_FAULT (R419, R20). -/
def execClkFault (cause : ClkCause) (n : Nat) (s : State) : Host.Outcome State Fault Refusal :=
  guarded s.hubUp s (s.clkFault cause n)

/-- REFCLK_LOSS (R460, R498): level 2, and the PLLs unlock. -/
def execRefclkLoss (s : State) : Host.Outcome State Fault Refusal :=
  guarded s.mainOn s ((s.alarm 6 2).clkFault .pll 0)

end Sys2Proof.Machine
end

