-- ==== Sys2Proof/Machine/HostPort.lean ====
section
/-! DEFINITION. The host port and the management port: which frames they accept (R359, R446), the egress allow-list and limits (R363
to R365), the replies hardware gives (R362), and precision time (R366, R367). -/
namespace Sys2Proof.Machine

/-! ## Addresses (R361, R446) -/

/-- The link-local address of a MAC: fe80::/64 with the modified EUI-64 identifier. -/
def linkLocal (m : Mac) : BitVec 128 :=
  let n := m.toNat
  let hi := n / 2 ^ 24
  let hi' := if hi / 2 ^ 17 % 2 = 0 then hi + 2 ^ 17 else hi - 2 ^ 17
  BitVec.ofNat 128 (0xFE80 * 2 ^ 112 + hi' * 2 ^ 40 + 0xFFFE * 2 ^ 24 + n % 2 ^ 24)

def State.ctrlBit (s : State) (i : Nat) : Bool := bit (s.reg .host 0 0x10) i

def State.hostIp4 (s : State) : BitVec 32 := s.reg .host 0 0x20

def State.hostIp6 (s : State) : BitVec 128 :=
  (s.reg .host 0 0x30) ++ (s.reg .host 0 0x34) ++ (s.reg .host 0 0x38) ++ (s.reg .host 0 0x3C)

/-- The addresses of the host port in force (R361). -/
def State.hostHas (s : State) : Ip → Bool
  | .v4 a => s.ctrlBit 25 && a == s.hostIp4
  | .v6 a => a == linkLocal s.host.mac || (s.ctrlBit 24 && a == s.hostIp6)

/-- The management MAC: 0A:5B and the serial number (R446). -/
def State.mgmtMac (s : State) : Mac := BitVec.ofNat 48 (0x0A5B * 2 ^ 32 + s.part.serial.toNat)

def State.mgmtHas (s : State) : Ip → Bool
  | .v4 a => s.reg .umc 0 0x20 != 0 && a == s.reg .umc 0 0x20
  | .v6 a => a == linkLocal s.mgmtMac

def State.udpPort (s : State) : Nat := s.field .host 0 0x1C 0 16

/-! ## Which frames are accepted -/

def ptpTransportCode : PtpTransport → Nat
  | .udp4 => 0
  | .udp6 => 1
  | .eth => 2

/-- The header of a frame that the host port sends (R362): tagged, with the VID of the request or else HOST_CTRL.VID, while TAGGED is 1. -/
def State.hostHdr (s : State) (src dst : Mac) (vid : Option Nat) : EthHdr :=
  ⟨.host, src, dst, if s.ctrlBit 29 then some (vid.getD (s.field .host 0 0x10 12 12), s.field .host 0 0x10 26 3) else none⟩

/-- The header of a frame that the management port sends: untagged (R446). -/
def State.mgmtHdr (s : State) (dst : Mac) : EthHdr := ⟨.mgmt, s.mgmtMac, dst, none⟩

/-- The tagging matches HOST_CTRL (R359). -/
def State.tagOk (s : State) (f : EthFrame) : Bool :=
  !f.stacked && (if s.ctrlBit 29 then f.vid == some (s.field .host 0 0x10 12 12) else f.vid == none || f.vid == some 0)

/-- The host port accepts the frame (R358, R359). -/
def State.hostAccepts (s : State) (f : EthFrame) : Bool :=
  f.fcsOk && decide (64 ≤ f.len ∧ f.len ≤ 9022) && s.tagOk f &&
  match f.body with
  | .arpRequest t => s.hostHas (.v4 t) && (f.group || f.dstMac == s.host.mac)
  | .neighborSolicitation t opt frag => s.hostHas (.v6 t) && (f.group || f.dstMac == s.host.mac) && !opt && !frag
  | .echoRequest _ d opt frag _ => s.hostHas d && !opt && !frag
  | .ptp t dom m opt frag _ =>
    bit (s.reg .host 0 0x50) 31 && m && !opt && !frag && decide (ptpTransportCode t = s.field .host 0 0x50 29 2) &&
      decide (dom = s.field .host 0 0x50 16 8)
  | .udp _ d _ p ok opt frag _ =>
    f.dstMac == s.host.mac && s.hostHas d && decide (p = s.udpPort) && ok && !opt && !frag
  | .other => false

/-- The management port accepts the frame (R446): an untagged frame of IEEE 802.3 is 64 to 1,518 bytes long, a longer one a jumbo frame,
and a fragment is no datagram or request (log 20). -/
def State.mgmtAccepts (s : State) (f : EthFrame) : Bool :=
  f.fcsOk && decide (64 ≤ f.len ∧ f.len ≤ 1518) && f.vid.isNone && !f.stacked &&
  match f.body with
  | .arpRequest t => s.mgmtHas (.v4 t) && (f.group || f.dstMac == s.mgmtMac)
  | .neighborSolicitation t _ frag => s.mgmtHas (.v6 t) && (f.group || f.dstMac == s.mgmtMac) && !frag
  | .echoRequest _ d _ frag _ => s.mgmtHas d && !frag
  | .udp _ d _ p ok _ frag _ => f.dstMac == s.mgmtMac && s.mgmtHas d && decide (p = 0x5A55) && ok && !frag
  | _ => false

/-- The host port runs: the hub is up, HOST_CTRL.EN is 1 and the PHY is up. -/
def State.hostPortUp (s : State) : Bool := s.hubUp && s.ctrlBit 31 && s.host.link

/-! ## Egress (R363 to R365) -/

def egressDefault (_ : Nat) : Egress := ⟨[0, 0, 0, 0], 0, 0⟩

def State.egr (s : State) (i : Nat) : Egress := Bank.get egressDefault s.host.egress i

/-- The address lies in ADDR/PLEN. -/
def inPrefix (w a b plen : Nat) : Bool := a / 2 ^ (w - plen) == b / 2 ^ (w - plen)

def egressAddr (e : Egress) (n : Nat) : Nat := (e.addr.take n).foldl (fun x w => 2 ^ 32 * x + w.toNat) 0

/-- A valid entry matches a frame to a MAC and, where it is IP, an address with its UDP destination port (none: not UDP). -/
def egressMatch (e : Egress) (mac : Mac) (ip : Option (Ip × Option Nat)) : Bool :=
  let portOk : Option Nat → Bool
    | some p => decide (bits e.ports 0 16 ≤ p ∧ p ≤ bits e.ports 16 16)
    | none => decide (bits e.ports 0 16 = 0 ∧ bits e.ports 16 16 = 0xFFFF)
  bit e.cfg 31 &&
  match bits e.cfg 29 2, ip with
  | 0, _ => decide (egressAddr e 2 / 2 ^ 16 = mac.toNat)
  | 1, some (.v4 a, p) => inPrefix 32 a.toNat (egressAddr e 1) (bits e.cfg 0 8) && portOk p
  | 2, some (.v6 a, p) => inPrefix 128 a.toNat (egressAddr e 4) (bits e.cfg 0 8) && portOk p
  | _, _ => false

/-- EGRESS_CHECK (R363): some entry lets the frame pass. -/
def State.egressOk (s : State) (mac : Mac) (ip : Option (Ip × Option Nat)) : Bool :=
  (List.range 64).any fun i => egressMatch (s.egr i) mac ip

/-- A frame is dropped at egress: `why` is 0 for the allow-list, 1 for the NONREPLY limit (R363, R365, R386). -/
def State.egressDrop (s : State) (why : Nat) : State :=
  (s.bump .host 0 0xB4 1).raiseLimited 0x0802 0 0 fun n => leBytes 4 n ++ leBytes 1 why

/-- A frame leaves the host port. -/
def State.txHost (s : State) (x : Sent) : State := { s.bump .host 0 0xA4 1 with out := s.out ++ [x] }

/-- The frames other than replies sent so far in this millisecond. -/
def State.nonReplies (s : State) : Nat := if s.host.nonReplyMs = s.us / 1000 then s.host.nonReply else 0

/-- Sends a frame that is no command reply: the NONREPLY limit applies, and the allow-list unless the frame is exempt (R363,
R365). Nothing leaves while the port is down. -/
def State.sendNonReply (s : State) (allowed : Bool) (x : Sent) : State :=
  if !s.hostPortUp then s
  else if !allowed then s.egressDrop 0
  else if s.field .host 0 0x80 0 16 ≤ s.nonReplies then s.egressDrop 1
  else
    let t : State := { s with host := { s.host with nonReply := s.nonReplies + 1, nonReplyMs := s.us / 1000 } }
    t.txHost x

/-! ## Frames the hardware answers -/

/-- A frame that fails R359 is discarded and counted in HOST_RX_DISC. -/
def State.hostDiscard (s : State) : State := s.bump .host 0 0xA8 1

/-- What a frame on the host port does: discarded where R359 refuses it; otherwise counted and handled by `f`. -/
def State.rxHost (s : State) (fr : EthFrame) (f : State → State) : State :=
  if !s.hostPortUp then s
  else if s.hostAccepts fr then f (s.bump .host 0 0xA0 1)
  else s.hostDiscard

/-- ARP_REQUEST (R362): the reply is exempt from the allow-list. -/
def execArpRequest (frame : EthFrame) (s : State) : Host.Outcome State Fault Refusal :=
  .next (match frame.body with
    | .arpRequest t => s.rxHost frame fun u => u.sendNonReply true (.arpReply (u.hostHdr u.host.mac frame.srcMac frame.vid) t)
    | _ => s)

/-- NEIGHBOR_SOLICITATION (R362). -/
def execNeighborSolicitation (frame : EthFrame) (s : State) : Host.Outcome State Fault Refusal :=
  .next (match frame.body with
    | .neighborSolicitation t _ _ => s.rxHost frame fun u => u.sendNonReply true (.advert (u.hostHdr u.host.mac frame.srcMac frame.vid) t)
    | _ => s)

/-- ECHO_REQUEST (R362, R363): the reply is checked against the allow-list. -/
def execEchoRequest (frame : EthFrame) (s : State) : Host.Outcome State Fault Refusal :=
  .next (match frame.body with
    | .echoRequest src dst _ _ data => s.rxHost frame fun u =>
        u.sendNonReply (u.egressOk frame.srcMac (some (src, none))) 
          (.echoReply (u.hostHdr u.host.mac frame.srcMac frame.vid) dst src data)
    | _ => s)

/-- HOST_FRAME_DISCARD (R358, R359): a frame that fails R359, PAUSE and PFC frames among them. -/
def execHostFrameDiscard (frame : EthFrame) (s : State) : Host.Outcome State Fault Refusal :=
  guarded (s.hostPortUp && !s.hostAccepts frame) s s.hostDiscard

/-- HOST_LINK (R386): the PHY comes up or goes down; the lane mode in use is HOST_CTRL.LANES once it is up. -/
def execHostLink (up : Bool) (s : State) : Host.Outcome State Fault Refusal :=
  let t : State := { s with host := { s.host with link := up, lanes := if up then s.ctrlBit 30 else s.host.lanes } }
  guarded (s.hubUp && (s.host.link != up) && (!up || s.ctrlBit 31)) s (t.raiseEv 0x0801 0 (leBytes 1 (b2n up)))

/-! ## Precision time (R366, R367) -/

/-- The data set comparison of the default best master clock algorithm: `a` is better than `b`. -/
def betterMaster (a b : PtpDataset) : Bool :=
  let key (d : PtpDataset) : List Nat :=
    [d.priority1, d.clockClass, d.accuracy, d.variance, d.priority2, d.identity, d.steps]
  let rec lt : List Nat → List Nat → Bool
    | x :: xs, y :: ys => if x < y then true else if y < x then false else lt xs ys
    | _, _ => false
  if a.identity = b.identity then decide (a.steps < b.steps) else lt (key a) (key b)

/-- SYNCED changes, which raises PTP_SYNC. -/
def State.setSynced (s : State) (v : Bool) : State :=
  if s.host.synced = v then s
  else ({ s with host := { s.host with synced := v } } : State).raiseEv 0x0805 0 (leBytes 1 (b2n v))

/-- One offset measurement (R367): 16 in a row below 100 ns set SYNCED, one above 1 µs clears it. The port clock is corrected by
the offset measured (log 16). -/
def State.measure (s : State) (o : Int) : State :=
  let good := if o.natAbs < 100 then s.host.goodOffsets + 1 else 0
  let t : State := { s with host := { s.host with
    offsetNs := o, goodOffsets := min 16 good, clockNs := s.host.clockNs - o } }
  if 16 ≤ good then t.setSynced true
  else if 1000 < o.natAbs then t.setSynced false
  else t

/-- The destination of a Delay_Req, by transport: the PTP multicast address (R362). -/
def ptpDest : PtpTransport → Mac × Option (Ip × Option Nat)
  | .udp4 => (0x01005E000181, some (.v4 0xE0000181, some 319))
  | .udp6 => (0x333300000181, some (.v6 0xFF0E0000000000000000000000000181, some 319))
  | .eth => (0x011B19000000, none)

/-- The origin time of a Sync is known: the offset is measured and a Delay_Req is sent, timestamped by the port clock. The receipt
time is kept as the corrected clock reads it, as the Delay_Req's is (log 16). -/
def State.ptpSync (s : State) (t : PtpTransport) (origin rx : Int) : State :=
  let s1 := s.measure (rx - origin - s.host.pathDelay)
  let n := (s1.host.delaySeq + 1) % 2 ^ 16
  let s2 : State := { s1 with host := { s1.host with
    syncOrigin := some origin, syncRx := rx - s1.host.offsetNs, delayTx := s1.host.clockNs, syncSeq := none, delaySeq := n } }
  s2.sendNonReply (s2.egressOk (ptpDest t).1 (ptpDest t).2) 
    (.delayReq (s2.hostHdr s2.host.mac (ptpDest t).1 none) t n)

/-- PTP_MESSAGE (R366): Announce selects the master, Sync and Follow_Up give the offset, Delay_Resp the path delay. A Follow_Up belongs to the
Sync, and a Delay_Resp to the Delay_Req, of its sequenceId. -/
def execPtpMessage (frame : EthFrame) (s : State) : Host.Outcome State Fault Refusal :=
  .next (match frame.body with
    | .ptp tr _ _ _ _ body => s.rxHost frame fun u =>
      let isMaster (i : Nat) : Bool := u.host.master.any fun d => d.identity == i
      match body with
      | .announce ds =>
        if u.host.master.isNone || u.host.master.any (fun d => betterMaster ds d || d.identity == ds.identity) then
          { u with host := { u.host with
              master := some ds
              syncOrigin := if isMaster ds.identity then u.host.syncOrigin else none
              syncSeq := if isMaster ds.identity then u.host.syncSeq else none } }
        else u
      | .sync i seq origin rx two =>
        if !isMaster i then u
        else if two then { u with host := { u.host with syncOrigin := none, syncRx := rx, syncSeq := some seq } }
        else u.ptpSync tr origin rx
      | .followUp i seq origin => if isMaster i && u.host.syncSeq == some seq then u.ptpSync tr origin u.host.syncRx else u
      | .delayResp i seq mine t4 =>
        match u.host.syncOrigin with
        | some t1 =>
          if isMaster i && mine && decide (seq = u.host.delaySeq) then
            { u with host := { u.host with
                pathDelay := ((u.host.syncRx - t1) + (t4 - u.host.delayTx)) / 2 } }
          else u
        | none => u
      | .other => u
    | _ => s)

/-- PTP_SYNC_TIMEOUT (R366, R367): no Sync for 3 s. SYNCED is cleared, and the master is given up, so that the next Announce selects one
(log 16). -/
def execPtpSyncTimeout (s : State) : Host.Outcome State Fault Refusal :=
  guarded (s.hubUp && (s.host.synced || s.host.master.isSome)) s
    (({ s with host := { s.host with goodOffsets := 0, master := none, syncOrigin := none, syncSeq := none } } : State).setSynced false)

end Sys2Proof.Machine
end

