-- ==== Sys2Proof/Machine/Commands.lean ====
section
/-! DEFINITION. Command packets (R368 to R376): parsing, the checks on reception, the queues with their reply caches, replies, and
the one way every opcode row runs. -/
namespace Sys2Proof.Machine

/-! ## Queues -/

def queueDefault (_ : Nat) : Queue := {}

def State.queue (s : State) (i : Nat) : Queue := Bank.get queueDefault s.queues i

def State.setQueue (s : State) (i : Nat) (q : Queue) : State := { s with queues := Bank.put queueDefault s.queues i q }

/-- The index of a queue: the host port's 16, then the management port's one. -/
def queueIdx (port : CmdPort) (q : Nat) : Nat :=
  match port with
  | .host => q
  | .mgmt => 16

def portOfIdx (i : Nat) : CmdPort := if i = 16 then .mgmt else .host

/-- Reorder buffer RB and reply cache RC (R371). -/
def State.rb (s : State) (port : CmdPort) : Nat :=
  match port with
  | .mgmt => 1
  | .host => if s.cp = .boot then 1 else 63

def State.rc (s : State) (port : CmdPort) : Nat :=
  match port with
  | .mgmt => 8
  | .host => if s.cp = .boot then 1 else 64

/-- Accepted commands of a queue that have not completed. -/
def Queue.running (q : Queue) : Nat := q.accepted.length + b2n q.busy.isSome + q.issued.length

/-! ## Status codes (R382) -/

def stOk : Nat := 0
def stBadVersion : Nat := 1
def stBadOpcode : Nat := 2
def stBadLength : Nat := 3
def stBadField : Nat := 4
def stBadPayload : Nat := 5
def stBadState : Nat := 6
def stUnsupported : Nat := 7
def stLocked : Nat := 8
def stUnmapped : Nat := 9
def stUncorrectable : Nat := 10
def stOwned : Nat := 11
def stNotWellhead : Nat := 12
def stDigest : Nat := 13
def stLoadRefused : Nat := 14
def stLaunchRefused : Nat := 15
def stBatchFailed : Nat := 16
def stSlotBusy : Nat := 17
def stPosition : Nat := 18
def stNoModel : Nat := 19
def stQueueFull : Nat := 20
def stCancelled : Nat := 21
def stFaulted : Nat := 22
def stZeroised : Nat := 23
def stVerifyFailed : Nat := 24

/-! ## Replies (R370) -/

/-- The 32-byte header of a reply with its CRC (R368). -/
def replyHeader (op tag queue len seq : Nat) (pcrc : Bool) : List Byte :=
  let h := beBytes 4 0x5A544350 ++ beBytes 1 1 ++ beBytes 1 (2 * b2n pcrc) ++ beBytes 2 (op % 2 ^ 15 + 2 ^ 15)
    ++ beBytes 4 tag ++ beBytes 2 queue ++ beBytes 2 len ++ beBytes 4 seq ++ List.replicate 8 0
  h ++ beBytes 4 (crc32c h).toNat

/-- A whole reply: the status word, then the reply's payload, with a PCRC where the command carried one. -/
def replyData (p : Packet) (seq code detail : Nat) (payload : List Byte) : List Byte :=
  let body := leBytes 2 code ++ leBytes 2 detail ++ payload
  let body' := if p.pcrc then body ++ leBytes 4 (crc32c body).toNat else body
  replyHeader p.opcode p.tag p.queue body'.length seq p.pcrc ++ body'

/-- The addresses that a reply to a request comes from: the MAC in use, and the IP address that the request was sent to; where a write has
moved that one since, the new one of its kind (R362, R385). -/
def State.replyVia (s : State) (d : Sender) : Mac × Ip :=
  (s.host.mac, if s.hostHas d.ipTo then d.ipTo else match d.ipTo with
    | .v4 _ => .v4 s.hostIp4
    | .v6 a => .v6 (if a.toNat / 2 ^ 64 = 0xFE80 * 2 ^ 48 then linkLocal s.host.mac else s.hostIp6))

/-- Sends a reply packet from the addresses `via`: on the host port it is checked at transmission (R363), and lost while the link is down
(R385). -/
def State.sendReply (s : State) (port : CmdPort) (via : Mac × Ip) (dest : Sender) (data : List Byte) : State :=
  match port with
  | .mgmt => { s with out := s.out ++ [.reply (s.mgmtHdr dest.mac) dest.ipTo dest.ip 0x5A55 dest.port data] }
  | .host =>
    if !s.hostPortUp then s
    else if s.egressOk dest.mac (some (dest.ip, some dest.port)) then
      s.txHost (.reply (s.hostHdr via.1 dest.mac dest.vid) via.2 dest.ip s.udpPort dest.port data)
    else s.egressDrop 0

/-- The reply cache with the reply of one command entered. -/
def cacheReply (seq : Nat) (data : List Byte) (c : List Cached) : List Cached :=
  c.map fun e => if e.seq = seq then { e with reply := some data } else e

/-- A command completes: its reply is cached and sent. -/
def State.reply (s : State) (i : Nat) (p : Packet) (code detail : Nat) (payload : List Byte)
    (via : Mac × Ip := s.replyVia p.src) : State :=
  let data := replyData p p.seq code detail payload
  let q := s.queue i
  (s.setQueue i { q with cache := cacheReply p.seq data q.cache }).sendReply (portOfIdx i) via p.src data

/-! ## Opcodes -/

/-- The opcodes of the host port (R377). -/
def hostOpcodes : List Nat := [
  0x0001, 0x0002, 0x0003, 0x0004, 0x0005, 0x0101, 0x0102, 0x0103, 0x0104, 0x0201, 0x0202, 0x0210, 0x0211, 0x0212, 0x0213,
  0x0301, 0x0302, 0x0303, 0x0304, 0x0305, 0x0306, 0x0307, 0x0401, 0x0402, 0x0403, 0x0404, 0x0410, 0x0501, 0x0502, 0x0503,
  0x0504, 0x0505]

/-- The opcodes of the management port (R447). -/
def mgmtOpcodes : List Nat := [0x0001, 0x0002, 0x0201, 0x0202, 0x0601, 0x0602, 0x0603, 0x0604]

def knownOpcode (i op : Nat) : Bool := if i = 16 then mgmtOpcodes.contains op else hostOpcodes.contains op

/-- The payload without its PCRC, or none where the PCRC is wrong (R368). -/
def content (p : Packet) : Option (List Byte) :=
  if p.pcrc then
    let n := p.payload.length
    if n < 4 then none
    else if (crc32c (p.payload.take (n - 4))).toNat = leNat (p.payload.drop (n - 4)) then some (p.payload.take (n - 4))
    else none
  else some p.payload

/-- Commands at the front whose opcode no port knows complete with BAD_OPCODE (R369, R377). -/
def State.drainUnknown (i : Nat) : Nat → State → State
  | 0, s => s
  | n + 1, s =>
    let q := s.queue i
    match q.busy, q.accepted with
    | none, p :: rest =>
      if knownOpcode i p.opcode then s
      else
        let code := if (content p).isNone then stBadPayload else stBadOpcode
        State.drainUnknown i n ((s.setQueue i { q with accepted := rest }).reply i p code 0 [])
    | _, _ => s

/-- After a queue has moved on: unknown commands now at its front complete. -/
def State.advance (s : State) (i : Nat) : State := State.drainUnknown i ((s.queue i).accepted.length) s

/-! ## Sequence (R371, R372) -/

/-- The cache without the commands that fall more than RC behind NEXT (R374). -/
def trimCache (next : Word) (rc : Nat) (c : List Cached) : List Cached :=
  c.filter fun e => decide ((next - BitVec.ofNat 32 e.seq).toNat ≤ rc)

/-- Accepts a packet whose SEQ is NEXT. -/
def State.accept (s : State) (i : Nat) (p : Packet) : State :=
  let q := s.queue i
  let next := q.next + 1
  s.setQueue i { q with
    next := next
    accepted := q.accepted ++ [p]
    cache := trimCache next (s.rc (portOfIdx i)) (q.cache ++ [⟨p.seq, p.tag, p.opcode, none⟩]) }

/-- Accepts held packets while one holds SEQ = NEXT. -/
def State.acceptHeld (i : Nat) : Nat → State → State
  | 0, s => s
  | n + 1, s =>
    let q := s.queue i
    match q.held.find? fun p => BitVec.ofNat 32 p.seq == q.next with
    | some p => State.acceptHeld i n ((s.setQueue i { q with held := q.held.filter fun x => x.seq != p.seq }).accept i p)
    | none => s

/-- Counts a duplicate or a dropped packet; the management port has no such counters (R371). -/
def State.countDup (s : State) (port : CmdPort) : State := if port = .host then s.bump .host 0 0xB8 1 else s

def State.countDrop (s : State) (port : CmdPort) : State := if port = .host then s.bump .host 0 0xA8 1 else s

/-- A duplicate: the cached reply is sent again, or nothing while the command runs (R371). -/
def State.duplicate (s : State) (i : Nat) (p : Packet) : State :=
  let t := s.countDup (portOfIdx i)
  match (s.queue i).cache.find? fun e => e.seq == p.seq with
  | some ⟨_, _, _, some data⟩ => t.sendReply (portOfIdx i) (t.replyVia p.src) p.src data
  | _ => t

/-- The rules of R371 for one packet. -/
def State.sequence (s : State) (i : Nat) (p : Packet) : State :=
  let port := portOfIdx i
  let q := s.queue i
  let d := (BitVec.ofNat 32 p.seq - q.next).toNat
  if d = 0 then (State.acceptHeld i q.held.length (s.accept i p)).advance i
  else if d ≤ s.rb port then
    if q.held.any fun x => x.seq == p.seq then s.countDup port
    else s.setQueue i { q with held := q.held ++ [p] }
  else if 2 ^ 32 - s.rc port ≤ d then s.duplicate i p
  else s.countDrop port

/-- A SYNC packet that equals the last one applied, while its command is still in the reply cache, is a resent copy (R372). -/
def Queue.resentSync (q : Queue) (p : Packet) : Bool :=
  decide (q.lastSync = some (p.seq, p.tag, p.opcode)) && q.cache.any fun e => e.seq == p.seq

/-- Resets a queue for a SYNC, then handles the SYNC under R371, then what was held apart, in the order of arrival (R372). -/
def State.applySync (s : State) (i : Nat) (p : Packet) : State :=
  let q := s.queue i
  let s1 := s.setQueue i { q with
    next := BitVec.ofNat 32 p.seq, held := [], cache := [], lastSync := some (p.seq, p.tag, p.opcode)
    syncWait := none, apart := [] }
  let s2 := if i = 16 then s1 else s1.raiseEv 0x0806 0 (leBytes 4 i ++ leBytes 4 p.seq)
  q.apart.foldl (fun t x => t.sequence i x) (s2.sequence i p)

/-- A packet that passes stage 3 of R369. -/
def State.receive (s : State) (i : Nat) (p : Packet) : State :=
  let port := portOfIdx i
  let q := s.queue i
  if q.syncWait.isSome then
    if p.sync && q.resentSync p then s.duplicate i p
    else if q.apart.length < s.rb port then s.setQueue i { q with apart := q.apart ++ [p] }
    else s.countDrop port
  else if p.sync && !q.resentSync p then
    if q.running = 0 then s.applySync i p else s.setQueue i { q with syncWait := some p }
  else s.sequence i p

/-! ## Reception (R364, R369) -/

/-- Stage 1 of R369: the header's form; the failure is the DETAIL byte of HOST_HDR_DROP. -/
def headerFault (l : List Byte) : Option Nat :=
  if l.length < 32 then some 0
  else if beNat (l.take 4) ≠ 0x5A544350 then some 1
  else if beNat (slice 28 4 l) ≠ (crc32c (l.take 28)).toNat then some 2
  else if 2 ^ 15 ≤ beNat (slice 6 2 l) then some 3
  else none

/-- The packet a sound header spells. -/
def parsePacket (l : List Byte) (src : Sender) : Packet where
  sync := (l.getD 5 0).getLsbD 0
  pcrc := (l.getD 5 0).getLsbD 1
  opcode := beNat (slice 6 2 l)
  tag := beNat (slice 8 4 l)
  queue := beNat (slice 12 2 l)
  seq := beNat (slice 16 4 l)
  payload := l.drop 32
  src := src

/-- Stage 3 of R369: why a packet cannot be placed in a queue, and where only queue 0 is served. -/
def frameFault (l : List Byte) (queue0Only : Bool) : Option (Nat × Nat) :=
  let len := beNat (slice 14 2 l)
  let q := beNat (slice 12 2 l)
  if l.getD 4 0 ≠ 1 then some (stBadVersion, 0)
  else if len ≠ l.length - 32 ∨ 8160 < len then some (stBadLength, 0)
  else if 4 ≤ (l.getD 5 0).toNat then some (stBadField, 0)
  else if 15 < q ∨ (queue0Only ∧ q ≠ 0) then some (stBadField, 0)
  else none

/-- A datagram received on a port (R369). -/
def State.datagram (s : State) (port : CmdPort) (l : List Byte) (src : Sender) : State :=
  match headerFault l with
  | some why =>
    if port = .host then
      (s.bump .host 0 0xAC 1).raiseLimited 0x0804 0 0 fun n => leBytes 4 n ++ leBytes 1 why
    else s
  | none =>
    if port = .host && !s.egressOk src.mac (some (src.ip, some src.port)) then
      (s.bump .host 0 0xB0 1).raiseLimited 0x0803 0 0 fun n => leBytes 4 n
    else
      let p := parsePacket l src
      match frameFault l (port == .mgmt || s.cp == .boot) with
      | some (code, detail) => s.sendReply port (s.replyVia src) src (replyData p 0 code detail [])
      | none => s.receive (queueIdx port p.queue) p

/-- COMMAND_PACKET (R369). -/
def execCommandPacket (frame : EthFrame) (s : State) : Host.Outcome State Fault Refusal :=
  .next (match frame.body with
    | .udp src dst sp _ _ _ _ l =>
      s.rxHost frame fun u => u.datagram .host l ⟨frame.srcMac, src, sp, dst, frame.vid⟩
    | _ => s)

/-- MGMT_PACKET (R446): answered by hardware, discarded, or queued as a command on queue 0. -/
def execMgmtPacket (frame : EthFrame) (s : State) : Host.Outcome State Fault Refusal :=
  let t :=
    match frame.body with
    | .udp src dst sp _ _ _ _ l => s.datagram .mgmt l ⟨frame.srcMac, src, sp, dst, none⟩
    | .arpRequest ip => { s with out := s.out ++ [.arpReply (s.mgmtHdr frame.srcMac) ip] }
    | .neighborSolicitation ip _ _ => { s with out := s.out ++ [.advert (s.mgmtHdr frame.srcMac) ip] }
    | .echoRequest src dst _ _ data => { s with out := s.out ++ [.echoReply (s.mgmtHdr frame.srcMac) dst src data] }
    | _ => s
  guarded (s.umc.standby && s.mgmtAccepts frame) s t

/-- QUEUE_SYNC (R372): a waiting SYNC is applied once the queue's running commands are complete. -/
def execQueueSync (port : CmdPort) (queue : Nat) (s : State) : Host.Outcome State Fault Refusal :=
  let i := queueIdx port queue
  .next (match (s.queue i).syncWait with
    | some p => if (s.queue i).running = 0 then s.applySync i p else s
    | none => s)

/-! ## How an opcode row runs (R369 stage 5, R373) -/

/-- What a command's body answers. -/
inductive Result where
  /-- Class S: it completes with this status, DETAIL and payload. -/
  | done (code detail : Nat) (payload : List Byte)
  /-- It has started and completes later: nothing starts behind it (class S, and FENCE). -/
  | wait
  /-- Class Q: the unit that executes it has accepted it. -/
  | issued

/-- The commands that run in FAULTED (R376). -/
def runsFaulted (op : Nat) : Bool := [0x0001, 0x0002, 0x0004, 0x0005, 0x0201, 0x0210, 0x0213].contains op

/-- The command at the front of a queue, where it carries this opcode and nothing runs before it. -/
def State.front (s : State) (i op : Nat) : Option (Packet × List Packet) :=
  match (s.queue i).busy, (s.queue i).accepted with
  | none, p :: rest => if p.opcode = op then some (p, rest) else none
  | _, _ => none

/-- Runs the command at the front of a queue: PCRC, length, state, then its body (R369). Nothing happens where the front of the
queue holds no such command. The reply of a command that writes an address leaves from the old one (R385). -/
def State.runCmd (s : State) (i op : Nat) (lenOk : Nat → Bool) (stateOk : State → Bool)
    (body : Packet → List Byte → State → State × Result) : State :=
  match s.front i op with
  | none => s
  | some (p, rest) =>
    let s0 := s.setQueue i { s.queue i with accepted := rest }
    let fail (code detail : Nat) : State := (s0.reply i p code detail []).advance i
    match content p with
    | none => fail stBadPayload 0
    | some l =>
      if !lenOk l.length then fail stBadLength 0
      else if i ≠ 16 ∧ s.cp = .faulted ∧ runsFaulted op = false then fail stFaulted 0
      else if !stateOk s then fail stBadState (cpCode s.cp)
      else
        match body p l s0 with
        | (t, .done code detail payload) => (t.reply i p code detail payload (s.replyVia p.src)).advance i
        | (t, .wait) => t.setQueue i { t.queue i with busy := some p }
        | (t, .issued) => (t.setQueue i { t.queue i with issued := (t.queue i).issued ++ [p] }).advance i

/-- Runs the command at the front of a queue of the host port. -/
def State.runHost (s : State) (q op : Nat) (lenOk : Nat → Bool) (stateOk : State → Bool)
    (body : Packet → List Byte → State → State × Result) : State :=
  if q < 16 then s.runCmd q op lenOk stateOk body else s

/-- The class S command that a queue has started completes. -/
def State.finishBusy (s : State) (i op code detail : Nat) (payload : List Byte) : State :=
  match (s.queue i).busy with
  | some p =>
    if p.opcode = op then ((s.setQueue i { s.queue i with busy := none }).reply i p code detail payload).advance i else s
  | none => s

/-- A class Q command completes: the packet with this TAG and SEQ leaves the issued ones. -/
def State.finishIssued (s : State) (i : Nat) (p : Packet) (code detail : Nat) (payload : List Byte) : State :=
  if (s.queue i).issued.contains p then
    (s.setQueue i { s.queue i with issued := (s.queue i).issued.erase p }).reply i p code detail payload
  else s

/-- The first host queue whose started command carries this opcode. -/
def State.busyWith (s : State) (op : Nat) : Option Nat :=
  (List.range 16).find? fun i => (s.queue i).busy.any fun p => p.opcode == op

/-- Completes the started command with this opcode, on whichever queue it waits. -/
def State.finishOp (s : State) (op code detail : Nat) (payload : List Byte) : State :=
  match s.busyWith op with
  | some i => s.finishBusy i op code detail payload
  | none => s

/-- Completes every started command with this opcode, on whichever queues they wait. -/
def State.finishEach (s : State) (op code detail : Nat) (payload : List Byte) : State :=
  (List.range 16).foldl (fun t i => t.finishBusy i op code detail payload) s

def lenIs (n : Nat) (l : Nat) : Bool := l == n

def anyState (_ : State) : Bool := true

def inState (cs : List CpState) (s : State) : Bool := cs.contains s.cp

/-! ## NOP, IDENT, FENCE -/

/-- NOP (R377, R447). -/
def execNop (port : CmdPort) (queue : Nat) (s : State) : Host.Outcome State Fault Refusal :=
  .next (s.runCmd (queueIdx port queue) 0x0001 (lenIs 0) anyState fun _ _ t => (t, .done stOk 0 []))

/-- IDENT (R377, R447): CPSTATE reads 0xFF while the hub is down. -/
def execIdent (port : CmdPort) (queue : Nat) (s : State) : Host.Outcome State Fault Refusal :=
  .next (s.runCmd (queueIdx port queue) 0x0002 (lenIs 0) anyState fun _ _ t =>
    (t, .done stOk 0 (leBytes 4 (sysCaps t.part).toNat ++ leBytes 1 t.cpByte ++ leBytes 3 0
      ++ beBytes 6 t.host.mac.toNat ++ leBytes 2 0 ++ digestBytes t.keyHash
      ++ digestBytes (if t.cp = .boot then 0 else t.sec.fwDigest))))

/-- FENCE (R373): completes at once where no earlier command of its queue is still running. -/
def execFence (queue : Nat) (s : State) : Host.Outcome State Fault Refusal :=
  .next (s.runHost queue 0x0005 (lenIs 0) anyState fun _ _ t =>
    (t, if (t.queue queue).issued.isEmpty then .done stOk 0 [] else .wait))

/-- FENCE_COMPLETE (R373). -/
def execFenceComplete (queue : Nat) (s : State) : Host.Outcome State Fault Refusal :=
  guarded (decide (queue < 16) && (s.queue queue).issued.isEmpty) s (s.finishBusy queue 0x0005 stOk 0 [])

/-! ## SIZE_TABLE (R16, R17) -/

/-- The Facets that passed the pilot test at configuration (R17). -/
def State.usableFacets (s : State) : Nat := ((List.range 640).filter s.usable).length

/-- The 22 entries of R16, in its order. -/
def State.sizeTable (s : State) : List Nat :=
  let full := s.part.variant.full
  let n := decide (s.part.variant = .n)
  [640, s.usableFacets, 64, 7, 0xE0, 256, 160, 4096, 256, 0x1C0, 64, 128, if full then 16 else 0,
    if full then 15 else 7, if full then 3 else 1, 1024, 2048, 2 ^ 24, if n then 4 else 12, if n then 2 else 1024,
    if n then 2 else 64, 0x1FFFE]

/-- SIZE_TABLE (R17, R377): entry index and value for each entry. -/
def execSizeTable (queue : Nat) (s : State) : Host.Outcome State Fault Refusal :=
  .next (s.runHost queue 0x0003 (lenIs 0) (inState [.ready, .loaded]) fun _ _ t =>
    (t, .done stOk 0 ((t.sizeTable.zipIdx).flatMap fun e => leBytes 4 e.2 ++ leBytes 4 e.1)))

end Sys2Proof.Machine
end

