-- ==== Sys2Proof/Machine/Link.lean ====
section
/-! DEFINITION. Peer ports and the link layer (R295 to R304): acceptance, link bring-up, retry, flow control, routes. -/
namespace Sys2Proof.Machine

/-! ## Port registers -/

/-- The register of peer port `n` at offset `o`. -/
def State.lnk (s : State) (n o : Nat) : Word := s.reg .cePort n o

def State.portMac (s : State) (n : Nat) : Mac :=
  BitVec.ofNat 48 (s.field .cePort n 0x18 0 16 * 2 ^ 32 + (s.lnk n 0x14).toNat)

def State.pcpData (s : State) (n : Nat) : Nat := s.field .cePort n 0x10 28 3

def State.pcpCtrl (s : State) (n : Nat) : Nat := s.field .cePort n 0x10 25 3

/-- P2, P5, P8 and P11 (R389). -/
def oxbow (n : Nat) : Bool := decide (n < 12) && n % 3 == 2

def portDefault (_ : Nat) : Port := {}

def State.port (s : State) (n : Nat) : Port := Bank.get portDefault s.fab.ports n

def State.setPort (s : State) (n : Nat) (p : Port) : State :=
  { s with fab := { s.fab with ports := Bank.put portDefault s.fab.ports n p } }

/-- The port exists, is out of reset, enabled, and its PHY is up. -/
def State.portUp (s : State) (n : Nat) : Bool :=
  s.umc.phase == .dies && portEnabled s.part n && bit (s.lnk n 0x10) 31 && (s.port n).phy

/-! ## Links -/

def State.link? (s : State) (n : Nat) (m : Mac) : Option Link := s.fab.links.find? fun l => l.port == n && l.mac == m

def putLink (l : Link) : List Link → List Link
  | [] => [l]
  | x :: t => if x.port = l.port ∧ x.mac = l.mac then l :: t else x :: putLink l t

def State.setLink (s : State) (l : Link) : State := { s with fab := { s.fab with links := putLink l s.fab.links } }

/-- Whether the link to `m` on port `n` is up. -/
def State.linkIsUp (s : State) (n : Nat) (m : Mac) : Bool := (s.link? n m).any (·.up)

/-- Some twin link is up (R390). -/
def State.partnerPresent (s : State) : Bool := s.fab.links.any fun l => l.twin && l.up

/-- The twin link that carries a message to the partner: the first that is up. -/
def State.twinLink (s : State) : Option Link := s.fab.links.find? fun l => l.twin && l.up

/-! ## Routes (R299) -/

def routeDefault (_ : Nat) : Option Route := none

def State.route (s : State) (r : Nat) : Option Route := Bank.get routeDefault s.fab.routes r

/-- The rank whose route entry holds a MAC address. -/
def State.rankOfMac (s : State) (m : Mac) : Option Nat :=
  (s.fab.routes.find? fun e => e.2.any fun r => r.mac == m).map (·.1)

def State.ceDomain (s : State) : Nat := (s.reg .ceEng 0 0x20).toNat

/-! ## Frames out -/

/-- Records frames that leave the module. -/
def State.emit (s : State) (l : List Sent) : State := { s with out := s.out ++ l }

/-- Our own rank as the link header carries it: 0 when we have none (R301). -/
def State.srcRank (s : State) : Nat := if s.dom.rankValid then s.dom.rank else 0

/-- The header of a frame to `m` on port `n`, at a priority (R297, R300, R335). -/
def State.txHdr (s : State) (n : Nat) (m : Mac) (pcp : Nat) : TxHdr :=
  ⟨n, m, s.field .cePort n 0x10 12 12, pcp, s.field .cePort n 0x18 16 16, s.srcRank⟩

/-- An ACK (1), NAK (2) or KEEPALIVE (5) frame. -/
def State.ctlFrame (s : State) (n : Nat) (m : Mac) (ftype ack : Nat) : Sent :=
  .linkCtl (s.txHdr n m (s.pcpCtrl n)) ftype ack

/-- An INIT, or an INIT_ACK where `ack`. -/
def State.initFrame (s : State) (n : Nat) (m : Mac) (ack twin : Bool) : Sent :=
  .linkInit (s.txHdr n m (s.pcpCtrl n)) ack twin s.ceDomain

/-- A DATA frame of a link: every one carries ACK (R302). -/
def State.dataFrame (s : State) (l : Link) (f : TxFrame) : Sent :=
  .linkData (s.txHdr l.port l.mac (s.pcpData l.port)) f.seq l.rxNext f.data

/-- A control frame leaves, or waits while its priority is paused (R303). -/
def State.txCtl (s : State) (n : Nat) (f : Sent) : State :=
  let p := s.port n
  if p.paused.contains (s.pcpCtrl n) then s.setPort n { p with ctl := p.ctl ++ [f] }
  else (s.emit [f]).bump .cePort n 0x30 1

/-! ## The transmit scheduler (R297, R302)

A port sends collective frames before copy frames; domain frames, which R297 does not place, go between the two (log 90). A frame gets
its sequence number when it is sent, and is sent only while the port's replay queue of 4 MiB has room for it. -/

/-- The exponent bytes of some blocks, padded with zeros to a multiple of 4, and their codes packed as R54 sets out (R320): an L8G code is
10 bits of a group of 4 codes in 5 bytes. -/
def blockImage (g : Bool) (exps codes : List Nat) : List Byte :=
  let e := exps.map fun x => BitVec.ofNat 8 x
  e ++ List.replicate ((4 - e.length % 4) % 4) 0 ++
    (if g then (runsOf 4 codes).flatMap (packCodes 10) else codes.map fun c => BitVec.ofNat 8 c)

/-- The row records of a SPARSE payload (R318, log 90): of each row its index, little-endian, then its blocks. -/
def rowImage (g : Bool) (x : SegPayload) : List Byte :=
  let blocks := (x.rows.zip x.exps).zip (runsOf (x.codes.length / max x.exps.length 1) x.codes)
  (x.rows.eraseDups).flatMap fun r =>
    let mine := blocks.filter fun b => b.1.1 == r
    leBytes 4 r ++ blockImage g (mine.map (·.1.2)) (mine.flatMap (·.2))

/-- The payload of a collective frame as bytes (R54, R320). -/
def segImage (f : CollFrame) : List Byte :=
  match f.fmt with
  | 0 => f.payload.codes.map fun c => BitVec.ofNat 8 c
  | 1 => blockImage false f.payload.exps f.payload.codes
  | 2 => blockImage true f.payload.exps f.payload.codes
  | 3 => f.payload.codes.flatMap (leBytes 4)
  | k => rowImage (k == 5) f.payload

/-- PLEN of a collective frame (R319). -/
def segBytes (f : CollFrame) : Nat := (segImage f).length

/-- Bytes of a frame on the wire (R297). -/
def frameBytes : LinkData → Nat
  | .coll f => 86 + segBytes f
  | .copy f => 70 + f.data.length
  | .dom f => 54 + f.payload.length
  | .bad _ => 64

/-- The place of a DATA frame in the transmit order. -/
def txClass : LinkData → Nat
  | .coll _ => 0
  | .dom _ => 1
  | _ => 2

/-- Bytes of the replay queue of a port. -/
def replayBytes (n : Nat) (ls : List Link) : Nat :=
  (ls.filter fun l => l.port == n).foldl (fun a l => l.replay.foldl (fun b f => b + frameBytes f.data) a) 0

/-- The frame that a link must resend next: the oldest of those to be resent, since its receiver takes them in order (R302). -/
def Link.again (l : Link) : Option TxFrame := l.replay.find? fun f => !f.sent

/-- The frame that a link sends next: one it must resend, else the first that waits of the first class that has one. -/
def Link.next (l : Link) : Option LinkData :=
  match l.again with
  | some f => some f.data
  | none => [0, 1, 2].findSome? fun c => l.waiting.find? fun d => txClass d == c

/-- The next frame of a port, over its links that are up: the first of the first class. `full`: only a frame to be resent. -/
def nextFrame (n : Nat) (full : Bool) (ls : List Link) : Option (Link × LinkData) :=
  [0, 1, 2].findSome? fun c => ls.findSome? fun l =>
    if l.port = n ∧ l.up ∧ (l.again.isSome ∨ full = false) then (l.next.filter fun d => txClass d == c).map fun d => (l, d) else none

/-- A replay queue with its first frame to be resent marked as sent. -/
def sentAgain : List TxFrame → List TxFrame
  | [] => []
  | f :: t => if f.sent then f :: sentAgain t else { f with sent := true } :: t

/-- What a port sends, in order, and its links after that; at most as many frames as the first argument says. A DATA frame carries ACK, so
nothing stays unacknowledged on its link. Once a frame finds no room in the replay queue, only resends go on. -/
def sendFrames (n : Nat) : Nat → Bool → List Link → List (Link × TxFrame) × List Link
  | 0, _, ls => ([], ls)
  | k + 1, full, ls =>
    match nextFrame n full ls with
    | some (l, d) =>
      match l.again with
      | some f =>
        let r := sendFrames n k full (putLink { l with replay := sentAgain l.replay, unacked := 0 } ls)
        ((l, { f with sent := true }) :: r.1, r.2)
      | none =>
        if replayBytes n ls + frameBytes d ≤ 2 ^ 22 then
          let f : TxFrame := ⟨l.txNext, d, true⟩
          let r := sendFrames n k full (putLink { l with
            txNext := (l.txNext + 1) % 2 ^ 32, replay := l.replay ++ [f], waiting := l.waiting.eraseP fun x => txClass x == txClass d
            unacked := 0 } ls)
          ((l, f) :: r.1, r.2)
        else sendFrames n k true ls
    | none => ([], ls)

/-- A port sends what it may send, by class and among its links in order (R297); nothing while its data priority is paused (R303). -/
def State.transmit (s : State) (n : Nat) : State :=
  if (s.port n).paused.contains (s.pcpData n) then s
  else
    let mine := s.fab.links.filter fun l => l.port == n && l.up
    let count := mine.foldl (fun a l => a + l.waiting.length + (l.replay.filter fun f => !f.sent).length) 1
    let r := sendFrames n count false s.fab.links
    let frames := r.1.map fun x => s.dataFrame x.1 x.2
    (({ s with fab := { s.fab with links := r.2 } } : State).emit frames).bump .cePort n 0x30 frames.length

/-- A domain message of 8,192 bytes or more goes in several frames (R406): one of 8,192 bytes is followed by another (log 22). -/
def linkPieces : LinkData → List LinkData
  | .dom f => (List.range (f.payload.length / 8192 + 1)).map fun i => .dom { f with payload := slice (8192 * i) 8192 f.payload }
  | d => [d]

/-- Queues link data on a link that is up. -/
def State.linkSend (s : State) (l : Link) (d : LinkData) : State :=
  (s.setLink { l with waiting := l.waiting ++ linkPieces d }).transmit l.port

/-- Resends from a sequence number on (R302). -/
def State.resend (s : State) (l : Link) (seq : Nat) : State :=
  (s.setLink { l with replay := l.replay.map fun f =>
    if (BitVec.ofNat 32 f.seq - BitVec.ofNat 32 seq).toNat < 2 ^ 31 then { f with sent := false } else f }).transmit l.port

/-! ## Collectives whose frames are lost with a link -/

def engineDefault (_ : Nat) : Engine := {}

def State.engine (s : State) (d : Nat) : Engine := Bank.get engineDefault s.fab.engines d

def State.setEngine (s : State) (d : Nat) (e : Engine) : State :=
  { s with fab := { s.fab with engines := Bank.put engineDefault s.fab.engines d e } }

/-- The collective numbers among some link data; a lost FIN is asked for again by FINQ (R327). -/
def collSeqs (l : List LinkData) : List Nat :=
  l.filterMap fun d => match d with
    | .coll f => if f.ctype = .fin ∨ f.ctype = .finq then none else some f.dseq
    | _ => none

/-- A frame of these collectives is lost: none of them completes without a restart (R302, R326). -/
def State.loseColls (s : State) (ds : List Nat) : State :=
  (List.range 4).foldl (fun t d =>
    let e := t.engine d
    t.setEngine d { e with active := e.active.map fun c => if ds.contains c.dseq then { c with lost := true } else c }) s

/-- Chooses the port for rank `r` (R299): PORT[k mod COUNT], or the next listed one whose link is up. -/
def State.routeLink (s : State) (r k : Nat) : Option Link :=
  match s.route r with
  | none => none
  | some e =>
    let n := e.ports.length
    (List.range n).findSome? fun j =>
      match e.ports[(k + j) % n]? with
      | none => none
      | some p =>
        match s.link? p e.mac with
        | some l => if l.up then some l else none
        | none => none

/-- The module's messages to itself go to its own inbox. -/
def State.toSelf (s : State) (d : LinkData) : State :=
  { s with fab := { s.fab with inbox := s.fab.inbox ++ [⟨255, 0, s.dom.rank, d⟩] } }

/-- Sends link data over the route to a rank of segment and level `k` (R299). With no link up the frame is lost. -/
def State.sendRoute (s : State) (r k : Nat) (d : LinkData) : State :=
  match s.routeLink r k with
  | some l => s.linkSend l d
  | none => s.loseColls (collSeqs [d])

/-- Sends link data to a rank: itself, or over the route of segment and level `k` (R299). With no link up the frame is lost. -/
def State.sendRank (s : State) (r k : Nat) (d : LinkData) : State :=
  if r = s.dom.rank then s.toSelf d else s.sendRoute r k d

/-- Sends link data to the partner over a twin link; with none up it is lost. -/
def State.sendTwin (s : State) (d : LinkData) : State :=
  match s.twinLink with
  | some l => s.linkSend l d
  | none => s

/-- Sends link data to the partner over the twin link of one port, or another while that one is down. -/
def State.sendTwinOn (s : State) (n : Nat) (d : LinkData) : State :=
  match s.fab.links.find? fun l => l.twin && l.up && l.port == n with
  | some l => s.linkSend l d
  | none => s.sendTwin d

/-! ## MARK frames (R391) -/

/-- A MARK frame to the partner: its code, argument, STEP and payload. -/
def markFrame (code arg step : Nat) (payload : List Byte) : LinkData :=
  .copy ⟨.mark, 2, 0, 0, payload.length, step, 0, code + 2 ^ 8 * arg, payload⟩

/-- The payload of HELLO. -/
def State.helloBytes (s : State) : List Byte :=
  leBytes 4 s.twin.mode ++ leBytes 4 (sysCaps s.part).toNat ++ digestBytes s.keyHash ++ leBytes 4 s.ceDomain
    ++ leBytes 2 (if s.dom.rankValid then s.dom.rank else 0) ++ leBytes 2 0

def State.sendHello (s : State) : State :=
  s.fab.links.foldl (fun t l =>
    if l.twin && l.up then
      match t.link? l.port l.mac with
      | some l1 => t.linkSend l1 (markFrame 1 0 0 t.helloBytes)
      | none => t
    else t) s

/-! ## Checkpoints lost with a link (R290) -/

/-- C is set on every V page of the program in a stack. -/
def State.pendAll (s : State) (i : Nat) : State :=
  (s.vPages i).foldl (fun t p => t.setVt (4096 * p) { t.vtOf (4096 * p) with c := true }) s

/-- The sender loses an epoch: C is set on every V page, so that its next one is a full one. -/
def State.ckptLost (s : State) (i why : Nat) : State :=
  let t := (s.raiseEv 0x0307 i (leBytes 4 (s.reg .trn i 0x78).toNat ++ leBytes 1 why)).pendAll i
  t.setStack i { t.stack i with epoch := none, fullNext := true }

/-- The epochs in progress of the two stacks beside die `d` are lost. -/
def State.dieCkptLost (s : State) (d why : Nat) : State :=
  [2 * d, 2 * d + 1].foldl (fun t i => if (t.stack i).epoch.isSome then t.ckptLost i why else t) s

/-! ## Links up and down -/

/-- A port has room for the state of a link to `m`: it holds at most 64 (R298). -/
def State.linkRoom (s : State) (n : Nat) (m : Mac) : Bool :=
  (s.link? n m).isSome || decide ((s.fab.links.filter fun l => l.port == n && l.up).length < 64)

/-- The links without one of a port that is down, where the port holds 64 and none is to `m` (log 90). -/
def evict (n : Nat) (m : Mac) (ls : List Link) : List Link :=
  if (ls.filter fun l => l.port == n).length < 64 ∨ ls.any (fun l => l.port == n && l.mac == m) then ls
  else ls.eraseP fun l => l.port == n && !l.up

/-- A link comes up (R300): sequence numbers at 0, LNK_UP, and HELLO on a twin link (R391). -/
def State.linkUp (s : State) (n : Nat) (m : Mac) (twin : Bool) (rank : Nat) : State :=
  let s0 : State := { s with fab := { s.fab with links := evict n m s.fab.links } }
  let t := (s0.setLink { port := n, mac := m, twin := twin, up := true }).raiseEv 0x0401 n
    (beBytes 6 m.toNat ++ leBytes 2 rank)
  if twin then
    let t1 : State := { t with twin := { t.twin with lost := false } }
    match t1.link? n m with
    | some l => t1.linkSend l (markFrame 1 0 0 t1.helloBytes)
    | none => t1
  else t

/-- A link goes down (R302): its replay queue and what waits behind it is discarded, LNK_DOWN. -/
def State.linkDown (s : State) (l : Link) (why : Nat) : State :=
  let t := (s.setLink { port := l.port, mac := l.mac, twin := l.twin }).raiseEv 0x0402 l.port
    (beBytes 6 l.mac.toNat ++ leBytes 1 why)
  let t1 := t.loseColls (collSeqs (l.replay.map (·.data) ++ l.waiting))
  if l.twin then t1.dieCkptLost (l.port / 3) 0 else t1

/-- Every link of a port that is up goes down. -/
def State.portDown (s : State) (n why : Nat) : State :=
  (s.fab.links.filter fun l => l.port == n && l.up).foldl (fun t l => t.linkDown l why) s

/-! ## Frames in (R296) -/

def broadcastMac : Mac := 0xFFFFFFFFFFFF

/-- A port accepts a frame of this layer (R295, R296); `bcast` allows the broadcast address. -/
def State.peerAccepts (s : State) (n : Nat) (h : PeerHdr) (bcast : Bool) : Bool :=
  h.fcsOk && decide (64 ≤ h.len ∧ h.len ≤ 8320) && (h.dstMac == s.portMac n || (bcast && h.dstMac == broadcastMac)) &&
    h.vid == some (s.field .cePort n 0x10 12 12) && decide (h.etype = s.field .cePort n 0x18 16 16)

/-- A frame that is not accepted: discarded and counted, LNK_FCS where its FCS is bad (R302, R331). -/
def State.peerDiscard (s : State) (n : Nat) (fcsOk : Bool) : State :=
  let t := s.bump .cePort n 0x38 1
  if fcsOk then t else t.raiseLimited 0x0405 n n fun k => leBytes 4 k

/-- What a port does with a frame that arrives: `k` where it accepts it. -/
def State.peerRx (s : State) (n : Nat) (h : PeerHdr) (bcast : Bool) (k : State → State) : State :=
  if s.portUp n then
    if s.peerAccepts n h bcast then k (s.bump .cePort n 0x34 1) else s.peerDiscard n h.fcsOk
  else s

/-- The ACK field of a frame (R302): covered frames leave the replay queue, and an advance restarts the retry count. -/
def Link.acked (l : Link) (ack : Nat) : Link :=
  let rest := l.replay.filter fun f => decide (2 ^ 31 ≤ (BitVec.ofNat 32 ack - BitVec.ofNat 32 f.seq - 1).toNat)
  if rest.length < l.replay.length then { l with replay := rest, retries := 0 } else l

/-- Acts on the link a frame arrives on, where it is up. -/
def State.onLink (s : State) (n : Nat) (m : Mac) (k : Link → State → State) : State :=
  match s.link? n m with
  | some l => if l.up then k l s else s
  | none => s

/-! ## Receive buffer (R303) -/

/-- Occupancy of a port's receive buffer. -/
def State.rxUsed (s : State) (n : Nat) : Nat :=
  (s.fab.inbox.filter fun f => f.port == n).foldl (fun a f => a + frameBytes f.data) 0

/-- A PFC frame leaves a port that is up. -/
def State.txPfc (s : State) (n : Nat) (pause : Bool) : State :=
  if s.portUp n then (s.emit [.pfc n (s.pcpData n) pause]).bump .cePort n 0x30 1 else s

/-- The buffer has less than HEADROOM free: the port pauses the peer. -/
def State.pfcCheck (s : State) (n : Nat) : State :=
  let p := s.port n
  if s.portUp n && bit (s.lnk n 0x20) 31 && !p.pfcSent && decide (2 ^ 21 < s.rxUsed n + s.field .cePort n 0x20 0 8 * 2 ^ 14) then
    (s.txPfc n true).setPort n { p with pfcSent := true }
  else s

/-- The occupancy has fallen below XON: the port resumes the peer. -/
def State.xonCheck (s : State) (n : Nat) : State :=
  let p := s.port n
  if p.pfcSent && decide (s.rxUsed n < s.field .cePort n 0x20 8 8 * 2 ^ 14) then
    (s.txPfc n false).setPort n { p with pfcSent := false }
  else s

/-- Frames leave the receive buffers of any ports: those that `keep` refuses. -/
def State.keepFrames (s : State) (keep : RxFrame → Bool) : State :=
  (List.range 12).foldl (fun t n => t.xonCheck n) { s with fab := { s.fab with inbox := s.fab.inbox.filter keep } }

/-- The inbox without its frame number `i`. -/
def State.dropFrame (s : State) (i : Nat) : State :=
  match s.fab.inbox[i]? with
  | none => s
  | some f => ({ s with fab := { s.fab with inbox := s.fab.inbox.eraseIdx i } } : State).xonCheck f.port

/-- Takes the first frame of the inbox that `p` accepts, with what `p` makes of it. -/
def State.takeFrame {α : Type} (s : State) (p : RxFrame → Option α) : Option (RxFrame × α × State) :=
  (s.fab.inbox.zipIdx).findSome? fun e => (p e.1).map fun a => (e.1, a, s.dropFrame e.2)

/-! ## The rows -/

/-- PEER_PHY_UP (R300). -/
def execPeerPhyUp (port : Nat) (s : State) : Host.Outcome State Fault Refusal :=
  guarded (s.umc.phase == .dies && portEnabled s.part port) s (s.setPort port { s.port port with phy := true })

/-- PEER_PHY_DOWN (R302): the port's links go down. -/
def execPeerPhyDown (port : Nat) (s : State) : Host.Outcome State Fault Refusal :=
  guarded (s.port port).phy s ((s.portDown port 2).setPort port { (s.portDown port 2).port port with phy := false, ctl := [], pfcSent := false })

/-- INIT_TIMER (R300, R301): INIT on each route-table link of the port that is down, or a broadcast twin INIT on an Oxbow port. -/
def execInitTimer (port : Nat) (s : State) : Host.Outcome State Fault Refusal :=
  let ini (m : Mac) (twin : Bool) : Sent := s.initFrame port m false twin
  let t :=
    if oxbow port then
      if s.fab.links.any fun l => l.port == port && l.twin && l.up then s else s.txCtl port (ini broadcastMac true)
    else s.fab.routes.foldl (fun u e =>
      match e.2 with
      | some r => if r.ports.contains port && !s.linkIsUp port r.mac then u.txCtl port (ini r.mac false) else u
      | none => u) s
  guarded (s.portUp port && !(s.port port).held) s t

/-- The check of an INIT (R300 step 2, R301). -/
def State.initOk (s : State) (n : Nat) (m : Mac) (twin : Bool) (rank domain : Nat) : Bool :=
  if twin then
    oxbow n && (match s.rankOfMac m with
      | some r => decide (domain = s.ceDomain ∧ r = rank)
      | none => true)
  else decide (domain = s.ceDomain) && ((s.route rank).any fun r => r.mac == m)

/-- INIT (R300, R301): one that passes is answered, and a link that is down comes up. On a twin link that is up it shows that the partner
has been reset: the epochs in progress there are lost (R290). A twin INIT on a port that is no Oxbow port is discarded, with LNK_MISMATCH. A
port that holds 64 links that are up answers no other peer (log 90). -/
def execInitFrame (port : Nat) (hdr : PeerHdr) (twin : Bool) (rank domain : Nat) (s : State) :
    Host.Outcome State Fault Refusal :=
  let mismatch (u : State) : State := u.raiseEv 0x0404 port (leBytes 4 domain ++ leBytes 2 rank)
  .next (
    if twin && !oxbow port then
      if s.portUp port then (let t := s.peerDiscard port hdr.fcsOk; if s.peerAccepts port hdr true then mismatch t else t) else s
    else s.peerRx port hdr twin fun u =>
      if u.initOk port hdr.srcMac twin rank domain then
        if (u.port port).held || !u.linkRoom port hdr.srcMac then u
        else
          let t := u.txCtl port (u.initFrame port hdr.srcMac true twin)
          if t.linkIsUp port hdr.srcMac then (if twin then t.dieCkptLost (port / 3) 2 else t)
          else t.linkUp port hdr.srcMac twin rank
      else mismatch u)

/-- INIT_ACK (R300): it answers an INIT of this port, and a link that is down comes up. -/
def execInitAck (port : Nat) (hdr : PeerHdr) (twin : Bool) (rank _domain : Nat) (s : State) :
    Host.Outcome State Fault Refusal :=
  .next (s.peerRx port hdr false fun u =>
    let expected := if twin then oxbow port else
      u.fab.routes.any fun e => e.2.any fun r => r.mac == hdr.srcMac && r.ports.contains port
    if (u.port port).held || u.linkIsUp port hdr.srcMac || !expected || !u.linkRoom port hdr.srcMac then u
    else u.linkUp port hdr.srcMac twin rank)

/-- A domain frame of an older wellhead generation (R406); a JOIN comes from a module that knows none. -/
def State.domStale (s : State) : LinkData → Bool
  | .dom f => f.mtype != 1 && decide (s.dom.wgen % 256 ≠ f.wgen ∧ (s.dom.wgen + 256 - f.wgen % 256) % 256 < 128)
  | _ => false

/-- Changes what a port holds of a link. -/
def State.onLinkState (s : State) (n : Nat) (m : Mac) (f : Link → Link) : State :=
  match s.link? n m with
  | some l => s.setLink (f l)
  | none => s

/-- Accepts a DATA frame in order (R302): a domain message enters the receive buffer with its last frame, unless it is of an older
generation (R406). -/
def State.acceptData (s : State) (l : Link) (d : LinkData) : State :=
  let full := l.unacked + 1 = 16
  let l1 : Link := { l with
    rxNext := (l.rxNext + 1) % 2 ^ 32
    nakAt := none
    unacked := if full then 0 else l.unacked + 1 }
  let t := s.setLink l1
  let t1 := if full then t.txCtl l.port (t.ctlFrame l.port l.mac 1 l1.rxNext) else t
  let put (x : LinkData) (u : State) : State :=
    if s.domStale x then u
    else ({ u with fab := { u.fab with inbox := u.fab.inbox ++ [⟨l.port, l.mac, (s.rankOfMac l.mac).getD 0xFFFF, x⟩] } } : State).pfcCheck l.port
  match d with
  | .dom f =>
    let whole := l.part ++ f.payload
    if f.payload.length = 8192 then t1.onLinkState l.port l.mac fun x => { x with part := whole }
    else put (.dom { f with payload := whole }) (t1.onLinkState l.port l.mac fun x => { x with part := [] })
  | _ => put d t1

/-- A frame ahead of the expected one may draw a NAK: one per gap per RTO (R302). -/
def State.nakDue (s : State) (l : Link) : Bool :=
  l.nakAt.all fun t => decide (t + s.field .cePort l.port 0x1C 0 8 ≤ s.us)

/-- A link after the ACK field of a frame: the replay queue may have room again for what waits. -/
def State.ackLink (s : State) (l : Link) (ack : Nat) : State := (s.setLink (l.acked ack)).transmit l.port

/-- DATA (R302): accepted in order, else discarded with a NAK or an ACK. The frame is no shorter than its parts (R297). -/
def execDataFrame (port : Nat) (hdr : PeerHdr) (seq ack : Nat) (data : LinkData) (s : State) :
    Host.Outcome State Fault Refusal :=
  .next (match data with
    | .bad _ => if s.portUp port then s.peerDiscard port hdr.fcsOk else s
    | _ => s.peerRx port { hdr with len := max hdr.len (frameBytes data) } false fun u => u.onLink port hdr.srcMac fun l v =>
        (v.ackLink l ack).onLink port hdr.srcMac fun l1 v1 =>
          let d := (BitVec.ofNat 32 seq - BitVec.ofNat 32 l1.rxNext).toNat
          if d = 0 then v1.acceptData l1 data
          else if d < 2 ^ 31 then
            if v1.nakDue l1 then
              (v1.setLink { l1 with nakAt := some v1.us }).txCtl port (v1.ctlFrame port l1.mac 2 l1.rxNext)
            else v1
          else (v1.setLink { l1 with unacked := 0 }).txCtl port (v1.ctlFrame port l1.mac 1 l1.rxNext))

/-- LINK_ACK (R302). -/
def execLinkAck (port : Nat) (hdr : PeerHdr) (ack : Nat) (s : State) : Host.Outcome State Fault Refusal :=
  .next (s.peerRx port hdr false fun u => u.onLink port hdr.srcMac fun l v => v.ackLink l ack)

/-- NAK (R302): the sender resends from the frame the NAK names. -/
def execNak (port : Nat) (hdr : PeerHdr) (ack : Nat) (s : State) : Host.Outcome State Fault Refusal :=
  .next (s.peerRx port hdr false fun u => u.onLink port hdr.srcMac fun l v => v.resend (l.acked ack) ack)

/-- KEEPALIVE (R302): like every frame it carries ACK. -/
def execKeepalive (port : Nat) (hdr : PeerHdr) (ack : Nat) (s : State) : Host.Outcome State Fault Refusal :=
  .next (s.peerRx port hdr false fun u => u.onLink port hdr.srcMac fun l v => v.ackLink l ack)

/-- ACK_TIMER (R302). -/
def execAckTimer (port : Nat) (mac : Mac) (s : State) : Host.Outcome State Fault Refusal :=
  .next (s.onLink port mac fun l v =>
    if l.unacked = 0 then v
    else (v.setLink { l with unacked := 0 }).txCtl port (v.ctlFrame port mac 1 l.rxNext))

/-- KEEPALIVE_TIMER (R302). -/
def execKeepaliveTimer (port : Nat) (mac : Mac) (s : State) : Host.Outcome State Fault Refusal :=
  .next (s.onLink port mac fun l v =>
    (v.setLink { l with unacked := 0 }).txCtl port (v.ctlFrame port mac 5 l.rxNext))

/-- RETRY_TIMEOUT (R302): the oldest outstanding frame is resent with all after it, and a retry counted; after RETRY_MAX of them
without an advance of ACK the link goes down. -/
def execRetryTimeout (port : Nat) (mac : Mac) (s : State) : Host.Outcome State Fault Refusal :=
  .next (s.onLink port mac fun l v =>
    match l.replay with
    | [] => v
    | f :: _ =>
      if l.retries < s.field .cePort port 0x1C 8 4 then
        ((v.bump .cePort port 0x3C 1).raiseLimited 0x0403 port port fun k =>
          beBytes 6 mac.toNat ++ leBytes 1 (min 255 k)).resend { l with retries := l.retries + 1 } f.seq
      else v.linkDown l 0)

/-- LINK_SILENCE (R302). -/
def execLinkSilence (port : Nat) (mac : Mac) (s : State) : Host.Outcome State Fault Refusal :=
  .next (s.onLink port mac fun l v => v.linkDown l 1)

/-- A priority of a port may be sent again: what waited is sent, and a watchdog hold ends (R303, R304). -/
def State.unpause (s : State) (n pr : Nat) : State :=
  let p := s.port n
  let s1 := s.setPort n { p with
    paused := p.paused.filter (· != pr)
    held := if pr = s.pcpData n then false else p.held
    ctl := if pr = s.pcpCtrl n then [] else p.ctl }
  let s2 : State := if pr = s.pcpCtrl n then (s1.emit p.ctl).bump .cePort n 0x30 p.ctl.length else s1
  if pr = s.pcpData n ∧ p.paused.contains pr then s2.transmit n else s2

/-- PFC_FRAME (R303): always honoured. -/
def execPfcFrame (port priority quanta : Nat) (s : State) : Host.Outcome State Fault Refusal :=
  let t := s.bump .cePort port 0x34 1
  let p := t.port port
  guarded (s.portUp port && decide (priority < 8)) s
    (if quanta = 0 then t.unpause port priority
     else if p.paused.contains priority then t
     else t.setPort port { p with paused := p.paused ++ [priority] })

/-- PAUSE_FRAME (R295): an 802.3x PAUSE frame is counted and ignored. -/
def execPauseFrame (port : Nat) (s : State) : Host.Outcome State Fault Refusal :=
  guarded (s.portUp port) s (s.bump .cePort port 0x38 1)

/-- PAUSE_EXPIRY (R303): the received pause time has run out. -/
def execPauseExpiry (port priority : Nat) (s : State) : Host.Outcome State Fault Refusal :=
  guarded ((s.port port).paused.contains priority) s (s.unpause port priority)

/-- PFC_REPEAT_TIMER (R303): while the port is below its headroom it repeats the frame, where EN is 1. -/
def execPfcRepeatTimer (port : Nat) (s : State) : Host.Outcome State Fault Refusal :=
  guarded (s.portUp port && (s.port port).pfcSent && bit (s.lnk port 0x20) 31) s (s.txPfc port true)

/-- PFC_WATCHDOG (R304): PCP_DATA has stayed paused for WATCHDOG ms: every link of the port is held down until the pause ends. -/
def execPfcWatchdog (port : Nat) (s : State) : Host.Outcome State Fault Refusal :=
  let t := (s.raiseEv 0x0406 port (leBytes 1 (s.pcpData port))).portDown port 3
  guarded (s.portUp port && (s.port port).paused.contains (s.pcpData port) && !(s.port port).held &&
      decide (s.field .cePort port 0x20 16 8 ≠ 0)) s
    (t.setPort port { t.port port with held := true })

/-- PEER_FRAME_DISCARD (R296, R300): a frame with a bad VID, EtherType, destination, VER, TYPE or KIND. One that none of these
checks fails is not discarded by this row. -/
def execPeerFrameDiscard (port : Nat) (hdr : PeerHdr) (ver ftype kind : Nat) (s : State) :
    Host.Outcome State Fault Refusal :=
  guarded (s.portUp port &&
      (!s.peerAccepts port hdr false || decide (ver ≠ 1) || (ftype == 0 && decide (2 < kind))))
    s (s.peerDiscard port hdr.fcsOk)

end Sys2Proof.Machine
end

