-- ==== Sys2Proof/Machine/Message.lean ====
section
/-! DEFINITION. Domain messages (R406, R407): their payloads, the control tree, combined, downward and direct messages. -/
namespace Sys2Proof.Machine

/-! ## Payloads: little-endian fields of 8 bytes (log 22) -/

def encN (l : List Nat) : List Byte := l.flatMap (leBytes 8)

def decN (l : List Byte) : List Nat := (List.range (l.length / 8)).map fun i => leAt (8 * i) 8 l

/-- Field `i` of a payload. -/
def fld (f : DomFrame) (i : Nat) : Nat := leAt (8 * i) 8 f.payload

/-! ## The control tree (R407) -/

/-- Relative index of a rank. -/
def State.relOf (s : State) (r : Nat) : Nat := (r + s.dom.size - s.dom.wh) % s.dom.size

/-- The parent of relative index `i > 0`: its highest set bit cleared. -/
def treeParent (i : Nat) : Nat := i - 2 ^ i.log2

def State.rankOfRel (s : State) (i : Nat) : Nat := (i + s.dom.wh) % s.dom.size

def rankDefault (_ : Nat) : RankEntry := {}

def State.rankEntry (s : State) (r : Nat) : RankEntry := Bank.get rankDefault s.dom.ranks r

def State.isLost (s : State) (r : Nat) : Bool := decide ((s.rankEntry r).state = 2)

/-- The children of relative index `i` in a tree of `n`. -/
def treeChildren (n i : Nat) : List Nat :=
  (List.range 10).filterMap fun k => if i < 2 ^ k ∧ i + 2 ^ k < n then some (i + 2 ^ k) else none

/-- To whom rank `r` sends upward messages: its parent, or the wellhead while that one is LOST. -/
def State.parentOf (s : State) (r : Nat) : Nat :=
  let p := s.rankOfRel (treeParent (s.relOf r))
  if s.isLost p then s.dom.wh else p

/-- The wellhead is this module. -/
def State.isWellhead (s : State) : Bool := s.dom.rankValid && decide (0 < s.dom.size ∧ s.dom.rank = s.dom.wh)

/-- From whom this module takes combined messages, and to whom it passes downward ones. -/
def State.children (s : State) : List Nat :=
  let own := (treeChildren s.dom.size (s.relOf s.dom.rank)).map s.rankOfRel
  let extra := if s.isWellhead then
      (List.range s.dom.size).filter fun r =>
        r != s.dom.wh && !own.contains r && s.isLost (s.rankOfRel (treeParent (s.relOf r)))
    else []
  (own ++ extra).filter fun r => !s.isLost r

/-- This module's tree neighbours. -/
def State.neighbours (s : State) : List Nat :=
  (if s.isWellhead then [] else [s.parentOf s.dom.rank]) ++ s.children

/-! ## Sending -/

/-- A domain frame of this module. -/
def State.domFrame (s : State) (mtype : Nat) (down : Bool) (step attempt arg : Nat) (payload : List Byte) : DomFrame :=
  ⟨mtype, down, s.dom.rank, step, min 255 attempt, s.dom.wgen % 256, arg, payload⟩

/-- Passes a downward message to the children. -/
def State.passDown (s : State) (f : DomFrame) : State :=
  s.children.foldl (fun t r => t.sendRank r 0 (.dom f)) s

/-- The wellhead sends a downward message: to itself and to its children. -/
def State.sendDown (s : State) (f : DomFrame) : State := (s.toSelf (.dom f)).passDown f

/-- A direct message to the wellhead. -/
def State.sendDirect (s : State) (f : DomFrame) : State := s.sendRank s.dom.wh 0 (.dom f)

/-- Adds this module's own contribution to a combined message. -/
def State.addOwn (s : State) (f : DomFrame) : State := { s with dom := { s.dom with own := s.dom.own ++ [f] } }

/-! ## Combined messages -/

/-- How many payload fields tell contributions of one message apart: the base, and for AMAX the group. -/
def keyFields (mtype : Nat) : Nat := if mtype = 5 then 4 else 1

/-- Two contributions belong to one combined message. -/
def sameKey (f g : DomFrame) : Bool :=
  f.mtype == g.mtype && f.step == g.step && f.attempt == g.attempt && f.arg == g.arg &&
    (f.payload.take (8 * keyFields f.mtype)) == (g.payload.take (8 * keyFields f.mtype))

/-- The contribution of child `r`, where it is in. -/
def State.childFrame (s : State) (r : Nat) (f : DomFrame) : Option (Nat × DomFrame) :=
  (s.fab.inbox.zipIdx).findSome? fun e =>
    match e.1.data with
    | .dom g => if e.1.rank = r ∧ !g.down ∧ sameKey f g then some (e.2, g) else none
    | _ => none

/-- Every child's contribution to the message of `f`, or none where one is missing. -/
def State.childFrames (s : State) (f : DomFrame) : List Nat → Option (List DomFrame)
  | [] => some []
  | r :: t =>
    match s.childFrame r f, s.childFrames f t with
    | some (_, g), some l => some (g :: l)
    | _, _ => none

/-- The inbox without the contributions to one message. -/
def State.dropKey (s : State) (f : DomFrame) : State :=
  ({ s with dom := { s.dom with own := s.dom.own.erase f } } : State).keepFrames fun x =>
    match x.data with
    | .dom g => g.down || !sameKey f g
    | _ => true

/-- The first combined message of a type that is complete here and in turn: this module's contribution, and with it the children's. -/
def State.takeCombined (s : State) (mtype : Nat) (inTurn : DomFrame → Bool) : Option (DomFrame × List DomFrame × State) :=
  s.dom.own.findSome? fun f =>
    if f.mtype = mtype ∧ inTurn f then (s.childFrames f s.children).map fun l => (f, l, s.dropKey f) else none

/-- Runs a combined row on the first message in turn: the contributions are combined by `comb`; the wellhead acts by `act`, any other
module sends the result to its parent. -/
def State.combinedIf (s : State) (mtype : Nat) (inTurn : DomFrame → Bool) (comb : DomFrame → List DomFrame → List Byte)
    (act : DomFrame → State → State) : State :=
  match s.takeCombined mtype inTurn with
  | none => s
  | some (f, l, t) =>
    let g : DomFrame := { f with payload := comb f l }
    if t.isWellhead then act g t else t.sendRank (t.parentOf t.dom.rank) 0 (.dom g)

/-- Runs a combined row on the first complete message. -/
def State.combined (s : State) (mtype : Nat) (comb : DomFrame → List DomFrame → List Byte)
    (act : DomFrame → State → State) : State :=
  s.combinedIf mtype (fun _ => true) comb act

/-- Sums payload fields after the first: all contributions carry the same first one. -/
def sumFields (f : DomFrame) (l : List DomFrame) : List Byte :=
  let fs := f :: l
  encN ((decN f.payload).zipIdx.map fun e => if e.2 = 0 then e.1 else fs.foldl (fun a g => a + fld g e.2) 0)

/-! ## Downward and direct messages -/

/-- Takes the first downward message of a type. -/
def State.takeDown (s : State) (mtype : Nat) : Option (DomFrame × State) :=
  (s.takeFrame fun x => match x.data with
    | .dom f => if f.mtype = mtype ∧ f.down then some f else none
    | _ => none).map fun r => (r.2.1, r.2.2)

/-- Takes the first upward or direct message of a type, with the frame it came in. -/
def State.takeUp (s : State) (mtype : Nat) : Option (RxFrame × DomFrame × State) :=
  s.takeFrame fun x => match x.data with
    | .dom f => if f.mtype = mtype ∧ !f.down then some f else none
    | _ => none

/-- Runs a downward row: what the wellhead sent itself is acted on; what a member receives it first passes on to its children. -/
def State.onDown (s : State) (mtype : Nat) (act : DomFrame → State → State) : State :=
  match s.takeDown mtype with
  | none => s
  | some (f, t) => act f (if t.isWellhead then t else t.passDown f)

/-- Whether a downward message of a type waits here. -/
def State.hasDown (s : State) (mtype : Nat) : Bool :=
  s.fab.inbox.any fun x => match x.data with
    | .dom f => f.mtype == mtype && f.down
    | _ => false

/-- Whether an upward or direct message of a type waits here. -/
def State.hasUp (s : State) (mtype : Nat) : Bool :=
  s.fab.inbox.any fun x => match x.data with
    | .dom f => f.mtype == mtype && !f.down
    | _ => false

/-- Drops what is left of an attempt among the combined messages: those of its step and base. -/
def State.purgeDom (s : State) (step base : Nat) : State :=
  let stale (f : DomFrame) : Bool :=
    !f.down && [5, 6, 8, 0xB, 0xD, 0xE, 0x10, 0x12].contains f.mtype && f.step == step && fld f 0 == base
  ({ s with dom := { s.dom with own := s.dom.own.filter fun f => !stale f } } : State).keepFrames fun x =>
    match x.data with
    | .dom f => !stale f
    | _ => true

end Sys2Proof.Machine
end

