-- ==== Sys2Proof/Machine/Operands.lean ====
section
/-! DEFINITION. Operand forms: the address fields of descriptors and tables (R10), the binding of logical units (R15, R18). -/
namespace Sys2Proof.Machine

/-- A Tarn address field: bits 39:0 of a device address in the Tarn range. -/
def tarnAddr (a : Nat) : Nat := a % 2 ^ 40

/-- A pool address field of a strand that runs on physical cluster `c`: an offset in that cluster's own pool. -/
def poolAddr (c a : Nat) : Nat := poolBase c + a % 2 ^ 22

/-- A pool address field that may name the pool of another cluster in bits 29:22. -/
def poolAddrAny (a : Nat) : Nat := poolBase (a / 2 ^ 22 % 2 ^ 8) + a % 2 ^ 22

/-- A field that allows either place, with its selector bit: 0 Tarn, 1 the pool of cluster `c`. -/
def sideAddr (pool : Bool) (c a : Nat) : Nat := if pool then poolAddr c a else tarnAddr a

/-- Die of a cluster and of a Facet, region of a cluster (R15). -/
def clusterDie (c : Nat) : Nat := c / 40

def facetCluster (f : Nat) : Nat := f / 4

def clusterRegion (c : Nat) : Nat := c / 10

def stackDie (i : Nat) : Nat := i / 2

/-- The physical cluster bound to logical cluster `j` (R18). -/
def State.physCluster (s : State) (j : Nat) : Nat := (s.bound[j]?).getD 0

/-- What a strand names as its die: the units it runs on, or the source stack of a copy (R279). -/
def State.strandDie (s : State) : StrandKind → Nat
  | .tile d => clusterDie (s.physCluster d.cluster)
  | .quant d => clusterDie (s.physCluster d.cluster)
  | .apply d => clusterDie (s.physCluster d.cluster)
  | .elem d => clusterDie (s.physCluster d.cluster)
  | .nsIter d => clusterDie (s.physCluster d.cluster)
  | .copy d => if d.src < tarnTop then stackDie (stackOf d.src) else if d.dst < tarnTop then stackDie (stackOf d.dst) else
      clusterDie ((d.src - poolBase 0) / 0x400000)
  | .coll d => d.eng
  | .hosted d => d.eng
  | .loss a _ => stackDie (stackOf a % 8)
  | .statsPass d _ => d

end Sys2Proof.Machine
end

