-- ==== Sys2Proof/Machine/StepBase.lean ====
section
/-! DEFINITION. What every rule about a step rests on: attempts, segments, active strands, policy records, cuts (R167 to R187,
R202, R216, R229). -/
namespace Sys2Proof.Machine

/-! ## Attempts -/

/-- The open attempt, or the run-ahead. -/
def State.attempt (s : State) (ra : Bool) : Option Attempt := if ra then s.step.ra else s.step.att

def State.setAttempt (s : State) (ra : Bool) (a : Attempt) : State :=
  if ra then { s with step := { s.step with ra := some a } } else { s with step := { s.step with att := some a } }

/-- Which attempt a message of a step belongs to. -/
def State.attemptOf (s : State) (step : Nat) : Option (Bool × Attempt) :=
  match s.step.att, s.step.ra with
  | some a, some b => if a.step = step then some (false, a) else if b.step = step then some (true, b) else none
  | some a, none => if a.step = step then some (false, a) else none
  | none, some b => if b.step = step then some (true, b) else none
  | none, none => none

def layerDefault (_ : Nat) : LayerState := {}

def segDefault (_ : Nat) : SegState := {}

/-- The number of a segment: twice the layer, and 1 for the backward one. -/
def segKey (l : Nat) (bwd : Bool) : Nat := 2 * l + b2n bwd

def Attempt.layer (a : Attempt) (l : Nat) : LayerState := Bank.get layerDefault a.layers l

def Attempt.setLayer (a : Attempt) (l : Nat) (x : LayerState) : Attempt :=
  { a with layers := Bank.put layerDefault a.layers l x }

def Attempt.seg (a : Attempt) (l : Nat) (bwd : Bool) : SegState := Bank.get segDefault a.segs (segKey l bwd)

def Attempt.setSeg (a : Attempt) (l : Nat) (bwd : Bool) (x : SegState) : Attempt :=
  { a with segs := Bank.put segDefault a.segs (segKey l bwd) x }

def rungCode : Rung → Nat
  | .l4 => 0
  | .l8 => 1
  | .f16 => 2

/-- A RUNG field: 3 is read as F16 (R179). -/
def rungOf : Nat → Rung
  | 0 => .l4
  | 1 => .l8
  | _ => .f16

/-- The rung above. -/
def Rung.up : Rung → Rung
  | .l4 => .l8
  | _ => .f16

def Rung.down : Rung → Rung
  | .f16 => .l8
  | _ => .l4

def Rung.max (r q : Rung) : Rung := if rungCode r < rungCode q then q else r

/-- The rung a layer runs at: at least L8 in wide mode (R180). -/
def Attempt.rungAt (a : Attempt) (l : Nat) : Rung := (a.layer l).rung

/-- The rung of a segment: its layer's, or the one at which it became CLEAR (R182). -/
def Attempt.segRung (a : Attempt) (l : Nat) (bwd : Bool) : Rung :=
  if (a.seg l bwd).clear then (a.seg l bwd).rung else a.rungAt l

/-! ## Strands -/

/-- A CNM program: one that holds a CNM product (R5). -/
def isCnm (p : Program) : Bool :=
  p.strands.any fun t => match t.kind with
    | .tile d => d.format == .cnm
    | _ => false

/-- A strand of the schedule and the variants that an attempt runs (R168, R180, R182). -/
def active (a : Attempt) (t : Strand) : Bool :=
  !a.skip && (t.wide.all fun w => w == a.wide) && (a.only.all fun l => l.contains t.phase) &&
    (match t.seg, t.rung with
     | some (l, b), some r => r == a.segRung l b
     | _, _ => true)

def State.strands (s : State) : List Strand :=
  match s.prog with
  | some p => p.strands
  | none => []

/-- The strand of an id. R25 numbers strands within a phase; DESIGN CHOICE (log 88): `Strand.id` is unique in the program. -/
def State.strand? (s : State) (id : Nat) : Option Strand := s.strands.find? fun t => t.id == id

/-- The active strands of a segment. -/
def segStrands (a : Attempt) (ts : List Strand) (l : Nat) (bwd : Bool) : List Strand :=
  ts.filter fun t => t.seg == some (l, bwd) && active a t

/-- The strands up to and including the last loss (R223). -/
def uptoLoss (ts : List Strand) : List Strand :=
  (ts.reverse.dropWhile fun t => match t.kind with
    | .loss _ _ => false
    | _ => true).reverse

/-- The strands an attempt may issue. -/
def issuable (ra : Bool) (ts : List Strand) : List Strand := if ra then uptoLoss ts else ts

/-- The strands that must be complete before some strands start, found back through at most `n` dependencies. -/
def before (ts : List Strand) : Nat → List Nat → List Nat
  | 0, l => l
  | n + 1, l =>
    let more := (l.flatMap fun i => ((ts.find? fun x => x.id == i).map (·.deps)).getD []).eraseDups.filter fun i => !l.contains i
    if more.isEmpty then l else before ts n (l ++ more)

/-- A collective of the program, hosted or not. -/
def isColl : StrandKind → Bool
  | .coll _ => true
  | .hosted _ => true
  | _ => false

/-- The segments of the trouble table in program order (R189): by their first active strand. -/
def segOrder (a : Attempt) (ts : List Strand) : List (Nat × Bool) :=
  ((ts.filter (active a)).filterMap (·.seg)).foldl (fun acc x => if acc.contains x then acc else acc ++ [x]) []

/-- The trouble vote is clear: every non-empty segment is CLEAR (R187). -/
def troubleClear (a : Attempt) (ts : List Strand) : Bool := (segOrder a ts).all fun x => (a.seg x.1 x.2).clear

/-! ## Event context -/

/-- The context of an event of an attempt (R190). -/
def ctxOf (ra : Bool) (a : Attempt) : EvCtx :=
  { step := some a.step, attempt := a.number, rerun := a.rerun, ra := ra }

/-- The context of an event of a segment. -/
def segCtx (ra : Bool) (a : Attempt) (l : Nat) (bwd : Bool) : EvCtx :=
  { ctxOf ra a with layer := l, seg := b2n bwd, rung := rungCode (a.rungAt l), segtry := (a.seg l bwd).tries }

/-- The context of an event of a strand, with the tensor and tile it names. -/
def strandCtx (ra : Bool) (a : Attempt) (t : Strand) (tensor tile : Nat) : EvCtx :=
  match t.seg with
  | some (l, b) => { segCtx ra a l b with tensor := some tensor, tile := some tile }
  | none => { ctxOf ra a with tensor := some tensor, tile := some tile }

/-! ## Policy records (R179) -/

structure PolicyRec where
  rung : Rung
  clean : Nat
  widenedAt : Nat
  deriving DecidableEq, Repr, Inhabited

def polOf (l : List Byte) : PolicyRec := ⟨rungOf (leAt 0 1 l % 4), leAt 2 2 l, leAt 4 4 l⟩

def polBytes (r : PolicyRec) : List Byte :=
  leBytes 1 (rungCode r.rung) ++ [0] ++ leBytes 2 r.clean ++ leBytes 4 r.widenedAt

/-- A layer's committed record. -/
def State.committedPol (s : State) (p : Program) (l : Nat) : PolicyRec := polOf (s.loadCommitted (p.policyBase + 8 * l) 8)

/-- A layer's record in the shadow, where the step has written it. -/
def State.shadowPol (s : State) (p : Program) (l : Nat) : PolicyRec := polOf (s.load (p.policyBase + 8 * l) 8)

/-- Wide mode by a set of records (R180). -/
def State.wideBy (s : State) (p : Program) (rec : Nat → PolicyRec) : Bool :=
  let n := (p.layers.filter fun e => (rec e.num).rung != .l4).length
  decide (s.field .policy 0 0x10 8 8 * p.layers.length < 64 * n)

/-- The rungs at step open: the records', raised to L8 in wide mode (R180). -/
def openLayers (p : Program) (wide : Bool) (rec : Nat → PolicyRec) : Bank LayerState :=
  p.layers.foldl (fun b e =>
    let r := (rec e.num).rung
    Bank.put layerDefault b e.num { rung := if wide && !isCnm p then Rung.max r .l8 else r }) []

/-! ## Update order, gates and cuts (R202, R214, R216, R229) -/

/-- The region a Tarn address lies in. -/
def regionOf (p : Program) (a : Nat) : Option Region :=
  p.regions.find? fun r => decide (r.base ≤ a ∧ a < r.base + r.size)

/-- An address in an unversioned PARAM, STATE or ROWCOUNT region. -/
def inPlace (p : Program) (a : Nat) : Bool :=
  (regionOf p a).any fun r => !r.versioned && (r.cls == .param || r.cls == .state || r.cls == .rowcount)

/-- The entry of a tensor with the addresses of a die (R237). -/
def forDie (e : UpdateEntry) (die : Nat) : UpdateEntry :=
  match e.dies.find? fun x => x.1 == die with
  | some (_, x) => { e with
      wh := x.wh, wm := x.wm, momc := x.momc, mome := x.mome, stat := x.stat, root := x.root, hdr := x.hdr, rcnt := x.rcnt, scr := x.scr
      grad := x.grad, grade := x.grade, stage := x.stage }
  | none => e

/-- The areas of a tensor that are written in a step on one die. -/
def writtenAreas (e : UpdateEntry) : List Nat :=
  [e.wh, e.wm, e.momc, e.mome, e.stat] ++ (if e.rule = .pre then [e.root] else []) ++ if e.sparse then [e.rcnt] else [e.hdr]

/-- A tensor with a page that the Inlet of a die of this entry writes in place. -/
def gatedTensor (p : Program) (e : UpdateEntry) : Bool :=
  !e.frozen && ((e :: e.dies.map fun x => forDie e x.1).any fun y => (writtenAreas y).any (inPlace p))

/-- Which pages an update writes: those of U regions wait for the layer's gate, those of V regions do not (R214). -/
inductive Pages where
  | all | v | u
  deriving DecidableEq, Repr, Inhabited

/-- An update of some pages writes at an address. -/
def Pages.writes (k : Pages) (p : Program) (a : Nat) : Bool :=
  match k with
  | .all => true
  | .v => !inPlace p a
  | .u => inPlace p a

/-- A gated layer (R214). -/
def gated (p : Program) (l : Nat) : Bool := p.updates.any fun e => e.layer == l && gatedTensor p e

/-- The gate of a gated layer has not reached this module in an attempt. -/
def gateShut (p : Program) (a : Attempt) (l : Nat) : Bool := gated p l && !a.gates.contains l

/-- What an update of a tensor on its die may write now: nothing while it waits for the gate of its layer. `vDone`: its V pages are
written already. -/
def phaseOf (p : Program) (a : Attempt) (e : UpdateEntry) (vDone : Bool) : Option Pages :=
  let u := !e.frozen && (writtenAreas e).any (inPlace p)
  if !u then some .all
  else if a.gates.contains e.layer then some (if vDone then .u else .all)
  else if (writtenAreas e).any (fun x => !inPlace p x) && !vDone then some .v
  else none

/-- The update entry of a tensor. -/
def updateOf (p : Program) (tensor : Nat) : Option UpdateEntry := p.updates.find? fun e => e.tensor == tensor

/-- A post that waits for its layer's gate (R214). -/
def InlPost.waits (p : Program) (a : Attempt) (q : InlPost) : Bool :=
  (updateOf p q.tensor).any fun e => (phaseOf p a (forDie e q.die) q.vDone).isNone

def orderIdx (p : Program) (l : Nat) : Option Nat := p.updateOrder.findIdx? (· == l)

/-- How many layers, in update order, lie before a cut (R229). -/
def cutPos (p : Program) : Cut → Nat
  | .outside => p.updateOrder.length
  | .beforeAll => 0
  | .at l => (orderIdx p l).getD 0
  | .after l => ((orderIdx p l).map (· + 1)).getD 0

/-- The layers before a cut in update order. -/
def beforeCut (p : Program) (c : Cut) : List Nat := p.updateOrder.take (cutPos p c)

/-- CUT as HUB_STEP_ABORT shows it (R234). -/
def cutCode (p : Program) : Cut → Nat
  | .outside => 0x7FE
  | .beforeAll => 0x7FF
  | .at l => if (orderIdx p l).isSome then l else 0x7FF
  | .after l => if (orderIdx p l).isSome then l else 0x7FF

/-- What marks a cause as a twin mismatch (R397). -/
def mismatchLayer : Nat := 0xFFFE

/-- A twin digest mismatch (R397). -/
def Cause.mismatch (c : Cause) : Bool := decide (c.code = 0x14 ∧ c.layer = mismatchLayer)

/-- A cause inside the program (R221). -/
def Cause.inProgram (c : Cause) : Bool := decide (c.code ≤ 7 ∧ c.code ≠ 4)

/-- Cuts at the same place in update order are told apart in this order (log 89). -/
def cutRank : Cut → Nat
  | .outside => 0
  | .beforeAll => 1
  | .after _ => 2
  | .at _ => 3

/-- Of two causes inside the program the second governs: the earlier cut, then the lower code (R216); then the order of `cutRank`, so
that the outcome never depends on which came first. -/
def governsOver (p : Program) (c d : Cause) : Bool :=
  let x := cutPos p c.cut
  let y := cutPos p d.cut
  decide (y < x) || (decide (y = x) && (decide (d.code < c.code) || (decide (d.code = c.code) && decide (cutRank d.cut < cutRank c.cut))))

/-- The cause that governs of two inside the program. -/
def governing (p : Program) (c d : Cause) : Cause := if governsOver p c d then d else c

/-- The cut of a cause met by a strand of a segment or of none: in a forward segment or the loss before every layer, in a backward
segment at its layer (R229). -/
def strandCut (t : Strand) : Cut :=
  match t.seg with
  | some (l, true) => .at l
  | _ => .beforeAll

/-! ## Causes and vetoes -/

/-- A cause found in an attempt is reported to the wellhead: one of the open attempt is decided there, one of a run-ahead squashes
that. A veto of a run-ahead is held until the next OPEN (R227). -/
def State.causeIn (s : State) (ra : Bool) (c : Cause) : State :=
  if ra && (c.code == 1 || c.code == 2) then
    match s.step.ra with
    | some a => s.setAttempt true { a with heldCauses := a.heldCauses ++ [c] }
    | none => s
  else s.addCause c

/-- A veto (R215): counted in the attempt's finite vote and reported, with its event. -/
def State.vetoIn (s : State) (ra : Bool) (loss : Bool) (l : Nat) (cut : Cut) : State :=
  match s.attempt ra with
  | none => s
  | some a =>
    let t := s.setAttempt ra { a with vetoes := a.vetoes ++ [if loss then 0xFFFF else l] }
    let t1 := t.raiseCtx (if loss then 0x0130 else 0x0131) 0 7 { ctxOf ra a with layer := if loss then 0xFFFF else l }
      (leBytes 2 (if loss then 0xFFFF else l))
    t1.causeIn ra ⟨if loss then 1 else 2, if loss then 0xFFFF else l, cut, a.step, false⟩

/-- A binary32 pattern that is a NaN or an infinity. -/
def nonFinite32 (w : Word) : Bool := decide (bits w 23 8 = 255)

/-! ## The Inlets at the end of an attempt (R240) -/

/-- What the Inlets hold of one attempt goes. -/
def InletSt.fresh (x : InletSt) : InletSt :=
  { x with posts := [], seen := [], parts := [], counts := [], pre := [], preV := [], passed := [], stats := [], staged := [], kept := [] }

/-! ## The scratch area of a tensor (R240, R255; its layout: log 63) -/

/-- Pieces of a dense tensor; a sparse one keeps no statistics partials. -/
def pieceCount (e : UpdateEntry) : Nat := if e.sparse then 0 else (e.rows + 255) / 256 * ((e.cols + 255) / 256)

/-- Bytes of one applied bitmap: a bit for each dense block or row, in whole lines. -/
def bitmapBytes (e : UpdateEntry) : Nat := ((if e.sparse then e.rows else e.rows * (e.cols / 128)) + 511) / 512 * 64

/-- The applied bitmap of step `n`: the two alternate by its parity. -/
def bitmapAt (e : UpdateEntry) (n : Nat) : Nat := tarnAddr e.scr + 2048 * pieceCount e + n % 2 * bitmapBytes e

/-- SD and SW of block `k`, row-major. -/
def ratioAt (e : UpdateEntry) (k : Nat) : Nat := tarnAddr e.scr + 2048 * pieceCount e + 2 * bitmapBytes e + 8 * k

/-- The dies of this module that own a piece or row unit of a tensor. -/
def State.ownerDies (s : State) (e : UpdateEntry) : List Nat :=
  (List.range 4).filter fun d => e.own.contains (s.dom.rank, d)

/-! ## Undefined scratch (R213) -/

/-- POND and SCRATCH contents are undefined after an abort. -/
def State.scratchUndef (s : State) : State :=
  (s.regions.filter fun r => r.cls == .pond || r.cls == .scratch).foldl (fun t r => t.makeUndef r.base (r.base + r.size)) s

end Sys2Proof.Machine
end

