-- ==== Sys2Proof/Machine/Lines.lean ====
section
/-! DEFINITION. Uncorrectable lines of Tarn (R268 to R270): where an address lies, what a line on the poison list leads to, and the
reads and writes of a strand that meet one. -/
namespace Sys2Proof.Machine

/-! ## Where an address lies (R270, R292) -/

def classNo : RClass → Nat
  | .param => 1
  | .state => 2
  | .rowcount => 3
  | .history => 4
  | .policy => 5
  | .shift => 6
  | .pond => 7
  | .data => 8
  | .scratch => 9

/-- The Spillway area this module holds for another: its base and the address after it (R394). -/
def State.spillwayArea (s : State) : Nat × Nat :=
  let b := (s.reg .twn 0 0x40).toNat + s.field .twn 0 0x44 0 16 * 2 ^ 32
  (b, b + s.field .twn 0 0x48 0 21 * 2 ^ 20)

/-- The region of a physical Tarn address, frame-1 halves included. -/
def State.regionAt (s : State) (a : Nat) : Option Region :=
  s.regions.find? fun r => decide (r.base ≤ a ∧ a < r.base + (if r.versioned then 2 * r.size else r.size))

/-- The receiving checkpoint area a physical address lies in: its base and its size before doubling. -/
def State.areaAt (s : State) (a : Nat) : Option (Nat × Nat) :=
  match s.ckptArea (stackOf a) with
  | some (b, z) => if b ≤ a ∧ a < b + 2 * z then some (b, z) else none
  | none => none

/-- The content class of an address (R292). -/
def State.contentClass (s : State) (a : Nat) : Nat :=
  if s.inWindow a then 11
  else if (s.areaAt a).isSome then 10
  else if s.spillwayArea.1 ≤ a ∧ a < s.spillwayArea.2 then 12
  else ((s.regionAt a).map fun r => classNo r.cls).getD 0

/-- The frame-0 address of the page that a physical address of a V region or area belongs to, and whether it lies in frame 1. -/
def frameOf (base size a : Nat) : Nat × Bool := if a < base + size then (a, false) else (a - size, true)

/-! ## Uncorrectable lines (R269, R270) -/

/-- What an uncorrectable line leads to. -/
inductive UeOutcome where
  | counted | abort | faulted | ckptLost | epochFails | hostStatus
  deriving DecidableEq, Repr

/-- The outcome byte of TRN_UE. -/
def ueCode : UeOutcome → Nat
  | .counted => 0
  | .abort => 1
  | .faulted => 2
  | .ckptLost => 3
  | .epochFails => 3
  | .hostStatus => 4

/-- A strand read comes from requesters 0 to 5, a host read from the bulk engine (R270). -/
def otherUe (req : Nat) : UeOutcome := if req ≤ 5 then .abort else if req = 11 then .hostStatus else .counted

/-- The table of R270. -/
def State.ueOutcome (s : State) (a req : Nat) : UeOutcome :=
  if s.inWindow a then (if req = 11 then .hostStatus else .counted)
  else match s.areaAt a with
    | some (b, z) =>
      let (p, one) := frameOf b z a
      if (s.vtOf p).vb = one then .ckptLost else if req = 10 then .epochFails else .counted
    | none =>
      if s.spillwayArea.1 ≤ a ∧ a < s.spillwayArea.2 then (if req = 11 then .hostStatus else .counted)
      else match s.regionAt a with
        | none => otherUe req
        | some r =>
          if r.versioned then
            let (p, one) := frameOf r.base r.size a
            if (s.vtOf p).vb = one then .faulted
            else if (s.vtOf p).t && (decide (req ≤ 5) || req == 12) then .abort
            else .counted
          else match r.cls with
            | .param => .faulted
            | .state => .faulted
            | .rowcount => .faulted
            | _ => otherUe req

/-- A cause outside the program strikes an attempt (R221): the run-ahead, where one of its strands met it (R227); else the open one, and
where none is open the run-ahead. -/
def State.strikeAttempt (s : State) (ra : Bool) (code : Nat) : State :=
  let strike (o : Option Attempt) (t : State) : State :=
    match o with
    | some a => t.addCause ⟨code, 0xFFFF, .outside, a.step, false⟩
    | none => t
  if ra || s.step.att.isNone then strike s.step.ra s else strike s.step.att s

/-- TAG of a page of an epoch: its place in the area, and the stack. -/
def ckptTag (i page : Nat) : Nat := page + i * 2 ^ 26

/-- The Oxbow port of the die beside stack `i`. -/
def oxbowOf (i : Nat) : Nat := 3 * (i / 2) + 2

/-- A MARK that goes before a refusing ACK of a USE and says why: code 0x12, its argument the stack and the reason (log 38). -/
def whyMark (use i why : Nat) : CopyFrame := ⟨.mark, use, 0, 0, 0, 0, 0, 0x12 + 2 ^ 8 * (i % 16 + 16 * why), []⟩

/-- A base of a receiving area refuses its sender: an ACK with bit 31 of TAG set (R305), after the reason for R290. -/
def State.ckptRefuse (s : State) (i why : Nat) : State :=
  (s.sendTwinOn (oxbowOf i) (.copy (whyMark 1 i why))).sendTwinOn (oxbowOf i)
    (.copy ⟨.ack, 1, 2 ^ 31 + ckptTag i 0, 0, 0, 0, 0, 0, []⟩)

/-- A line is found uncorrectable by a requester (R269, R270): it enters the poison list, it is counted and recorded, and the outcome of
the table follows. `addr`: the decoder placed the error in an address symbol (R267); `ra`: a strand of the run-ahead found it, whose
record is held (R226). -/
def State.lineUEFor (s : State) (ra : Bool) (l req : Nat) (addr : Bool) : State :=
  let a := 64 * l
  let i := stackOf a
  let o := s.ueOutcome a req
  let cls := s.contentClass a
  let k := s.stack i
  let full := !k.poison.contains l && decide (4096 ≤ k.poison.length)
  let s1 := if k.poison.contains l || full then s else s.setStack i { k with poison := l :: k.poison }
  let s2 := (s1.bump .trn i 0x94 1).keepTrnError i l 0 cls req true addr
  let ctx : EvCtx := if ra then (s2.step.ra.map (ctxOf true)).getD {} else {}
  let s3 := s2.raiseCtx (if addr then 0x0303 else 0x0302) i 4 ctx (leBytes 6 a ++ leBytes 1 cls ++ leBytes 1 (if full then 2 else ueCode o))
  let s4 :=
    match o with
    | .counted => s3
    | .hostStatus => s3
    | .abort => s3.strikeAttempt ra 0x11
    | .faulted => s3.markFaulted
    | .ckptLost =>
      (s3.raiseEv 0x0307 i (leBytes 4 (s3.reg .trn i 0x7C).toNat ++ leBytes 1 1)).ckptRefuse i 1
    | .epochFails => s3.setStack i { s3.stack i with recvFailed := true }
  if full then s4.markFaulted else s4

/-- `lineUEFor` where no strand of the run-ahead found the line. -/
def State.lineUE (s : State) (l req : Nat) (addr : Bool) : State := s.lineUEFor false l req addr

/-- The number of a line within its channel, and the address of line `k` of channel `c` (R264). -/
def chanLine (a : Nat) : Nat := a % 2 ^ 37 / 2 ^ 13 * 4 + a / 64 % 4

def chanOf (a : Nat) : Nat := a / 256 % 32

def chanAddr (i c k : Nat) : Nat := i * 2 ^ 37 + k / 4 * 2 ^ 13 + c * 256 + k % 4 * 64

/-- The epoch of the step last committed has not ended on stack `i`: writes to its V pages wait (R287). -/
def State.epochRuns (s : State) (i : Nat) : Bool := (s.stack i).epoch.isSome || (s.stack i).due.isSome

/-- A write that starts at an address waits for an epoch (R287). -/
def State.writeWaits (s : State) (a : Nat) : Bool :=
  decide (a < tarnTop) && s.epochRuns (stackOf a) && (s.vRegion a).isSome

/-- A write of `n` bytes waits for an epoch: some page of it is a V page whose stack's epoch runs (R287). -/
def State.spanWaits (s : State) (a n : Nat) : Bool :=
  (List.range ((a + n + 4095) / 4096 - a / 4096)).any fun j => s.writeWaits (max a (4096 * (a / 4096 + j)))

/-- A transfer to a V page is in flight (R284). -/
def State.vInFlight (s : State) : Bool :=
  (List.range 8).any fun i => (s.stack i).grants.any fun g => (List.range g.2.count).any fun j =>
    (s.vRegion (chanAddr i g.1 (chanLine (64 * g.2.line) + j))).isSome

/-- The lines that `n` bytes from a frame-0 address on occupy for a strand, lowest first. -/
def State.strandLines (s : State) (a n : Nat) : List Nat :=
  (List.range ((a + n + 63) / 64 - a / 64)).map fun j => s.strandAddr (64 * (a / 64 + j)) / 64

/-- Those of some lines that are in their stack's poison list. -/
def State.badLines (s : State) (ls : List Nat) : List Nat :=
  ls.filter fun l => decide (64 * l < tarnTop) && (s.stack (stackOf (64 * l))).poison.contains l

/-- The committed copies of the lines that `n` bytes from a frame-0 address on occupy. -/
def State.committedLines (s : State) (a n : Nat) : List Nat :=
  (List.range ((a + n + 63) / 64 - a / 64)).map fun j => s.committedAddr (64 * (a / 64 + j)) / 64

/-- The lines that a strand's write of `n` bytes from a frame-0 address on reads: the committed page at the first write to a V page, unless
the write covers it (R277), and the lines it covers in part, for the merge (R268). -/
def State.mergeLines (s : State) (a n : Nat) : List Nat :=
  (List.range ((a + n + 4095) / 4096 - a / 4096)).flatMap fun j =>
    let p := 4096 * (a / 4096 + j)
    let lo := max a p
    let hi := min (a + n) (p + 4096)
    if (s.vRegion lo).isSome && !(s.vtOf lo).t then
      if lo = p ∧ hi = p + 4096 then [] else s.committedLines p 4096
    else if lo / 64 = (hi - 1) / 64 then (if lo % 64 = 0 ∧ hi % 64 = 0 then [] else s.strandLines lo 1)
    else (if lo % 64 = 0 then [] else s.strandLines lo 1) ++ (if hi % 64 = 0 then [] else s.strandLines (hi - 1) 1)

/-- What a unit of a strand does with Tarn: requester `req` reads some lines and writes some spans (address, bytes). Where a line it has
to read is on the poison list, the outcomes of R270 take the place of its effect `t`. `ra`: the strand is of the run-ahead. -/
def State.strandIO (s : State) (ra : Bool) (req : Nat) (reads : List Nat) (writes : List (Nat × Nat)) (t : State) : State :=
  match s.badLines (reads ++ writes.flatMap fun w => s.mergeLines w.1 w.2) with
  | [] => t
  | ls => ls.foldl (fun (u : State) l => u.lineUEFor ra l req false) s

/-- The applied bitmaps of step `n` are cleared at an open, on every die that owns a part (R240). -/
def State.clearBitmaps (s : State) (p : Program) (n : Nat) : State :=
  p.updates.foldl (fun t e => (t.ownerDies e).foldl (fun (u : State) d =>
    let at' := bitmapAt (forDie e d) n
    u.strandIO false 2 [] [(at', bitmapBytes e)] (u.store at' (List.replicate (bitmapBytes e) 0))) t) s

end Sys2Proof.Machine
end

