-- ==== Sys2Proof/Machine/Spans.lean ====
section
/-! DEFINITION. Where strands read and write: the kernels' outputs, program copies, collectives and their groups (R83, R129, R279, R307,
R308), and which values pass from strand to strand through memory (R183). -/
namespace Sys2Proof.Machine

/-- Two ranges have a byte in common. -/
def overlaps (a b c d : Nat) : Bool := decide (a < d ∧ c < b)

/-! ## Collectives (R307, R308) -/

/-- Block length of a descriptor. -/
def collBlk (d : CollDesc) : Nat := 32 * 2 ^ d.blk

/-- Bytes of `n` elements. -/
def elemBytes (d : CollDesc) (n : Nat) : Nat :=
  match d.fmt with
  | .f32 => 4 * n
  | .sparse => n + 4 * (n / max d.cols 1 + 1)
  | _ => n

/-- Bytes of the exponent entries of `n` elements. -/
def entryBytes (d : CollDesc) (n : Nat) : Nat :=
  match d.fmt with
  | .l8 | .sparse => 2 * (n / collBlk d)
  | _ => 0

/-- Where a collective reads: its leaves, or the one source of an AG or BC. -/
def collSource (d : CollDesc) (held : Nat) : List (Nat × Nat) :=
  let n := match d.op with
    | .rs | .ar => held
    | _ => 1
  (List.range n).flatMap fun j =>
    [(d.src + j * d.lstride, d.src + j * d.lstride + elemBytes d d.elems),
      (d.srce + j * (2 * d.lstride / collBlk d), d.srce + j * (2 * d.lstride / collBlk d) + entryBytes d d.elems)]

/-- Where it writes. -/
def collDest (d : CollDesc) (members : Nat) : List (Nat × Nat) :=
  let n := match d.op with
    | .ag => members * d.elems
    | _ => d.elems
  [(d.dst, d.dst + elemBytes d n), (d.dste, d.dste + entryBytes d n)]

def anyOverlap (xs ys : List (Nat × Nat)) : Bool := xs.any fun x => ys.any fun y => overlaps x.1 x.2 y.1 y.2

/-- The leaves of each member: through LMAP, or the group's. -/
def leavesOf (g : Group) (d : CollDesc) : List (List Nat) :=
  if d.lmap.isEmpty then g.leaves
  else (List.range g.ranks.length).map fun m => ((d.lmap.zipIdx).filter fun x => x.1 == m).map (·.2)

/-- An aligned group (R308): L is the descriptor's leaf count, where it reduces leaves. -/
def alignedLeaves (d : CollDesc) (ls : List (List Nat)) : Bool :=
  let g := ls.length
  let l := if d.op = .rs ∨ d.op = .ar then 2 ^ d.llog else ls.foldl (fun a x => a + x.length) 0
  decide (0 < g ∧ 2 ^ g.log2 = g) && (ls.zipIdx).all fun x => x.1 == (List.range (l / g)).map fun i => x.2 * (l / g) + i

/-- Group 0 (R308): the whole domain in rank order, with the canonical shard map as its leaf map. -/
def State.wholeGroup (s : State) (p : Program) : Group :=
  let ranks := List.range (max 1 s.dom.size)
  ⟨0, ranks, ranks.map fun r => ((p.shardMap.zipIdx).filter fun x => x.1 == r).map (·.2)⟩

/-- The group of a number: group 0, or that of the group table. -/
def State.groupOf (s : State) (p : Program) (grp : Nat) : Option Group :=
  if grp = 0 then some (s.wholeGroup p) else p.groups.find? fun g => g.grp == grp

/-- What a collective reads on this module: the leaves it holds, or its one source. -/
def State.collReads (s : State) (p : Program) (d : CollDesc) : List (Nat × Nat) :=
  match s.groupOf p d.grp with
  | some g =>
    match g.ranks.findIdx? (· == s.srcRank) with
    | some me => collSource d ((leavesOf g d)[me]?.getD []).length
    | none => []
  | none => collSource d 1

/-- What it writes on this module. -/
def State.collWrites (s : State) (p : Program) (d : CollDesc) : List (Nat × Nat) :=
  collDest d (((s.groupOf p d.grp).map fun g => g.ranks.length).getD 1)

/-! ## Copies and kernels -/

/-- Row `j` of a program copy or fill: its source and its destination. -/
def copyRowAt (d : CopyStrand) (j : Nat) : Nat × Nat := (if d.fill then d.src else d.src + j * d.sstride, d.dst + j * d.dstride)

/-- The QUANT descriptor a strand ends in, if any. -/
def quantOf : StrandKind → Option QuantDesc
  | .quant d => some d
  | .apply d => some d.quant
  | .elem d => d.quant
  | _ => none

/-- Bytes of `n` codes of a format, packed. -/
def codeSpan (f : Fmt) (n : Nat) : Nat :=
  match f with
  | .l4 => n / 2
  | .l6 => n * 3 / 4
  | .l8 => n
  | .f16 => 2 * n

/-- The codes and exponents that a kernel ending in the quantize path writes. -/
def quantWrites (c : Nat) (q : QuantDesc) : List (Nat × Nat) :=
  ([q.row, q.col].filter (·.en)).flatMap fun d =>
    let n := q.pr * q.pc
    [(poolAddr c d.codes, poolAddr c d.codes + codeSpan d.fmt n), (poolAddr c d.exps, poolAddr c d.exps + 2 * (n / (32 * 2 ^ d.blk)))]

/-- Where a strand writes results that another strand can read. -/
def State.writes (s : State) (p : Program) (t : Strand) : List (Nat × Nat) :=
  match t.kind with
  | .tile d =>
    let a := poolAddr (s.physCluster d.cluster) d.dest
    if d.fused = 0 then [(a + 4 * (64 * d.row0 + d.col0), a + 4 * (64 * d.row0 + d.col0 + 64 * 64))]
    else [(a + 4 * d.row0 * d.fk.chunks, a + 8 * (d.row0 + 64) * d.fk.chunks)]
  | .quant d => quantWrites (s.physCluster d.cluster) d
  | .apply d =>
    let a := poolAddr (s.physCluster d.cluster) d.dst
    (a, a + 4 * (d.quant.pr * d.quant.pc)) :: quantWrites (s.physCluster d.cluster) d.quant
  | .elem d =>
    let a := poolAddr (s.physCluster d.cluster) d.dst
    (a, a + 4 * d.n) :: (d.quant.map (quantWrites (s.physCluster d.cluster))).getD []
  | .nsIter d => [(tarnAddr d.root, tarnAddr d.root + 4 * (64 * 2 ^ d.pb) ^ 2), (tarnAddr d.hdr, tarnAddr d.hdr + 16)]
  | .copy d => (List.range d.rows).map fun j => ((copyRowAt d j).2, (copyRowAt d j).2 + d.len)
  | .coll d | .hosted d => s.collWrites p d
  | .loss _ _ => []
  | .statsPass _ _ => []

/-- Where a strand that only passes values on reads them. -/
def State.carries (s : State) (p : Program) (t : Strand) : List (Nat × Nat) :=
  match t.kind with
  | .copy d => if d.fill then [] else (List.range d.rows).map fun j => ((copyRowAt d j).1, (copyRowAt d j).1 + d.len)
  | .coll d | .hosted d => s.collReads p d
  | _ => []

/-- The memory that holds what some strands of a list wrote, straight or as copies and collectives carried it on, in program order. -/
def State.reachedFrom (s : State) (p : Program) (from' : Strand → Bool) (ts : List Strand) : List (Nat × Nat) :=
  ts.foldl (fun acc u => if from' u || anyOverlap acc (s.carries p u) then acc ++ s.writes p u else acc) []

end Sys2Proof.Machine
end

