-- ==== Sys2Proof/Machine/Stash.lean ====
section
/-! DEFINITION. The Pond and the Spillway (R203 to R209): allocation, spills, returns, release. -/
namespace Sys2Proof.Machine

/-! ## The Pond of a die (R203) -/

/-- The POND regions in the two stacks beside a die, by base and size. -/
def pondRegions (p : Program) (die : Nat) : List (Nat × Nat) :=
  (p.regions.filter fun r => r.cls == .pond && stackDie (stackOf r.base) == die).map fun r => (r.base, r.size)

/-- The entry of a block and shard (R204). -/
def stashEntry (p : Program) (id shard : Nat) : Option StashEntry := p.stash.find? fun e => e.id == id && e.shard == shard

/-- This module holds the shard of a stash block. -/
def State.holds (s : State) (p : Program) (shard : Nat) : Bool := p.shardMap[shard]? == some s.dom.rank

/-- Size of a block at a rung (R204). -/
def blockSize (e : StashEntry) : Rung → Nat
  | .l4 => e.bytesL4
  | .l8 => e.bytesL8
  | .f16 => e.bytesF16

/-- The Pond space in use: resident blocks, and the places returns copy to. -/
def Stash.used (x : Stash) : List (Nat × Nat) :=
  (x.resident.map fun b => (b.addr, b.size)) ++
    x.spilled.filterMap fun b => b.returning.map fun r => (r.1, b.size)

/-- An address from which a block fits in a region beside what is in use. -/
def fitsAt (used : List (Nat × Nat)) (r : Nat × Nat) (z a : Nat) : Bool :=
  decide (r.1 ≤ a ∧ a + z ≤ r.1 + r.2) && used.all fun u => decide (u.1 + u.2 ≤ a ∨ a + z ≤ u.1)

/-- First fit in ascending address (R205): a block starts at the base of a region or behind a block in use. -/
def firstFit (regions used : List (Nat × Nat)) (z : Nat) : Option Nat :=
  ((regions.flatMap fun r => ((r.1 :: used.map fun u => u.1 + u.2).filter fun a => fitsAt used r z a))).foldl
    (fun best a => match best with
      | none => some a
      | some b => some (min a b)) none

/-- HUB_POND_USED in bytes. -/
def Stash.bytesUsed (x : Stash) : Nat := x.used.foldl (fun n u => n + u.2) 0

/-- Keeps the high-water mark (R476). -/
def State.setStash (s : State) (x : Stash) : State :=
  { s with stash := { x with hwm := max x.hwm (x.bytesUsed) } }

/-! ## Spills (R206) -/

/-- Bytes of the Spillway area in use. -/
def Stash.spilledBytes (x : Stash) : Nat := x.spilled.foldl (fun n b => n + b.size) 0

/-- First fit in the Spillway area. -/
def Stash.spillPlace (x : Stash) (z : Nat) : Option Nat :=
  if x.enabled then firstFit [(0, x.areaMib * 2 ^ 20)] (x.spilled.map fun b => (b.offset, b.size)) z else none

/-- Sends a copy frame to the Spillway target of a block: the one in force when it was spilled (R230). -/
def State.toSpillway (s : State) (b : Spilled) (f : CopyFrame) : State :=
  if b.toTwin then s.sendTwin (.copy f) else s.sendRank b.peer 0 (.copy f)

/-- STEP of a copy frame of the stash: the step of the attempt whose block it is (R305). -/
def State.stepOf (s : State) (ra : Bool) : Nat := ((s.attempt ra).map (·.step)).getD 0

/-- TAG of the copy frame of one page: its number in the Spillway area. -/
def pageTag (off page : Nat) : Nat := off / 4096 + page

/-- Copies a block out page by page with a CRC-32C each (R206, R208): the Pond space is released when the copies are acknowledged. ADDR
is the offset in the area (log 23). -/
def State.spill (s : State) (b : Block4) (off : Nat) : State :=
  let pages := List.range (b.size / 4096)
  let crcs := pages.map fun i => crc32c (s.bytes (b.addr + 4096 * i) 4096)
  let sp : Spilled := ⟨b.id, b.shard, b.ra, s.stash.toTwin, s.stash.peer, off, b.size, crcs, b.addr, pages, none⟩
  let s1 := { s with stash := { s.stash with spilled := s.stash.spilled ++ [sp] } }
  let s2 := s1.bump .step 0 0x5C 1
  pages.foldl (fun t i =>
    t.toSpillway sp ⟨.write, 0, pageTag off i, off + 4096 * i, 4096, s.stepOf b.ra, ((crcs[i]?).getD 0).toNat, 0,
      t.bytes (b.addr + 4096 * i) 4096⟩) s2

/-- A spilled block is block `id` of a shard. -/
def Spilled.isBlock (q : Spilled) (id shard : Nat) (ra : Bool) : Bool := q.id == id && q.shard == shard && q.ra == ra

def Block4.isBlock (q : Block4) (id shard : Nat) (ra : Bool) : Bool := q.id == id && q.shard == shard && q.ra == ra

/-- A block has been copied out and its copies are not all acknowledged. -/
def Stash.spilling (x : Stash) (b : Block4) : Bool := x.spilled.any fun q => q.isBlock b.id b.shard b.ra

/-- The writers of a block are complete: every active strand of its layer's forward segment (log 24). -/
def writersDone (a : Attempt) (ts : List Strand) (e : StashEntry) : Bool :=
  (segStrands a ts e.layer false).all fun t => a.done.contains t.id

/-- The class 1 block to spill next: of those that the area has room for, lowest LAYER, then lowest ID (R206, R209). R206 does not order the
shards of one block; DESIGN CHOICE (log 24): the one that became resident first. -/
def State.spillCandidate (s : State) (p : Program) (a : Attempt) (die : Nat) : Option Block4 :=
  (s.stash.resident.foldl (fun (best : Option (Nat × Block4)) b =>
    match stashEntry p b.id b.shard with
    | none => best
    | some e =>
      if e.cls = 1 ∧ e.die = die ∧ writersDone a p.strands e ∧ !s.stash.spilling b ∧ (s.stash.spillPlace b.size).isSome then
        match best with
        | none => some (e.layer, b)
        | some (l, c) => if e.layer < l ∨ (e.layer = l ∧ b.id < c.id) then some (e.layer, b) else best
      else best) none).map (·.2)

/-- What became of an allocation. -/
inductive Alloc where
  | placed | waiting | full
  deriving DecidableEq, Repr

/-- Spills class 1 blocks until the allocation will fit once the copies are complete (R206); `n` bounds their number. -/
def State.spillFor (p : Program) (a : Attempt) (die z : Nat) : Nat → State → State × Bool
  | 0, s => (s, false)
  | n + 1, s =>
    let free := s.stash.used.filter fun u => !(s.stash.resident.any fun b => b.addr == u.1 && s.stash.spilling b)
    if (firstFit (pondRegions p die) free z).isSome then (s, true)
    else match s.spillCandidate p a die with
      | none => (s, false)
      | some b =>
        match s.stash.spillPlace b.size with
        | none => (s, false)
        | some off => State.spillFor p a die z n (s.spill b off)

/-- STASH_FULL (R209). -/
def State.stashFull (s : State) (ra : Bool) (a : Attempt) (t : Strand) (e : StashEntry) (ret : Bool) : State :=
  let s1 := s.raiseCtx 0x0330 0 7 { ctxOf ra a with layer := e.layer }
    (leBytes 4 e.id ++ leBytes 1 (b2n ret) ++ leBytes 2 e.layer)
  s1.causeIn ra ⟨3, e.layer, strandCut t, a.step, false⟩

/-- STASH_ALLOCATE (R205): one block at the rung of its writing segment. -/
def State.allocBlock (s : State) (ra : Bool) (p : Program) (a : Attempt) (t : Strand) (e : StashEntry) : State × Alloc :=
  let z := blockSize e (a.rungAt e.layer)
  match firstFit (pondRegions p e.die) s.stash.used z with
  | some addr =>
    (s.setStash { s.stash with resident := s.stash.resident ++ [⟨e.id, e.shard, ra, addr, z, true⟩] }, .placed)
  | none =>
    match State.spillFor p a e.die z (s.stash.resident.length + 1) s with
    | (u, true) => (u, .waiting)
    | (u, false) => (u.stashFull ra a t e false, .full)

/-- Allocates every block whose FIRST strand this is, and whose shard is held, in table order. -/
def State.allocAll (ra : Bool) (p : Program) (a : Attempt) (t : Strand) : List StashEntry → State → State × Alloc
  | [], s => (s, .placed)
  | e :: r, s =>
    if s.stash.resident.any fun b => b.isBlock e.id e.shard ra then State.allocAll ra p a t r s
    else match s.allocBlock ra p a t e with
      | (u, .placed) => State.allocAll ra p a t r u
      | x => x

/-- The blocks of a program that a strand first writes on this module. -/
def State.firstBlocks (s : State) (p : Program) (id : Nat) : List StashEntry :=
  p.stash.filter fun e => e.first == id && s.holds p e.shard

/-! ## Returns (R207) -/

/-- A block is in the Spillway area, and is not all back. -/
def State.isOut (s : State) (ra : Bool) (id shard : Nat) : Bool := s.stash.spilled.any fun b => b.isBlock id shard ra

/-- A strand that reads a spilled block waits until it is back: the FREE_AT strand, and those that depend on RETURN_AT (log 25). -/
def State.waitsForReturn (s : State) (ra : Bool) (p : Program) (t : Strand) : Bool :=
  p.stash.any fun e => s.isOut ra e.id e.shard && (e.freeAt == t.id || t.deps.contains e.returnAt)

/-- Starts the copies back of one block (R207): pages are read and their CRCs checked as they come (R208). -/
def State.startReturn (s : State) (b : Spilled) (addr : Nat) : State :=
  let s1 := s.setStash { s.stash with
    spilled := s.stash.spilled.map fun q => if q.isBlock b.id b.shard b.ra then { q with returning := some (addr, []) } else q }
  (List.range (b.size / 4096)).foldl (fun t i =>
    t.toSpillway b ⟨.readReq, 0, pageTag b.offset i, b.offset + 4096 * i, 4096, s.stepOf b.ra, 0, 0, []⟩) s1

/-! ## Release (R205) -/

/-- A block is released: its Pond space and its Spillway space. -/
def State.releaseBlock (s : State) (ra : Bool) (id shard : Nat) : State :=
  s.setStash { s.stash with
    resident := s.stash.resident.filter fun b => !b.isBlock id shard ra
    spilled := s.stash.spilled.filter fun b => !b.isBlock id shard ra }

/-- Blocks whose FREE_AT strand has completed are released. -/
def State.releaseAt (s : State) (ra : Bool) (p : Program) (id : Nat) : State :=
  (p.stash.filter fun e => e.freeAt == id).foldl (fun t e => t.releaseBlock ra e.id e.shard) s

/-- Every block of an attempt is released (R220). -/
def State.releaseAll (s : State) (ra : Bool) : State :=
  s.setStash { s.stash with
    resident := s.stash.resident.filter fun b => b.ra != ra
    spilled := s.stash.spilled.filter fun b => b.ra != ra }

/-- SPILL_LOST (R208): a mismatch, or a loss of the target while it holds a block of this module. It strikes the attempt whose block it
is (R227). -/
def State.spillLost (s : State) (b : Spilled) : State :=
  match s.attempt b.ra with
  | none => s
  | some a => (s.raiseCtx 0x0331 0 7 (ctxOf b.ra a) (leBytes 4 b.id)).causeIn b.ra ⟨0x12, 0xFFFF, .outside, a.step, false⟩

/-- A target of the Spillway is lost: the open attempt and the run-ahead each lose what it held of theirs. -/
def State.spillTargetLost (s : State) (at' : Spilled → Bool) : State :=
  [false, true].foldl (fun (t : State) ra => match t.stash.spilled.find? fun b => at' b && b.ra == ra with
    | some b => t.spillLost b
    | none => t) s

/-! ## The rows -/

/-- A resident class 2 block that may be copied out: its writers are complete and it has not been considered (R206). -/
def State.spillReady (s : State) (p : Program) (id shard : Nat) (b : Block4) : Bool :=
  b.id == id && b.shard == shard && b.spillable && !s.stash.spilling b &&
    (stashEntry p id shard).any fun e => e.cls == 2 && (s.attempt b.ra).any fun a => writersDone a p.strands e

/-- SPILL (R206): a class 2 block whose writers are complete, of the open attempt or the run-ahead, is copied out; with the Spillway
disabled or full it stays. -/
def execSpill (block : StashKey) (s : State) : Host.Outcome State Fault Refusal :=
  let id := block.id
  let shard := block.shard
  match s.prog with
  | some p =>
    match s.stash.resident.find? (s.spillReady p id shard) with
    | some b =>
      let keep := s.setStash { s.stash with
        resident := s.stash.resident.map fun x => if x.isBlock id shard b.ra then { x with spillable := false } else x }
      .next (match s.stash.spillPlace b.size with
        | some off => s.spill b off
        | none => keep)
    | none => .next s
  | none => .next s

/-- The die has no strand left to issue other than strands that wait for returns (R209): strands issue in program order, so the first
that is not issued waits; and none that has been issued can still release space (log 24). -/
def State.stuck (s : State) (p : Program) (ra : Bool) (a : Attempt) (die : Nat) : Bool :=
  let mine := (if ra then uptoLoss p.strands else p.strands).filter fun t => active a t && s.strandDie t.kind == die
  (mine.all fun t => !a.started.contains t.id || a.done.contains t.id) &&
    ((mine.find? fun t => !a.started.contains t.id).all fun t => s.waitsForReturn ra p t)

/-- A spilled block's return is owed: its RETURN_AT strand has been issued (R207). -/
def State.returnDue (s : State) (p : Program) (b : Spilled) : Bool :=
  b.returning.isNone && (stashEntry p b.id b.shard).any fun e => (s.attempt b.ra).any fun a => a.started.contains e.returnAt

/-- STASH_RETURN (R207): a spilled block whose RETURN_AT strand has been issued is copied back once every copy of it has landed and it
fits, lower identifiers first;
STASH_FULL where the die has nothing else left to issue (R209). -/
def execStashReturn (block : StashKey) (s : State) : Host.Outcome State Fault Refusal :=
  let id := block.id
  let shard := block.shard
  match s.prog, s.stash.spilled.find? fun b => b.id == id && b.shard == shard with
  | some p, some b =>
    match stashEntry p id shard, s.attempt b.ra with
    | some e, some a =>
      let earlier := s.stash.spilled.any fun q => q.ra == b.ra && decide (q.id < id) && s.returnDue p q &&
        (stashEntry p q.id q.shard).any fun x => x.die == e.die
      guarded (s.returnDue p b && b.unacked.isEmpty && !earlier) s
        (match firstFit (pondRegions p e.die) s.stash.used b.size with
         | some addr => s.startReturn b addr
         | none =>
           if s.stuck p b.ra a e.die then
             match s.strand? e.returnAt with
             | some t => s.stashFull b.ra a t e true
             | none => s
           else s)
    | _, _ => .next s
  | _, _ => .next s

end Sys2Proof.Machine
end

