-- ==== Sys2Proof/Machine/Units.lean ====
section
/-! DEFINITION. Access to the Facets, Cutters and Loupes, the binding of logical units, and what every unit does at the end of a
strand, at a rollback and at an abort (R18, R99, R100, R163, R183, R195). -/
namespace Sys2Proof.Machine

def facetDefault (_ : Nat) : FacetSt := {}

def cutterDefault (_ : Nat) : CutterSt := {}

def loupeDefault (_ : Nat) : LoupeSt := {}

def State.facet (s : State) (f : Nat) : FacetSt := Bank.get facetDefault s.units.facets f

def State.setFacet (s : State) (f : Nat) (x : FacetSt) : State :=
  { s with units := { s.units with facets := Bank.put facetDefault s.units.facets f x } }

def State.cutter (s : State) (c : Nat) : CutterSt := Bank.get cutterDefault s.units.cutters c

def State.setCutter (s : State) (c : Nat) (x : CutterSt) : State :=
  { s with units := { s.units with cutters := Bank.put cutterDefault s.units.cutters c x } }

def State.loupe (s : State) (g : Nat) : LoupeSt := Bank.get loupeDefault s.units.loupes g

def State.setLoupe (s : State) (g : Nat) (x : LoupeSt) : State :=
  { s with units := { s.units with loupes := Bank.put loupeDefault s.units.loupes g x } }

/-- A Facet with ENABLE = 1 (R108). -/
def State.usableF (s : State) (f : Nat) : Bool := bit (s.reg .fct f 0) 0

/-- The usable Facets of a cluster, ascending. -/
def State.usableOf (s : State) (c : Nat) : List Nat := (List.range 4).filterMap fun j =>
  if s.usable (4 * c + j) then some (4 * c + j) else none

/-- The physical Facet of a task: the i-th usable Facet of the bound cluster (R18). -/
def State.physFacet (s : State) (d : TileDesc) : Nat :=
  let c := s.physCluster d.cluster
  ((s.usableOf c)[d.facet]?).getD (4 * c + d.facet)

/-- The cluster a queued kernel runs on. -/
def State.kernelCluster (s : State) (t : Strand) : Option Nat :=
  match t.kind with
  | .quant d => some (s.physCluster d.cluster)
  | .apply d => some (s.physCluster d.cluster)
  | .elem d => some (s.physCluster d.cluster)
  | .nsIter d => some (s.physCluster d.cluster)
  | _ => none

/-- A queued kernel joins the queue of its Cutter at its issue (R126). -/
def State.queueKernel (s : State) (ra : Bool) (t : Strand) : State :=
  match s.kernelCluster t with
  | some c => s.setCutter c { s.cutter c with queue := (s.cutter c).queue ++ [(t.id, ra)] }
  | none => s

/-- A numerics event of R68: NONFINITE (0x0101) or EXP_ILLEGAL (0x0102), raised by a unit; a Cutter's sets its flag (R480). -/
def State.numEvent (s : State) (code unit inst : Nat) (c : EvCtx) : State :=
  let t := s.raiseCtx code inst unit c []
  if unit = 1 then t.raiseFlag .cut inst (code - 0x0101) else t

/-- Keeps an error record under the rule of R124: a corrected error never overwrites an uncorrectable one of this attempt. -/
def State.keepError (s : State) (b : Block) (i o : Nat) (ueHeld ue : Bool) (rest : Nat) : State :=
  if ueHeld && !ue then s
  else s.setReg b i o (BitVec.ofNat 32 (2 ^ 31 + (if ue then 2 ^ 30 else 0) + rest))

/-- Marks a strand complete (R26). -/
def State.markDone (s : State) (ra : Bool) (id : Nat) : State :=
  match s.attempt ra with
  | some a => s.setAttempt ra { a with done := if a.done.contains id then a.done else a.done ++ [id] }
  | none => s

/-- Every unit changed by a function of its kind, each of which keeps an unused unit as it is. -/
def Units.mapUnits (u : Units) (f : FacetSt → FacetSt) (c : CutterSt → CutterSt) (l : LoupeSt → LoupeSt)
    (k : Nat × Bool → Bool) : Units :=
  { facets := Bank.mapV facetDefault f u.facets
    cutters := Bank.mapV cutterDefault c u.cutters
    loupes := Bank.mapV loupeDefault l u.loupes
    copied := u.copied.filter k }

/-- Every unit drops the work of some strands (R183): their tasks, their kernels and their Loupe entries. -/
def State.dropUnitWork (s : State) (ra : Bool) (ids : List Nat) : State :=
  let mine (i : Nat) (r : Bool) : Bool := r == ra && ids.contains i
  let u := s.units.mapUnits
      (fun x => { x with tasks := x.tasks.filter fun t => !mine t.id t.ra })
      (fun x =>
        let y := { x with queue := x.queue.filter fun k => !mine k.1 k.2 }
        if x.kernel.any fun k => mine k.1 k.2.1 then { y with kernel := none, waiting := false } else y)
      (fun x => { x with queue := x.queue.filter fun q => !mine q.id q.ra })
      (fun k => !mine k.1 k.2)
  { s with units := u }

/-- A step abort clears every unit (R100, R163, R195): banks, queued work, replay allowances and halts; a pilot test goes on. A Facet
that was issuing is left to its stop ramp (R110). With `all` false only the run-ahead's work goes. -/
def State.clearUnits (s : State) (all : Bool) : State :=
  let gone (r : Bool) : Bool := all || r
  let u := s.units.mapUnits
      (fun x => { x with
        tasks := x.tasks.filter fun t => !gone t.ra
        banks := if all then [] else x.banks
        replayed := x.replayed.filter fun r => !gone r.2
        ueHeld := !all && x.ueHeld })
      (fun x =>
        let y := { x with queue := x.queue.filter fun k => !gone k.2 }
        if all then {}
        else
          let z := if x.haltRa then { y with halted := false, haltRa := false } else y
          if x.kernel.any fun k => gone k.2.1 then { z with kernel := none, waiting := false } else z)
      (fun x => { queue := x.queue.filter (fun q => !gone q.ra), halted := !all && x.halted && !x.queue.any (·.ra) })
      (fun k => !gone k.2)
  { s with units := u }

/-- The bases' error records may be overwritten again (R124, R294). -/
def State.freshErrors (s : State) : State :=
  { s with tarns := Bank.mapV stackDefault (fun k => { k with ueHeld := false }) s.tarns }

/-- A new step attempt begins: an uncorrectable error on record may be overwritten (R124, R166), and every task has its replay again
(R97); those of a run-ahead belong to its own attempt. -/
def State.newAttemptUnits (s : State) : State :=
  let u := s.units.mapUnits (fun x => { x with ueHeld := false, replayed := x.replayed.filter (·.2) }) (fun x => { x with ueHeld := false }) id fun _ => true
  { s.freshErrors with units := u }

end Sys2Proof.Machine
end

