-- ==== Sys2Proof/Machine/Trouble.lean ====
section
/-! DEFINITION. The trouble policy (R167 to R189): reports, decisions, and what they do. -/
namespace Sys2Proof.Machine

/-! ## Reports (R169) -/

/-- The integer sums of one copy. -/
structure Sums where
  elems : Nat
  sat : Nat
  flush : Nat
  blocks : Nat
  dom : Nat
  excess : Nat
  deriving DecidableEq, Repr, Inhabited

def Sums.add (a b : Sums) : Sums :=
  ⟨a.elems + b.elems, a.sat + b.sat, a.flush + b.flush, a.blocks + b.blocks, a.dom + b.dom, a.excess + b.excess⟩

/-- The sums that a tally record holds (R147). -/
def tallySums (l : List Byte) : Sums :=
  ⟨leAt 0x10 8 l, leAt 0x18 8 l, leAt 0x20 8 l, leAt 0x28 4 l, leAt 0x30 4 l, leAt 0x3C 4 l⟩

/-- The tally sums of one copy over the kernels of a segment attempt. -/
def State.copySums (s : State) (ts : List Strand) (tensor : Nat) (col : Bool) : Sums :=
  ts.foldl (fun acc t =>
    match quantOf t.kind with
    | some d =>
      if d.tensor = tensor ∧ (if col then d.col.en else d.row.en) then
        acc.add (tallySums (s.bytes (poolAddr (s.physCluster d.cluster) d.tally + (if col then 64 else 0)) 64))
      else acc
    | none => acc) ⟨0, 0, 0, 0, 0, 0⟩

/-- The copies and the products of a segment, in table order. -/
def segCopies (p : Program) (l : Nat) (bwd : Bool) : List CopyEntry :=
  p.copies.filter fun c => c.layer == l && c.bwd == bwd

def segProducts (p : Program) (l : Nat) (bwd : Bool) : List ProductEntry :=
  p.products.filter fun e => p.strands.any fun t =>
    t.seg == some (l, bwd) && (match t.kind with
      | .tile d => d.tensor == e.tensor
      | _ => false)

/-- ARG of a report: the segment and its attempt. -/
def reportArg (l : Nat) (bwd : Bool) (tries : Nat) : Nat := segKey l bwd + 2 ^ 11 * tries

/-- The report of this module: the sums of every copy, then a bit for every product. -/
def State.reportFields (s : State) (p : Program) (a : Attempt) (l : Nat) (bwd : Bool) : List Nat :=
  let ts := segStrands a p.strands l bwd
  a.base :: (segCopies p l bwd).flatMap (fun c =>
      let x := s.copySums ts c.tensor c.col
      [x.elems, x.sat, x.flush, x.blocks, x.dom, x.excess])
    ++ (segProducts p l bwd).map fun e => b2n ((a.seg l bwd).failed.contains e.tensor)

/-! ## Trouble (R170) -/

/-- SPILL_WIDEN is the inclusion policy in force (R153): every CUT page holds the same value. -/
def State.spillWiden (s : State) : Bool := decide (s.field .cut 0 0x20 0 1 = 0)

/-- What is wrong with one copy. -/
def State.troubleOf (s : State) (c : CopyEntry) (x : Sums) (loupe : Bool) : Trouble :=
  let satLim := c.satLim.getD (s.field .policy 0 0x18 0 24)
  let flushLim := c.flushLim.getD (s.field .policy 0 0x1C 0 16)
  let domLim := s.field .policy 0 0x1C 16 16
  let on := !c.exempt && decide (x.elems ≠ 0)
  { tensor := c.tensor
    col := c.col
    sat := on && decide (satLim * x.elems < x.sat * 2 ^ 24)
    flush := on && decide (flushLim * x.elems < x.flush * 2 ^ 16)
    dom := on && decide (domLim * x.blocks < x.dom * 2 ^ 16)
    excess := on && decide (0 < x.excess) && s.spillWiden
    loupe := on && loupe
    satSum := x.sat
    flushSum := x.flush
    domSum := x.dom }

def Trouble.any (t : Trouble) : Bool := t.sat || t.flush || t.dom || t.excess || t.loupe

/-- Trouble of the widen-now kind. -/
def Trouble.now (t : Trouble) : Bool := t.dom || t.excess

/-- The sums of copy number `i` of a combined report. -/
def reportSums (f : DomFrame) (i : Nat) : Sums :=
  let b := 1 + 6 * i
  ⟨fld f b, fld f (b + 1), fld f (b + 2), fld f (b + 3), fld f (b + 4), fld f (b + 5)⟩

/-- Every copy of the segment that is in trouble, in table order. -/
def State.troubles (s : State) (p : Program) (f : DomFrame) (l : Nat) (bwd : Bool) : List Trouble :=
  let cs := segCopies p l bwd
  let bad := ((segProducts p l bwd).zipIdx.filter fun e => decide (fld f (1 + 6 * cs.length + e.2) ≠ 0)).map (·.1)
  (cs.zipIdx.map fun e => s.troubleOf e.1 (reportSums f e.2)
    (bad.any fun b => b.aCopy == (e.1.tensor, e.1.col) || b.bCopy == (e.1.tensor, e.1.col))).filter (·.any)

/-! ## Decisions (R181) -/

/-- A copy counts as a member of J: one in J, or one with GRAN LOCAL. -/
def inJ (p : Program) (x : LayerState) (t : Trouble) : Bool :=
  x.jit.contains (t.tensor, t.col) ||
    p.copies.any fun c => c.tensor == t.tensor && c.col == t.col && c.loc

structure Verdict where
  decision : Decision
  layer : LayerState
  w : Nat
  /-- The cause byte of TRB_WIDEN (R191). -/
  cause : Nat
  /-- Copies added to J. -/
  added : Nat
  deriving DecidableEq, Repr

def addJ (j : List (Nat × Bool)) (ts : List Trouble) : List (Nat × Bool) :=
  ts.foldl (fun acc t => if acc.contains (t.tensor, t.col) then acc else acc ++ [(t.tensor, t.col)]) j

/-- The decision of R181 on a set of copies in trouble. -/
def State.judge (s : State) (p : Program) (a : Attempt) (l : Nat) (ts : List Trouble) : Verdict :=
  let x := a.layer l
  let j := addJ x.jit ts
  let added := (ts.filter fun t => !inJ p x t).length
  let allIn := ts.all (inJ p x)
  let spent := decide (x.c = s.field .policy 0 0x10 0 4)
  if ts.isEmpty then ⟨.clear, x, a.w, 0, 0⟩
  else if ts.any (·.now) || allIn || spent then
    if x.rung = .f16 then ⟨.exhausted, x, a.w, 0, 0⟩
    else
      let w := if x.widened then a.w else a.w + 1
      let cause := if ts.any (·.dom) then 2 else if ts.any (·.excess) then 3 else if allIn then 1 else 0
      let y : LayerState := { x with rung := Rung.up x.rung, jit := j, c := 0, widened := true }
      let big := !a.wide && !a.rerun && decide (s.field .policy 0 0x10 8 8 * p.layers.length < 64 * w)
      ⟨if big then .global else .widen, y, w, cause, added⟩
  else ⟨.replay, { x with jit := j, c := x.c + 1, replayed := true }, a.w, 0, added⟩

def decisionCode : Decision → Nat
  | .clear => 0
  | .replay => 1
  | .widen => 2
  | .global => 3
  | .exhausted => 4

/-- DECISION's payload: base, layer, segment, decision, rung, c, w, cause, copies added, then the troubled copies. -/
def decisionFields (base l : Nat) (bwd : Bool) (v : Verdict) (ts : List Trouble) : List Nat :=
  [base, l, b2n bwd, decisionCode v.decision, rungCode v.layer.rung, v.layer.c, v.w, v.cause, v.added]
    ++ ts.flatMap fun t =>
      [t.tensor, b2n t.col, b2n t.sat + 2 * b2n t.flush + 4 * b2n t.dom, t.satSum, t.flushSum, t.domSum]

/-- The troubled copies of a DECISION. -/
def decisionTroubles (f : DomFrame) : List (Nat × Bool × Nat × Nat × Nat × Nat) :=
  (List.range ((f.payload.length / 8 - 9) / 6)).map fun i =>
    let b := 9 + 6 * i
    (fld f b, fld f (b + 1) == 1, fld f (b + 2), fld f (b + 3), fld f (b + 4), fld f (b + 5))

/-! ## VERDICT_POINT and REPORT -/

/-- No sampled tile of the segment waits in a Loupe's queue. -/
def State.loupesDone (s : State) (ra : Bool) (l : Nat) (bwd : Bool) : Bool :=
  s.units.loupes.all fun e => e.2.queue.all fun q => !(q.ra == ra && q.seg == some (l, bwd))

/-- VERDICT_POINT (R169): every strand of the segment attempt is complete, with its tallies and verdicts: the trouble report is
sent. -/
def execVerdictPoint (ra : Bool) (layer : Nat) (bwd : Bool) (s : State) : Host.Outcome State Fault Refusal :=
  match s.prog, s.attempt ra with
  | some p, some a =>
    let ts := segStrands a p.strands layer bwd
    let g := a.seg layer bwd
    let ready := !p.serving && !ts.isEmpty && ts.all (fun t => a.done.contains t.id) && !g.clear && !g.reported &&
      s.loupesDone ra layer bwd
    let f := s.domFrame 6 false a.step a.number (reportArg layer bwd g.tries) (encN (s.reportFields p a layer bwd))
    guarded ready s ((s.setAttempt ra (a.setSeg layer bwd { g with reported := true })).addOwn f)
  | _, _ => .next s

/-- The segment that a report is about, in the segment attempt that runs; none for a report of another attempt. -/
def State.reportOf (s : State) (f : DomFrame) : Option (Attempt × Nat × Bool) :=
  (s.attemptOf f.step).bind fun x =>
    let k := f.arg % 2 ^ 11
    if fld f 0 = x.2.base ∧ f.arg / 2 ^ 11 = (x.2.seg (k / 2) (k % 2 == 1)).tries then some (x.2, k / 2, k % 2 == 1) else none

/-- What the wellhead decides on a report, and the copies in trouble. In a CNM program they are logged and every decision is CLEAR (R186). -/
def State.verdictOf (s : State) (p : Program) (a : Attempt) (l : Nat) (bwd : Bool) (f : DomFrame) : Verdict × List Trouble :=
  let ts := s.troubles p f l bwd
  (s.judge p a l (if isCnm p then [] else ts), ts)

/-- The wellhead decides a report and sends the decision. -/
def State.decideReport (s : State) (f : DomFrame) : State :=
  match s.prog, s.reportOf f with
  | some p, some (a, l, bwd) =>
    let (v, ts) := s.verdictOf p a l bwd f
    s.sendDown (s.domFrame 7 true a.step a.number f.arg (encN (decisionFields a.base l bwd v ts)))
  | _, _ => s

/-- A report is in turn (R188, R189): the wellhead decides segments in program order, each once those before it are CLEAR. -/
def State.reportInTurn (s : State) (f : DomFrame) : Bool :=
  match s.prog, s.reportOf f with
  | some p, some (a, l, bwd) =>
    ((segOrder a p.strands).takeWhile fun x => x != (l, bwd)).all fun x => (a.seg x.1 x.2).clear
  | _, _ => true

/-- The decision of a complete report. -/
def State.decisionOn (s : State) (f : DomFrame) : Option Decision :=
  match s.prog, s.reportOf f with
  | some p, some (a, l, bwd) => some (s.verdictOf p a l bwd f).1.decision
  | _, _ => none

/-- A report that is complete beside one that is decided, and would be EXHAUSTED. R189 does not say what one decision round is; DESIGN
CHOICE (log 89): all reports that are complete at the wellhead when it decides. -/
def State.exhaustedBeside (s : State) : Option (DomFrame × State) :=
  (s.takeCombined 6 fun f => match s.childFrames f s.children with
    | some l => s.decisionOn { f with payload := sumFields f l } == some .exhausted
    | none => false).map fun x => ({ x.1 with payload := sumFields x.1 x.2.1 }, x.2.2)

/-- Decides a report; a GLOBAL that meets an EXHAUSTED in the same round gives way to it (R189). -/
def State.decideRound (s : State) (f : DomFrame) : State :=
  if s.decisionOn f = some .global then
    match s.exhaustedBeside with
    | some (g, t) => t.decideReport g
    | none => s.decideReport f
  else s.decideReport f

/-- REPORT (R181): reports are summed up the control tree; the wellhead decides the segment. -/
def execReport (s : State) : Host.Outcome State Fault Refusal :=
  guarded (!(s.isWellhead && (s.hasDown 7 || s.hasDown 0x11))) s
    (s.combinedIf 6 (fun f => !s.isWellhead || s.reportInTurn f) sumFields fun f t => t.decideRound f)

/-! ## What every decision does on every module -/

/-- Takes the first DECISION of a kind: its attempt, layer and segment with it. -/
def State.onDecision (s : State) (kind : Nat)
    (act : Program → Bool → Attempt → Nat → Bool → DomFrame → State → State) : State :=
  match s.takeFrame (fun x => match x.data with
      | .dom f => if f.mtype = 7 ∧ f.down ∧ fld f 3 = kind then some f else none
      | _ => none) with
  | none => s
  | some (_, f, t) =>
    let t1 := if t.isWellhead then t else t.passDown f
    match t1.prog, t1.attemptOf f.step with
    | some p, some (ra, a) =>
      if fld f 0 = a.base then act p ra a (fld f 1) (fld f 2 == 1) f t1 else t1
    | _, _ => t1

/-- The counter events of a decision, on every module (R191, R193). PART is 0: their unit is the hub (R190). -/
def State.troubleEvents (s : State) (ra : Bool) (a : Attempt) (l : Nat) (bwd : Bool) (f : DomFrame) : State :=
  (decisionTroubles f).foldl (fun t e =>
    let (tensor, _, flags, satS, flushS, domS) := e
    let c : EvCtx := { segCtx ra a l bwd with tensor := some tensor }
    let t1 := if flags % 2 = 1 then t.raiseCtx 0x0120 0 7 c (leBytes 8 satS) else t
    let t2 := if flags / 2 % 2 = 1 then t1.raiseCtx 0x0121 0 7 c (leBytes 8 flushS) else t1
    if flags / 4 % 2 = 1 then t2.raiseCtx 0x0122 0 7 c (leBytes 8 domS) else t2) s

/-- The layer state after a decision, from its message. -/
def decidedLayer (a : Attempt) (l : Nat) (f : DomFrame) (widened replayed : Bool) : LayerState :=
  let x := a.layer l
  { rung := rungOf (fld f 4)
    jit := (decisionTroubles f).foldl (fun j e => if j.contains (e.1, e.2.1) then j else j ++ [(e.1, e.2.1)]) x.jit
    c := fld f 5
    widened := x.widened || widened
    replayed := x.replayed || replayed }

/-! ## Rollback (R183) -/

/-- The segments of the pass that are discarded: from segment (l, bwd) on in program order, those not CLEAR. -/
def rolledBack (a : Attempt) (ts : List Strand) (l : Nat) (bwd : Bool) : List (Nat × Bool) :=
  ((segOrder a ts).dropWhile fun x => x != (l, bwd)).filter fun x => x.2 == bwd && !(a.seg x.1 x.2).clear

/-- The strands discarded with them, in program order. A collective whose sources no discarded strand wrote is kept. -/
def State.discarded (s : State) (p : Program) (a : Attempt) (segs : List (Nat × Bool)) : List Nat :=
  let mine := p.strands.filter fun t => active a t && t.seg.any fun x => segs.contains x
  (mine.foldl (fun (acc : List Nat × List (Nat × Nat)) t =>
    if !isColl t.kind || anyOverlap acc.2 (s.carries p t) then (acc.1 ++ [t.id], acc.2 ++ s.writes p t) else acc) ([], [])).1

/-- An attempt after a rollback: the strands are to be issued again, their phase barriers are open again (R26), each segment's next
attempt begins, and the verdicts, reports, partial amaxes and excess channels (R155) go. -/
def Attempt.rollback (a : Attempt) (segs : List (Nat × Bool)) (ids tensors phases : List Nat) : Attempt :=
  let a1 := segs.foldl (fun b x =>
    b.setSeg x.1 x.2 { b.seg x.1 x.2 with tries := (b.seg x.1 x.2).tries + 1, reported := false, failed := [] }) a
  { a1 with
    started := a1.started.filter fun i => !ids.contains i
    done := a1.done.filter fun i => !ids.contains i
    phases := a1.phases.filter fun i => !phases.contains i
    amax := a1.amax.filter fun x => !tensors.contains x.tensor
    xmap := a1.xmap.filter fun x => !tensors.contains (x.1 / 2) }

/-- The tensors that discarded kernels write. -/
def tensorsOf (ts : List Strand) (ids : List Nat) : List Nat :=
  ts.filterMap fun t => if ids.contains t.id then (quantOf t.kind).map (·.tensor) else none

/-- Rolls an attempt back on this module (R183): units drop the strands' work, and their stash blocks are released, to be allocated
again. -/
def State.rollback (s : State) (p : Program) (ra : Bool) (a : Attempt) (segs : List (Nat × Bool)) (ids : List Nat) : State :=
  let s1 := s.setAttempt ra (a.rollback segs ids (tensorsOf p.strands ids)
    ((p.strands.filter fun t => ids.contains t.id).map (·.phase)))
  let s2 := s1.dropUnitWork ra ids
  (p.stash.filter fun e => ids.contains e.first).foldl (fun t e => t.releaseBlock ra e.id e.shard) s2

end Sys2Proof.Machine
end

