-- ==== Sys2Proof/Machine/StepSeq.lean ====
section
/-! DEFINITION. The step as a transaction: what ends an attempt, run-ahead, policy records, votes, gates, and the rows of a step
(R182 to R187, R210 to R231, R407 to R409). -/
namespace Sys2Proof.Machine

/-! ## Registers -/

/-- The domain step number n (R29). -/
def State.stepNum (s : State) : Nat := (s.reg .step 0 0x18).toNat

def State.setStepNum (s : State) (n : Nat) : State := s.setReg .step 0 0x18 (BitVec.ofNat 32 n)

/-- TWN_BASE: the last sequence base received (R409). -/
def State.setBase (s : State) (b : Nat) : State := s.setReg .twn 0 0x18 (BitVec.ofNat 32 b)

/-- Why halting a cause of the wellhead's: NF_SKIP, RETRY_MAX and the actions of R221. -/
def State.nfSkip (s : State) : Bool := bit (s.reg .step 0 0x10) 0

def State.retryMax (s : State) : Nat := s.field .step 0 0x14 4 4

/-! ## The version table (R278) -/

/-- A frame-0 page of stack `i` that lies in the checkpoint area this base receives into (G = 1). -/
def State.areaPage (s : State) (i k : Nat) : Bool :=
  match s.ckptArea i with
  | some (b, z) => decide (b ≤ 4096 * k ∧ 4096 * k < b + z)
  | none => false

/-- Changes the entries of the program's pages (G = 0) of one stack. -/
def State.mapProgPages (s : State) (i : Nat) (f : VtEntry → VtEntry) : State :=
  let k := s.stack i
  s.setStack i { k with vt := Bank.mapK vtDefault (fun j e => if s.areaPage i j then e else f e) k.vt }

/-- A stack sends checkpoints: TRN_CKPT_CTRL.SEND, in independent mode (R286, R392). -/
def State.ckptSend (s : State) (i : Nat) : Bool := bit (s.reg .trn i 0x60) 31 && decide (s.twin.mode = 1)

/-- FLIP on all eight bases. -/
def State.flipAll (s : State) : State :=
  (List.range 8).foldl (fun t i => t.mapProgPages i fun e =>
    if e.t then { vb := !e.vb, t := false, c := e.c || s.ckptSend i } else e) s

/-- DISCARD on all eight bases. -/
def State.discardAll (s : State) : State :=
  (List.range 8).foldl (fun t i => t.mapProgPages i fun e => { e with t := false }) s

/-! ## Collectives of an attempt that ends (R329) -/

/-- Drops collectives from every engine; a hosted launch replies CANCELLED. -/
def State.cancelColls (s : State) (p : Coll → Bool) : State :=
  (List.range 4).foldl (fun t d =>
    let e := t.engine d
    let t1 := t.setEngine d { e with
      active := e.active.filter fun c => !p c
      waiting := e.waiting.filter fun c => !p c }
    ((e.active ++ e.waiting).filter p).foldl (fun u c => match c.packet with
      | some (i, pk) => u.finishIssued i pk stCancelled 0 []
      | none => u) t1) s

/-- Early frames of an attempt's collectives are discarded with it (R330). -/
def State.dropEarly (s : State) (base : Nat) : State :=
  let span := (s.prog.map fun p => max p.collCount 1).getD 1
  (List.range 4).foldl (fun t d =>
    let e := t.engine d
    t.setEngine d { e with early := e.early.filter fun f => !decide ((f.dseq + 2 ^ 32 - base % 2 ^ 32) % 2 ^ 32 < span) }) s

/-! ## Ends of attempts -/

/-- Run-ahead is squashed (R226, R227): its hold, its records of classes 0x01 and 0x05, its stash and its partials go. -/
def State.squash (s : State) : State :=
  match s.step.ra with
  | none => s
  | some a =>
    let s1 : State := { s with step := { s.step with ra := none } }
    let s2 := ((s1.releaseAll true).clearUnits false).cancelColls fun c => c.ra
    let s3 := (s2.purgeDom a.step a.base).dropEarly a.base
    let s4 := (a.records.filter fun r => r.code / 256 != 1 && r.code / 256 != 5).foldl (fun t r => t.logRecord r) s3
    let s5 : State := { s4 with dom := { s4.dom with raBase := none } }
    (s5.bump .step 0 0x58 1).raiseCtx 0x0541 0 7 { step := some a.step, attempt := a.number } []

/-- What an abort and a GLOBAL decision both do to the open attempt on a module (R184, R220). -/
def State.dropAttempt (s : State) (a : Attempt) : State :=
  let s1 := s.squash.discardAll.scratchUndef
  let s2 := ((s1.releaseAll false).clearUnits true).cancelColls fun _ => true
  let s3 := (s2.purgeDom a.step a.base).dropEarly a.base
  { s3 with
    step := { s3.step with att := none, causes := [] }
    dom := { s3.dom with held := [], finiteClear := false, lvotes := [], lfailed := [], ratios := [] }
    inl := s3.inl.fresh }

/-- A MARK to the partner of a lockstep pair (R397). -/
def State.tellTwin (s : State) (code n attempt cause : Nat) : State :=
  if s.twin.mode = 2 ∧ s.twin.paired then s.sendTwin (markFrame code attempt n (leBytes 1 cause ++ [0, 0, 0])) else s

/-- The domain enters the halted state (R222): STOP and ABORT reply. -/
def State.enterHalt (s : State) (code : Nat) : State :=
  if s.step.halted.isSome then s
  else
    let s1 : State := { s with step := { s.step with halted := some code, exhausted := decide (code = 7) } }
    let s2 := s1.raiseCtx 0x0542 0 7 { step := some s.stepNum } (leBytes 1 code)
    let s3 := s2.tellTwin 4 s.stepNum 0 code
    ({ s3 with dom := { s3.dom with stopping := false } } : State).finishEach 0x0304 stOk 0 []

/-- Cuts as fields of a message. -/
def cutFields : Cut → Nat × Nat
  | .outside => (0, 0)
  | .beforeAll => (1, 0)
  | .at l => (2, l)
  | .after l => (3, l)

def cutOf (k l : Nat) : Cut :=
  match k with
  | 0 => .outside
  | 1 => .beforeAll
  | 2 => .at l
  | _ => .after l

/-- An abort of the open attempt on a module (R220): STEP_ABORT, and what the next attempt is (R222). -/
def State.abortAttempt (s : State) (p : Program) (a : Attempt) (c : Cause) (halt : Bool) : State :=
  let cc := cutCode p c.cut
  let s1 := s.raiseCtx 0x0540 0 7 (ctxOf false a)
    (leBytes 1 c.code ++ [0] ++ leBytes 2 cc ++ leBytes 2 (s.step.lastGate.getD 0xFFFF))
  let s2 := (s1.dropAttempt a).bump .step 0 0x54 1
  let skip := decide (c.code = 1 ∨ c.code = 2)
  let s3 : State := { s2 with step := { s2.step with
    lastAbort := some ⟨c.inProgram, c.code, cc⟩
    nextAttempt := a.number + 1
    retries := if halt ∨ skip then s2.step.retries else s2.step.retries + 1
    skipNext := skip && !halt
    rerunNext := false } }
  s3.tellTwin 3 a.step a.number c.code

/-- The ranks that a halting abort of this wellhead goes to: each reports that it has carried it out (R381, log 55). -/
def State.awaitHalts (s : State) : State :=
  { s with dom := { s.dom with halting :=
    (List.range s.dom.size).filter fun r => r != s.dom.rank && decide ((s.rankEntry r).state = 1) } }

/-- The domain is halted and every module has carried the abort out: ABORT replies (R381). -/
def State.haltSettled (s : State) : State :=
  if s.step.halted.isSome && s.dom.halting.isEmpty then s.finishEach 0x0305 stOk 0 [] else s

/-- ABORT on a module. A domain with no step open only halts. A member reports that it has halted. -/
def State.onAbort (s : State) (f : DomFrame) : State :=
  let halt := fld f 4 == 1
  let c : Cause := ⟨fld f 1, 0xFFFF, cutOf (fld f 2) (fld f 3), f.step, halt⟩
  let s1 :=
    match s.prog, s.step.att with
    | some p, some a => if a.step = f.step ∧ a.base = fld f 0 then s.abortAttempt p a c halt else s
    | _, _ => s
  if halt then
    let t := s1.squash.enterHalt c.code
    if t.isWellhead then t.haltSettled
    else (t.sendDirect (t.domFrame 0x15 false t.stepNum 0 5 [])).finishEach 0x0305 stOk 0 []
  else s1

/-- The wellhead decides an abort and sends it (R216). -/
def State.sendAbort (s : State) (c : Cause) (halt : Bool) : State :=
  let (k, l) := cutFields c.cut
  let (n, at', base) :=
    match s.step.att with
    | some a => (a.step, a.number, a.base)
    | none => (s.stepNum, 0, 0)
  let u : State := { s with step := { s.step with mismatchedAt := if c.mismatch then some c.step else none } }
  let t := if halt then u.awaitHalts else u
  t.sendDown (t.domFrame 0x11 true n at' 0 (encN [base, c.code, k, l, b2n halt]))

/-! ## Causes at the wellhead (R216, R221, R222) -/

/-- The action of a cause: whether the domain halts. A twin mismatch halts it where the attempt before was aborted by one too (R397). -/
def State.halts (s : State) (c : Cause) : Bool :=
  match c.code with
  | 1 => !s.nfSkip
  | 2 => !s.nfSkip
  | 4 => decide (s.retryMax ≤ s.step.retries)
  | 0x10 => decide (s.retryMax ≤ s.step.retries)
  | 0x11 => decide (s.retryMax ≤ s.step.retries)
  | 0x12 => decide (s.retryMax ≤ s.step.retries)
  | 0x13 => decide (s.retryMax ≤ s.step.retries)
  | 0x14 => c.halt || (c.mismatch && decide (s.step.mismatchedAt = some c.step)) || decide (s.retryMax ≤ s.step.retries)
  | _ => true

/-- The cause that governs of those held and a new one. -/
def governs (p : Program) (held : List Cause) (c : Cause) : Cause := held.foldl (governing p) c

/-- The wellhead holds a cause and the trouble vote is clear: on its module every strand stops but the collectives and Inlet updates of the
layers before the cut (R216, log 77). `l`: the layer of a collective or of what an Inlet does; none for any other strand. -/
def State.stops (s : State) (p : Program) (a : Attempt) (l : Option Nat) : Bool :=
  match s.dom.held with
  | [] => false
  | c :: r => troubleClear a p.strands && !l.any (beforeCut p (governs p r c).cut).contains

/-- The layer of a collective, and of a strand that works for an Inlet. -/
def cutLayer (p : Program) : StrandKind → Option Nat
  | .coll d => d.layer
  | .hosted d => d.layer
  | .statsPass _ tensor => (updateOf p tensor).map (·.layer)
  | .nsIter d => (updateOf p d.tensor).map (·.layer)
  | _ => none

/-- The cut has stopped a strand of the open attempt on this module. -/
def State.heldBack (s : State) (p : Program) (a : Attempt) (t : Strand) : Bool := s.stops p a (cutLayer p t.kind)

/-- The gate of a layer has been issued. -/
def State.gateIssued (s : State) (a : Attempt) (l : Nat) : Bool :=
  a.gates.contains l || s.fab.inbox.any fun x => match x.data with
    | .dom f => f.mtype == 0xC && f.down && f.arg == l
    | _ => false

/-- The vote of a layer is in and clear, its gated updates included: a gated layer votes before its gate and again once the updates
that its gate released are finished (R214, R215). -/
def State.layerClear (s : State) (p : Program) (l : Nat) : Bool :=
  decide ((if gated p l then 2 else 1) ≤ s.dom.lvotes.count l)

/-- The gates that R214 allows are issued, in update order: of the layers still to be looked at, the first whose updates have not
finished and cleared ends the walk. -/
def State.issueGates (p : Program) (a : Attempt) (stop : Nat) : List Nat → Nat → State → State
  | [], _, s => s
  | l :: r, i, s =>
    if i < stop ∧ s.dom.lvotes.contains l then
      let t := if gated p l && !s.gateIssued a l then
          s.sendDown (s.domFrame 0xC true a.step a.number l (encN [a.base])) else s
      if s.layerClear p l then State.issueGates p a stop r (i + 1) t else t
    else s

/-- The causes that failed layer votes are: the cut moves to such a layer, and after it where its gate has been issued (R216, R229). -/
def State.failedVotes (s : State) (p : Program) (a : Attempt) : List Cause :=
  (s.dom.lfailed.filter fun l => p.updateOrder.contains l).map fun l =>
    ⟨2, l, if s.gateIssued a l then .after l else .at l, a.step, false⟩

/-- After a change at the wellhead: gates are issued, and a hold whose layers before the cut are done ends (R216). -/
def State.wellheadVotes (s : State) : State :=
  match s.prog, s.step.att with
  | some p, some a =>
    if s.isWellhead && troubleClear a p.strands && !a.skip && !s.hasDown 0x11 && !s.hasDown 0xF then
      match s.dom.held with
      | [] => State.issueGates p a p.updateOrder.length p.updateOrder 0 s
      | c :: r =>
        let g := governs p (r ++ s.failedVotes p a) c
        let t := State.issueGates p a (cutPos p g.cut) p.updateOrder 0 s
        let before := beforeCut p g.cut
        let ready := before.all fun l =>
          t.layerClear p l || (before.getLast? == some l && s.gateIssued a l && s.dom.lfailed.contains l)
        if ready then t.sendAbort g (t.halts g) else t
    else s
  | _, _ => s

/-- A cause reaches the wellhead (R216). -/
def State.decideCause (s : State) (p : Program) (c : Cause) : State :=
  if !c.inProgram then s.sendAbort c (s.halts c)
  else
    let g := governs p s.dom.held c
    let now := c.code == 3 || c.code == 7 || !((beforeCut p g.cut).any (gated p))
    if now then s.sendAbort g (s.halts g)
    else ({ s with dom := { s.dom with held := s.dom.held ++ [c] } } : State).wellheadVotes

/-! ## Policy records and run-ahead (R187, R223) -/

/-- A layer's policy record at the commit of an attempt, before narrowing. -/
def recAtCommit (a : Attempt) (l : Nat) (r : PolicyRec) : PolicyRec :=
  let x := a.layer l
  if a.rerun then ⟨Rung.max x.rung .l8, 0, a.step⟩
  else if x.widened then ⟨x.rung, 0, a.step⟩
  else if x.replayed then ⟨r.rung, 0, r.widenedAt⟩
  else ⟨r.rung, min 65535 (r.clean + 1), r.widenedAt⟩

/-- Narrowing (R187). -/
def narrowRec (after : Nat) (r : PolicyRec) : PolicyRec × Bool :=
  if after ≠ 0 ∧ after ≤ r.clean ∧ r.rung ≠ .l4 then (⟨Rung.down r.rung, 0, r.widenedAt⟩, true) else (r, false)

/-- CUT_INCL.POLICY is SPILL_CLIP and the program has shift vectors: the XMAP bitmaps are combined (R155). -/
def State.usesXmap (s : State) (p : Program) : Bool := !s.spillWiden && p.copies.any fun c => c.shift != 0

/-- POLICY's payload: base; run-ahead flag, base and WIDE; then for each layer its number, rung, clean count, WIDENED_AT and whether it
narrowed (R186 says that the policy takes no action in a CNM program; DESIGN CHOICE, log 99: its records count clean steps and narrow as
R187 has it); then the channels of the combined XMAP as pairs. -/
def State.policyFields (s : State) (p : Program) (a : Attempt) (ra : Option (Nat × Bool)) : List Nat :=
  let rs := p.layers.map fun e =>
    (e.num, narrowRec (s.field .policy 0 0x14 0 16) (recAtCommit a e.num (s.committedPol p e.num)))
  [a.base, b2n ra.isSome, (ra.map (·.1)).getD 0, b2n (ra.any (·.2)), rs.length]
    ++ rs.flatMap (fun r => [r.1, rungCode r.2.1.rung, r.2.1.clean, r.2.1.widenedAt, b2n r.2.2])
    ++ (a.xmapAll.getD []).flatMap fun x => [x.1, x.2]

/-- The records of a POLICY message: layer, record, whether it narrowed. -/
def policyRecords (f : DomFrame) : List (Nat × PolicyRec × Bool) :=
  (List.range (fld f 4)).map fun i =>
    let b := 5 + 5 * i
    (fld f b, ⟨rungOf (fld f (b + 1)), fld f (b + 2), fld f (b + 3)⟩, fld f (b + 4) == 1)

/-- The channels of a POLICY message: twice the tensor plus the copy, and the channel. -/
def policyXmap (f : DomFrame) : List (Nat × Nat) :=
  let b := 5 + 5 * fld f 4
  (List.range ((f.payload.length / 8 - b) / 2)).map fun i => (fld f (b + 2 * i), fld f (b + 2 * i + 1))

/-- Wide mode by the records that a POLICY message carries. -/
def State.wideByRecords (s : State) (p : Program) (rs : List (Nat × PolicyRec × Bool)) : Bool :=
  !isCnm p && s.wideBy p fun l => ((rs.find? fun r => r.1 == l).map (·.2.1)).getD ⟨.l4, 0, 0⟩

/-- The number of sequence numbers an attempt takes. -/
def seqSpan (p : Program) : Nat := max p.collCount 1

/-- Stage 1 of R217: with the trouble vote clear and no cause held, the wellhead sends POLICY, with run-ahead's base where it may
start (R223, R409). -/
def State.tryPolicy (s : State) : State :=
  match s.prog, s.step.att with
  | some p, some a =>
    if s.isWellhead && !p.serving && !a.policy && !a.skip && troubleClear a p.strands && s.dom.held.isEmpty &&
        s.step.causes.isEmpty && (!s.usesXmap p || a.xmapAll.isSome) && !s.hasDown 9 && !s.hasDown 0x11 then
      let goOn := s.step.raEn && !s.dom.stopping && s.dom.running && s.dom.handover.isNone &&
        (s.dom.limit.all fun k => decide (1 < k))
      let base := s.dom.lastBase + seqSpan p
      let wide := s.wideByRecords p (p.layers.map fun e =>
        (e.num, narrowRec (s.field .policy 0 0x14 0 16) (recAtCommit a e.num (s.committedPol p e.num))))
      let ra := if goOn then some (base, wide) else none
      let t : State := if goOn then { s with dom := { s.dom with lastBase := base, raBase := ra } } else s
      t.sendDown (t.domFrame 9 true a.step a.number 0 (encN (t.policyFields p a ra)))
    else s
  | _, _ => s

/-- Adds 1 to a channel's shift in the shadow, at most 15 (R155). -/
def State.raiseShift (s : State) (vec k : Nat) : State :=
  let a := vec + k / 2
  let b := leNat (s.load a 1)
  let x := b / 2 ^ (4 * (k % 2)) % 16
  let y := min (x + 1) 15
  s.strandIO false 0 (s.strandLines a 1) [(a, 1)] (s.store a (leBytes 1 (b - x * 2 ^ (4 * (k % 2)) + y * 2 ^ (4 * (k % 2)))))

/-- The channels to shift, each once per shift vector. -/
def shiftChannels (p : Program) (xs : List (Nat × Nat)) : List (Nat × Nat) :=
  (xs.filterMap fun x =>
    (p.copies.find? fun c => 2 * c.tensor + b2n c.col == x.1 && c.shift != 0).map fun c => (c.shift, x.2)).eraseDups

/-- POLICY on a module: the records and shifts go to the shadow (R187, R155), TRB_NARROW is raised, and run-ahead may start. R190 does not say
what RUNG and SEG hold in a TRB_NARROW record; DESIGN CHOICE (log 87): 0. -/
def State.onPolicy (s : State) (f : DomFrame) : State :=
  match s.prog, s.step.att with
  | some p, some a =>
    if a.step = f.step ∧ a.base = fld f 0 then
      let rs := policyRecords f
      let s1 := rs.foldl (fun (t : State) r =>
        t.strandIO false 0 [] [(p.policyBase + 8 * r.1, 8)] (t.store (p.policyBase + 8 * r.1) (polBytes r.2.1))) s
      let s2 := if s.spillWiden then s1
        else (shiftChannels p (policyXmap f)).foldl (fun t x => t.raiseShift x.1 x.2) s1
      let s3 := (rs.filter (·.2.2)).foldl (fun t r =>
        t.raiseCtx 0x0127 0 7 { ctxOf false a with layer := r.1 } (leBytes 1 (rungCode r.2.1.rung))) s2
      let s4 := s3.setAttempt false { a with policy := true }
      if fld f 1 = 1 then
        let wide := fld f 3 == 1
        let recs (l : Nat) : PolicyRec := ((rs.find? fun r => r.1 == l).map (·.2.1)).getD ⟨.l4, 0, 0⟩
        (s4.setAttempt true
          { step := a.step + 1, number := 0, base := fld f 2, lr := none, wide := wide, rerun := false, skip := false
            layers := openLayers p wide recs }).setBase (fld f 2)
      else s4
    else s
  | _, _ => s

/-! ## Step open (R253, R409) -/

/-- A step-size slot is armed for step `n` (R252). -/
def State.slotArmed (s : State) (n : Nat) : Bool :=
  s.inl.armed.contains (n % 2) && s.reg .inl 0 (0x24 + 8 * (n % 2)) == BitVec.ofNat 32 n

/-- Latches the step size of step `n` into INL_LR_CUR: from its slot, or as before (`hold`). -/
def State.latch (s : State) (n : Nat) (hold : Bool) : State :=
  let v := if hold then s.reg .inl 0 0x30 else s.reg .inl 0 (0x20 + 8 * (n % 2))
  let t := (s.setReg .inl 0 0x30 v).setReg .inl 0 0x34 (BitVec.ofNat 32 n)
  { t with
    inl := { t.inl with latched := some n, ever := true, held := hold }
    dom := { t.dom with blocked := none } }

/-- The step size of step `n` is latched, where it can be (R253); none where the step blocks. -/
def State.latchFor (s : State) (n : Nat) : Option State :=
  if s.inl.latched = some n then some s
  else if s.slotArmed n then some (s.latch n false)
  else if bit (s.reg .inl 0 0x10) 0 && s.inl.ever then some (s.latch n true)
  else none

/-- A rank has loaded the program that the wellhead has loaded. -/
def State.rankLoaded (s : State) (r : Nat) : Bool :=
  (s.rankEntry r).digest != 0 && (s.rankEntry r).digest == (s.rankEntry s.dom.wh).digest

/-- Every rank below SIZE is joined and has loaded the domain's program (R405). -/
def State.allLoaded (s : State) : Bool :=
  (List.range s.dom.size).all fun r => (s.rankEntry r).state == 1 && s.rankLoaded r

/-- No STOP keeps the next attempt from opening: none waits, or the step it waits for has to run again (R184, R381). -/
def State.mayGoOn (s : State) : Bool := !s.dom.stopping || s.step.rerunNext || decide (s.step.nextAttempt ≠ 0)

/-- A restore of this module's committed state is in progress, by its host (R381) or by its twin (R400): no step opens (R27, R385). -/
def State.restoring (s : State) : Bool := !s.twin.receiving.isEmpty || s.bulk.any fun j => decide (j.packet.opcode = 0x0307)

/-- The wellhead may open a step (R409). -/
def State.mayOpen (s : State) : Bool :=
  s.isWellhead && s.cp == .loaded && s.step.att.isNone && !s.step.committing && s.step.halted.isNone && s.dom.doneIn &&
    s.dom.running && s.mayGoOn && (s.dom.limit.all fun k => decide (0 < k)) && s.allLoaded && s.dom.handover.isNone &&
    !s.hasDown 4 && !s.hasDown 0x11 && (s.busyWith 0x0302).isNone && !s.restoring

/-- STEP_OPEN (R253, R409): the wellhead latches the step size, takes a base and sends OPEN. -/
def execStepOpen (s : State) : Host.Outcome State Fault Refusal :=
  match s.prog with
  | some p =>
    let n := s.stepNum
    let opened :=
      match s.latchFor n with
      | some t =>
        let keep := t.step.nextAttempt == 0 && !t.step.rerunNext && !t.step.skipNext &&
          t.step.ra.any fun a => a.step == n && t.dom.raBase.any fun b => b.1 == a.base
        let base := if keep then (t.dom.raBase.map (·.1)).getD 0 else t.dom.lastBase + seqSpan p
        let wide := if t.step.rerunNext then true
          else if keep then t.dom.raBase.any (·.2)
          else !isCnm p && t.wideBy p (t.committedPol p)
        let t1 : State := { t with dom := { t.dom with lastBase := max t.dom.lastBase base, raBase := none } }
        t1.sendDown (t1.domFrame 4 true n t.step.nextAttempt base
          (encN [(t1.reg .inl 0 0x30).toNat, b2n wide, b2n t.step.rerunNext, b2n t.inl.held, b2n t.step.resumed]))
      | none =>
        if s.dom.blocked = some n then s
        else ({ s with dom := { s.dom with blocked := some n } } : State).raiseCtx 0x0501 0 5 { step := some n }
          (leBytes 4 n)
    guarded (s.mayOpen && !p.serving) s opened
  | none => .next s

/-- What every open does: n is copied to the module (R29), the halt is over (R222), and the Spillway and run-ahead settings in force, and errors on record from the last attempt (R124, R230,
R234). -/
def State.openCommon (s : State) (n : Nat) : State :=
  let c := s.reg .step 0 0x3C
  let t := s.newAttemptUnits.setStepNum n
  { t with
    step := { t.step with
      openedSinceLoad := true, skipNext := false, rerunNext := false, lastGate := none, raEn := bit (s.reg .step 0 0x14) 0
      halted := none, exhausted := false, resumed := false }
    stash := { t.stash with
      enabled := bit c 31, toTwin := !bit c 30, peer := bits c 0 10, areaMib := s.field .step 0 0x40 0 21 } }

/-- The records of the run-ahead are written after the flip (R226). -/
def State.flushRecords (s : State) : State :=
  match s.step.ra with
  | some r => r.records.foldl (fun (t : State) (x : EventRec) => t.logRecord x) (s.setAttempt true { r with records := [] })
  | none => s

/-- What the run-ahead holds is written after the flip, in the order in which it was formed (R225): when its step opens, once the epoch of
the step before has ended (R287). -/
def State.flushHold (s : State) : State :=
  match s.step.ra with
  | some r =>
    (r.hold.foldl (fun (t : State) (h : Nat × List Byte) => t.strandIO true 0 [] [(h.1, h.2.length)] (t.store h.1 h.2))
      (s.setAttempt true { r with hold := [] })).flushRecords
  | none => s

/-- OPEN on a module: the run-ahead becomes the attempt, or a new attempt starts; the run-ahead's vetoes are now reported (R227). -/
def State.onOpen (s : State) (f : DomFrame) : State :=
  match s.prog with
  | none => s
  | some p =>
    let wide := fld f 1 == 1
    let rerun := fld f 2 == 1
    let lr : Word := BitVec.ofNat 32 (fld f 0)
    match s.step.ra with
    | some a =>
      if a.step = f.step ∧ a.base = f.arg ∧ !rerun then
        let u := s.flushHold.openCommon f.step
        let t : State := { u with step := { u.step with
          att := some { a with lr := some lr, heldCauses := [], hold := [], records := [] }
          ra := none, causes := (u.step.ra.map (·.heldCauses)).getD [] } }
        let t1 : State := { t with
          stash := { t.stash with
            resident := t.stash.resident.map fun b => { b with ra := false }
            spilled := t.stash.spilled.map fun b => { b with ra := false } }
          units := t.units.mapUnits
            (fun x => { x with
              tasks := x.tasks.map fun k => { k with ra := false }
              replayed := x.replayed.map fun r => (r.1, false) })
            (fun x => { x with
              queue := x.queue.map fun k => (k.1, false)
              kernel := x.kernel.map fun k => (k.1, false, k.2.2) })
            (fun x => { x with queue := x.queue.map fun q => { q with ra := false } })
            (fun _ => true) }
        let t2 : State := { t1 with units := { t1.units with copied := t1.units.copied.map fun k => (k.1, false) } }
        let t3 : State := (List.range 4).foldl (fun (u : State) d =>
          let e := u.engine d
          u.setEngine d { e with
            active := e.active.map fun c => { c with ra := false }
            waiting := e.waiting.map fun c => { c with ra := false } }) t2
        (t3.setBase f.arg).clearBitmaps p f.step
      else fresh p wide rerun lr s.squash
    | none => fresh p wide rerun lr s
where
  /-- A new attempt, from the committed policy records. -/
  fresh (p : Program) (wide rerun : Bool) (lr : Word) (u : State) : State :=
    let a : Attempt :=
      { step := f.step, number := f.attempt, base := f.arg, lr := some lr, wide := wide, rerun := rerun
        skip := u.step.skipNext, layers := openLayers p wide (u.committedPol p) }
    let t := u.openCommon f.step
    let v := (({ t with step := { t.step with att := some a, causes := [] } } : State).setBase f.arg).clearBitmaps p f.step
    v.strandIO false 0 ((p.layers.map fun e => p.policyBase + 8 * e.num).flatMap fun x => v.committedLines x 8) [] v

/-- A write to a V page that the OPEN of step `n` brings waits for an epoch (R287): the run-ahead's hold, or an applied bitmap. -/
def State.openWaits (s : State) (n : Nat) : Bool :=
  (s.step.ra.any fun a => a.hold.any fun h => s.spanWaits h.1 h.2.length) ||
    s.prog.any fun p => p.updates.any fun e => (s.ownerDies e).any fun d => s.spanWaits (bitmapAt (forDie e d) n) (bitmapBytes e)

/-- OPEN (R407, R409): in the halted state only that of the step a RESUME opens (log 29). It waits for a restore that is in progress
(R385). -/
def execOpenAttempt (s : State) : Host.Outcome State Fault Refusal :=
  guarded (s.step.att.isNone && !s.step.committing && !s.hasDown 0x11 && !s.restoring &&
      !((s.takeDown 4).any fun x => s.openWaits x.1.step)) s
    (s.onDown 4 fun f t => if t.step.halted.isSome && fld f 4 != 1 then t else t.onOpen f)

/-- A write to the policy records or a shift vector waits for an epoch (R287). -/
def State.policyWaits (s : State) : Bool :=
  s.prog.any fun p => (p.layers.any fun e => s.writeWaits (p.policyBase + 8 * e.num)) ||
    p.copies.any fun c => c.shift != 0 && s.writeWaits (tarnAddr c.shift)

/-- POLICY (R217, R223): the wellhead sends it once nothing stands against it; its writes to V pages wait for an epoch (R287). -/
def execPolicy (s : State) : Host.Outcome State Fault Refusal :=
  guarded (!s.hasDown 0x11 && !(s.hasDown 9 && s.policyWaits)) s (s.tryPolicy.onDown 9 fun f t => t.onPolicy f)

/-! ## Decisions (R182 to R185)

An ABORT that waits here wins over them: they are taken after it, and then belong to an attempt that is over (R189). RUNG in their records
is the rung before the decision (log 87). -/

/-- This module's XMAP bitmaps go up once the trouble vote is clear (R155). -/
def State.contributeXmap (s : State) (p : Program) : State :=
  match s.step.att with
  | some a =>
    if s.usesXmap p && troubleClear a p.strands then
      s.addOwn (s.domFrame 8 false a.step a.number 0 (encN (a.base :: a.xmap.flatMap fun x => [x.1, x.2])))
    else s
  | none => s

/-- DECISION_CLEAR (R182): the segment's outputs are final, at the rung it ran at. A CNM program logs what failed a test (R186). -/
def execDecisionClear (s : State) : Host.Outcome State Fault Refusal :=
  guarded (!s.hasDown 0x11) s (s.onDecision 0 fun p ra a l bwd f t =>
    let t0 := t.troubleEvents ra a l bwd f
    match t0.attempt ra with
    | some b =>
      let t1 := t0.setAttempt ra (b.setSeg l bwd { b.seg l bwd with clear := true, rung := b.rungAt l })
      if ra then t1 else (t1.contributeXmap p).tryPolicy.wellheadVotes
    | none => t0)

/-- Segment (l, bwd) is run again: the layer's new state, then the rollback of its pass. -/
def State.rerunSegment (s : State) (p : Program) (ra : Bool) (a : Attempt) (l : Nat) (bwd : Bool) (f : DomFrame)
    (widened replayed : Bool) : State :=
  let segs := rolledBack a p.strands l bwd
  let ids := s.discarded p a segs
  s.rollback p ra { a.setLayer l (decidedLayer a l f widened replayed) with w := fld f 6 } segs ids

/-- DECISION_REPLAY (R182, R183). -/
def execDecisionReplay (s : State) : Host.Outcome State Fault Refusal :=
  guarded (!s.hasDown 0x11) s (s.onDecision 1 fun p ra a l bwd f t =>
    let t1 := (t.troubleEvents ra a l bwd f).raiseCtx 0x0124 0 7 (segCtx ra a l bwd) (leBytes 1 (fld f 5) ++ leBytes 1 (fld f 8))
    match t1.attempt ra with
    | some b => (t1.rerunSegment p ra b l bwd f false true).bump .policy 0 0x60 1
    | none => t1)

/-- DECISION_WIDEN (R182). -/
def execDecisionWiden (s : State) : Host.Outcome State Fault Refusal :=
  guarded (!s.hasDown 0x11) s (s.onDecision 2 fun p ra a l bwd f t =>
    let t1 := (t.troubleEvents ra a l bwd f).raiseCtx 0x0125 0 7 (segCtx ra a l bwd)
      (leBytes 1 (fld f 4) ++ leBytes 1 (fld f 7) ++ leBytes 2 (fld f 6))
    match t1.attempt ra with
    | some b => (t1.rerunSegment p ra b l bwd f true false).bump .policy 0 0x64 1
    | none => t1)

/-- DECISION_GLOBAL (R184): the attempt is abandoned, and the step opens again as a whole-step L8 rerun under its ATTEMPT number. A
run-ahead is squashed (log 27). -/
def execDecisionGlobal (s : State) : Host.Outcome State Fault Refusal :=
  guarded (!s.hasDown 0x11) s (s.onDecision 3 fun p ra a l bwd f t =>
    let t1 := (t.troubleEvents ra a l bwd f).raiseCtx 0x0126 0 7 (segCtx ra a l bwd)
      (leBytes 2 (fld f 6) ++ leBytes 2 p.layers.length)
    if ra then t1.squash
    else
      let t2 := (t1.dropAttempt a).bump .policy 0 0x68 1
      { t2 with step := { t2.step with rerunNext := true, nextAttempt := a.number } })

/-- An ABORT waits here that an EXHAUSTED brought (R185). -/
def State.exhaustAbort (s : State) : Bool := (s.takeDown 0x11).any fun x => fld x.1 1 == 7

/-- A DECISION of EXHAUSTED waits here. -/
def State.exhaustWaits (s : State) : Bool :=
  s.fab.inbox.any fun x => match x.data with
    | .dom f => f.mtype == 7 && f.down && fld f 3 == 4
    | _ => false

/-- DECISION_EXHAUSTED (R185): TRB_EXHAUSTED on every module; the wellhead aborts. A run-ahead is squashed and meets it again. The ABORT that
it brings does not win over it. -/
def execDecisionExhausted (s : State) : Host.Outcome State Fault Refusal :=
  guarded (!s.hasDown 0x11 || s.exhaustAbort) s (s.onDecision 4 fun p ra a l bwd f t =>
    let t1 := (t.troubleEvents ra a l bwd f).raiseCtx 0x0128 0 7 (segCtx ra a l bwd) (leBytes 1 (b2n bwd))
    if ra then t1.squash
    else if t1.isWellhead then
      t1.decideCause p ⟨7, l, if bwd then .at l else .beforeAll, a.step, true⟩
    else t1)

/-- XMAP (R155): the bitmaps are ORed up the tree. -/
def execXmap (s : State) : Host.Outcome State Fault Refusal :=
  let pairs (f : DomFrame) : List (Nat × Nat) :=
    (List.range ((f.payload.length / 8 - 1) / 2)).map fun i => (fld f (1 + 2 * i), fld f (2 + 2 * i))
  .next (s.combined 8
    (fun f l => encN (fld f 0 :: ((f :: l).flatMap pairs).eraseDups.flatMap fun x => [x.1, x.2]))
    fun f t =>
      match t.step.att with
      | some a =>
        if a.step = f.step ∧ a.base = fld f 0 then (t.setAttempt false { a with xmapAll := some (pairs f) }).tryPolicy else t
      | none => t)

/-! ## Votes, END and READY (R215 to R217) -/

/-- The PRE unit a gradient block belongs to (R248): a PB × PB block, or two side by side where PB is 64. -/
def preUnit (e : UpdateEntry) (index : Nat) : Nat :=
  let pb := 64 * 2 ^ e.pb
  let w := max pb 128
  let i := index / (e.cols / 128)
  let j := 128 * (index % (e.cols / 128))
  i / pb * (e.cols / w) + j / w

/-- A gradient block that has been taken and whose PRE unit is not updated in full. -/
def State.preOwed (s : State) (p : Program) (q : InlPost) : Bool :=
  (updateOf p q.tensor).any fun e => e.rule == .pre && !e.frozen && !s.inl.pre.contains (q.tensor, preUnit e q.index)

/-- The PRE unit of a taken block waits for its layer's gate (R214). -/
def State.preWaits (s : State) (p : Program) (a : Attempt) (q : InlPost) : Bool :=
  (updateOf p q.tensor).any fun e =>
    (phaseOf p a (forDie e q.die) (s.inl.preV.contains (q.tensor, preUnit e q.index))).isNone

/-- The module has received all of a layer's reduced gradients and finished its updates, but for those that wait for the gate. -/
def State.updatesDone (s : State) (p : Program) (a : Attempt) (l : Nat) : Bool :=
  (p.strands.all fun t => !active a t || a.done.contains t.id ||
    (match t.kind with
     | .coll d | .hosted d => !(d.op == .rs && d.toInlet && d.layer == some l)
     | .statsPass _ tensor => !((updateOf p tensor).any fun e => e.layer == l) || gateShut p a l
     | _ => true)) &&
  (s.inl.posts.all fun q => !((updateOf p q.tensor).any fun e => e.layer == l) || q.waits p a) &&
  (s.inl.seen.all fun q => !(s.preOwed p q && (updateOf p q.tensor).any fun e => e.layer == l) || s.preWaits p a q) &&
  s.inl.passed.all fun q => s.inl.stats.contains q || !((updateOf p q.2).any fun e => e.layer == l)

/-- The vote that a layer's LVOTE gives now: its first, and in a gated layer a second one after the gate. -/
def Attempt.mayVote (a : Attempt) (p : Program) (l : Nat) : Bool :=
  match a.lvoted.count l with
  | 0 => true
  | 1 => gated p l && a.gates.contains l
  | _ => false

/-- LVOTE (R214, R215): this module's vote on a layer, and the combined ones that are complete. -/
def execLvote (layer : Nat) (s : State) : Host.Outcome State Fault Refusal :=
  let own :=
    match s.prog, s.step.att with
    | some p, some a =>
      if p.updateOrder.contains layer && !a.skip && a.mayVote p layer && s.updatesDone p a layer then
        (s.setAttempt false { a with lvoted := a.lvoted ++ [layer] }).addOwn
          (s.domFrame 0xB false a.step a.number layer (encN [a.base, b2n (!a.vetoes.contains layer)]))
      else s
    | _, _ => s
  .next (own.combined 0xB sumFields fun f t =>
    match t.step.att with
    | some a =>
      if a.step = f.step ∧ a.base = fld f 0 then
        (if fld f 1 = t.dom.size then
          ({ t with dom := { t.dom with lvotes := t.dom.lvotes ++ [f.arg] } } : State)
         else { t with dom := { t.dom with lfailed := t.dom.lfailed ++ [f.arg] } }).wellheadVotes
      else t
    | none => t)

/-- GATE (R214): a gated layer's in-place updates are released. -/
def execGate (s : State) : Host.Outcome State Fault Refusal :=
  .next (s.onDown 0xC fun f t =>
    match t.step.att with
    | some a =>
      if a.step = f.step ∧ a.base = fld f 0 then
        let t1 := t.setAttempt false { a with gates := a.gates ++ [f.arg] }
        { t1 with step := { t1.step with lastGate := some f.arg } }
      else t
    | none => t)

/-- A cause of this module as fields of VETO. -/
def vetoFields (a : Attempt) (c : Cause) : List Nat :=
  let (k, l) := cutFields c.cut
  [a.base, c.code, c.layer, k, l, b2n c.halt]

/-- The wellhead takes a cause of attempt `base` of step `c.step`: of the open attempt it decides; of a run-ahead, that is squashed. -/
def State.takeCause (s : State) (base : Nat) (c : Cause) : State :=
  match s.prog, s.step.att, s.step.ra with
  | some p, some a, ra =>
    if a.step = c.step ∧ a.base = base then s.decideCause p c
    else if ra.any fun r => r.step == c.step && r.base == base then s.squash
    else s
  | _, none, some r => if r.step = c.step ∧ r.base = base then s.squash else s
  | _, _, _ => s

/-- The cause of a halt with no step open (R397): it reaches the wellhead all the same. -/
def Cause.idleHalt (c : Cause) : Bool := decide (c.code = 0x14) && c.halt

/-- A halt that a lockstep twin asks for while this domain has no step open: it halts at once (R412). -/
def State.haltIdle (s : State) (c : Cause) : State :=
  if s.step.att.isNone && s.step.halted.isNone then s.sendAbort c true else s

/-- A host's ABORT waits on the wellhead for a domain that is not halted (R381). -/
def State.hostAbortWaits (s : State) : Bool := s.isWellhead && s.step.halted.isNone && (s.busyWith 0x0305).isSome

/-- VETO (R216): a host's ABORT is decided first. A module with causes of its own reports the first; the wellhead then takes the first that was reported to it. A cause
that squashes the run-ahead squashes it here first (R227). -/
def execVeto (s : State) : Host.Outcome State Fault Refusal :=
  let busy := s.step.committing || s.hasDown 0xF || s.hasDown 0x11
  let causes := if s.prog.any fun p => p.serving then [] else s.step.causes
  if s.hostAbortWaits && !busy && !s.hasDown 4 then .next (s.sendAbort ⟨0x15, 0xFFFF, .outside, s.stepNum, true⟩ true) else
  match causes with
  | c :: r =>
    let s1 : State := { s with step := { s.step with causes := r } }
    match s.attemptOf c.step with
    | some (ra, a) =>
      if s.isWellhead then guarded (!busy) s (s1.takeCause a.base c)
      else
        let t := s1.sendDirect (s1.domFrame 0xA false a.step a.number 0 (encN (vetoFields a c)))
        .next (if ra then t.squash else t)
    | none =>
      if !c.idleHalt then .next s1
      else if s.isWellhead then guarded (!busy) s (s1.haltIdle c)
      else .next (s1.sendDirect (s1.domFrame 0xA false c.step 0 0 (encN [0, c.code, c.layer, 0, 0, 1])))
  | [] =>
    if s.isWellhead && !busy then
      .next (match s.takeUp 0xA with
        | some (_, f, t) =>
          let c : Cause := ⟨fld f 1, fld f 2, cutOf (fld f 3) (fld f 4), f.step, fld f 5 == 1⟩
          if c.idleHalt && t.step.att.isNone then t.haltIdle c else t.takeCause (fld f 0) c
        | none => s)
    else .next s

/-- PROGRAM_END (R217, stage 2): every strand and every Inlet update of the step is complete, and POLICY is written: END is sent, and
READY where no digest is due. A record of class 0x01 that waits for room in the log holds the commit of its step here (R192, log 58). -/
def execProgramEnd (s : State) : Host.Outcome State Fault Refusal :=
  match s.prog, s.step.att with
  | some p, some a =>
    let strandsDone := p.strands.all fun t => !active a t || a.done.contains t.id
    let ready := !p.serving && !a.endSent && (a.policy || a.skip) && strandsDone && s.inl.posts.isEmpty &&
      !s.inl.seen.any (s.preOwed p) && s.inl.parts.isEmpty && (s.inl.passed.all fun q => s.inl.stats.contains q) &&
      a.amax.all (fun x => x.back.isSome) && !(s.log.held.any (·.numerics))
    let digestDue := decide (s.twin.mode = 2) && s.twin.paired
    let now := !digestDue && a.vetoes.isEmpty
    let s1 := (s.setAttempt false { a with endSent := true, readySent := now }).addOwn
      (s.domFrame 0xD false a.step a.number 0 (encN [a.base, 1, a.vetoes.length]))
    let unpaired := decide (s.twin.mode = 2) && s.twin.unpaired
    let s2 := if now then s1.addOwn (s.domFrame 0xE false a.step a.number 0 (encN [a.base, 1, b2n unpaired])) else s1
    guarded ready s s2
  | _, _ => .next s

/-- END (R217, stage 3): with every END in and no veto, the finite vote is clear. It goes up after the update ratios it follows (R255). -/
def execEndCount (s : State) : Host.Outcome State Fault Refusal :=
  guarded (!s.hasUp 0x12) s (s.combined 0xD sumFields fun f t =>
    match t.prog, t.step.att with
    | some p, some a =>
      if a.step = f.step ∧ a.base = fld f 0 ∧ fld f 1 = t.dom.size ∧ fld f 2 = 0 ∧ troubleClear a p.strands then
        { t with dom := { t.dom with finiteClear := true } }
      else t
    | _, _ => t)

/-- Nothing stands against the commit at the wellhead: no cause, no abort, and room for the last ratio record (R216, R256). -/
def State.mayCommit (s : State) : Bool :=
  s.dom.finiteClear && s.step.causes.isEmpty && s.dom.held.isEmpty && !s.hasUp 0xA && !s.hasDown 0x11 && s.dom.ratioHeld.isEmpty

/-- READY (R217, stage 5): with every READY in, the wellhead records COMMIT(n). It too goes up after the update ratios. -/
def execReadyCount (s : State) : Host.Outcome State Fault Refusal :=
  guarded (!s.hasUp 0x12 && (!s.isWellhead || s.mayCommit)) s (s.combined 0xE sumFields fun f t =>
    match t.step.att with
    | some a =>
      if a.step = f.step ∧ a.base = fld f 0 ∧ fld f 1 = t.dom.size then
        let t1 : State := { t with dom := { t.dom with finiteClear := false, doneIn := false } }
        t1.sendDown (t1.domFrame 0xF true a.step a.number 0 (encN [a.base]))
      else t
    | none => t)

/-! ## Commit (R218, R255 to R257) -/

/-- The ratio of one layer: the wellhead's fold in ascending order of update entry and of piece or row unit (R255). -/
def State.layerRatio (s : State) (p : Program) (l : Nat) : Word × Word :=
  let es := (p.updates.zipIdx).filter fun e => e.1.layer == l
  es.foldl (fun acc e =>
    (List.range e.1.own.length).foldl (fun b u =>
      match s.dom.ratios.find? fun r => r.1 == e.2 && r.2.1 == u with
      | some r => (fAdd b.1 r.2.2.1, fAdd b.2 r.2.2.2)
      | none => b) acc) (0, 0)

/-- Layers are numbered 0 up to this number less one in the ratio record. -/
def layerCount (p : Program) : Nat := p.layers.foldl (fun n e => max n (e.num + 1)) 0

/-- The ratio record of the committed step (R256). -/
def State.ratioRecord (s : State) (p : Program) (a : Attempt) : List Byte :=
  let n := layerCount p
  let head := leBytes 4 a.step ++ leBytes 2 n ++ leBytes 2 (b2n a.skip + 2 * b2n s.inl.held + 4 * b2n a.rerun)
    ++ leBytes 4 (a.lr.getD 0).toNat ++ leBytes 1 (min 255 a.number) ++ List.replicate 51 0
  let pairs := (List.range ((n + 7) / 8 * 8)).flatMap fun l =>
    if a.skip ∨ n ≤ l then List.replicate 8 0
    else leBytes 4 (s.layerRatio p l).1.toNat ++ leBytes 4 (s.layerRatio p l).2.toNat
  head ++ pairs

/-- Writes a ratio record entry by entry, where the whole record has room and every place lies inside a window; otherwise it is held
(R256, R499), with TRN_ACCESS the first time. -/
def State.writeRatio (s : State) (first : Bool) (data : List Byte) : State :=
  let size := 2 ^ s.field .inl 0 0x48 0 5
  let n := data.length / 64
  let place (j : Nat) : Nat := s.ringBase .inl 0x40 + 64 * (((s.reg .inl 0 0x4C).toNat + j) % size)
  let room := decide (s.ringUsed .inl 0x4C 0x50 + n ≤ size)
  let inside := (List.range n).all fun j => s.inOneWindow (place j) (place j + 64)
  if room && inside then
    let t := (List.range n).foldl (fun u j =>
      (u.unpoison (stackOf (place j)) [lineOf (place j)]).putBytes (place j) (slice (64 * j) 64 data)) s
    let t1 := t.bump .inl 0 0x4C n
    { t1 with dom := { t1.dom with ratioHeld := [] } }
  else
    let t := if first && room && !inside then
        s.raiseEv 0x0305 (stackOf (place 0) % 8) (leBytes 6 (place 0) ++ [9, 0]) else s
    { t with dom := { t.dom with ratioHeld := data } }

/-- UPD_RATIO for the layers over RMAX (R257). -/
def State.ratioEvents (s : State) (p : Program) (a : Attempt) : State :=
  let rmax := s.reg .inl 0 0x1C
  (List.range (layerCount p)).foldl (fun t l =>
    let (sd, sw) := s.layerRatio p l
    if fLt 0 sw && fLt (fMul rmax rmax) (fDiv sd sw) then
      t.raiseCtx 0x0504 0 5 { ctxOf false a with layer := l } (leBytes 2 l ++ [0, 0] ++ leBytes 4 (fSqrt (fDiv sd sw)).toNat)
    else t) s

/-- COMMIT on a module: FLIP is issued to all bases (R218); a skip flips nothing and is logged (R222). The wellhead writes the ratio
record. -/
def State.onCommit (s : State) (p : Program) (a : Attempt) : State :=
  let s1 := if a.skip then s.raiseCtx 0x0132 0 7 (ctxOf false a) [] else s.flipAll
  let s2 : State := { s1 with step := { s1.step with committing := true, att := some { a with gotCommit := true } } }
  if s.isWellhead then
    let s3 := s2.writeRatio true (s2.ratioRecord p a)
    let s4 := if a.skip then s3 else s3.ratioEvents p a
    { s4 with dom := { s4.dom with ratios := [] } }
  else s2

/-- In COMMIT of a forced handover (R411): the base of whatever attempt is open. -/
def anyBase : Nat := 2 ^ 41

/-- COMMIT (R218): the flip comes after POLICY and after every transfer to a V page in flight (R284). -/
def execCommit (s : State) : Host.Outcome State Fault Refusal :=
  guarded (!s.step.committing && !s.hasDown 9 && !s.vInFlight) s (s.onDown 0xF fun f t =>
    match t.prog, t.step.att with
    | some p, some a => if a.step = f.step ∧ (a.base = fld f 0 ∨ fld f 0 = anyBase) then t.onCommit p a else t
    | _, _ => t)

/-- Step `n` is committed: a base that sends checkpoints owes its epoch (R286). -/
def State.oweEpochs (s : State) (n : Nat) : State :=
  (List.range 8).foldl (fun t i => if t.ckptSend i then t.setStack i { t.stack i with due := some n } else t) s

/-- A step number advances on this module: the next attempt is the first. -/
def State.advanceStep (s : State) (n : Nat) : State :=
  let t := (s.setStepNum (n + 1)).oweEpochs n
  { t with
    step := { t.step with nextAttempt := 0, retries := 0, mismatchedAt := none }
    inl := { t.inl with latched := none } }

/-- FLIP_COMPLETE (R218, R226): the holds are released, the run-ahead's records are written, and DONE is sent. A numerics record that waits
for room in the log holds the commit here too (R192): STEP_SKIPPED is raised at COMMIT. On a wellhead that finishes another's commit (R411) n advances here. -/
def execFlipComplete (s : State) : Host.Outcome State Fault Refusal :=
  match s.step.att with
  | some a =>
    let s0 : State := { s with
      step := { s.step with att := none, committing := false }
      inl := s.inl.fresh
      dom := { s.dom with held := [], lvotes := [], lfailed := [] } }
    let s2 := s0.flushRecords.bump .step 0 0x50 1
    let s3 := if s2.isWellhead && !s2.dom.doneIn then s2 else s2.advanceStep a.step
    guarded (s.step.committing && !(s.log.held.any (·.numerics))) s
      (if s3.isWellhead && s3.dom.doneIn then s3
       else s3.addOwn (s3.domFrame 0x10 false a.step a.number 0 (encN [a.base, 1])))
  | none => .next s

/-- DONE (R217, stage 7): n advances on the wellhead; a STOP that waited replies (R381). -/
def execDoneCount (s : State) : Host.Outcome State Fault Refusal :=
  .next (s.combined 0x10 sumFields fun f t =>
    let t1 := t.advanceStep f.step
    let limit := t1.dom.limit.map (· - 1)
    let t2 : State := { t1 with dom := { t1.dom with
      doneIn := true
      limit := limit
      running := t1.dom.running && !t1.dom.stopping
      stopping := false } }
    t2.finishEach 0x0304 stOk 0 [])

/-- DOMAIN_ABORT (R220). The gated updates released before an abort inside the program are finished: the wellhead has their second layer
votes before it decides one (R216, R229). After a cause outside the program the gradients not yet applied go. The DECISION of EXHAUSTED
that brought an abort goes before it (R185). -/
def execDomainAbort (s : State) : Host.Outcome State Fault Refusal :=
  guarded (!s.hasDown 0xC && !s.hasDown 0xF && !s.step.committing && !(s.exhaustAbort && s.exhaustWaits)) s (s.onDown 0x11 fun f t => t.onAbort f)

end Sys2Proof.Machine
end

