-- ==== Sys2Proof/Machine/Strands.lean ====
section
/-! DEFINITION. How strands start and complete (R25, R26, R205, R207, R215, R287): the start conditions, the loss, phase barriers. -/
namespace Sys2Proof.Machine

/-- Completion is signalled (R26): the strand is done, and the stash blocks freed at it go (R205). -/
def State.completeStrand (s : State) (ra : Bool) (id : Nat) : State :=
  match s.prog with
  | some p => (s.markDone ra id).releaseAt ra p id
  | none => s.markDone ra id

/-- A strand of the open attempt that a cut has stopped (R216). -/
def State.stopped (s : State) (ra : Bool) (t : Strand) : Bool :=
  match ra, s.prog, s.step.att with
  | false, some p, some a => s.heldBack p a t
  | _, _, _ => false

/-- The strand of an attempt that has started, is not complete, and is not stopped. -/
def State.running (s : State) (ra : Bool) (id : Nat) : Option (Attempt × Strand) :=
  match s.attempt ra, s.strand? id with
  | some a, some t => if a.started.contains id && !a.done.contains id && !s.stopped ra t then some (a, t) else none
  | _, _ => none

/-- A strand it depends on holds it back: an active one that this attempt issues and that is not complete (R26). -/
def depsDone (a : Attempt) (ts : List Strand) (t : Strand) : Bool :=
  t.deps.all fun d => a.done.contains d || (ts.find? fun x => x.id == d).all fun x => !active a x

/-- The phase barriers before a strand's phase are complete (R26). -/
def phasesDone (a : Attempt) (ts : List Strand) (t : Strand) : Bool :=
  ts.all fun x => !active a x || decide (t.phase ≤ x.phase) || a.phases.contains x.phase

/-- Every strand of its die that comes before it in the program has been issued. -/
def State.inOrder (s : State) (a : Attempt) (ts : List Strand) (t : Strand) : Bool :=
  (ts.takeWhile fun x => x.id != t.id).all fun x =>
    !active a x || a.started.contains x.id || s.strandDie x.kind != s.strandDie t.kind

/-- A collective that sends values written in a segment waits until that segment is CLEAR (R183). -/
def State.clearFor (s : State) (p : Program) (a : Attempt) (ts : List Strand) (t : Strand) : Bool :=
  !isColl t.kind || !anyOverlap (s.carries p t)
    (s.reachedFrom p (fun u => u.seg.any fun x => !(a.seg x.1 x.2).clear)
      ((ts.takeWhile fun u => u.id != t.id).filter (active a)))

/-- What a strand does at its issue: the loss is checked for finiteness and complete at once (R215), unless a line of it is uncorrectable
(R270); every other strand waits for its unit, a kernel in its Cutter's queue (R126). -/
def State.issueStrand (s : State) (ra : Bool) (t : Strand) : State :=
  match t.kind with
  | .loss addr n =>
    let bad := (s.loadWords addr n).any notFinite
    let s1 := if bad then s.vetoIn ra true 0 .beforeAll else s
    s.strandIO ra 0 (s.strandLines addr (4 * n)) [] (s1.completeStrand ra t.id)
  | _ => s.queueKernel ra t

/-- The scale windows of a run-ahead are final on this module (R142, R223): every group amax of the open step is back. -/
def State.windowsFinal (s : State) : Bool := s.step.att.all fun a => a.amax.all fun x => x.back.isSome

/-- STRAND_START (R26): every condition of the program holds, and its stash blocks are allocated (R205); where they have to wait for
room, so does the strand. -/
def execStrandStart (ra : Bool) (id : Nat) (s : State) : Host.Outcome State Fault Refusal :=
  match s.prog, s.attempt ra, s.strand? id with
  | some p, some a, some t =>
    let ts := issuable ra p.strands
    let ready := ts.any (·.id == id) && active a t && !a.started.contains id && depsDone a ts t && phasesDone a ts t &&
      s.inOrder a ts t && s.clearFor p a ts t && !s.waitsForReturn ra p t && (if ra then s.windowsFinal else !s.heldBack p a t)
    guarded ready s
      (match State.allocAll ra p a t (s.firstBlocks p id) s with
       | (u, .placed) =>
         match u.attempt ra with
         | some b => (u.setAttempt ra { b with started := b.started ++ [id] }).issueStrand ra t
         | none => u
       | (u, _) => u)
  | _, _, _ => .next s

/-- PHASE_BARRIER (R26): every strand of the phase is complete on this module, and the row says so of every other module that takes
part (log 28). Where some of them lie behind the loss, it completes only after the run-ahead has become the attempt (R223). -/
def execPhaseBarrier (ra : Bool) (phase : Nat) (s : State) : Host.Outcome State Fault Refusal :=
  match s.prog, s.attempt ra with
  | some p, some a =>
    let mine := p.strands.filter fun t => t.phase == phase && active a t
    guarded (!mine.isEmpty && mine.all (fun t => a.done.contains t.id) && !a.phases.contains phase) s
      (s.setAttempt ra { a with phases := a.phases ++ [phase] })
  | _, _ => .next s

end Sys2Proof.Machine
end

