-- ==== Sys2Proof/Machine/Tarn.lean ====
section
/-! DEFINITION. The Tarn bases (R263 to R292): the line code's outcomes, the arbiter, scrubbing, row repair, windows, the version
table, the copy engine. -/
namespace Sys2Proof.Machine

/-! ## The line code (R266) -/

/-- Multiplication by α = 0x02 in GF(2^8), whose polynomial is x^8 + x^4 + x^3 + x^2 + 1. -/
def gfDouble (a : Nat) : Nat := if a < 128 then 2 * a else (2 * a).xor 0x11D

/-- A product in GF(2^8), over the low `n` bits of the second factor. -/
def gfMulLoop : Nat → Nat → Nat → Nat
  | 0, _, _ => 0
  | n + 1, a, b => (if b % 2 = 1 then a else 0).xor (gfMulLoop n (gfDouble a) (b / 2))

def gfMul (a b : Nat) : Nat := gfMulLoop 8 a b

/-- α^i. -/
def gfPow : Nat → Nat
  | 0 => 1
  | n + 1 => gfDouble (gfPow n)

/-- A polynomial, its coefficients from the constant term on, times x + r. -/
def timesRoot (p : List Nat) (r : Nat) : List Nat :=
  ((0 :: p).zip (p ++ [0])).map fun c => c.1.xor (gfMul c.2 r)

/-- The generator: the product of x + α^i for i from 0 to 7. -/
def lineGen : List Nat := (List.range 8).foldl (fun p i => timesRoot p (gfPow i)) [1]

/-- One step of the division by the generator: the remainder so far times x, plus x^8 times the next coefficient. -/
def lineStep (r : List Nat) (m : Nat) : List Nat :=
  let f := m.xor ((r[7]?).getD 0)
  ((0 :: r.take 7).zip lineGen).map fun c => c.1.xor (gfMul f c.2)

/-- The message of a line: its 64 bytes, then the five bytes of its index (device address bits 39:6). -/
def lineMessage (l : Nat) (data : List Byte) : List Nat :=
  data.map (·.toNat) ++ (leBytes 5 (l % 2 ^ 34)).map (·.toNat)

/-- C_0 to C_7: the remainder of x^8 times the message polynomial. -/
def checkSymbols (l : Nat) (data : List Byte) : List Nat :=
  (lineMessage l data).reverse.foldl lineStep (List.replicate 8 0)

/-- The 72 symbols that the base stores for a line: its bytes and the check symbols. The symbols A_j are supplied again at a read. -/
def State.codeword (s : State) (l : Nat) : List Nat :=
  (s.bytes (64 * l) 64).map (·.toNat) ++ checkSymbols l (s.bytes (64 * l) 64)

/-! ## Corrected lines (R267, R271) -/

/-- What the decoder says of a line that is read. -/
inductive Decoded where
  | good
  | corrected (syms : Nat) (data : List Byte)
  | bad (addr : Bool)
  deriving DecidableEq, Repr

/-- The decoder (R267): MODE 0 corrects 4 symbols, MODE 1 corrects 2 and detects 3 to 6; a line in the poison list is uncorrectable
again (R269). -/
def State.decodeLine (s : State) (l : Nat) (e : LineError) : Decoded :=
  let i := stackOf (64 * l)
  let mode1 := bit (s.reg .trn i 0x10) 0
  let t := if mode1 then 2 else 4
  if (s.stack i).poison.contains l then .bad e.address
  else if e.address then .bad true
  else if e.symbols = 0 then .good
  else if e.symbols ≤ t then .corrected e.symbols (s.bytes (64 * l) 64)
  else match e.mis with
    | some (n, d) =>
      if (if mode1 then 6 else 4) < e.symbols ∧ 0 < n ∧ n ≤ t ∧ d.length = 64 then .corrected n d else .bad false
    | none => .bad false

/-- A corrected line (R271): counted, recorded at most once a millisecond, and queued for write-back; the scrubber writes it back
itself (R272). A miscorrected line holds the other codeword's data from then on (log 37). -/
def State.lineCE (s : State) (l syms req : Nat) (data : List Byte) : State :=
  let a := 64 * l
  let i := stackOf a
  let s1 := if s.bytes a 64 = data then s else s.putBytes a data
  let s2 := (s1.bump .trn i 0x90 1).keepTrnError i l syms (s.contentClass a) req false false
  let s3 := s2.raiseLimited 0x0301 i i fun _ => leBytes 6 a ++ leBytes 1 syms ++ leBytes 1 (b2n (req == 12))
  let k := s3.stack i
  if req = 12 ∨ k.wb.contains l then s3 else s3.setStack i { k with wb := k.wb ++ [l] }

/-- A line is read by a requester: the state after, and its data where it decodes. -/
def State.readLine (s : State) (l req : Nat) (e : LineError) : State × Option (List Byte) :=
  match s.decodeLine l e with
  | .good => (s, some (s.bytes (64 * l) 64))
  | .corrected n d => (s.lineCE l n req d, some d)
  | .bad addr => (s.lineUE l req addr, none)

/-! ## The arbiter (R280 to R284) -/

def staticReq (r : Nat) : Bool := decide (r ≤ 5)

def knownReq (r : Nat) : Bool := decide (r ≤ 5 ∨ (8 ≤ r ∧ r ≤ 14))

def State.grantOf (s : State) (i c : Nat) : Option Grant := ((s.stack i).grants.find? fun g => g.1 == c).map (·.2)

def State.setGrant (s : State) (i c : Nat) (g : Option Grant) : State :=
  let k := s.stack i
  let rest := k.grants.filter fun x => x.1 != c
  s.setStack i { k with grants := match g with
    | some x => rest ++ [(c, x)]
    | none => rest }

def State.barredAt (s : State) (i c r : Nat) : Bool := (s.stack i).barred.contains (16 * c + r)

/-- The static requester served next on a channel: round-robin, after the last one granted. -/
def nextStatic (last : Nat) (rs : List Nat) : Option Nat :=
  ((List.range 6).map fun j => (last + 1 + j) % 6).find? fun r => rs.contains r

/-- The requester that a free channel goes to (R281). -/
def State.winner (s : State) (i c : Nat) (rs : List Nat) : Option Nat :=
  match nextStatic (Bank.get (fun _ => 5) (s.stack i).lastStatic c) (rs.filter staticReq) with
  | some r => some r
  | none => (List.range 15).find? fun r => rs.contains r

/-- Two grants are of one transfer. -/
def Grant.same (g h : Grant) : Bool := g.req == h.req && g.line == h.line && g.count == h.count && g.write == h.write

/-- The progress count kept for a transfer on a channel: 0 where none of its lines is done (R282). -/
def State.progressOf (s : State) (i c : Nat) (g : Grant) : Nat :=
  (((s.stack i).progress.find? fun x => x.1 == c && x.2.same g).map (·.2.done)).getD 0

/-- The progress counts without that of one transfer. -/
def State.otherProgress (s : State) (i c : Nat) (g : Grant) : List (Nat × Grant) :=
  (s.stack i).progress.filter fun x => !(x.1 == c && x.2.same g)

/-- A grant ends early: the progress count of its transfer is kept (R282). -/
def State.revoke (s : State) (i c : Nat) (g : Grant) : State :=
  let t := s.setGrant i c none
  t.setStack i { t.stack i with progress := t.otherProgress i c g ++ [(c, g)] }

/-- A requester is granted a channel for a transfer: it resumes at the transfer's progress count (R282). -/
def State.grant (s : State) (i c req line count : Nat) (write : Bool) : State :=
  let k := s.stack i
  let done := s.progressOf i c ⟨req, line, count, 0, write⟩
  let t := s.setStack i { k with
    progress := s.otherProgress i c ⟨req, line, count, 0, write⟩
    lastStatic := if staticReq req then Bank.put (fun _ => 5) k.lastStatic c req else k.lastStatic
    delivered := if done = 0 ∧ !write then [] else k.delivered }
  t.setGrant i c (some ⟨req, line, count, done, write⟩)

/-- The holder of channel `c` after a request by `req` and its rivals, with the state after a revocation (R281): the requester where
it holds the channel, or where it wins it. -/
def State.arbitrate (s : State) (i c req line count : Nat) (write : Bool) (rivals : List Nat) : Option State :=
  let rs := (req :: rivals).filter fun r => knownReq r && !s.barredAt i c r
  match s.grantOf i c with
  | some g =>
    if g.req = req then
      if g.line = line ∧ g.count = count ∧ g.write = write ∧ (staticReq req ∨ !(rs.any staticReq)) then some s else none
    else if !staticReq g.req && s.winner i c (rs.filter staticReq) == some req then
      some (((s.revoke i c g).bump .trn i 0x98 1).grant i c req line count write)
    else none
  | none => if s.winner i c rs == some req then some (s.grant i c req line count write) else none

/-! ## One line of a transfer -/

/-- The physical line a requester reads for a frame-0 line address (R277). -/
def State.physLine (s : State) (req a : Nat) : Nat :=
  (if req ≤ 5 then s.strandAddr a else s.committedAddr a) / 64

/-- Where a requester's write to a frame-0 line address lands: strands and received checkpoint pages write the shadow frame. -/
def State.physWrite (s : State) (req a : Nat) : Nat :=
  (if req ≤ 5 ∨ req = 10 then (if (s.vRegion a).isSome then s.shadowAddr a else a) else s.committedAddr a) / 64

/-- The copy that a first partial write to a V page makes reads the committed page (R270, R277): its uncorrectable lines. -/
def State.firstCopyBad (s : State) (req a : Nat) : List Nat :=
  if req ≤ 5 ∧ (s.vRegion a).isSome ∧ !(s.vtOf a).t then
    s.badLines ((List.range 64).map fun j => s.committedAddr (a / 4096 * 4096 + 64 * j) / 64)
  else []

/-- Writes `data` at offset `off` of the line at frame-0 address `a`: a partial line is read, merged and written (R268). -/
def State.writeLine (s : State) (req a off : Nat) (data : List Byte) (e : LineError) : State :=
  match s.firstCopyBad req a with
  | l :: ls => (l :: ls).foldl (fun t x => t.lineUE x req false) s
  | [] =>
    let s1 := if req ≤ 5 then s.touch a false else if req = 10 then s.touch a true else s
    let l := s1.physWrite req a
    if data.length = 64 then s1.putBytes (64 * l) data
    else match s1.readLine l req e with
      | (s2, some old) => s2.putBytes (64 * l) (old.take off ++ data ++ old.drop (off + data.length))
      | (s2, none) => s2

def noError : LineError := ⟨0, false, none⟩

/-- Moves line `j` of a transfer that starts at `addr`. -/
def State.moveLine (s : State) (i req addr : Nat) (x : Xfer) (errs : List LineError) (j : Nat) : State :=
  let a := chanAddr i (chanOf addr) (chanLine addr + j)
  let e := (errs[j]?).getD noError
  match x with
  | .read =>
    match s.readLine (s.physLine req a) req e with
    | (t, some d) => t.setStack i { t.stack i with delivered := (t.stack i).delivered ++ d }
    | (t, none) => t
  | .write data =>
    let off := if j = 0 then addr % 64 else 0
    let from' := if j = 0 then 0 else 64 * j - addr % 64
    s.writeLine req a off (slice from' (64 - off) data) e

/-- Moves the lines of a transfer from `j` on, `n` of them. -/
def State.moveLines (i req addr : Nat) (x : Xfer) (errs : List LineError) : Nat → Nat → State → State
  | 0, _, s => s
  | n + 1, j, s => State.moveLines i req addr x errs n (j + 1) (s.moveLine i req addr x errs j)

/-! ## Refused accesses (R275, R285) -/

/-- Why the base refuses a requester an address: 0 a window, 1 a frame-1 address. The scrubber is the base itself. -/
def State.accessFault (s : State) (req a : Nat) : Option Nat :=
  if req = 12 then none
  else if s.inWindow a then (if req = 9 ∨ req = 11 ∨ req = 14 then none else some 0)
  else if req = 9 then some 0
  else if s.isFrame1 a then some 1
  else none

/-- A refused access: TRN_ACCESS, a read returns zeros, and a strand's marks the module faulted. -/
def State.refuse (s : State) (i req a count why : Nat) (x : Xfer) : State :=
  let t := s.raiseEv 0x0305 i (leBytes 6 a ++ leBytes 1 req ++ leBytes 1 why)
  let t1 := match x with
    | .read => t.setStack i { t.stack i with delivered := List.replicate (64 * count) 0 }
    | .write _ => t
  if req ≤ 5 then t1.markFaulted else t1

/-- The number of V pages of the program below a frame-0 page of the same stack: its entry in the version table. -/
def State.entryIndex (s : State) (a : Nat) : Nat :=
  s.regions.foldl (fun n r =>
    if r.versioned ∧ stackOf r.base = stackOf a then
      n + (if r.base + r.size ≤ a then r.size / 4096 else if r.base ≤ a then (a - r.base) / 4096 else 0)
    else n) 0

/-- A version table entry with a parity error is used (R276). -/
def State.vtParity (s : State) (i a : Nat) : State :=
  (s.raiseEv 0x0308 i (leBytes 4 (s.entryIndex a))).markFaulted

/-- The bytes of a write fill the lines it names. -/
def xferFits (addr count : Nat) : Xfer → Bool
  | .read => true
  | .write d => decide (64 * (count - 1) < addr % 64 + d.length ∧ addr % 64 + d.length ≤ 64 * count)

/-- TARN_TRANSFER (R281, R282): a request is refused, waits, or is granted or resumed; then `lines` lines move. New V requests are held
from the commit until the flip is over, while a transfer in flight goes on (R218, R284); strand writes to V pages wait while an epoch
runs (R287). -/
def execTarnTransfer (stack req addr count lines : Nat) (rivals : List Nat) (x : Xfer) (errs : List LineError) (vtParity : Bool)
    (s : State) : Host.Outcome State Fault Refusal :=
  let c := chanOf addr
  let k0 := chanLine addr
  let isWrite := match x with
    | .read => false
    | .write _ => true
  let addrs := (List.range count).map fun j => chanAddr stack c (k0 + j)
  let legal := (s.stack stack).trained && decide (stackOf addr = stack ∧ stack < 8 ∧ 1 ≤ count ∧ count ≤ 64 ∧ 1 ≤ lines) &&
    knownReq req && !s.barredAt stack c req && decide (k0 + count ≤ 2 ^ 26) && xferFits addr count x
  let going := (s.grantOf stack c).any fun g => g.same ⟨req, lineOf addr, count, 0, isWrite⟩
  let held := addrs.any (fun a => (s.vRegion a).isSome &&
    (((s.step.committing || s.hasDown 0xF) && !going) || (isWrite && decide (req ≤ 5) && s.epochRuns stack)))
  let bad := addrs.findSome? fun a => (s.accessFault req a).map fun w => (a, w)
  guarded legal s
    (match bad with
     | some (a, w) => s.refuse stack req a count w x
     | none =>
       if held then s
       else match s.arbitrate stack c req (lineOf addr) count isWrite rivals with
         | none => s
         | some t =>
           let t0 := if vtParity && addrs.any fun a => (t.vRegion a).isSome then t.vtParity stack addr else t
           match t0.grantOf stack c with
           | none => t0
           | some g =>
             let n := min lines (count - g.done)
             let t1 := State.moveLines stack req addr x errs n g.done t0
             if g.done + n = count then t1.setGrant stack c none
             else t1.setGrant stack c (some { g with done := g.done + n }))

/-- The class limit in MCLK cycles (R283). -/
def State.grantLimit (s : State) (i req : Nat) : Nat :=
  16 * (if staticReq req then s.field .trn i 0x18 0 8 else s.field .trn i 0x18 8 8)

/-- OVERSTAY_CUTOFF (R283). -/
def execOverstayCutoff (stack chan cycles : Nat) (s : State) : Host.Outcome State Fault Refusal :=
  match s.grantOf stack chan with
  | none => .next s
  | some g =>
    let t := s.revoke stack chan g
    let t1 := t.setStack stack { t.stack stack with barred := (t.stack stack).barred ++ [16 * chan + g.req] }
    guarded (decide (s.grantLimit stack g.req < cycles)) s
      ((t1.bump .trn stack 0x9C 1).raiseEv 0x0304 stack (leBytes 1 g.req ++ leBytes 1 chan))

/-- OVERSTAY_BAR_END (R283): 256 cycles have passed. -/
def execOverstayBarEnd (stack chan req : Nat) (s : State) : Host.Outcome State Fault Refusal :=
  let k := s.stack stack
  guarded (s.barredAt stack chan req) s
    (s.setStack stack { k with barred := k.barred.filter fun x => x != 16 * chan + req })

/-- No requester holds the channel of an address. -/
def State.channelFree (s : State) (i a : Nat) : Bool := (s.grantOf i (chanOf a)).isNone

/-- CE_WRITEBACK (R271): the oldest queued line is written back once its channel is free. -/
def execCeWriteback (stack : Nat) (s : State) : Host.Outcome State Fault Refusal :=
  match (s.stack stack).wb with
  | [] => .next s
  | l :: r =>
    let t := s.setStack stack { s.stack stack with wb := r }
    guarded (s.channelFree stack (64 * l)) s
      (if (s.stack stack).poison.contains l then t else t.putBytes (64 * l) (s.bytes (64 * l) 64))

/-! ## Scrubbing (R272) -/

def State.scrubbing (s : State) (i : Nat) : Bool := (s.stack i).trained && decide (s.field .trn i 0x14 0 8 ≠ 0)

/-- SCRUB_LINE (R272): the next line is read and handled, and the pass ends at the stack's last line. -/
def execScrubLine (stack : Nat) (err : LineError) (s : State) : Host.Outcome State Fault Refusal :=
  let n := (s.stack stack).scrubNext
  let l := stack * 2 ^ 31 + n
  let t := (s.readLine l 12 err).1
  let last := decide (n + 1 = 2 ^ 31)
  let k := t.stack stack
  let t1 := t.setStack stack { k with
    scrubNext := if last then 0 else n + 1
    scrubLate := if last then false else k.scrubLate }
  guarded (decide (stack < 8) && s.scrubbing stack && s.channelFree stack (64 * l)) s
    (if last then t1.bump .trn stack 0xA0 1 else t1)

/-- SCRUB_PERIOD_END (R272): the period ends with the pass unfinished. -/
def execScrubPeriodEnd (stack : Nat) (s : State) : Host.Outcome State Fault Refusal :=
  guarded (decide (stack < 8) && s.scrubbing stack) s (s.setStack stack { s.stack stack with scrubLate := true })

/-! ## Row repair (R273, R274) -/

def repairDefault (_ : Nat) : Word := 0

def State.repair (s : State) (i n : Nat) : Word := Bank.get repairDefault (s.stack i).rpr n

/-- The contents of a row become undefined: the four granules of it that one bank of one channel holds (R264, R274). -/
def State.rowUndef (s : State) (i n row : Nat) : State :=
  (List.range 4).foldl (fun t g =>
    let a := i * 2 ^ 37 + row * 2 ^ 19 + g * 2 ^ 17 + n / 16 % 16 * 2 ^ 13 + n / 256 * 256
    t.makeUndef a (a + 256)) s

/-- Another valid entry of the same bank that names the same row (R273). -/
def State.repairTwin (s : State) (i n : Nat) (v : Word) : Option Nat :=
  (List.range 16).findSome? fun j =>
    let m := n / 16 * 16 + j
    if m ≠ n ∧ bit (s.repair i m) 31 ∧ bits (s.repair i m) 0 18 = bits v 0 18 then some m else none

/-- TRN_RPR_DATA (R273): the entry at the index is stored and the index advances; of two entries that name one row the higher is
ignored. A row that a spare takes over, or gives back, is undefined (R274). -/
def State.repairWrite (s : State) (i : Nat) (v : Word) : State :=
  let n := s.field .trn i 0x20 0 13
  let w := v &&& 0x8003FFFF
  let old := s.repair i n
  let k := s.stack i
  let s1 := s.setStack i { k with rpr := Bank.put repairDefault k.rpr n w }
  let s2 := if bit old 31 && old != w then s1.rowUndef i n (bits old 0 18) else s1
  let s3 :=
    if bit w 31 then
      match s2.repairTwin i n w with
      | some m =>
        let t := s2.raiseEv 0x0306 i (leBytes 2 (max m n))
        if n < m then t.rowUndef i n (bits w 0 18) else t
      | none => if old = w then s2 else s2.rowUndef i n (bits w 0 18)
    else s2
  s3.setReg .trn i 0x20 (BitVec.ofNat 32 ((n + 1) % 2 ^ 13))

/-! ## Windows (R285, R499) -/

/-- A window register with a new value, where it overlaps no region of a loaded program and stays within the stack. -/
def State.windowOk (s : State) (i k : Nat) (size : Bool) (v : Word) : Bool :=
  let base := if size then s.field .trn i (0x40 + 8 * k) 0 16 else bits v 0 16
  let n := if size then bits v 0 16 else s.field .trn i (0x44 + 8 * k) 0 16
  let lo := i * 2 ^ 37 + base * 2 ^ 21
  let hi := lo + n * 2 ^ 21
  decide (base + n ≤ 65536) && (n == 0 || s.regions.all fun r =>
    decide (r.base + (if r.versioned then 2 * r.size else r.size) ≤ lo ∨ hi ≤ r.base))

/-- Records that wait for their place to lie in a window are tried again. -/
def State.retryRings (s : State) : State :=
  let t := State.logDrain s.log.held.length s
  if t.dom.ratioHeld.isEmpty then t else t.writeRatio false t.dom.ratioHeld

/-! ## The version table (R278, R286) -/

/-- INIT (R278): the entries of the program's pages are cleared; C is set on every page where checkpoints are sent. -/
def State.initVersions (s : State) : State :=
  (List.range 8).foldl (fun t i =>
    let u := t.mapProgPages i fun _ => {}
    let v := if u.ckptSend i then u.pendAll i else u
    v.setStack i { v.stack i with fullNext := true, due := none }) s

/-- CKFLIP on stack `i` (R278). -/
def State.ckFlip (s : State) (i : Nat) : State :=
  let k := s.stack i
  s.setStack i { k with vt := Bank.mapK vtDefault (fun j e =>
    if s.areaPage i j && e.t then { e with vb := !e.vb, t := false } else e) k.vt }

/-- SETTLE of one region (R278): each page whose committed copy lies in frame 1 is copied to frame 0. A page with an uncorrectable line has
the outcome of R270, which marks the module faulted, and stays as it is. R280 gives the reads no requester; DESIGN CHOICE (log 36): 11. -/
def State.settleRegion (s : State) (r : Region) : State :=
  (List.range (r.size / 4096)).foldl (fun t j =>
    let p := r.base + 4096 * j
    if (t.vtOf p).vb then
      match t.badLines (t.committedLines p 4096) with
      | [] => (t.putBytes p (t.bytes (p + r.size) 4096)).setVt p {}
      | ls => ls.foldl (fun (u : State) l => u.lineUE l 11 false) t
    else t.setVt p {}) s

/-- SETTLE on all bases (R278): every committed copy is at its frame-0 address. -/
def State.settle (s : State) : State := (s.regions.filter (·.versioned)).foldl (fun t r => t.settleRegion r) s

/-! ## The copy engine (R279) -/

/-- The events of the batch or the path point that runs, in order: slot and position (R343, R350). -/
def State.servEvents (s : State) : List (Nat × Nat) :=
  match s.serv.batch with
  | some b => b.reqs.flatMap fun r => (List.range r.count).map fun j => (r.slot, r.pos + j)
  | none => match s.serv.pass with
    | some x => (List.range (x.ex.pos + 1)).map fun e => (x.slot, e)
    | none => []

/-- The rows of a copy: those of its descriptor, or those that the events of the batch or the path point name (R340, R343; `SlotRows`). -/
def State.copyPlan (s : State) (d : CopyStrand) : List (Nat × Nat) :=
  if d.srcRows = .fixed ∧ d.dstRows = .fixed then (List.range d.rows).map (copyRowAt d)
  else
    let ctx := ((s.prog.bind (·.serv)).map (·.ctxMax)).getD 0
    let at' (k : SlotRows) (base stride : Nat) (x : Nat × Nat × Nat) : Nat :=
      base + (if k = .fixed then x.1 else x.2.1 * ctx + x.2.2) * stride
    let rows : List (Nat × Nat × Nat) := s.servEvents.zipIdx.flatMap fun e =>
      if d.srcRows = .history ∨ d.dstRows = .history then (List.range (e.1.2 + 1)).map fun q => (e.2 * ctx + q, e.1.1, q)
      else [(e.2, e.1.1, e.1.2)]
    (rows.filter fun x => decide (x.1 < d.rows)).map fun x =>
      (if d.fill then d.src else at' d.srcRows d.src d.sstride x, at' d.dstRows d.dst d.dstride x)

/-- Bytes read for one row. -/
def copyReadLen (d : CopyStrand) : Nat := if d.fill then 64 else d.len

/-- The bytes one row writes: a fill repeats its 64-byte pattern. -/
def State.copyRow (s : State) (d : CopyStrand) (src : Nat) : List Byte :=
  if d.fill then (List.replicate (d.len / 64) (s.load src 64)).flatten else s.load src d.len

/-- Moves row by row; a row that meets a poisoned line ends the copy (R270). -/
def State.copyRows (ra : Bool) (d : CopyStrand) : List (Nat × Nat) → State → State × Bool
  | [], s => (s, true)
  | (src, dst) :: r, s =>
    match s.badLines (s.strandLines src (copyReadLen d) ++ s.mergeLines dst d.len) with
    | [] => State.copyRows ra d r (s.store dst (s.copyRow d src))
    | ls => (ls.foldl (fun t l => t.lineUEFor ra l 0 false) s, false)

/-- Runs a copy strand of one kind: it has started, its data has not moved, and no write of it waits for an epoch or a flip. -/
def State.copyStrand (s : State) (ra : Bool) (id : Nat) (fill : Bool) : Host.Outcome State Fault Refusal :=
  match s.running ra id with
  | some (_, t) =>
    match t.kind with
    | .copy d =>
      let waits := (s.copyPlan d).any fun r => s.spanWaits r.2 d.len
      guarded (d.fill == fill && !s.units.copied.contains (id, ra) && !waits && !s.step.committing) s
        (match State.copyRows ra d (s.copyPlan d) s with
         | (u, true) => { u with units := { u.units with copied := u.units.copied ++ [(id, ra)] } }
         | (u, false) => u)
    | _ => .next s
  | none => .next s

/-- PROGRAM_COPY (R279, OP 0). -/
def execProgramCopy (ra : Bool) (id : Nat) (s : State) : Host.Outcome State Fault Refusal := s.copyStrand ra id false

/-- PATTERN_FILL (R279, OP 1). -/
def execPatternFill (ra : Bool) (id : Nat) (s : State) : Host.Outcome State Fault Refusal := s.copyStrand ra id true

/-- COPY_COMPLETE (R279): the last line is written and acknowledged, and the strand completes. -/
def execCopyComplete (ra : Bool) (id : Nat) (s : State) : Host.Outcome State Fault Refusal :=
  let t := s.completeStrand ra id
  guarded ((s.running ra id).isSome && s.units.copied.contains (id, ra)) s
    { t with units := { t.units with copied := t.units.copied.filter fun x => x != (id, ra) } }

/-! ## Checkpoint epochs, sending (R286 to R290) -/

/-- Byte `j` of the header page (R289). -/
def State.epochHeader (s : State) (p : Program) (i n : Nat) : List Byte :=
  let rs := (State.vPages.sortNat ((s.regions.filter fun r => r.versioned && stackOf r.base == i).map (·.base))).filterMap fun b =>
    s.regions.find? fun r => r.versioned && r.base == b
  let segs := rs.foldl (fun (acc : List Byte × Nat) r =>
    (acc.1 ++ leBytes 6 r.base ++ leBytes 2 0 ++ leBytes 4 (r.size / 4096) ++ leBytes 4 acc.2, acc.2 + r.size / 4096)) ([], 0)
  let head := [0x5A, 0x54, 0x43, 0x4B] ++ leBytes 4 n ++ leBytes 2 i ++ leBytes 2 0 ++ leBytes 4 (s.vPages i).length
    ++ digestBytes p.numericsDigest ++ digestBytes p.programDigest ++ leBytes 4 rs.length ++ List.replicate 12 0
  let all := head ++ segs.1
  all ++ List.replicate (4096 - all.length) 0

/-- TRN_CKPT_DST of stack `i`. -/
def State.ckptDst (s : State) (i : Nat) : Nat := (s.reg .trn i 0x64).toNat + s.field .trn i 0x68 0 16 * 2 ^ 32

/-- The MARK codes of USE 1 (log 38): the end mark CKEND(n), and the report that the epoch is held; the argument is the stack. -/
def markCkend : Nat := 0x10

def markHeld : Nat := 0x11

def ckptMark (code i n : Nat) : LinkData := .copy ⟨.mark, 1, 0, 0, 0, n, 0, code + 2 ^ 8 * i, []⟩

/-- EPOCH_START (R286): the pages to be sent in ascending order, the header page and the end mark; with no twin link up the epoch is
lost (R290). A committed line that it finds uncorrectable has the outcome of R270 in place of the epoch. -/
def execEpochStart (stack : Nat) (s : State) : Host.Outcome State Fault Refusal :=
  match s.prog, (s.stack stack).due with
  | some p, some n =>
    let k := s.stack stack
    let pages := s.vPages stack
    let send := pages.zipIdx.filter fun x => k.fullNext || (Bank.get vtDefault k.vt x.1).c
    let page (addr : Nat) (j : Nat) (l : List Byte) : LinkData :=
      .copy ⟨.write, 1, ckptTag stack j, addr + 4096 * j, 4096, n, 0, 0, l⟩
    let s1 := s.setStack stack { k with
      due := none, epoch := some ⟨n, [], (send.map fun x => x.2 + 1) ++ [0], true⟩ }
    let s2 := send.foldl (fun t x =>
      t.sendTwinOn (oxbowOf stack) (page (t.ckptDst stack) (x.2 + 1) (t.loadCommitted (4096 * x.1) 4096))) s1
    let s3 := s2.sendTwinOn (oxbowOf stack) (page (s2.ckptDst stack) 0 (s2.epochHeader p stack n))
    let s4 := s3.sendTwinOn (oxbowOf stack) (ckptMark markCkend stack n)
    guarded (decide (stack < 8) && s.ckptSend stack && k.epoch.isNone && !s.step.committing) s
      (if !s.partnerPresent then s1.ckptLost stack 0
       else match s.badLines (send.flatMap fun x => s.committedLines (4096 * x.1) 4096) with
         | [] => s4
         | ls => ls.foldl (fun t l => t.lineUE l 10 false) s)
  | _, _ => .next s

/-- A page of the epoch is acknowledged: its C is cleared. -/
def State.epochAck (s : State) (i page : Nat) : State :=
  match (s.stack i).epoch with
  | none => s
  | some e =>
    let t := s.setStack i { s.stack i with epoch := some { e with unacked := e.unacked.filter (· != page) } }
    match page with
    | 0 => t
    | j + 1 =>
      match (s.vPages i)[j]? with
      | some p => t.setVt (4096 * p) { t.vtOf (4096 * p) with c := false }
      | none => t

/-- Takes the first MARK of USE 1 with this code. -/
def State.takeCkptMark (s : State) (code : Nat) : Option (Nat × Nat × State) :=
  (s.takeFrame fun x => match x.data with
    | .copy f => if f.cop = .mark ∧ f.use = 1 ∧ f.mark % 2 ^ 8 = code then some (f.mark / 2 ^ 8, f.step) else none
    | _ => none).map fun r => (r.2.1.1, r.2.1.2, r.2.2)

/-- CKEND (R288): CKFLIP(n), TRN_CKPT_HELD := n, and the report; an epoch that failed is refused, so that the sender repeats it
(R270). -/
def execCkend (s : State) : Host.Outcome State Fault Refusal :=
  .next (match s.takeCkptMark markCkend with
    | none => s
    | some (i, n, t) =>
      let k := t.stack i
      let t1 := t.setStack i { k with receiving := false, recvFailed := false }
      if 8 ≤ i ∨ (t.ckptArea i).isNone then t
      else if k.recvFailed then t1.ckptRefuse i 1
      else ((t1.ckFlip i).setReg .trn i 0x7C (BitVec.ofNat 32 n)).sendTwinOn (oxbowOf i) (ckptMark markHeld i n))

/-- EPOCH_HELD (R286): TRN_CKPT_SENT := n, and the epoch ends. -/
def execEpochHeld (s : State) : Host.Outcome State Fault Refusal :=
  .next (match s.takeCkptMark markHeld with
    | none => s
    | some (i, n, t) =>
      let k := t.stack i
      if k.epoch.any fun e => e.step == n && e.unacked.isEmpty then
        (t.setReg .trn i 0x78 (BitVec.ofNat 32 n)).setStack i { k with epoch := none, fullNext := false }
      else t)

end Sys2Proof.Machine
end

