-- ==== Sys2Proof/Machine/Bulk.lean ====
section
/-! DEFINITION. The hub bulk engine (R270, R373, R379 to R381): memory commands, RESTORE, and their replies. -/
namespace Sys2Proof.Machine

/-! ## What the host may reach (R380) -/

/-- An address inside the calibration block or an H16 area of the loaded model. -/
def State.inModel (s : State) (a : Nat) : Bool :=
  s.serv.model.any fun m => m.ranges.any fun r => decide (r.1 ≤ a ∧ a < r.2)

/-- An address inside the Spillway area while it is open for a peer (R394). -/
def State.inOpenSpillway (s : State) (a : Nat) : Bool :=
  bit (s.reg .twn 0 0x4C) 31 && decide (s.spillwayArea.1 ≤ a ∧ a < s.spillwayArea.2)

/-- The status of a host access to one byte (R380). -/
def State.hostStatus (s : State) (write : Bool) (a : Nat) : Nat :=
  if tarnTop ≤ a then
    if inSram a then (if s.prog.isSome then stLocked else stOk) else stUnmapped
  else if s.isFrame1 a then stUnmapped
  else if s.inWindow a then stOk
  else if !write then stOk
  else if (s.vRegion a).isSome || s.inOpenSpillway a || s.inModel a then stLocked
  else match s.regionAt a with
    | some r => if r.cls = .param ∨ r.cls = .state ∨ r.cls = .rowcount ∨ r.cls = .pond ∨ r.cls = .scratch then stLocked else stOk
    | none => stOk

/-- The addresses at which the answer of `hostStatus` may change. -/
def State.accessEdges (s : State) : List Nat :=
  [tarnTop, poolBase 0, poolBase 160, opbufBase 0, opbufBase 640, s.spillwayArea.1, s.spillwayArea.2]
    ++ s.regions.flatMap (fun r => [r.base, r.base + r.size, r.base + 2 * r.size])
    ++ (List.range 8).flatMap (fun i =>
      ((s.ckptArea i).toList.flatMap fun b => [b.1, b.1 + b.2, b.1 + 2 * b.2]) ++
      (List.range 4).flatMap fun k => [(s.window i k).1, (s.window i k).2])
    ++ (s.serv.model.toList.flatMap fun m => m.ranges.flatMap fun r => [r.1, r.2])

/-- The status of a range: that of its lowest refused byte (R379). -/
def State.rangeStatus (s : State) (write : Bool) (a n : Nat) : Nat :=
  let bad := (a :: s.accessEdges).filter fun b => decide (a ≤ b ∧ b < a + n) && s.hostStatus write b != stOk
  match bad with
  | [] => stOk
  | b :: t => s.hostStatus write (t.foldl min b)

/-! ## Moving bytes (R268, R270) -/

/-- Where the host reads a byte: the committed copy of a V page. -/
def State.lineBad (s : State) (a : Nat) : Bool :=
  decide (a < tarnTop) && !(s.badLines [lineOf (s.committedAddr a)]).isEmpty

/-- The first uncorrectable line of a range, by its number within the range. -/
def State.firstBad (s : State) (a n : Nat) : Option Nat :=
  (List.range ((a % 64 + n + 63) / 64)).find? fun j => s.lineBad (a / 64 * 64 + 64 * j)

/-- An uncorrectable line that the bulk engine meets (R269, R270). -/
def State.bulkUE (s : State) (a j : Nat) : State :=
  s.lineUE (lineOf (s.committedAddr (a / 64 * 64 + 64 * j))) 11 false

/-- A bulk read: the bytes, or the number of the first uncorrectable line. -/
def State.bulkRead (s : State) (a n : Nat) : State × Except Nat (List Byte) :=
  match s.firstBad a n with
  | some j => (s.bulkUE a j, .error j)
  | none => (s, .ok (s.loadCommitted a n))

/-- The lines of a write that it covers in part: they are read, merged and written (R268). -/
def partialLines (a n : Nat) : List Nat :=
  let k := (a % 64 + n + 63) / 64
  (List.range k).filter fun j => decide (a / 64 * 64 + 64 * j < a ∨ a + n < a / 64 * 64 + 64 * j + 64)

/-- A bulk write: on an uncorrectable line that it covers in part, the lines before it stand. -/
def State.bulkWrite (s : State) (a : Nat) (l : List Byte) : State × Option Nat :=
  match (partialLines a l.length).find? fun j => s.lineBad (a / 64 * 64 + 64 * j) with
  | some j => ((s.putBytes a (l.take (a / 64 * 64 + 64 * j - a))).bulkUE a j, some j)
  | none => (s.putBytes a l, none)

/-- DETAIL of UNCORRECTABLE. -/
def lineDetail (j : Nat) : Nat := min j 0xFFFF

/-! ## Commands -/

/-- The bulk engine takes a command; its reply is due. -/
def State.pushBulk (s : State) (queue : Nat) (p : Packet) (code detail : Nat) (payload : List Byte) : State :=
  { s with bulk := s.bulk ++ [⟨queue, p, code, detail, payload⟩] }

/-- The longest data of a MEM_READ or MEM_WRITE (R379). -/
def memMax (p : Packet) : Nat := if p.pcrc then 8148 else 8152

/-- MEM_READ (R379). -/
def execMemRead (queue : Nat) (s : State) : Host.Outcome State Fault Refusal :=
  .next (s.runHost queue 0x0210 (lenIs 16) anyState fun p l t =>
    let a := leAt 0 8 l
    let n := leAt 8 4 l
    if n = 0 ∨ memMax p < n then (t, .done stBadField 8 [])
    else if leAt 12 4 l ≠ 0 then (t, .done stBadField 12 [])
    else
      let c := t.rangeStatus false a n
      if c ≠ stOk then (t, .done c 0 [])
      else match t.bulkRead a n with
        | (u, .ok bs) => (u.pushBulk queue p stOk 0 bs, .issued)
        | (u, .error j) => (u.pushBulk queue p stUncorrectable (lineDetail j) [], .issued))

/-- MEM_WRITE (R379). -/
def execMemWrite (queue : Nat) (s : State) : Host.Outcome State Fault Refusal :=
  .next (s.runHost queue 0x0211 (fun n => decide (9 ≤ n ∧ n ≤ 8160)) anyState fun p l t =>
    let a := leAt 0 8 l
    let data := l.drop 8
    let c := t.rangeStatus true a data.length
    if c ≠ stOk then (t, .done c 0 [])
    else match t.bulkWrite a data with
      | (u, none) => (u.pushBulk queue p stOk 0 [], .issued)
      | (u, some j) => (u.pushBulk queue p stUncorrectable (lineDetail j) [], .issued))

/-- ADDR and LEN of a MEM_FILL or MEM_DIGEST: the offset of the first that is out of range. -/
def alignFault (a n : Nat) : Option Nat :=
  if a % 64 ≠ 0 then some 0
  else if n % 64 ≠ 0 ∨ 2 ^ 40 < n then some 8
  else none

/-- MEM_FILL (R379): the pattern repeats. -/
def execMemFill (queue : Nat) (s : State) : Host.Outcome State Fault Refusal :=
  .next (s.runHost queue 0x0212 (lenIs 24) anyState fun p l t =>
    let a := leAt 0 8 l
    let n := leAt 8 8 l
    match alignFault a n with
    | some o => (t, .done stBadField o [])
    | none =>
      let c := t.rangeStatus true a n
      if c ≠ stOk then (t, .done c 0 [])
      else ((t.putBytes a ((List.range (n / 8)).flatMap fun _ => slice 16 8 l)).pushBulk queue p stOk 0 [], .issued))

/-- MEM_DIGEST (R379). -/
def execMemDigest (queue : Nat) (s : State) : Host.Outcome State Fault Refusal :=
  .next (s.runHost queue 0x0213 (lenIs 16) anyState fun p l t =>
    let a := leAt 0 8 l
    let n := leAt 8 8 l
    match alignFault a n with
    | some o => (t, .done stBadField o [])
    | none =>
      let c := t.rangeStatus false a n
      if c ≠ stOk then (t, .done c 0 [])
      else match t.bulkRead a n with
        | (u, .ok bs) => (u.pushBulk queue p stOk 0 (digestBytes (sha384 bs)), .issued)
        | (u, .error j) => (u.pushBulk queue p stUncorrectable (lineDetail j) [], .issued))

/-! ## RESTORE (R212, R381) -/

/-- One page is restored into the committed frame of the V page at `dst`; version bits are unchanged, and C is set when checkpoints are
sent. -/
def State.restorePage (s : State) (dst : Nat) (l : List Byte) : State :=
  let t := s.putBytes (s.committedAddr dst) l
  if t.ckptSend (stackOf dst) then t.setVt dst { t.vtOf dst with c := true } else t

/-- Restores pages; where a line of them is uncorrectable none is, and the answer is the line's number within the range (R370). -/
def State.restorePages (src dst n : Nat) (s : State) : State × Option Nat :=
  match s.firstBad src (4096 * n) with
  | some j => (s.bulkUE src j, some j)
  | none => ((List.range n).foldl (fun t k => t.restorePage (dst + 4096 * k) (s.loadCommitted (src + 4096 * k) 4096)) s, none)

/-- The fields of a RESTORE that is out of range, by offset. -/
def State.restoreField (s : State) (dst src n : Nat) : Option Nat :=
  match s.regions.find? fun r => r.versioned && decide (r.base ≤ dst ∧ dst < r.base + r.size) with
  | none => some 0
  | some r =>
    if dst % 4096 ≠ 0 then some 0
    else if !s.inOneWindow src (src + 4096 * n) then some 8
    else if r.base + r.size < dst + 4096 * n then some 16
    else none

/-- RESTORE (R381): while the domain is halted or no step is open. A run-ahead, which may have read what is rewritten, is squashed (R142). -/
def execRestore (queue : Nat) (s : State) : Host.Outcome State Fault Refusal :=
  .next (s.runHost queue 0x0307 (lenIs 24)
    (fun t => t.cp == .loaded && (t.step.halted.isSome || (t.step.att.isNone && !t.step.committing && !t.hasDown 4))) fun p l t0 =>
    let t := t0.squash
    let dst := leAt 0 8 l
    let src := leAt 8 8 l
    let n := leAt 16 4 l
    if leAt 20 4 l ≠ 0 then (t, .done stBadField 20 [])
    else match t.restoreField dst src n with
      | some o => (t, .done stBadField o [])
      | none =>
        match t.restorePages src dst n with
        | (u, none) => (u.pushBulk queue p stOk 0 [], .issued)
        | (u, some j) => (u.pushBulk queue p stUncorrectable (lineDetail j) [], .issued))

/-- A RESTORE has completed: a RESUME may be accepted after TRB_EXHAUSTED; a member tells the wellhead (log 41). -/
def State.restored (s : State) : State :=
  let t : State := { s with step := { s.step with exhausted := false } }
  if t.dom.rankValid && !t.isWellhead then t.sendDirect (t.domFrame 0x15 false t.stepNum 0 3 []) else t

/-- BULK_COMPLETE (R373): the oldest bulk command completes. A completed RESTORE lets a RESUME be accepted (R185). -/
def execBulkComplete (s : State) : Host.Outcome State Fault Refusal :=
  .next (match s.bulk with
    | [] => s
    | j :: rest =>
      let t : State := { s with bulk := rest }
      let u : State := if j.packet.opcode = 0x0307 ∧ j.code = stOk then t.restored else t
      u.finishIssued j.queue j.packet j.code j.detail j.payload)

end Sys2Proof.Machine
end

