-- ==== Sys2Proof/Machine/Facet.lean ====
section
/-! DEFINITION. The Facets (R78 to R124): operands in the operand buffer, K-groups, the rescale, the drain, faults and replays. -/
namespace Sys2Proof.Machine

/-! ## Geometry (R101) -/

/-- Rows and columns of a partition, and its first logical row and column. -/
def partRows : PartMode → Nat
  | .whole => 64
  | _ => 32

def partCols : PartMode → Nat
  | .q4 => 32
  | _ => 64

def partRow0 : PartMode → Nat → Nat
  | .whole, _ => 0
  | .h2, p => 32 * p
  | .q4, p => 32 * (p / 2)

def partCol0 : PartMode → Nat → Nat
  | .q4, p => 32 * (p % 2)
  | _, _ => 0

/-- The K-group length of a KG field (R83). The table defines 0, 1 and 2 and asks for 64 in CNM; DESIGN CHOICE (log 78): KG = 3 is read
as 128, and a CNM task uses the length its KG gives. -/
def groupLen (kg : Nat) : Nat := 32 * 2 ^ min kg 2

/-- K-groups of a task. R83 makes K a multiple of the K-group length, from 32 to 1,048,576, and says nothing of another K; DESIGN CHOICE
(log 78): any K is accepted, and what is left over a whole number of K-groups is not reduced. -/
def tileGroups (d : TileDesc) : Nat := d.k / groupLen d.kg

/-! ## Operand buffers (R82, R143) -/

/-- `n` bytes of a half from a byte offset on; the offset wraps within the half (log 40). -/
def State.opBytes (s : State) (f : Nat) (half : Bool) (off n : Nat) : List Byte :=
  (List.range n).map fun i => s.byte (opbufBase f + (if half then 2 ^ 17 else 0) + (off + i) % 2 ^ 17)

/-- Code (or binary16 value) `k` of logical row or column `i` (R82). -/
def State.opCode (s : State) (f : Nat) (half : Bool) (fmt : PFmt) (base i k : Nat) : Nat :=
  match fmt with
  | .l4 => leNat (s.opBytes f half (base + 256 * (k / 8) + 4 * i) 4) / 2 ^ (4 * (k % 8)) % 16
  | .l8 => leNat (s.opBytes f half (base + 256 * (k / 4) + 4 * i + k % 4) 1)
  | .f16 => leNat (s.opBytes f half (base + 128 * k + 2 * i) 2)
  | .cnm => leNat (s.opBytes f half (base + 192 * (k / 4) + 3 * i) 3) / 2 ^ (6 * (k % 4)) % 64

/-- The exponent entry of K-group `g` for logical row or column `i`: E8 and tag. -/
def State.opEntry (s : State) (f : Nat) (half : Bool) (base i g : Nat) : Nat × Nat :=
  let v := leNat (s.opBytes f half (base + 2 * (64 * g + i)) 2)
  (v % 256, v / 256 % 16)

/-- Bytes of a half that the operands of a task take from their bases on: codes for every row or column of the Facet (R82). -/
def codeBytes (d : TileDesc) : Nat :=
  match d.format with
  | .l4 => 256 * ((d.k + 7) / 8)
  | .l8 => 256 * ((d.k + 3) / 4)
  | .f16 => 128 * d.k
  | .cnm => 192 * ((d.k + 3) / 4)

/-- The operands of a task fit in the halves (R96): codes and exponent entries end within them. -/
def operandsFit (d : TileDesc) : Bool :=
  let entries := if d.format = .f16 then 0 else 128 * tileGroups d
  [d.aBase, d.bBase].all (fun b => decide (b + codeBytes d ≤ 2 ^ 17)) &&
    [d.aeBase, d.beBase].all fun b => decide (b + entries ≤ 2 ^ 17)

/-- Row (`half` false) or column `i` of K-group `g` as the operand buffer holds it now. -/
def State.bufferOperand (s : State) (f : Nat) (d : TileDesc) (half : Bool) (i g : Nat) : Operand :=
  let n := groupLen d.kg
  let e := if d.format = .f16 then (0, 0) else s.opEntry f half (if half then d.beBase else d.aeBase) i g
  { codes := (List.range n).map fun x => s.opCode f half d.format (if half then d.bBase else d.aBase) i (g * n + x), e8 := e.1, tag := e.2 }

def operandDefault (_ : Nat) : Operand := {}

def operandKey (half : Bool) (i g : Nat) : Nat := 128 * g + (if half then 64 else 0) + i

/-- What a task reads for a row or column of K-group `g` (R96): where its operands do not fit in the halves, what it has read before. The
copies that the sequencer runs again for a replay bring those bytes, since the program leaves their source unchanged (log 40). -/
def State.operand (s : State) (f : Nat) (t : FTask) (d : TileDesc) (half : Bool) (i g : Nat) : Operand :=
  let o := Bank.get operandDefault t.fetched (operandKey half i g)
  if o.codes.isEmpty then s.bufferOperand f d half i g else o

/-- The tags of K-group `g` match for every row and column of the partition (R95). F16 operands carry none (R112). -/
def State.tagsOk (s : State) (f : Nat) (t : FTask) (d : TileDesc) (g : Nat) : Bool :=
  d.format == .f16 ||
    ((List.range (partRows d.mode)).all (fun r =>
      (s.operand f t d false (partRow0 d.mode d.pidx + r) g).tag == (d.aTag0 + g) % 16) &&
     (List.range (partCols d.mode)).all fun c =>
      (s.operand f t d true (partCol0 d.mode d.pidx + c) g).tag == (d.bTag0 + g) % 16)

/-! ## Products and groups (R69 to R74, R112, R113) -/

/-- L12 of R69. -/
def l12 : List Nat := [4096, 4467, 4871, 5312, 5793, 6317, 6889, 7512]

/-- The product of two log codes in units of 2^-12 (R70). -/
def logProduct (f : LogFmt) (a b : Nat) : Int :=
  let (sa, ha) := codeParts f a
  let (sb, hb) := codeParts f b
  if ha = 0 ∨ hb = 0 then 0
  else
    let h := ha + hb - 2
    let p : Int := ((l12[h % 8]?).getD 0 * 2 ^ (h / 8) : Nat)
    if sa != sb then -p else p

/-- The binary16 value of an L6 code in CNM (R47). -/
def cnmValue (c : Nat) : Fl :=
  let k := c % 32
  let h4 : List Half := [0x3C00, 0x3CC2, 0x3DA8, 0x3EBA]
  if k = 0 then .fin false 0 0
  else match fl16 ((h4[(k - 1) % 4]?).getD 0) with
    | .fin _ m e => .fin (c / 32 % 2 == 1) m (e + ((k - 1) / 4 : Nat))
    | x => x

/-- The log format of a product's operands. -/
def pLog : PFmt → LogFmt
  | .l4 => logL4
  | .l8 => logL8
  | _ => logL6

/-- The exact sum of a log K-group (R71): +2^25 in L4 is held as 2^25 - 1. -/
def groupSum (fmt : PFmt) (l : List (Nat × Nat)) : Int :=
  let g := l.foldl (fun a x => a + logProduct (pLog fmt) x.1 x.2) (0 : Int)
  if fmt = .l4 ∧ g = 2 ^ 25 then 2 ^ 25 - 1 else g

/-- The sum of an F16 K-group, exact (R73, R112). -/
def f16Sum (l : List (Nat × Nat)) : Fl :=
  l.foldl (fun a x => a.add ((fl16 (BitVec.ofNat 16 x.1)).mul (fl16 (BitVec.ofNat 16 x.2)))) (.fin false 0 0)

/-- One CNM block pair added into the accumulator (R74). -/
def cnmFold (acc : Word) (l : List (Nat × Nat)) (e : Int) : Word :=
  (runsOf 16 l).foldl (fun a run =>
    let t := run.foldl (fun x c => rne32 ((fl32 x).add ((cnmValue c.1).mul (cnmValue c.2)))) (0 : Word)
    rne32 ((fl32 a).add ((fl32 t).mul (.fin false 1 e)))) acc

/-- The new accumulator of a cell after a K-group (R72) with the operands of its row and its column; `draw` is the 24-bit draw where the
task rounds stochastically. -/
def foldGroup (d : TileDesc) (a b : Operand) (acc : Word) (draw : Option Nat) : Word :=
  let pairs := a.codes.zip b.codes
  let round : Fl → Word :=
    match draw with
    | some r => rsr32 r
    | none => rne32
  if d.format = .f16 then round ((fl32 acc).add (f16Sum pairs))
  else
    if poisonedE (pLog d.format) a.e8 || poisonedE (pLog d.format) b.e8 then nan32
    else if a.e8 = 0 ∨ b.e8 = 0 then acc
    else
      let e : Int := (a.e8 : Int) + b.e8 - 254
      if d.format = .cnm then cnmFold acc pairs e
      else round ((fl32 acc).add (ofDy ⟨groupSum d.format pairs, e - 12⟩ false))

/-- The draw of a rounding, where the task rounds stochastically (R62, R84). -/
def State.drawFor (s : State) (p : Program) (step f : Nat) (d : TileDesc) (g ti tj : Nat) : Option Nat :=
  if s.field .cut (facetCluster f) 0x10 0 21 < d.k ∧ d.format ≠ .cnm then
    some (draw24 (tileKey p.seed step d.tensor d.tile) (srCounter g ti tj))
  else none

/-! ## Tasks -/

def cellDefault (_ : Nat) : Nat × Word := (0, 0)

def FTask.cell (t : FTask) (r c : Nat) : Nat × Word := Bank.get cellDefault t.cells (64 * r + c)

/-- The descriptor of a task. -/
def State.tileOf (s : State) (t : FTask) : Option TileDesc :=
  (s.strand? t.id).bind fun x => match x.kind with
    | .tile d => some d
    | _ => none

/-- The tasks of a partition that no fault has struck, in the order they accumulate. -/
def FacetSt.live (x : FacetSt) (pidx : Nat) : List FTask := x.tasks.filter fun t => t.pidx == pidx && !t.faulted

/-- Replaces a task. -/
def FacetSt.putTask (x : FacetSt) (t : FTask) : FacetSt :=
  { x with tasks := x.tasks.map fun q => if q.id = t.id ∧ q.ra = t.ra then t else q }

/-- Every K-group has been folded into every cell of row `r`. -/
def rowFolded (t : FTask) (d : TileDesc) (r : Nat) : Bool :=
  (List.range (partCols d.mode)).all fun c => (t.cell r c).1 == tileGroups d

/-- A task has accumulated something. -/
def FTask.begun (t : FTask) : Bool := !t.cells.isEmpty || decide (0 < t.next)

/-- Every cell of a task is folded. -/
def allFolded (t : FTask) (d : TileDesc) : Bool :=
  (List.range (partRows d.mode)).all fun r => decide (r < t.next) || rowFolded t d r

/-- The descriptor at the head of a Facet's queue: its strand has started and it has not been issued (R115). -/
def State.nextTask (s : State) (f : Nat) : Option (Bool × Attempt × Strand × TileDesc) :=
  let look (ra : Bool) : Option (Bool × Attempt × Strand × TileDesc) :=
    match s.attempt ra with
    | none => none
    | some a => a.started.findSome? fun id =>
        if a.done.contains id || (s.facet f).tasks.any (fun t => t.id == id && t.ra == ra) then none
        else (s.strand? id).bind fun t => match t.kind with
          | .tile d => if s.physFacet d = f then some (ra, a, t, d) else none
          | _ => none
  match look false with
  | some x => some x
  | none => look true

/-! ## Sampling (R171) -/

def loupeKey0 (n tensor : Nat) : BitVec 64 := mix64 (BitVec.ofNat 64 (n * 2 ^ 24 + tensor) ^^^ 0x4C55000000000000)

def loupeKey (n tensor tile : Nat) : BitVec 64 := mix64 (loupeKey0 n tensor ^^^ BitVec.ofNat 64 tile)

/-- First row and first column of the sub-tile. -/
def subTile (n tensor tile : Nat) : Nat × Nat :=
  let k := (loupeKey n tensor tile).toNat
  (8 * (k / 2 ^ 61), 8 * (k / 2 ^ 58 % 8))

/-- LPE_PERIOD of a region. -/
def State.period (s : State) (g : Nat) : Nat := s.field .lpe g 0x14 0 5

/-- A task holds a sampled sub-tile: its product has a source descriptor, its tile is selected, and the sub-tile lies in its
partition. -/
def State.sampled (s : State) (p : Program) (a : Attempt) (d : TileDesc) (f : Nat) : Bool :=
  let k := s.period (f / 40)
  let phi := (loupeKey0 a.step d.tensor).toNat % 2 ^ k
  let (r, c) := subTile a.step d.tensor d.tile
  s.part.variant.full && !p.serving && decide (k ≠ 0) &&
    (p.products.any fun e => e.tensor == d.tensor && e.loupe.isSome) && decide ((d.tile + phi) % 2 ^ k = 0) &&
    decide (d.row0 ≤ r ∧ r < d.row0 + partRows d.mode ∧ d.col0 ≤ c ∧ c < d.col0 + partCols d.mode)

/-- The Loupe of a Facet's region has this task in its queue. -/
def State.inLoupe (s : State) (f : Nat) (t : FTask) : Bool :=
  (s.loupe (f / 40)).queue.any fun q => q.id == t.id && q.ra == t.ra

/-! ## Faults (R95, R97 to R99, R124) -/

/-- The event context of a task. -/
def State.taskCtx (s : State) (ra : Bool) (id pidx : Nat) : EvCtx :=
  match s.attempt ra, s.strand? id with
  | some a, some t =>
    match t.kind with
    | .tile d => { strandCtx ra a t d.tensor d.tile with part := pidx }
    | _ => ctxOf ra a
  | _, _ => {}

/-- A task's values are discarded: its bank and everything drained from it; its replay reads what it has read (R96). -/
def FTask.discard (t : FTask) : FTask :=
  { t with cells := [], next := 0, chunks := [], stats := [], ea := [], eb := [], ys := [] }

/-- SKEW (0x0201) or ACC_PARITY (0x0204) strikes a task: it is discarded, and its second fault in the attempt aborts the step. -/
def State.strike (s : State) (f : Nat) (t : FTask) (code : Nat) : State :=
  let c := s.taskCtx t.ra t.id t.pidx
  let s1 := s.raiseCtx code f 0 c []
  let s2 := s1.setFacet f ((s1.facet f).putTask { t.discard with faulted := true })
  if (s2.facet f).replayed.contains (t.id, t.ra) then
    let s3 := s2.raiseCtx 0x0202 f 0 c []
    s3.causeIn t.ra ⟨4, 0xFFFF, .outside, c.step.getD 0, false⟩
  else s2

/-- An operand buffer error: recorded, and the step aborts where it is uncorrectable. -/
def State.opbufError (s : State) (f : Nat) (t : FTask) (ue half : Bool) (word : Nat) : State :=
  let x := s.facet f
  let s1 := s.keepError .fct f 0x50 x.ueHeld ue ((if half then 2 ^ 29 else 0) + word % 2 ^ 14)
  let s2 := s1.setFacet f { x with ueHeld := x.ueHeld || ue }
  let c := s2.taskCtx t.ra t.id t.pidx
  let s3 := s2.raiseCtx (if ue then 0x0206 else 0x0205) f 0 c []
  if ue then s3.causeIn t.ra ⟨0x10, 0xFFFF, .outside, c.step.getD 0, false⟩ else s3

/-! ## Issue (R80, R86, R99, R109, R110) -/

/-- The task whose next K-group a cell folds: the first live one of the partition that has groups left there. The tasks before it that
use its bank must have had their row read (R86), and a task that has not begun waits behind one that is to be replayed (R99). -/
def State.foldTask (s : State) (f pidx r c : Nat) : Option (FTask × TileDesc) :=
  let ts := (s.facet f).live pidx
  let struck := (s.facet f).tasks.any fun t => t.pidx == pidx && t.faulted
  (ts.zipIdx).findSome? fun e => (s.tileOf e.1).bind fun d =>
    if decide (r < e.1.next) || (e.1.cell r c).1 == tileGroups d then none
    else some (if (e.1.begun || !struck) && (ts.take e.2).all (fun q => q.bank != e.1.bank || decide (r < q.next)) then some (e.1, d)
      else none)
  |>.join

/-- The Facet has a slice to issue (R110): a task that no fault has struck has a cell that can take its next K-group. -/
def State.hasSlice (s : State) (f : Nat) : Bool :=
  (s.facet f).tasks.any fun t => (s.tileOf t).any fun d =>
    (List.range (partRows d.mode)).any fun r => (List.range (partCols d.mode)).any fun c =>
      (s.foldTask f t.pidx r c).any fun e => e.1.id == t.id && e.1.ra == t.ra

/-- The Facet issues slices (R109): from rest it begins a start ramp, which FCT_RAMPS counts, unless a stop ramp is still running
(`ramping`), whose width issue then widens from (R110). CNM tasks do not ramp. -/
def State.beginIssue (s : State) (f : Nat) (ramping : Bool) (fmt : PFmt) : State :=
  let x := s.facet f
  let s1 := s.setFacet f { x with issuing := true }
  let s2 := if x.issuing || ramping || fmt == .cnm then s1 else s1.bump .fct f 0x70 1
  s2.issueWide f (fmt == .cnm)

/-- The other partitions' tasks that still accumulate have the FORMAT and KG of a descriptor (R80, R102). One that waits for its replay
does not accumulate. -/
def State.sameFormat (s : State) (f : Nat) (d : TileDesc) : Bool :=
  (s.facet f).tasks.all fun q => q.pidx == d.pidx || (s.tileOf q).all fun e =>
    q.faulted || allFolded q e || (e.format == d.format && e.kg == d.kg)

/-! ## Issue order and the inclusion path (R151, R152) -/

/-- The tasks on the Facets of a cluster, with their Facet and their descriptors, in Facet order. -/
def State.clusterTasks (s : State) (c : Nat) : List (Nat × FTask × TileDesc) :=
  (List.range 4).flatMap fun j => (s.facet (4 * c + j)).tasks.filterMap fun t => (s.tileOf t).map fun d => (j, t, d)

/-- The place in the issue order of the next task that a cluster's Facets take. -/
def State.nextTurn (s : State) (c : Nat) : Nat := (s.clusterTasks c).foldl (fun n t => max n (t.2.1.turn + 1)) 0

/-- Tasks of a cluster whose inclusion result is not in place. -/
def State.inclTasks (s : State) (c : Nat) : List (Nat × FTask × TileDesc) :=
  (s.clusterTasks c).filter fun t => t.2.2.incl.isSome && !t.2.1.incl

/-- The task that the inclusion path serves next: the first in task issue order (R152). -/
def State.inclHead (s : State) (c : Nat) : Option (Nat × FTask × TileDesc) :=
  (s.inclTasks c).foldl (fun b t => match b with
    | none => some t
    | some x => if t.2.1.turn < x.2.1.turn then some t else b) none

/-- The F16 operands of a task's inclusions are not in place (R150, R478): a kernel that writes one of the two areas, issued before the
task in the order of the program, is not complete (log 46). -/
def State.inclWaits (s : State) (c : Nat) (t : FTask) (n : InclDesc) : Bool :=
  match s.prog, s.attempt t.ra with
  | some p, some a =>
    ((issuable t.ra p.strands).takeWhile fun x => x.id != t.id).any fun x =>
      active a x && !a.done.contains x.id && (quantOf x.kind).any fun q =>
        s.physCluster q.cluster == c && decide (0 < q.inclN ∧ (q.inclDst = n.aArea ∨ q.inclDst = n.bArea))
  | _, _ => false

/-! ## Rows: issue -/

/-- TASK_DESCRIPTOR (R83, R115): the descriptor at the head of a Facet's queue is issued, in the Facet's mode. `ramping`: a stop ramp is
still running, so that no start ramp begins (R109, R110). While another partition accumulates in another format or K-group length, the
descriptor waits (R80, R102). -/
def execTaskDescriptor (ra : Bool) (id : Nat) (ramping : Bool) (s : State) : Host.Outcome State Fault Refusal :=
  match s.prog, s.strand? id with
  | some p, some t0 =>
    match t0.kind with
    | .tile d =>
      let f := s.physFacet d
      let x := s.facet f
      match s.nextTask f with
      | some (r, a, t, _) =>
        let g := f / 40
        let pick := s.sampled p a d f
        let ready := r == ra && t.id == id && !s.stopped ra t && s.usable f && x.mode == d.mode && s.sameFormat f d &&
          (!pick || decide ((s.loupe g).queue.length < 32))
        let n := Bank.get (fun _ => 0) x.banks d.pidx
        let task : FTask := { id := id, ra := ra, pidx := d.pidx, bank := n, turn := s.nextTurn (facetCluster f) }
        let s1 := s.setFacet f { x with
          tasks := x.tasks ++ [task]
          banks := Bank.put (fun _ => 0) x.banks d.pidx ((n + 1) % 2) }
        let s3 := s1.beginIssue f ramping d.format
        let s4 := if pick then
            s3.setLoupe g { s3.loupe g with queue := (s3.loupe g).queue ++
              [⟨id, ra, a.base, t.seg, (t.seg.map fun z => (a.seg z.1 z.2).tries).getD 0, false, [], [], [], []⟩] }
          else s3
        guarded ready s s4
      | none => .next s
    | _ => .next s
  | _, _ => .next s

/-- MODE_CHANGE (R103): the Facet takes the mode of its next descriptor once every task is complete. R88 has whole-mode tasks alternate
banks from the first task after configuration and does not name a change of mode; DESIGN CHOICE (log 79): the alternation starts again at
bank 0. -/
def execModeChange (facet : Nat) (s : State) : Host.Outcome State Fault Refusal :=
  let x := s.facet facet
  match s.nextTask facet with
  | some (_, _, _, d) => guarded (x.tasks.isEmpty && s.usable facet) s (s.setFacet facet { x with mode := d.mode, banks := [] })
  | none => .next s

/-- STOP_RAMP (R110): no task of the Facet has a slice to issue: none is left, or issue is held (R86), or the issue gate ends its part of
the window (R425). -/
def execStopRamp (facet : Nat) (s : State) : Host.Outcome State Fault Refusal :=
  let x := s.facet facet
  guarded (x.issuing && (!s.hasSlice facet || decide (s.duty < 8))) s ((s.setFacet facet { x with issuing := false }).setActivity facet 0)

/-! ## Rows: K-groups -/

/-- EXP_ILLEGAL for the blocks that a cell is the first of the partition to read (R49). -/
def State.illegalBlocks (s : State) (f : Nat) (t : FTask) (d : TileDesc) (g r c : Nat) : State :=
  let ea := (s.operand f t d false (partRow0 d.mode d.pidx + r) g).e8
  let eb := (s.operand f t d true (partCol0 d.mode d.pidx + c) g).e8
  let x := s.taskCtx t.ra t.id t.pidx
  let on (b : Bool) (u : State) : State := if b && d.format != .f16 then u.numEvent 0x0102 0 f x else u
  on (c == 0 && illegalE (pLog d.format) ea) (on (r == 0 && illegalE (pLog d.format) eb) s)

/-- One K-group is folded into one cell (R72, R87). -/
def State.foldCell (s : State) (p : Program) (a : Attempt) (f : Nat) (t : FTask) (d : TileDesc) (r c : Nat) : State :=
  let g := (t.cell r c).1
  let i := partRow0 d.mode d.pidx + r
  let j := partCol0 d.mode d.pidx + c
  let draw := s.drawFor p a.step f d g (d.row0 + r) (d.col0 + c)
  let oa := s.operand f t d false i g
  let ob := s.operand f t d true j g
  let keep := s.inLoupe f t && d.format != .f16
  let t1 : FTask := { t with
    cells := Bank.put cellDefault t.cells (64 * r + c) (g + 1, foldGroup d oa ob (t.cell r c).2 draw)
    fetched := if operandsFit d then t.fetched
      else Bank.put operandDefault (Bank.put operandDefault t.fetched (operandKey false i g) oa) (operandKey true j g) ob
    ea := if keep then Bank.put (fun _ => 0) t.ea (64 * g + d.row0 + r) oa.e8 else t.ea
    eb := if keep then Bank.put (fun _ => 0) t.eb (64 * g + d.col0 + c) ob.e8 else t.eb }
  let s1 := s.illegalBlocks f t d g r c
  s1.setFacet f ((s1.facet f).putTask t1)

/-- K_GROUP_RESCALE (R87): the rescale adder of the cell at a row and column of a partition folds its next K-group; the tags of the
group are checked first (R95), and a fault may strike (R98). Where a stop ramp has begun, issue resumes, without a start ramp while the stop
ramp still runs (R110). -/
def execKGroupRescale (facet pidx row col : Nat) (event : FoldEvent) (s : State) : Host.Outcome State Fault Refusal :=
  match s.prog, s.foldTask facet pidx row col with
  | some p, some (t, d) =>
    match s.attempt t.ra with
    | some a =>
      let g := (t.cell row col).1
      let go (u : State) : State :=
        let v := if (u.facet facet).issuing then u else u.beginIssue facet event.ramping d.format
        if v.tagsOk facet t d g then v.foldCell p a facet t d row col else v.strike facet t 0x0201
      let r := match event.fault with
        | .none => go s
        | .skew => s.strike facet t 0x0201
        | .accParity => s.strike facet t 0x0204
        | .opbufCe h w => go (s.opbufError facet t false h w)
        | .opbufUe h w => s.opbufError facet t true h w
      guarded (decide (row < partRows d.mode ∧ col < partCols d.mode)) s r
    | none => .next s
  | _, _ => .next s

/-- Banks of the tasks that follow, alternating from `b` on (R88). -/
def rebank (b : Nat) (l : List FTask) : List FTask := (l.zipIdx).map fun e => { e.1 with bank := (b + e.2) % 2 }

/-- TASK_REPLAY (R95 to R97, R99): a faulted task is issued again as the partition's next one, once those that accumulate have
finished. It reads what it read before (`State.operand`, R96), and waits while another partition accumulates in another format or K-group
length (R80, R102). It takes the bank that alternates with the task before it, and so do the tasks after it (R88); an idle Facet begins a
start ramp (R109). -/
def execTaskReplay (part : FacetPart) (ramping : Bool) (s : State) : Host.Outcome State Fault Refusal :=
  let facet := part.facet
  let pidx := part.pidx
  let x := s.facet facet
  match x.tasks.find? fun t => t.pidx == pidx && t.faulted && !x.replayed.contains (t.id, t.ra) with
  | none => .next s
  | some t =>
    let others := x.tasks.filter fun q => !(q.id == t.id && q.ra == t.ra)
    let ready := others.all fun q => q.pidx != pidx || q.faulted || !q.begun || (s.tileOf q).all fun d => allFolded q d
    let before := others.filter fun q => q.pidx != pidx || q.begun
    let after := others.filter fun q => !(q.pidx != pidx || q.begun)
    let b := ((before.reverse.find? fun q => q.pidx == pidx).map fun q => (q.bank + 1) % 2).getD t.bank
    let again : FTask := { t.discard with faulted := false, bank := b }
    let y := { x with
      tasks := before ++ [again] ++ rebank (b + 1) after
      banks := Bank.put (fun _ => 0) x.banks pidx ((b + 1 + after.length) % 2)
      replayed := x.replayed ++ [(t.id, t.ra)] }
    let s1 := (s.setFacet facet y).bump .fct facet 0x6C 1
    match s.tileOf t with
    | none => .next s
    | some d =>
      guarded (ready && s.sameFormat facet d) s (s1.beginIssue facet ramping d.format)

/-! ## Rows: the drain (R90 to R94) -/

/-- SCALE_LOAD (R92): the first task of a partition without its scales loads them, once the task before last has drained. R92 gives a
Facet two sets and does not say how partitions share them; DESIGN CHOICE (log 81): each partition has a pair of its own. -/
def execScaleLoad (facet pidx : Nat) (s : State) : Host.Outcome State Fault Refusal :=
  let ts := (s.facet facet).tasks.filter fun t => t.pidx == pidx
  match (ts.zipIdx).find? fun e => e.1.scales.isNone with
  | none => .next s
  | some (t, i) =>
    match s.tileOf t with
    | none => .next s
    | some d =>
      let free := (ts.take (i - 1)).all fun q => (s.tileOf q).all fun e => decide (partRows e.mode ≤ q.next)
      let v := s.words (poolAddr (facetCluster facet) d.scales) 128
      guarded free s (s.setFacet facet ((s.facet facet).putTask { t with scales := some v }))

/-- Where the drain delivers the row of a task (log 30). -/
def State.destOf (_ : State) (f : Nat) (d : TileDesc) (r : Nat) : Nat :=
  poolAddr (facetCluster f) d.dest + 4 * (64 * (d.row0 + r) + d.col0)

/-- One element through merge, row scale and column scale (R91). -/
def drainElem (acc : Word) (inc : Option Word) (sr sc : Word) : Word :=
  let m := match inc with
    | some v => fAdd acc v
    | none => acc
  fMul (fMul m sr) sc

/-- The values the drain delivers for one row. -/
def State.drainRow (s : State) (f : Nat) (t : FTask) (d : TileDesc) (v : List Word) : List Word :=
  (List.range (partCols d.mode)).map fun c =>
    let inc := d.incl.map fun n =>
      s.word (poolAddr (facetCluster f) n.result + 4 * (64 * (d.row0 + t.next) + d.col0 + c))
    drainElem (t.cell t.next c).2 inc ((v[d.row0 + t.next]?).getD 0) ((v[64 + d.col0 + c]?).getD 0)

/-- NONFINITE for each element (R91), and a veto where a backward segment wrote one (R215). -/
def State.drainEvents (s : State) (a : Attempt) (f : Nat) (t : FTask) (ys : List Word) : State :=
  let c := s.taskCtx t.ra t.id t.pidx
  let s1 := (ys.filter notFinite).foldl (fun (u : State) _ => u.numEvent 0x0101 0 f c) s
  match (s.strand? t.id).bind (·.seg) with
  | some (l, true) => if ys.any notFinite ∧ !a.skip then s1.vetoIn t.ra false l (.at l) else s1
  | _ => s1

/-- DRAIN_ROW_READ (R90, R91): the drain reads the next ready row of a partition, clears it and delivers it to DEST, or to the fused drain
kernel that the descriptor names, whose DEST is the statistics area (R156). A parity error discards the task (R89). -/
def execDrainRowRead (facet pidx : Nat) (parity : Bool) (s : State) : Host.Outcome State Fault Refusal :=
  let find := ((s.facet facet).live pidx).findSome? fun t => (s.tileOf t).bind fun d =>
    if t.next < partRows d.mode then some (t, d) else none
  match find with
  | none => .next s
  | some (t, d) =>
    match s.attempt t.ra, t.scales with
    | some a, some v =>
      let ready := rowFolded t d t.next && (d.incl.isNone || t.incl)
      let ys := s.drainRow facet t d v
      let row := t.next
      let t1 : FTask := { t with
        next := row + 1
        cells := Bank.drop (fun k => k / 64 == row) t.cells
        chunks := if d.fused = 0 then t.chunks else t.chunks ++ [(row, ys)]
        ys := if s.inLoupe facet t then
            (ys.zipIdx).foldl (fun b e => Bank.put (fun _ => 0) b (64 * (d.row0 + row) + d.col0 + e.2) e.1) t.ys else t.ys }
      let s1 := if d.fused = 0 then s.putWords (s.destOf facet d row) ys else s
      let s2 := s1.setFacet facet ((s1.facet facet).putTask t1)
      guarded ready s (if parity then s.strike facet t 0x0204 else s2.drainEvents a facet t ys)
    | _, _ => .next s

/-- TASK_COMPLETE (R94): the last row of a task has been delivered, and its fused drain kernel has reduced every row: the strand
completes, and a sampled tile can be judged (R175). -/
def execTaskComplete (facet pidx : Nat) (s : State) : Host.Outcome State Fault Refusal :=
  let find := ((s.facet facet).live pidx).findSome? fun t => (s.tileOf t).bind fun d =>
    if partRows d.mode ≤ t.next then some (t, d) else none
  match find with
  | none => .next s
  | some (t, d) =>
    let x := s.facet facet
    let g := facet / 40
    let l := s.loupe g
    let ready := d.fused == 0 || (List.range (partRows d.mode)).all fun r => t.stats.contains r
    let s1 := s.setFacet facet { x with tasks := x.tasks.filter fun q => !(q.id == t.id && q.ra == t.ra) }
    let s2 := s1.setLoupe g { l with queue := l.queue.map fun q =>
      if q.id = t.id ∧ q.ra = t.ra then
        { q with ready := true, scales := t.scales.getD [], ea := t.ea, eb := t.eb, ys := t.ys } else q }
    let (k, s3) := s2.draw
    let s4 := (s3.bump .fct facet 0x68 1).bump64 .fct facet 0x60 (Config.freeNat k)
    guarded ready s (s4.completeStrand t.ra t.id)

/-! ## Repair and the pilot test (R104 to R108) -/

/-- A spare-row map is valid (R104). -/
def mapValid (spare : Word) : Bool :=
  let b0 := bits spare 0 7
  let b1 := bits spare 8 7
  (b0 == 0x7F || decide (b0 ≤ 65)) && (b1 == 0x7F || decide (b1 ≤ 65)) &&
    (b0 == 0x7F || b1 == 0x7F || decide (b0 < b1))

/-- The physical row of logical row `i` under a map. -/
def physRow (spare : Word) (i : Nat) : Nat :=
  (((List.range 66).filter fun r => r != bits spare 0 7 && r != bits spare 8 7)[i]?).getD 0

/-- The delay written for a physical row. -/
def rowDelay (dly : List Word) (r : Nat) : Nat := bits ((dly[r / 16]?).getD 0) (2 * (r % 16)) 2

/-- The delays in force. -/
def State.delays (s : State) (f : Nat) : List Word := (List.range 5).map fun k => s.reg .fct f (0x24 + 4 * k)

/-- Mapped physical rows whose delay does not align them (R105): four diagonal cells of each fail in every pass (R106). -/
def misaligned (spare : Word) (dly : List Word) : List Nat :=
  (List.range 64).filterMap fun i =>
    let r := physRow spare i
    if rowDelay dly r = r - i then none else some r

/-- PILOT_DONE (R106, R107): the test finishes under the map and delays in force at its start. `firstBad` is the lowest physical row in
which a defect of the silicon made an output mismatch (0x7F for none) and `badCount` how many such outputs the worst pass held. -/
def execPilotDone (facet firstBad badCount : Nat) (s : State) : Host.Outcome State Fault Refusal :=
  let x := s.facet facet
  match x.pilot with
  | none => .next s
  | some (spare, dly, touched) =>
    let s1 := s.setFacet facet { x with pilot := none }
    let wrong := misaligned spare dly
    let count := min 4096 (4 * wrong.length + badCount)
    let first := min 0x7F (wrong.foldl min firstBad)
    let put (pass maperr : Bool) (f n : Nat) : State :=
      s1.setReg .fct facet 0x44 (BitVec.ofNat 32 (2 ^ 31 + b2n pass * 2 ^ 30 + b2n maperr * 2 ^ 29 + f * 2 ^ 16 + n))
    .next (if mapValid spare then
        if count = 0 then put (!touched) false 0x7F 0
        else (put false false first count).raiseCtx 0x0203 facet 0 {} []
      else (put false true 0x7F 0).raiseCtx 0x0203 facet 0 {} [])

end Sys2Proof.Machine
end

