-- ==== Sys2Proof/Machine/Cutter.lean ====
section
/-! DEFINITION. The Cutters (R125 to R166): the quantize path, scale history, the apply and elementwise kernels, the fused drain
kernels. -/
namespace Sys2Proof.Machine

/-! ## Rotation (R132) -/

/-- One stage of butterflies of distance `h`. -/
def butterfly (h : Nat) (v : List Word) : List Word :=
  (List.range v.length).map fun i =>
    if i / h % 2 = 0 then rto32 ((fl32 (v.getD i 0)).add (fl32 (v.getD (i + h) 0)))
    else rto32 ((fl32 (v.getD (i - h) 0)).add (fl32 (v.getD i 0)).negate)

/-- The scale exponent p of a rotation. -/
def rotScale (rot : Nat) : Int := if rot = 3 then 4 else 3

/-- rotate (R132) of one run; `rot` as the ROT field numbers it. -/
def rotateRun (rot : Nat) (v : List Word) : List Word :=
  ((List.range (5 + rot)).foldl (fun x k => butterfly (2 ^ k) x) v).map fun w =>
    rto32 ((fl32 w).mul (.fin false 1 (-(rotScale rot))))

def rotate (rot : Nat) (v : List Word) : List Word :=
  if rot = 0 then v else (runsOf (32 * 2 ^ rot) v).flatMap (rotateRun rot)

/-! ## Lines (R130, R149, R154) -/

/-- What a kernel knows of an axis: the listed channels, and the shift of each channel, 0 with no shifts. -/
structure Axis where
  ch0 : Nat
  list : List Nat
  shiftOn : Bool
  sideB : Bool
  shifts : List Byte

/-- The 4-bit shift of a channel (R154). -/
def shiftOf (l : List Byte) (ch : Nat) : Nat := (l.getD (ch / 2) 0).toNat / 2 ^ (4 * (ch % 2)) % 16

/-- A line before narrowing: its elements, and the inclusion channels set aside, by list position. -/
structure Prepared where
  x : List Word
  incl : List (Nat × Word)

/-- The steps of R130 before the partial amax: inclusions and shifts on the affected copy, then the rotation. -/
def prepare (ax : Axis) (affected : Bool) (rot : Nat) (v : List Word) : Prepared :=
  if affected then
    let incl := (v.zipIdx).filterMap fun e => (ax.list.findIdx? (· == ax.ch0 + e.2)).map fun t => (t, e.1)
    let x1 := (v.zipIdx).map fun e => if ax.list.contains (ax.ch0 + e.2) then 0 else e.1
    let x2 := if ax.shiftOn then
        (x1.zipIdx).map fun e =>
          let k := shiftOf ax.shifts (ax.ch0 + e.2)
          fScale e.1 (if ax.sideB then k else -(k : Int))
      else x1
    ⟨rotate rot x2, incl⟩
  else ⟨rotate rot v, []⟩

/-! ## Scale history (R136, R137, R139) -/

/-- The delayed amax of step `n` from a history record; none where its window is empty. -/
def delayedAmax (rec : List Byte) (n depth : Nat) : Option Word :=
  (List.range 64).foldl (fun best i =>
    let st := leAt (8 * i) 4 rec
    let v : Word := BitVec.ofNat 32 (leAt (8 * i + 4) 4 rec)
    if st < n ∧ n ≤ st + depth ∧ st ≠ 0xFFFFFFFF ∧ !notFinite v ∧ (!bit v 31 || isZero32 v) then
      let m : Word := BitVec.ofNat 32 (magBits v)
      match best with
      | none => some m
      | some b => some (if b.toNat < m.toNat then m else b)
    else best) none

/-- The exponent of a group from its amax (R139, R140). -/
def groupExp (f : LogFmt) (a : Word) (margin : Nat) : Nat := max 1 (fit32 f a margin)

/-! ## Descriptors -/

/-- One enabled copy of a kernel. -/
structure CopyCtx where
  col : Bool
  d : CopyDesc

def copiesOf (q : QuantDesc) : List CopyCtx :=
  (if q.row.en then [⟨false, q.row⟩] else []) ++ (if q.col.en then [⟨true, q.col⟩] else [])

/-- The lines of a panel for a copy. -/
def panelLines (panel : List (List Word)) (pc : Nat) (col : Bool) : List (List Word) :=
  if col then (List.range pc).map fun j => panel.map fun r => r.getD j 0 else panel

def blkLen (b : Nat) : Nat := 32 * 2 ^ b

/-- A copy has a log format. -/
def logCopy (d : CopyDesc) : Bool := d.fmt != .f16

/-- What the calibration of a loaded model fixes for a copy of an activation tensor; none outside a serving program (R148). -/
def State.actCopy (s : State) (p : Program) (tensor : Nat) (col : Bool) : Option ActCopy :=
  if p.serving then s.serv.model.bind fun m => m.calib.acts.find? fun x => x.tensor == tensor && x.col == col else none

/-- A copy in the format and rotation of the calibration. -/
def calCopy (x : Option ActCopy) (d : CopyDesc) : CopyDesc :=
  match x with
  | some y => { d with fmt := y.fmt, blk := y.blk, rot := y.rot }
  | none => d

/-- A QUANT descriptor as it runs: in serving with the formats, rotations, inclusion list and shifts of the calibration (R148). The spec does
not say how a copy runs that the calibration does not name; DESIGN CHOICE (log 44): with its descriptor's, and with CUT_AMAX.MARGIN. -/
def State.calibrated (s : State) (p : Program) (q : QuantDesc) : QuantDesc :=
  let r : QuantDesc := { q with
    row := calCopy (s.actCopy p q.tensor false) q.row
    col := calCopy (s.actCopy p q.tensor true) q.col }
  match s.actCopy p q.tensor q.inclAxis with
  | some x => { r with inclN := x.list.length, shiftEn := x.shiftOn, shiftSideB := x.sideB }
  | none => r

/-- The axis of a QUANT descriptor, as its pool copies hold it, in serving as the calibration fixes it. -/
def State.axis (s : State) (p : Program) (c : Nat) (q : QuantDesc) : Axis :=
  match s.actCopy p q.tensor q.inclAxis with
  | some x => { ch0 := q.ch0, list := x.list, shiftOn := x.shiftOn, sideB := x.sideB, shifts := x.shifts }
  | none =>
  { ch0 := q.ch0
    list := (s.words (poolAddr c q.inclList) q.inclN).map (·.toNat)
    shiftOn := q.shiftEn
    sideB := q.shiftSideB
    shifts := if q.shiftEn then s.bytes (poolAddr c q.shiftAddr) ((q.ch0 + max q.pr q.pc + 1) / 2) else [] }

/-- Group of a line, and where its record lies. -/
def amaxGroup (d : CopyDesc) (line : Nat) : Nat := if d.gran = .line then d.line0 + line else 0

def histOf (d : CopyDesc) (g : Nat) : Nat := tarnAddr d.hist + 512 * g

/-- The trouble policy names the copy (R140, R182). -/
def jitNamed (a : Attempt) (t : Strand) (tensor : Nat) (col : Bool) : Bool :=
  match t.seg with
  | some (l, _) => (a.layer l).jit.contains (tensor, col)
  | none => false

/-- CUT_AMAX of a cluster: DEPTH and MARGIN. -/
def State.depth (s : State) (c : Nat) : Nat := s.field .cut c 0x1C 0 7

def State.margin (s : State) (c : Nat) : Nat := s.field .cut c 0x1C 8 2

/-- MARGIN of a copy: in serving that of the model's calibration (R148). -/
def State.copyMargin (s : State) (p : Program) (c tensor : Nat) (col : Bool) : Nat :=
  if p.serving then
    ((s.actCopy p tensor col).map (·.margin)).getD (s.margin c)
  else s.margin c

/-- The window of a group is empty (R141). -/
def State.windowEmpty (s : State) (c n hist : Nat) : Bool := (delayedAmax (s.load hist 512) n (s.depth c)).isNone

/-- A group takes the just-in-time path (R140, R141, R148). -/
def State.takesJit (s : State) (p : Program) (a : Attempt) (t : Strand) (c tensor : Nat) (x : CopyCtx) (g : Nat) : Bool :=
  p.serving || jitNamed a t tensor x.col || s.windowEmpty c a.step (histOf x.d g)

/-- The group's amax, once it is back. -/
def amaxBack (a : Attempt) (tensor : Nat) (col : Bool) (hist : Nat) : Option Word :=
  (a.amax.find? fun x => x.tensor == tensor && x.col == col && x.hist == hist).bind (·.back)

/-! ## Partial amaxes (R138, R140) -/

/-- The kernels of this module that hold part of a group of a replicated tensor. -/
def kernelsOf (a : Attempt) (ts : List Strand) (tensor : Nat) (col : Bool) (hist g : Nat) : Nat :=
  (ts.filter fun t => active a t && (quantOf t.kind).any fun q =>
    let d := if col then q.col else q.row
    let n := if col then q.pc else q.pr
    q.tensor == tensor && d.en && logCopy d && d.gran != .loc && tarnAddr d.hist == hist - 512 * g &&
      (d.gran == .tensor || decide (d.line0 ≤ g ∧ g < d.line0 + n))).length

/-- Adds a kernel's part to a group. -/
def postPart (l : List AmaxPart) (x : AmaxPart) : List AmaxPart :=
  if l.any fun y => y.tensor == x.tensor && y.col == x.col && y.hist == x.hist then
    l.map fun y =>
      if y.tensor = x.tensor ∧ y.col = x.col ∧ y.hist = x.hist then
        { y with value := if y.value.toNat < x.value.toNat then x.value else y.value, parts := y.parts + 1 }
      else y
  else l ++ [x]

/-- The groups of a copy in one panel with the partial amax of each. -/
def groupParts (d : CopyDesc) (amaxes : List Nat) : List (Nat × Nat) :=
  if d.gran = .line then (amaxes.zipIdx).map fun e => (d.line0 + e.2, e.1)
  else [(0, amaxes.foldl max 0)]

/-- ARG of the AMAX messages of a strand. -/
def amaxArg (a : Attempt) (t : Strand) : Nat :=
  match t.seg with
  | some (l, b) => reportArg l b (a.seg l b).tries
  | none => 2 ^ 31

/-- A kernel posts the partial amaxes of one copy; COLD_START where a window is empty (R141). The spec does not say how many events a group
of several kernels raises; DESIGN CHOICE (log 82): one for each kernel that posts a part, in each attempt. -/
def State.postCopy (s : State) (p : Program) (ra : Bool) (t : Strand) (c : Nat) (q : QuantDesc) (x : CopyCtx)
    (amaxes : List Nat) : State :=
  let s0 := if x.d.gran = .line then s.putWords (poolAddr c x.d.amaxv) (amaxes.map (BitVec.ofNat 32)) else s
  (groupParts x.d amaxes).foldl (fun u g =>
    match u.attempt ra with
    | none => u
    | some a =>
      let h := histOf x.d g.1
      let part : AmaxPart :=
        { tensor := q.tensor, col := x.col, group := g.1, hist := h, value := BitVec.ofNat 32 g.2, parts := 1
          need := if q.shard.isSome then q.parts else kernelsOf a (issuable ra p.strands) q.tensor x.col h g.1
          shared := q.shard.isNone, arg := amaxArg a t, sent := false, back := none }
      let u1 := u.setAttempt ra { a with amax := postPart a.amax part }
      if !p.serving && u.windowEmpty c a.step h then
        u1.raiseCtx 0x0112 c 1 { strandCtx ra a t q.tensor q.tile with part := b2n x.col } []
      else u1) s0

/-! ## Narrowing a copy (R130, R143 to R147, R150, R153) -/

/-- The narrowed lines of a copy and its counts. -/
structure CopyOut where
  codes : List Byte := []
  exps : List Byte := []
  elems : Nat := 0
  /-- Saturated elements, and how many of them each channel of the affected copy has. -/
  sat : Nat := 0
  satOf : Bank Nat := []
  flush : Nat := 0
  blocks : Nat := 0
  zero : Nat := 0
  dom : Nat := 0
  pois : Nat := 0
  /-- Excess channels, each once. -/
  excess : List Nat := []

def countTrue (l : List Bool) : Nat := (l.filter id).length

/-- An element is an excess one under block exponent `e` (R153). -/
def isExcess (f : LogFmt) (e x : Nat) (w : Word) : Bool :=
  let d := (fl32 w).dy
  Dy.le ⟨f.vtop, f.vexp - 23 + x + e - 127⟩ d.abs && decide (d.m ≠ 0)

/-- Adds one block: `ch` is the channel of its first element where the copy is the affected one. -/
def CopyOut.addBlock (o : CopyOut) (f : LogFmt) (ax : Axis) (ch : Option Nat) (limit excess : Nat) (tag e : Nat)
    (xs : List Word) : CopyOut :=
  let b := narrowBlock f xs e
  let listed := match ch with
    | some k => ((List.range xs.length).filter fun i => ax.list.contains (k + i)).length
    | none => 0
  let fl := countTrue b.flushed
  let ex := match ch with
    | some k => if b.poisoned then [] else
        (xs.zipIdx).filterMap fun (w : Word × Nat) =>
          if isExcess f e excess w.1 && !ax.list.contains (k + w.2) then some (k + w.2) else none
    | none => []
  let satOf := match ch with
    | some k => (b.saturated.zipIdx).foldl (fun m w =>
        if w.1 then Bank.put (fun _ => 0) m (k + w.2) (Bank.get (fun _ => 0) m (k + w.2) + 1) else m) o.satOf
    | none => o.satOf
  let zero := xs.all isZero32
  { codes := o.codes ++ packCodes f.width b.codes
    exps := o.exps ++ leBytes 2 (b.e8 + tag % 16 * 256)
    elems := o.elems + (if b.poisoned then 0 else xs.length - listed)
    sat := o.sat + countTrue b.saturated
    satOf := satOf
    flush := o.flush + fl
    blocks := o.blocks + 1
    zero := o.zero + b2n (!b.poisoned && zero)
    dom := o.dom + b2n (!b.poisoned && !zero && decide (limit * xs.length < fl * 128))
    pois := o.pois + b2n b.poisoned
    excess := o.excess ++ ex.filter fun k => !o.excess.contains k }

/-- One line of a log copy under exponent `e`. -/
def CopyOut.addLine (o : CopyOut) (f : LogFmt) (ax : Axis) (affected : Bool) (limit excess : Nat) (d : CopyDesc)
    (e : Nat) (xs : List Word) : CopyOut :=
  ((runsOf (blkLen d.blk) xs).zipIdx).foldl (fun o b =>
    o.addBlock f ax (if affected then some (ax.ch0 + b.2 * blkLen d.blk) else none) limit excess (d.tagBase + b.2) e b.1) o

/-- SAT_EXCESS under SPILL_CLIP (R147): the saturated elements of the excess channels. -/
def CopyOut.satExcess (o : CopyOut) : Nat := o.excess.foldl (fun n k => n + Bank.get (fun _ => 0) o.satOf k) 0

/-- One line of an F16 copy: its values, how many saturate, how many are non-finite. -/
def f16Line (ieee : Bool) (xs : List Word) : List Byte × Nat × Nat :=
  let r := xs.map (toF16 ieee)
  (r.flatMap fun h => leBytes 2 h.1.toNat, (r.filter (·.2.2)).length, (r.filter (·.2.1)).length)

/-- The tally record of an F16 copy, of which only SAT and ELEMS are non-zero (R147). -/
def f16Tally (elems sat : Nat) : List Byte :=
  List.replicate 16 0 ++ leBytes 8 elems ++ leBytes 8 sat ++ List.replicate 32 0

/-- The 64 bytes of the tally record of a log copy (R147). Under SPILL_CLIP (`clip`) the saturations of excess channels count in SAT_EXCESS,
not in SAT (R153). R147 does not say when JIT is set; DESIGN CHOICE (log 82): where any group of the copy took the just-in-time path, for
whatever reason. -/
def tallyBytes (tensor : Nat) (col jit : Bool) (shard : Option Nat) (n amax : Nat) (clip : Bool) (o : CopyOut) : List Byte :=
  let satExcess := if clip then o.satExcess else 0
  leBytes 4 (tensor % 2 ^ 24 + b2n col * 2 ^ 24 + b2n jit * 2 ^ 25) ++ leBytes 4 (shard.getD 0x1FFFF) ++ leBytes 4 n
    ++ leBytes 4 satExcess ++ leBytes 8 o.elems ++ leBytes 8 (o.sat - satExcess) ++ leBytes 8 o.flush ++ leBytes 4 o.blocks
    ++ leBytes 4 o.zero ++ leBytes 4 o.dom ++ leBytes 4 o.pois ++ leBytes 4 amax ++ leBytes 4 o.excess.length

/-- Sets the bits of channels in an excess bitmap. -/
def State.markChannels (s : State) (base : Nat) (l : List Nat) : State :=
  l.foldl (fun u k =>
    let b := u.byte (base + k / 8)
    u.putBytes (base + k / 8) [b ||| BitVec.ofNat 8 (2 ^ (k % 8))]) s

/-- Writes the inclusion operands of the affected copy (R150): saturations and non-finite values among them. -/
def State.writeIncl (s : State) (c : Nat) (q : QuantDesc) (x : CopyCtx) (ls : List Prepared) : State × Nat × Nat :=
  let ieee := bit (s.reg .cut c 0x14) 0
  (ls.zipIdx).foldl (fun acc l =>
    l.1.incl.foldl (fun (a : State × Nat × Nat) e =>
      let (h, bad, sat) := toF16 ieee e.2
      (a.1.putBytes (poolAddr c q.inclDst + 2 * ((x.d.line0 + l.2) * q.inclN + e.1)) (leBytes 2 h.toNat),
        a.2.1 + b2n sat, a.2.2 + b2n bad)) acc) (s, 0, 0)

/-- Repeats a NONFINITE event. -/
def State.nonfinite (s : State) (c : Nat) (x : EvCtx) (n : Nat) : State :=
  (List.range n).foldl (fun (u : State) _ => u.numEvent 0x0101 1 c x) s

/-- Writes one copy in full: codes, exponents, inclusions, tally, excess channels and events. `exps` gives the exponent of each
line. The result counts the non-finite blocks and values written: with CUT_CONV.IEEE = 1 the F16 saturations among them (R66). -/
def State.emitCopy (s : State) (p : Program) (ra : Bool) (a : Attempt) (t : Strand) (c : Nat) (q : QuantDesc) (ax : Axis)
    (x : CopyCtx) (jit : Bool) (ls : List Prepared) (exps : List Nat) : State × Nat :=
  let affected := q.inclAxis == x.col
  let cx : EvCtx := { strandCtx ra a t q.tensor q.tile with part := b2n x.col }
  let amax := ls.foldl (fun m l => max m (amaxOf l.x)) 0
  let ieee := bit (s.reg .cut c 0x14) 0
  let (s1, isat, ibad) := if affected then s.writeIncl c q x ls else (s, 0, 0)
  if x.d.fmt = .f16 then
    let rs := ls.map fun l => f16Line ieee l.x
    let bad := rs.foldl (fun n r => n + r.2.2) ibad
    let o : CopyOut :=
      { codes := rs.flatMap (·.1)
        elems := (ls.map fun l => l.x.length - l.incl.length).foldl (· + ·) 0
        sat := rs.foldl (fun n r => n + r.2.1) isat }
    let s2 := s1.putBytes (poolAddr c x.d.codes) o.codes
    let s3 := s2.putBytes (poolAddr c q.tally + if x.col then 64 else 0) (f16Tally o.elems o.sat)
    ((s3.nonfinite c cx bad).bump64 .cut c 0x44 o.elems, bad + if ieee then o.sat else 0)
  else
    let f := logFmt x.d.fmt
    let clip := p.serving || !s.spillWiden
    let o := ((ls.zip exps)).foldl (fun (o : CopyOut) l =>
      o.addLine f ax affected (s.field .cut c 0x18 0 8) (s.field .cut c 0x20 4 3) x.d l.2 l.1.x) {}
    let o1 : CopyOut := { o with sat := o.sat + isat }
    let s2 := (s1.putBytes (poolAddr c x.d.codes) o1.codes).putBytes (poolAddr c x.d.exps) o1.exps
    let s3 := s2.putBytes (poolAddr c q.tally + if x.col then 64 else 0) (tallyBytes q.tensor x.col jit q.shard a.step amax clip o1)
    let s4 := if o1.excess.isEmpty then s3
      else
        let u := (s3.markChannels (poolAddr c q.xmap) o1.excess).raiseCtx (if clip then 0x0111 else 0x0110) c 1 cx []
        match u.attempt ra with
        | some b =>
          let more := o1.excess.map fun k => (2 * q.tensor + b2n x.col, k)
          u.setAttempt ra { b with xmap := more.foldl (fun l e => if l.contains e then l else l ++ [e]) b.xmap }
        | none => u
    ((s4.nonfinite c cx (o1.pois + ibad)).bump64 .cut c 0x44 o1.elems, o1.pois + ibad + if ieee then isat else 0)

/-- The exponent of a line of a log copy, where it is known (R134, R139, R140). A kernel that waits for just-in-time groups reads the
records of its delayed groups in its second pass; the spec does not say whether it still sees entry n − 64 of such a group, at DEPTH 64, once
step n's own entry has taken its place. DESIGN CHOICE (log 82): it reads the record as it is then. -/
def State.lineExp (s : State) (p : Program) (a : Attempt) (t : Strand) (c : Nat) (q : QuantDesc) (x : CopyCtx) (line : Nat)
    (l : Prepared) : Option Nat :=
  let f := logFmt x.d.fmt
  let fit (w : Word) : Nat := groupExp f w (s.copyMargin p c q.tensor x.col)
  if x.d.fmt = .f16 then some 0
  else if x.d.gran = .loc then some (fit (BitVec.ofNat 32 (amaxOf l.x)))
  else
    let g := amaxGroup x.d line
    let h := histOf x.d g
    if s.takesJit p a t c q.tensor x g then (amaxBack a q.tensor x.col h).map fit
    else (delayedAmax (s.load h 512) a.step (s.depth c)).map fit

/-- The quantize path on a panel (R130, R145). `first` is the first pass: its partial amaxes are posted; where a group takes the
just-in-time path and its amax is not back, nothing is written and the kernel waits. R162 does not say what CUT_JIT counts as one pass;
DESIGN CHOICE (log 82): one for each kernel with a just-in-time group, at its second pass. -/
def State.quantPath (s : State) (p : Program) (ra : Bool) (t : Strand) (c : Nat) (desc : QuantDesc) (panel : List (List Word))
    (first : Bool) : State × Bool × Nat :=
  let q := s.calibrated p desc
  let ax := s.axis p c q
  let cs := (copiesOf q).map fun x =>
    (x, (panelLines panel q.pc x.col).map (prepare ax (q.inclAxis == x.col) x.d.rot))
  let s1 := if first then
      cs.foldl (fun (u : State) e =>
        if logCopy e.1.d && e.1.d.gran != .loc then u.postCopy p ra t c q e.1 (e.2.map fun l => amaxOf l.x) else u) s
    else s
  match s1.attempt ra with
  | none => (s1, false, 0)
  | some a =>
    let exps := cs.map fun e => (e.2.zipIdx).map fun l => s1.lineExp p a t c q e.1 l.2 l.1
    if exps.all fun l => l.all (·.isSome) then
      let jits := cs.map fun e => logCopy e.1.d && e.1.d.gran != .loc &&
        ((groupParts e.1.d (e.2.map fun _ => 0)).any fun g => s1.takesJit p a t c q.tensor e.1 g.1)
      let (s2, bad) := ((cs.zip exps).zip jits).foldl (fun (acc : State × Nat) e =>
        let (u, n) := acc.1.emitCopy p ra a t c q ax e.1.1.1 e.2 e.1.1.2 (e.1.2.map fun x => x.getD 1)
        (u, acc.2 + n)) (s1, 0)
      (if jits.any id then s2.bump .cut c 0x4C 1 else s2, true, bad)
    else (s1, false, 0)

/-! ## Panels of the queued kernels (R128, R130, R157 to R160) -/

/-- `rows` × `width` binary32 values in the pool, row-major. -/
def State.poolRows (s : State) (c addr rows width : Nat) : List (List Word) :=
  runsOf width (s.words (poolAddr c addr) (rows * width))

/-- The panel of a QUANT kernel, widened. -/
def State.quantPanel (s : State) (c : Nat) (q : QuantDesc) : List (List Word) :=
  if q.srcH16 then
    runsOf q.pc ((List.range (q.pr * q.pc)).map fun i =>
      h16to32 (BitVec.ofNat 16 (leNat (s.bytes (poolAddr c q.src + 2 * i) 2))))
  else s.poolRows c q.src q.pr q.pc

/-- One elementwise operation (R128). -/
def elemOp (op : ElemOp) (k a b : Word) : Word :=
  match op with
  | .add => fAdd a b
  | .mul => fMul a b
  | .scale => fMul a k
  | .relu => match fl32 a with
    | .nan => nan32
    | x => if x.isNeg ∨ x.isZero then 0 else a
  | .silu => fMul a (fDiv fOne (fAdd fOne (fExp (fSub 0 a))))

/-- The results of an elementwise kernel. -/
def State.elemOut (s : State) (c : Nat) (d : ElemDesc) : List Word :=
  (List.range d.n).map fun i =>
    elemOp d.op d.scale (s.word (poolAddr c d.a + 4 * i))
      (match d.op with
       | .add => s.word (poolAddr c d.b + 4 * i)
       | .mul => s.word (poolAddr c d.b + 4 * i)
       | _ => 0)

/-- Chunks of a row (R156). -/
def chunksOf (width : Nat) : Nat := (width + 63) / 64

/-- The statistics of row `r`, one binary32 a chunk. -/
def State.stats1 (s : State) (c : Nat) (d : ApplyDesc) (r : Nat) : List Word :=
  let n := chunksOf d.width
  s.words (poolAddr c d.stat + 4 * (r * n)) n

/-- r of R157 from a row's chunk statistics. -/
def rmsR (qs : List Word) (width : Nat) (eps : Word) : Word := fRsqrt (fAdd (fDiv (foldAdd qs) (f32Nat width)) eps)

/-- The larger of two scores; a NaN stays one (log 32). -/
def smxMax (a b : Word) : Word := if (fl32 a) = .nan ∨ (fl32 b) = .nan then nan32 else fMax a b

/-- The fold of R158 over the chunks of a row: m and s. -/
def smxFold (l : List (Word × Word)) : Word × Word :=
  l.foldl (fun acc e =>
    if e.1 = ninf32 then acc
    else if acc.1 = ninf32 then e
    else
      let mm := smxMax acc.1 e.1
      (mm, fAdd (fMul acc.2 (fExp (fSub acc.1 mm))) (fMul e.2 (fExp (fSub e.1 mm))))) (ninf32, 0)

/-- The (m, s) pairs of a row, 8 bytes a chunk. -/
def State.stats2 (s : State) (c : Nat) (d : ApplyDesc) (r : Nat) : List (Word × Word) :=
  let n := chunksOf d.width
  (List.range n).map fun k =>
    let a := poolAddr c d.stat + 8 * (r * n + k)
    (s.word a, s.word (a + 4))

/-- Element `j` of the row at position `p` is excluded by the causal mask. -/
def excluded (causal : Bool) (p j : Nat) : Bool := causal && decide (p < j)

/-- P as it was stashed (R159): element (r, j), and whether its block's exponent is illegal. -/
def State.stashedP (s : State) (c : Nat) (fmt : Option Fmt) (blk width codes exps r j : Nat) : Word × Bool :=
  match fmt with
  | none => (s.word (poolAddr c codes + 4 * (r * width + j)), false)
  | some .f16 => (f16to32 (BitVec.ofNat 16 (leNat (s.bytes (poolAddr c codes + 2 * (r * width + j)) 2))), false)
  | some f =>
    let lf := logFmt f
    let n := blkLen blk
    let k := r * (width / n) + j / n
    let e := leNat (s.bytes (poolAddr c exps + 2 * k) 1)
    let bitOff := (k * n + j % n) * lf.width
    let code := leNat (s.bytes (poolAddr c codes + bitOff / 8) 2) / 2 ^ (bitOff % 8) % 2 ^ lf.width
    (decode32 lf e code, illegalE lf e && decide (j % n = 0))

/-- The position of row `r` for the causal mask (R158), where the first row is at `pos0`. In a scoring batch POS0 numbers the row's event
in the batch, and the event's position in its slot counts (R343, log 44). -/
def State.rowPos (s : State) (pos0 r : Nat) : Nat :=
  match s.serv.batch with
  | some b => ((b.reqs.flatMap fun q => (List.range q.count).map fun j => q.pos + j)[pos0 + r]?).getD 0
  | none => pos0 + r

/-- One row of an apply kernel's panel: PC columns from column `col0` of the row on; the statistics are those of the whole row. -/
def State.applyRow (s : State) (c : Nat) (d : ApplyDesc) (r : Nat) : List Word :=
  let at4 (base j : Nat) : Word := s.word (poolAddr c base + 4 * (r * d.quant.pc + j))
  let js := List.range d.quant.pc
  match d.kind with
  | .rmsApply =>
    let k := rmsR (s.stats1 c d r) d.width d.eps
    js.map fun j => fMul (fMul (at4 d.src j) k) (s.word (poolAddr c d.gamma + 4 * j))
  | .rmsBwdApply =>
    let t := foldAdd (s.stats1 c d r)
    let rr := s.word (poolAddr c d.rArea + 4 * r)
    let k := fMul (fMul (fMul rr rr) rr) (fDiv t (f32Nat d.width))
    js.map fun j =>
      fSub (fMul rr (fMul (s.word (poolAddr c d.gamma + 4 * j)) (at4 d.dy j))) (fMul k (at4 d.src j))
  | .smxApply =>
    let (m, z) := smxFold (s.stats2 c d r)
    js.map fun j =>
      if m = ninf32 ∨ excluded d.causal (s.rowPos d.pos0 r) (d.col0 + j) then 0 else fDiv (fExp (fSub (at4 d.src j) m)) z
  | .smxBwdApply =>
    let dd := foldAdd (s.stats1 c d r)
    js.map fun j =>
      fMul (s.stashedP c d.pFmt d.pBlk d.quant.pc d.pCodes d.pExps r j).1 (fSub (at4 d.dy j) dd)

/-- The other outputs of an apply kernel: r of each row (R157); the leaf of dgamma (R160): the sum over the rows of the shard in
ascending order, which the panel with the shard's first rows begins from +0 and the panels after it go on with (log 62); EXP_ILLEGAL for
the blocks of P that it reads. -/
def State.applySide (s : State) (ra : Bool) (a : Attempt) (t : Strand) (c : Nat) (d : ApplyDesc) : State :=
  match d.kind with
  | .rmsApply =>
    s.putWords (poolAddr c d.rArea) ((List.range d.rows).map fun r => rmsR (s.stats1 c d r) d.width d.eps)
  | .rmsBwdApply =>
    s.putWords (poolAddr c d.leaf) ((List.range d.quant.pc).map fun j =>
      (List.range d.rows).foldl (fun acc r =>
        let at4 (base : Nat) : Word := s.word (poolAddr c base + 4 * (r * d.quant.pc + j))
        fAdd acc (fMul (fMul (at4 d.dy) (at4 d.src)) (s.word (poolAddr c d.rArea + 4 * r))))
        (if d.leafFirst then 0 else s.word (poolAddr c d.leaf + 4 * j)))
  | .smxApply => s
  | .smxBwdApply =>
    (List.range (d.rows * d.quant.pc)).foldl (fun (u : State) i =>
      if (s.stashedP c d.pFmt d.pBlk d.quant.pc d.pCodes d.pExps (i / d.quant.pc) (i % d.quant.pc)).2 then
        u.numEvent 0x0102 1 c (strandCtx ra a t d.quant.tensor d.quant.tile)
      else u) s

/-- A value that `applySide` wrote is not finite (R215). -/
def State.sideBad (s : State) (c : Nat) (d : ApplyDesc) : Bool :=
  match d.kind with
  | .rmsApply => (s.words (poolAddr c d.rArea) d.rows).any notFinite
  | .rmsBwdApply => (s.words (poolAddr c d.leaf) d.quant.pc).any notFinite
  | .smxApply => false
  | .smxBwdApply => false

/-! ## Running a queued kernel (R126, R131, R140, R161) -/

/-- The kernel at the head of a Cutter's queue: issued, not complete (R126). -/
def State.headKernel (s : State) (c : Nat) : Option (Bool × Strand) :=
  (s.cutter c).queue.head?.bind fun k => (s.strand? k.1).map fun t => (k.2, t)

/-- A veto where a strand of a backward segment wrote a non-finite value (R215). -/
def State.backwardVeto (s : State) (ra : Bool) (t : Strand) (bad : Bool) : State :=
  match t.seg with
  | some (l, true) => if bad && !(s.prog.any fun p => p.serving) then s.vetoIn ra false l (.at l) else s
  | _ => s

/-- The event context of a Cutter error (R161): TENSOR and TILE of the strand, where it names them. -/
def kernelCtx (ra : Bool) (a : Attempt) (t : Strand) : EvCtx :=
  match t.kind, quantOf t.kind with
  | .tile d, _ => strandCtx ra a t d.tensor d.tile
  | .nsIter d, _ => strandCtx ra a t d.tensor d.block
  | _, some q => strandCtx ra a t q.tensor q.tile
  | _, none => { strandCtx ra a t 0 0 with tensor := none, tile := none }

/-- A pool error (R166). -/
def State.poolError (s : State) (ra : Bool) (a : Attempt) (t : Strand) (c : Nat) (ue : Bool) (word : Nat) : State :=
  let x := s.cutter c
  let s1 := s.keepError .cut c 0x30 x.ueHeld ue (word % 2 ^ 19)
  let s2 := s1.setCutter c { x with ueHeld := x.ueHeld || ue }
  s2.raiseCtx (if ue then 0x0211 else 0x0210) c 1 (kernelCtx ra a t) []

/-- POOL_UE or CUT_FAULT halts the Cutter and aborts the step (R20, R163). -/
def State.haltCutter (s : State) (ra : Bool) (a : Attempt) (t : Strand) (c : Nat) : State :=
  let x := s.cutter c
  let kernel := if (s.kernelCluster t).isSome then some (t.id, ra, false) else x.kernel
  let s1 := s.setCutter c { x with halted := true, haltRa := ra, waiting := false, kernel := kernel }
  s1.causeIn ra ⟨0x10, 0xFFFF, .outside, a.step, false⟩

/-- A fault that the strand's work on the Cutter of a cluster meets (R161). -/
def State.cutFaulted (s : State) (ra : Bool) (a : Attempt) (t : Strand) (c : Nat) : CutFault → State
  | .none => s
  | .poolCe w => s.poolError ra a t c false w
  | .poolUe w => (s.poolError ra a t c true w).haltCutter ra a t c
  | .cutFault => (s.raiseCtx 0x0212 c 1 (kernelCtx ra a t) []).haltCutter ra a t c

/-- A fault that stops the work it meets. -/
def fatalFault : CutFault → Bool
  | .none => false
  | .poolCe _ => false
  | .poolUe _ => true
  | .cutFault => true

/-- One pass of the kernel at the head of a Cutter's queue. -/
def State.kernelPass (s : State) (p : Program) (ra : Bool) (a : Attempt) (t : Strand) (c : Nat) (first : Bool) : State :=
  let finish (u : State) (written : Bool) : State :=
    u.setCutter c { u.cutter c with kernel := some (t.id, ra, written), waiting := !written }
  match t.kind with
  | .quant q =>
    let (u, w, bad) := s.quantPath p ra t c q (s.quantPanel c q) first
    finish (u.backwardVeto ra t (decide (0 < bad))) w
  | .apply d =>
    let panel := (List.range d.rows).map (s.applyRow c d)
    let (u, w, bad) := s.quantPath p ra t c d.quant panel first
    let u1 := if w then (u.putWords (poolAddr c d.dst) (panel.flatMap id)).applySide ra a t c d else u
    finish (if w then u1.backwardVeto ra t (decide (0 < bad) || (panel.any fun l => l.any notFinite) || u1.sideBad c d) else u1) w
  | .elem d =>
    let out := s.elemOut c d
    let s1 := if first then s.putWords (poolAddr c d.dst) out else s
    match d.quant with
    | none => finish (s1.backwardVeto ra t (out.any notFinite)) true
    | some q =>
      let panel := runsOf q.pc (if first then out else s.words (poolAddr c d.dst) d.n)
      let (u, w, bad) := s1.quantPath p ra t c q panel first
      finish (if w then u.backwardVeto ra t (decide (0 < bad) || panel.any fun l => l.any notFinite) else u) w
  | _ => s

/-- The lines of the history records that a kernel reads (R136, R139). A serving phase has none (R148). -/
def State.historyLines (s : State) (p : Program) (t : Strand) : List Nat :=
  match quantOf t.kind with
  | some q =>
    if p.serving then []
    else (copiesOf q).flatMap fun x =>
      if logCopy x.d && x.d.gran != .loc then
        s.strandLines (histOf x.d (amaxGroup x.d 0)) (if x.d.gran = .line then 512 * (if x.col then q.pc else q.pr) else 512)
      else []
  | none => []

/-- The group amaxes that a kernel posts first. -/
def State.newGroups (s : State) (p : Program) (a : Attempt) (t : Strand) : Nat :=
  match quantOf t.kind with
  | some q0 =>
    let q := s.calibrated p q0
    (((copiesOf q).filter fun x => logCopy x.d && x.d.gran != .loc).map fun x =>
      ((groupParts x.d ((List.range (if x.col then q.pc else q.pr)).map fun _ => 0)).filter fun g =>
        !a.amax.any fun y => y.tensor == q.tensor && y.col == x.col && y.hist == histOf x.d g.1).length).foldl (· + ·) 0
  | none => 0

/-- The run-ahead hold has room for the history entries of a kernel beside those that are formed or under way; where it has not, the
kernel waits for COMMIT (R225). -/
def State.holdRoom (s : State) (p : Program) (a : Attempt) (t : Strand) : Bool :=
  decide (a.hold.length + (a.amax.filter fun y => y.back.isNone).length + s.newGroups p a t ≤ 262144)

/-- Runs a queued kernel of one kind: its first pass, or its second once the amaxes it waits for are back (R140). -/
def State.runKernel (s : State) (ra : Bool) (id : Nat) (fault : CutFault) (isKind : StrandKind → Bool)
    (pass : Program → Attempt → Strand → Nat → Bool → State → State) : Host.Outcome State Fault Refusal :=
  match s.prog, s.attempt ra, s.strand? id with
  | some p, some a, some t =>
    match s.kernelCluster t with
    | none => .next s
    | some c =>
      let x := s.cutter c
      let head := s.headKernel c == some (ra, t)
      let first := x.kernel.isNone
      let second := x.kernel == some (id, ra, false) && x.waiting
      let u := s.cutFaulted ra a t c fault
      let r := if fatalFault fault then u else u.strandIO ra 0 (u.historyLines p t) [] (pass p a t c first u)
      guarded (isKind t.kind && head && !s.stopped ra t && !x.halted && (first || second) && (!ra || !first || s.holdRoom p a t)) s r
  | _, _, _ => .next s

/-- QUANT (R130). -/
def execQuant (ra : Bool) (id : Nat) (fault : CutFault) (s : State) : Host.Outcome State Fault Refusal :=
  s.runKernel ra id fault (fun k => match k with
    | .quant _ => true
    | _ => false) fun p a t c first u => u.kernelPass p ra a t c first

def isApply (k : ApplyKind) : StrandKind → Bool
  | .apply d => d.kind == k
  | _ => false

/-- RMS_APPLY (R157). -/
def execRmsApply (ra : Bool) (id : Nat) (fault : CutFault) (s : State) : Host.Outcome State Fault Refusal :=
  s.runKernel ra id fault (isApply .rmsApply) fun p a t c first u => u.kernelPass p ra a t c first

/-- RMS_BWD_APPLY (R160). -/
def execRmsBwdApply (ra : Bool) (id : Nat) (fault : CutFault) (s : State) : Host.Outcome State Fault Refusal :=
  s.runKernel ra id fault (isApply .rmsBwdApply) fun p a t c first u => u.kernelPass p ra a t c first

/-- SMX_APPLY (R158). -/
def execSmxApply (ra : Bool) (id : Nat) (fault : CutFault) (s : State) : Host.Outcome State Fault Refusal :=
  s.runKernel ra id fault (isApply .smxApply) fun p a t c first u => u.kernelPass p ra a t c first

/-- SMX_BWD_APPLY (R159). -/
def execSmxBwdApply (ra : Bool) (id : Nat) (fault : CutFault) (s : State) : Host.Outcome State Fault Refusal :=
  s.runKernel ra id fault (isApply .smxBwdApply) fun p a t c first u => u.kernelPass p ra a t c first

def isElem (o : ElemOp) : StrandKind → Bool
  | .elem d => d.op == o
  | _ => false

/-- ELEM ADD (R128). -/
def execElemAdd (ra : Bool) (id : Nat) (fault : CutFault) (s : State) : Host.Outcome State Fault Refusal :=
  s.runKernel ra id fault (isElem .add) fun p a t c first u => u.kernelPass p ra a t c first

/-- ELEM MUL (R128). -/
def execElemMul (ra : Bool) (id : Nat) (fault : CutFault) (s : State) : Host.Outcome State Fault Refusal :=
  s.runKernel ra id fault (isElem .mul) fun p a t c first u => u.kernelPass p ra a t c first

/-- ELEM SCALE (R128). -/
def execElemScale (ra : Bool) (id : Nat) (fault : CutFault) (s : State) : Host.Outcome State Fault Refusal :=
  s.runKernel ra id fault (isElem .scale) fun p a t c first u => u.kernelPass p ra a t c first

/-- ELEM RELU (R128). -/
def execElemRelu (ra : Bool) (id : Nat) (fault : CutFault) (s : State) : Host.Outcome State Fault Refusal :=
  s.runKernel ra id fault (isElem .relu) fun p a t c first u => u.kernelPass p ra a t c first

/-- ELEM SILU (R128). -/
def execElemSilu (ra : Bool) (id : Nat) (fault : CutFault) (s : State) : Host.Outcome State Fault Refusal :=
  s.runKernel ra id fault (isElem .silu) fun p a t c first u => u.kernelPass p ra a t c first

/-- KERNEL_COMPLETE (R131): the queued kernel of a Cutter has written everything. -/
def execKernelComplete (cluster : Nat) (s : State) : Host.Outcome State Fault Refusal :=
  let x := s.cutter cluster
  match x.kernel with
  | some (id, ra, true) =>
    guarded (!x.halted) s (((s.setCutter cluster { x with
      queue := x.queue.filter fun k => k != (id, ra), kernel := none, waiting := false }).bump .cut cluster 0x40 1).completeStrand ra id)
  | _ => .next s

/-! ## Group amaxes (R138, R140) -/

/-- A group's amax is known: the kernels that wait for it go on, and the history entry of the step is written, or held for a
run-ahead (R225). -/
def State.amaxKnown (s : State) (p : Program) (ra : Bool) (a : Attempt) (x : AmaxPart) (v : Word) : State :=
  let b : Attempt := { a with amax := a.amax.map fun y =>
    if y.tensor = x.tensor ∧ y.col = x.col ∧ y.hist = x.hist then { y with back := some v, sent := true } else y }
  let e := leBytes 4 a.step ++ leBytes 4 v.toNat
  let at' := x.hist + 8 * (a.step % 64)
  if p.serving then s.setAttempt ra b
  else if ra then s.setAttempt ra { b with hold := b.hold ++ [(at', e)] }
  else
    let u := s.setAttempt ra b
    u.strandIO false 0 [] [(at', 8)] (u.store at' e)

/-- An entry of the history may be written now, or held (R225): no epoch runs on its stack (R287). -/
def State.amaxMay (s : State) (ra : Bool) (x : AmaxPart) : Bool := ra || !s.writeWaits x.hist

/-- What a downward AMAX tells this module: the attempt and its group that waits for it. -/
def State.amaxFor (s : State) (f : DomFrame) : Option (Bool × Attempt × AmaxPart) :=
  (s.attemptOf f.step).bind fun e =>
    (e.2.amax.find? fun x => x.tensor == fld f 1 && b2n x.col == fld f 2 && x.group == fld f 3 && x.shared && e.2.base == fld f 0 &&
      x.arg == f.arg && x.back.isNone).map fun x => (e.1, e.2, x)

/-- The first group whose kernels on this module have all posted. -/
def State.amaxReady (s : State) (ra : Bool) : Option (Attempt × AmaxPart) :=
  (s.attempt ra).bind fun a =>
    (a.amax.find? fun x => !x.sent && decide (x.need ≤ x.parts) && (x.shared || s.amaxMay ra x)).map fun x => (a, x)

/-- This module's part of the first complete group: a shard's group is known at once; a replicated tensor's goes up the tree. -/
def State.amaxOwn (s : State) (p : Program) (ra : Bool) : State :=
  match s.amaxReady ra with
  | none => s
  | some (a, x) =>
    if x.shared then
      let b : Attempt := { a with amax := a.amax.map fun y =>
        if y.tensor = x.tensor ∧ y.col = x.col ∧ y.hist = x.hist then { y with sent := true } else y }
      (s.setAttempt ra b).addOwn
        (s.domFrame 5 false a.step a.number x.arg (encN [a.base, x.tensor, b2n x.col, x.group, x.value.toNat]))
    else s.amaxKnown p ra a x x.value

/-- The maximum of the contributions to one group. -/
def maxFields (f : DomFrame) (l : List DomFrame) : List Byte :=
  encN [fld f 0, fld f 1, fld f 2, fld f 3, (f :: l).foldl (fun m g => max m (fld g 4)) 0]

/-- AMAX (R138, R140): the partial amaxes that are complete here go up or are taken; what comes down is taken, once its history entry may be
written (R287). -/
def execAmax (s : State) : Host.Outcome State Fault Refusal :=
  match s.prog with
  | none => .next s
  | some p =>
    let s1 := (s.amaxOwn p false).amaxOwn p true
    let s2 := s1.combined 5 maxFields fun f t => t.sendDown { f with down := true, origin := t.dom.rank }
    let waits := (s2.takeDown 5).any fun m => (s2.amaxFor m.1).any fun e => !s2.amaxMay e.1 e.2.2
    .next (if waits then s2 else s2.onDown 5 fun f t =>
      match t.amaxFor f with
      | some (ra, a, x) => t.amaxKnown p ra a x (BitVec.ofNat 32 (fld f 4))
      | none => t)

/-! ## The inclusion path (R150 to R152) -/

/-- The inclusion sum of one cell (R151): `i` and `j` count from the first line of each area. -/
def State.inclSum (s : State) (c : Nat) (n : InclDesc) (i j : Nat) : Word :=
  let h (area line t : Nat) : Fl := fl16 (BitVec.ofNat 16 (leNat (s.bytes (poolAddr c area + 2 * (line * n.count + t)) 2)))
  (List.range n.count).foldl (fun acc t =>
    rne32 ((fl32 acc).add ((h n.aArea (n.aLine0 + i) t).mul (h n.bArea (n.bLine0 + j) t)))) 0

/-- The task that the inclusion path of a Facet's cluster serves next, where it is one of this partition. -/
def State.inclNext (s : State) (facet pidx : Nat) : Option (FTask × TileDesc × InclDesc) :=
  (s.inclHead (facetCluster facet)).bind fun h =>
    if h.1 = facet % 4 ∧ h.2.1.pidx = pidx then h.2.2.incl.map fun n => (h.2.1, h.2.2, n) else none

/-- INCLUSION_TASK (R151, R152): the inclusion path of the cluster computes the sums of its next task in issue order into the task's INCL
area, by place in the tile (log 30), once the task's F16 operands are in place. A pool error may strike it (R161). -/
def execInclusionTask (part : FacetPart) (fault : CutFault) (s : State) : Host.Outcome State Fault Refusal :=
  let facet := part.facet
  let pidx := part.pidx
  let c := facetCluster facet
  match s.inclNext facet pidx with
  | none => .next s
  | some (t, d, n) =>
    let rows := List.range (partRows d.mode)
    let s1 := rows.foldl (fun (u : State) r =>
      u.putWords (poolAddr c n.result + 4 * (64 * (d.row0 + r) + d.col0))
        ((List.range (partCols d.mode)).map fun k => s.inclSum c n (d.row0 + r) (d.col0 + k))) s
    let s2 := s1.setFacet facet ((s1.facet facet).putTask { t with incl := true })
    match s.attempt t.ra, s.strand? t.id with
    | some a, some x =>
      let done := (s2.bump .inc c 0x10 1).bump .inc c 0x14 n.count
      guarded (!s.inclWaits c t n) s
        (if fatalFault fault then s.cutFaulted t.ra a x c fault else done.cutFaulted t.ra a x c fault)
    | _, _ => .next s

/-! ## Fused drain kernels (R156 to R160) -/

/-- The task that names fused kernel `n` and has delivered a row to it that is not reduced yet, and the row. -/
def State.fusedTask (s : State) (facet pidx n row : Nat) : Option (FTask × TileDesc × List Word) :=
  ((s.facet facet).live pidx).findSome? fun t => (s.tileOf t).bind fun d =>
    if d.fused = n then (t.chunks.find? fun x => x.1 == row).map fun x => (t, d, x.2) else none

/-- Place (row, c) of the statistics area that DEST names, for statistics of `n` words (R156, log 31). -/
def statAddr (cluster : Nat) (d : TileDesc) (row n : Nat) : Nat :=
  poolAddr cluster d.dest + 4 * n * ((d.row0 + row) * d.fk.chunks + d.fk.c)

/-- Element `i` of a row of the task in an array of the pool that lies row by row. -/
def rowAddr (cluster base : Nat) (d : TileDesc) (row i : Nat) : Nat :=
  poolAddr cluster base + 4 * ((d.row0 + row) * d.fk.pitch + d.fk.col + d.col0 + i)

/-- Fused drain kernel `n` reduces a row delivered to it (R156): `red` gives the chunk statistic, which goes to its place in the
statistics area, and `side` what else the kernel does. `named` says whether the row's operands are those of the descriptor. A non-finite
statistic of a backward segment is a veto (R215). The spec does not say how a row of 32 elements is reduced, in Q4; DESIGN CHOICE (log 31):
on its own, so that the two partitions of a tile row write one place (row, c) each in turn. -/
def State.fused (s : State) (facet pidx n row : Nat) (fault : CutFault) (named : FusedDesc → Bool) (red : Nat → TileDesc → List Word → List Word)
    (side : Bool → Attempt → Strand → Nat → TileDesc → List Word → State → State) : Host.Outcome State Fault Refusal :=
  match s.fusedTask facet pidx n row with
  | none => .next s
  | some (t, d, z) =>
    match s.attempt t.ra, s.strand? t.id with
    | some a, some x =>
      let c := facetCluster facet
      let u := s.cutFaulted t.ra a x c fault
      let v := red c d z
      let u1 := (side t.ra a x c d z u).putWords (statAddr c d row v.length) v
      let u2 := u1.setFacet facet ((u1.facet facet).putTask { t with
        chunks := t.chunks.filter fun e => e.1 != row
        stats := t.stats ++ [row] })
      guarded (named d.fk && !(s.cutter c).halted) s (if fatalFault fault then u else u2.backwardVeto t.ra x (v.any notFinite))
    | _, _ => .next s

/-- RMS_STAT (R157): q = sum64 of the squares. -/
def execRmsStat (facet pidx row : Nat) (fault : CutFault) (s : State) : Host.Outcome State Fault Refusal :=
  s.fused facet pidx 1 row fault (fun _ => true) (fun _ _ z => [sum64 (z.map fun v => fMul v v)]) fun _ _ _ _ _ _ u => u

/-- m and s of a chunk (R158). `keep` tells the elements that the mask leaves. -/
def chunkSoftmax (keep : Nat → Bool) (z : List Word) : List Word :=
  let m := ((z.zipIdx).filter fun e => keep e.2).foldl (fun b e => smxMax b e.1) ninf32
  [m, sum64 ((z.zipIdx).map fun e => if keep e.2 then fExp (fSub e.1 m) else 0)]

/-- SMX_STAT (R158): m and s of the chunk, and the scores themselves into the pool. -/
def execSmxStat (facet pidx row : Nat) (fault : CutFault) (causal : Bool) (pos0 z : Nat) (s : State) :
    Host.Outcome State Fault Refusal :=
  s.fused facet pidx 2 row fault (fun k => decide (k.causal = causal ∧ k.pos0 = pos0 ∧ k.z = z))
    (fun _ d z => chunkSoftmax (fun i => !excluded d.fk.causal (s.rowPos d.fk.pos0 (d.row0 + row)) (64 * d.fk.c + d.col0 + i)) z)
    fun _ _ _ c d z u => u.putWords (rowAddr c d.fk.z d row 0) z

/-- P of an element of a task's row, as it was stashed (R159). -/
def State.fusedP (s : State) (c : Nat) (d : TileDesc) (row i : Nat) : Word × Bool :=
  s.stashedP c d.fk.pFmt d.fk.pBlk d.fk.pitch d.fk.pCodes d.fk.pExps (d.row0 + row) (d.fk.col + d.col0 + i)

/-- SMX_DOT (R159): d = sum64 of dP × P; EXP_ILLEGAL for the blocks of P that it reads. -/
def execSmxDot (facet pidx row : Nat) (fault : CutFault) (fmt : Option Fmt) (blk codes exps pitch : Nat) (s : State) :
    Host.Outcome State Fault Refusal :=
  s.fused facet pidx 3 row fault
    (fun k => decide (k.pFmt = fmt ∧ k.pBlk = blk ∧ k.pCodes = codes ∧ k.pExps = exps ∧ k.pitch = pitch))
    (fun c d z => [sum64 ((z.zipIdx).map fun e => fMul e.1 (s.fusedP c d row e.2).1)])
    fun ra a t c d z u => (List.range z.length).foldl (fun (v : State) i =>
      if (s.fusedP c d row i).2 then v.numEvent 0x0102 1 c (kernelCtx ra a t) else v) u

/-- RMS_DOT (R160): t = sum64 of (gamma × dy) × x. -/
def execRmsDot (facet pidx row : Nat) (fault : CutFault) (gamma x : Nat) (s : State) : Host.Outcome State Fault Refusal :=
  s.fused facet pidx 4 row fault (fun k => decide (k.gamma = gamma ∧ k.x = x))
    (fun c d z => [sum64 ((z.zipIdx).map fun e =>
      fMul (fMul (s.word (poolAddr c d.fk.gamma + 4 * (d.fk.col + d.col0 + e.2))) e.1) (s.word (rowAddr c d.fk.x d row e.2)))])
    fun _ _ _ _ _ _ u => u

end Sys2Proof.Machine
end

