-- ==== Sys2Proof/Machine/Loupe.lean ====
section
/-! DEFINITION. The Loupes (R171 to R177): wide sources, the reference, the stated bound and verdicts. -/
namespace Sys2Proof.Machine

/-! ## Arithmetic rounded toward +∞ (R174) -/

def uAdd (a b : Word) : Word := rup32 ((fl32 a).add (fl32 b))

def uMul (a b : Word) : Word := rup32 ((fl32 a).mul (fl32 b))

def uSub (a b : Word) : Word := rup32 ((fl32 a).add (fl32 b).negate)

/-- The quotient of two positive values. -/
def uDiv (a b : Word) : Word :=
  match fl32 a, fl32 b with
  | .fin _ m e, .fin _ n f =>
    if n = 0 then inf32
    else
      let (q, k, st) := quotMag m n
      word32 false (rupMag ieee32 q (k + e - f) st)
  | _, _ => nan32

def absW (a : Word) : Word := a &&& 0x7FFFFFFF

/-- 2^k. -/
def pow2W (k : Int) : Word := rne32 (.fin false 1 k)

/-- γ of R76: m·u / (1 - m·u). -/
def gammaUp (m : Nat) : Word :=
  let mu := rup32 (.fin false m (-24))
  uDiv mu (uSub fOne mu)

/-! ## Wide sources (R172) -/

/-- One line of a wide source, widened. -/
def State.wideLine (s : State) (c : Nat) (d : LoupeSide) (line k : Nat) : List Word :=
  let w := if d.fmt = 0 then 4 else 2
  let off := line * d.stride
  let raw := if d.pool then s.bytes (poolAddr c d.src + off) (k * w) else s.load (tarnAddr d.src + off) (k * w)
  (List.range k).map fun i =>
    let v := leAt (i * w) w raw
    match d.fmt with
    | 0 => BitVec.ofNat 32 v
    | 1 => h16to32 (BitVec.ofNat 16 v)
    | _ => f16to32 (BitVec.ofNat 16 v)

/-- A line as the quantizer saw it, and the inclusion values set aside. -/
def State.loupeLine (s : State) (c : Nat) (d : LoupeSide) (line k : Nat) : Prepared :=
  let ax : Axis :=
    { ch0 := d.ch0
      list := (s.words (poolAddr c d.inclList) d.inclN).map (·.toNat)
      shiftOn := d.shiftEn
      sideB := d.shiftSideB
      shifts := if d.shiftEn then s.bytes (poolAddr c d.shiftAddr) ((d.ch0 + k + 1) / 2) else [] }
  prepare ax true d.rot (s.wideLine c d line k)

/-- The value of inclusion channel `t`. -/
def wideIncl (l : Prepared) (t : Nat) : Word := ((l.incl.find? fun e => e.1 == t).map (·.2)).getD 0

/-! ## Reference (R173) -/

/-- r of one element. -/
def reference (a b : Prepared) (n : Nat) (sr sc : Word) : Word :=
  let s := (a.x.zip b.x).foldl (fun acc e => fMa e.1 e.2 acc) 0
  let t := (List.range n).foldl (fun acc i => fMa (wideIncl a i) (wideIncl b i) acc) 0
  fMul (fMul (fAdd s t) sr) sc

/-! ## The stated bound (R75, R76, R174) -/

/-- ρ of a format, rounded up. -/
def rhoOf : PFmt → Word
  | .l4 => 0x3E41C2E4
  | .l8 => 0x3D355EF2
  | _ => 0x3DB95D4F

/-- λ of a format, rounded up; R75 gives none for CNM. -/
def lamOf : PFmt → Word
  | .l4 => 0x388A697B
  | .l8 => 0x388A697B
  | .f16 => 0
  | .cnm => Config.cnmLambda

/-- eps of an F16 operand. -/
def epsF16 (x : Word) : Word := uAdd (uMul (pow2W (-11)) (absW x)) (pow2W (-25))

/-- eps of an element in a block of exponent `e`; |x| in a zero block. -/
def epsOf (f : PFmt) (e : Nat) (x : Word) : Word :=
  if f = .f16 then epsF16 x
  else if e = 0 then absW x
  else
    let a := uMul (rhoOf f) (absW x)
    let b := pow2W ((e : Int) - 128)
    if a.toNat < b.toNat then b else a

/-- The sums P, D and Q of R76. -/
structure BoundSums where
  p : Word := 0
  d : Word := 0
  q : Word := 0

/-- Adds one term: |a|, |b| and their eps. -/
def BoundSums.add (x : BoundSums) (a ea b eb : Word) (withQ : Bool) : BoundSums :=
  { p := uAdd x.p (uMul (uAdd a ea) (uAdd b eb))
    d := uAdd (uAdd (uAdd x.d (uMul ea b)) (uMul eb a)) (uMul ea eb)
    q := if withQ then uAdd x.q (uMul a b) else x.q }

/-- B + Bref of one element, times LPE_SLACK. The inclusion terms enter D and P, and the bracket of D (log 33). -/
def boundOf (f : PFmt) (groups kgl : Nat) (stoch : Bool) (slack : Nat) (a b : Prepared) (ea eb : Nat → Nat) (n : Nat)
    (sr sc : Word) : Word :=
  let main := ((a.x.zip b.x).zipIdx).foldl (fun (x : BoundSums) e =>
    x.add (absW e.1.1) (epsOf f (ea (e.2 / kgl)) e.1.1) (absW e.1.2) (epsOf f (eb (e.2 / kgl)) e.1.2) true) {}
  let incl := (List.range n).foldl (fun (x : BoundSums) i =>
    let u := wideIncl a i
    let v := wideIncl b i
    x.add (absW u) (epsF16 u) (absW v) (epsF16 v) true) {}
  let g := gammaUp (if stoch then 2 * groups else groups)
  let lam := lamOf f
  let u1 := uAdd fOne (pow2W (-24))
  let u2 := uMul u1 u1
  let p := uAdd main.p incl.p
  let d := uAdd main.d incl.d
  let extra := if n = 0 then 0 else uMul (gammaUp (n + 1)) incl.p
  let inner := uAdd (uAdd d (uMul (uAdd lam (uMul g (uAdd fOne lam))) p)) extra
  let sc2 := uMul (absW sr) (absW sc)
  let bound := uMul sc2 (uAdd (uMul u2 inner) (uMul (uSub u2 fOne) main.q))
  let cref := uSub (uMul (uAdd fOne (gammaUp (a.x.length + n + 1))) u2) fOne
  let bref := uMul sc2 (uMul cref (uAdd main.q incl.q))
  uMul (uAdd bound bref) (rup32 (.fin false slack (-8)))

/-! ## Verdicts -/

/-- One judged element: |y - r| exact, where it lies in the tile, and whether it fails. -/
structure Judged where
  err : Dy
  row : Nat
  col : Nat
  fails : Bool

/-- Judges one sample: `none` is a void sample. -/
def State.judgeSample (s : State) (g : Nat) (step : Nat) (f c : Nat) (d : TileDesc) (pe : LoupeSide × LoupeSide) (q : LoupeTask) :
    Option (List Judged) :=
  let (r0, c0) := subTile step d.tensor d.tile
  let kgl := groupLen d.kg
  let n := if d.incl.isSome then pe.1.inclN else 0
  let rows := (List.range 8).map fun i => (r0 + i, s.loupeLine c pe.1 (d.aLine + r0 + i) d.k)
  let cols := (List.range 8).map fun j => (c0 + j, s.loupeLine c pe.2 (d.bLine + c0 + j) d.k)
  let at' (b : Bank Nat) (i gr : Nat) : Nat := Bank.get (fun _ => 0) b (64 * gr + i)
  let stoch := decide (s.field .cut (facetCluster f) 0x10 0 21 < d.k ∧ d.format ≠ .cnm)
  let slack := s.field .lpe g 0x10 0 16
  let badLine (l : Prepared) : Bool := l.x.any notFinite || l.incl.any fun e => notFinite e.2
  let badBlock (b : Bank Nat) (i : Nat) : Bool :=
    d.format != .f16 && (List.range (tileGroups d)).any fun gr => poisonedE (pLog d.format) (at' b i gr)
  let judge (a b : Nat × Prepared) : Option Judged :=
    let sr := (q.scales[a.1]?).getD 0
    let sc := (q.scales[64 + b.1]?).getD 0
    let y := Bank.get (fun _ => (0 : Word)) q.ys (64 * a.1 + b.1)
    let r := reference a.2 b.2 n sr sc
    let lim := boundOf d.format (tileGroups d) kgl stoch slack a.2 b.2 (at' q.ea a.1) (at' q.eb b.1) n sr sc
    if notFinite y || notFinite r || notFinite lim then none
    else
      let e := ((fl32 y).dy.sub (fl32 r).dy).abs
      some ⟨e, a.1, b.1, (fl32 lim).dy.lt e⟩
  if rows.any (fun l => badLine l.2 || badBlock q.ea l.1) || cols.any (fun l => badLine l.2 || badBlock q.eb l.1) then none
  else
    (rows.flatMap fun a => cols.map fun b => judge a b).foldl (fun acc x =>
      match acc, x with
      | some l, some j => some (l ++ [j])
      | _, _ => none) (some [])

/-- EXP_ILLEGAL for each block with an illegal exponent among those that a sample reads (R49, R480). -/
def State.sampleIllegal (s : State) (g : Nat) (ra : Bool) (a : Attempt) (t : Strand) (d : TileDesc) (q : LoupeTask) : State :=
  let (r0, c0) := subTile a.step d.tensor d.tile
  let es := (List.range (tileGroups d)).flatMap fun gr => (List.range 8).flatMap fun i =>
    [Bank.get (fun _ => 0) q.ea (64 * gr + r0 + i), Bank.get (fun _ => 0) q.eb (64 * gr + c0 + i)]
  (es.filter fun e => d.format != .f16 && illegalE (pLog d.format) e).foldl (fun (u : State) _ =>
    u.numEvent 0x0102 2 g (strandCtx ra a t d.tensor d.tile)) s

/-- The lines of Tarn that a sample's wide sources lie in (R172). -/
def State.sampleLines (s : State) (step : Nat) (d : TileDesc) (pe : LoupeSide × LoupeSide) : List Nat :=
  let (r0, c0) := subTile step d.tensor d.tile
  let side (x : LoupeSide) (line0 : Nat) : List Nat :=
    if x.pool then []
    else (List.range 8).flatMap fun i =>
      s.strandLines (tarnAddr x.src + (line0 + i) * x.stride) (d.k * (if x.fmt = 0 then 4 else 2))
  side pe.1 (d.aLine + r0) ++ side pe.2 (d.bLine + c0)

/-- DETAIL of LPE_FAIL (R191). Of elements that tie for the largest |y - r| the spec names none; DESIGN CHOICE (log 86): the first in
row-major order gives the row and column. -/
def failDetail (l : List Judged) : List Byte :=
  match l with
  | [] => []
  | j :: t =>
    let w := t.foldl (fun b x => if b.err.lt x.err then x else b) j
    leBytes 4 (rup32 (ofDy w.err false)).toNat ++ leBytes 1 w.row ++ leBytes 1 w.col ++ leBytes 1 (l.filter (·.fails)).length

/-- A verdict of the attempt and segment attempt it was taken in counts; another is discarded (R175). -/
def State.verdict (s : State) (g : Nat) (ra : Bool) (a : Attempt) (t : Strand) (d : TileDesc) (l : List Judged) : State :=
  let s1 := s.bump .lpe g 0x20 1
  if l.any (·.fails) then
    let s2 := (s1.bump .lpe g 0x24 1).raiseCtx 0x0123 g 2 (strandCtx ra a t d.tensor d.tile) (failDetail l)
    match s2.attempt ra, t.seg with
    | some b, some (n, w) =>
      let x := b.seg n w
      s2.setAttempt ra (b.setSeg n w { x with failed := if x.failed.contains d.tensor then x.failed else x.failed ++ [d.tensor] })
    | _, _ => s2
  else s1

/-- LOUPE_VERDICT (R173 to R177): the Loupe of a region judges the first complete tile of its queue; a parity error aborts the step. -/
def execLoupeVerdict (region : Nat) (parity : Bool) (s : State) : Host.Outcome State Fault Refusal :=
  let x := s.loupe region
  match s.prog, x.queue.find? (·.ready) with
  | some p, some q =>
    match s.attempt q.ra, s.strand? q.id with
    | some a, some t =>
      match t.kind with
      | .tile d =>
        let rest := s.setLoupe region { x with queue := x.queue.erase q }
        let f := s.physFacet d
        let src := (p.products.find? fun e => e.tensor == d.tensor).bind (·.loupe)
        let current := a.base == q.base && t.seg.all fun z => (a.seg z.1 z.2).tries == q.tries
        let fault := ((s.setLoupe region { x with halted := true }).raiseCtx 0x0220 region 2
          (strandCtx q.ra a t d.tensor d.tile) []).causeIn q.ra ⟨0x10, 0xFFFF, .outside, a.step, false⟩
        let judged := match src with
          | none => rest
          | some pe =>
            if current then
              s.strandIO q.ra 3 (s.sampleLines a.step d pe) []
                (let u := rest.sampleIllegal region q.ra a t d q
                 match s.judgeSample region a.step f (facetCluster f) d pe q with
                 | none => u.bump .lpe region 0x28 1
                 | some l => u.verdict region q.ra a t d l)
            else rest
        guarded (!x.halted) s (if parity then fault else judged)
      | _ => .next s
    | _, _ => .next s
  | _, _ => .next s

end Sys2Proof.Machine
end

