-- ==== Sys2Proof/Machine/Inlet.lean ====
section
/-! DEFINITION. The Inlets (R235 to R257): gradient blocks, row records, the rules FAC, FACU and PRE, statistics, root refreshes,
update ratios. -/
namespace Sys2Proof.Machine

/-! ## Arithmetic of the rules -/

/-- pw(b, t) of R244; `n` bounds the bits of t. -/
def pwLoop : Nat → Nat → Word → Word → Word
  | 0, _, _, r => r
  | n + 1, t, x, r =>
    if t = 0 then r else pwLoop n (t / 2) (fMul x x) (if t % 2 = 1 then fMul r x else r)

def pw (b : Word) (t : Nat) : Word := pwLoop 64 t b fOne

/-- finish of R243. -/
def finish (lr lrm wd w d : Word) : Word :=
  let lre := fMul lr lrm
  fSub w (rto32 ((fl32 lre).mul (fl32 (fAdd d (fMul wd w)))))

/-- B1 × m + (1 - B1) × g, as every rule forms a decayed value. -/
def decay (b old new : Word) : Word := fAdd (fMul b old) (fMul (fSub fOne b) new)

/-- q of R245. -/
def quadOf (e : UpdateEntry) (g : Word) : Word := fAdd (fMul g g) e.eps1

/-- Bias correction of the momentum (R245). -/
def mHat (e : UpdateEntry) (m : Word) (t : Nat) : Word := if e.bc then fDiv m (fSub fOne (pw e.b1 t)) else m

/-- d of R245 from the momentum, the second moment and its correction. -/
def facStep (e : UpdateEntry) (m vh c2 : Word) (t : Nat) : Word :=
  let v := if e.bc then fDiv vh c2 else vh
  fDiv (mHat e m t) (fAdd (fSqrt v) e.eps2)

/-- A decoded and scaled gradient element (R239). -/
def gradOf (e : UpdateEntry) (e8 code : Nat) : Word := fMul (decode32 logL8 e8 code) e.gscale

/-! ## Where things lie -/

/-- Row and first column of dense block `k` (R239). -/
def blockPos (e : UpdateEntry) (k : Nat) : Nat × Nat := (k / (e.cols / 128), 128 * (k % (e.cols / 128)))

/-- The piece, or row unit, of an element (R238). -/
def unitOf (e : UpdateEntry) (i j : Nat) : Nat := if e.sparse then i / 256 else i / 256 * ((e.cols + 255) / 256) + j / 256

/-- E8 and codes of a posted block; block `b` of a row record. -/
def State.postBlock (s : State) (q : InlPost) (b : Nat) : Nat × List Nat :=
  (leNat (s.bytes (q.exps + 2 * b) 1), (s.bytes (q.codes + 128 * b) 128).map (·.toNat))

/-- The gradient of one block. -/
def State.postGrad (s : State) (e : UpdateEntry) (q : InlPost) (b : Nat) : List Word :=
  let (e8, cs) := s.postBlock q b
  cs.map (gradOf e e8)

/-- A committed word. -/
def State.committedWord (s : State) (a : Nat) : Word := BitVec.ofNat 32 (leNat (s.loadCommitted a 4))

/-- The master weight of an element before the step (R53). -/
def State.weight (s : State) (e : UpdateEntry) (i j : Nat) : Word :=
  let o := 2 * (i * e.cols + j)
  BitVec.ofNat 32 (leNat (s.loadCommitted (tarnAddr e.wh + o) 2) * 2 ^ 16 + leNat (s.loadCommitted (tarnAddr e.wm + o) 2))

/-- The momentum of an element before the step, decoded. -/
def State.momentum (s : State) (e : UpdateEntry) (i j : Nat) : Word :=
  let k := i * e.cols + j
  decode32 logL8 (leNat (s.loadCommitted (tarnAddr e.mome + k / 128) 1)) (leNat (s.loadCommitted (tarnAddr e.momc + k) 1))

/-! ## One block of 128 elements (R243 to R246, R255) -/

/-- What a rule makes of an element: new momentum, new second moment, direction. -/
structure NewElem where
  m : Word
  v : Word
  d : Word

/-- An updated element; which of its new weight, momentum and second moment are not finite. -/
structure ElemOut where
  w : Word
  m : Word
  v : Word
  sd : Word
  sw : Word
  badW : Bool
  badM : Bool
  badV : Bool

/-- Updates one element; in a gated layer an element with a non-finite result is not written (R215). -/
def updateElem (e : UpdateEntry) (lr : Word) (gate : Bool) (w m v : Word) (x : NewElem) : ElemOut :=
  let w1 := finish lr e.lrm e.wd w x.d
  let (bw, bm, bv) := (notFinite w1, notFinite x.m, notFinite x.v)
  if (bw || bm || bv) && gate then ⟨w, m, v, 0, 0, bw, bm, bv⟩
  else
    let dw := fSub w1 w
    ⟨w1, x.m, x.v, fMul dw dw, fMul w1 w1, bw, bm, bv⟩

/-- What an Inlet raises about the numbers of a tensor: EXP_ILLEGAL under its own unit number. R480 lists units 0, 1 and 6 alone for
NONFINITE, which R63 has a poisoned new momentum block raise; DESIGN CHOICE (log 84): unit 6, the fabric of the Inlet's die. -/
def State.inletNum (s : State) (a : Attempt) (code die : Nat) (e : UpdateEntry) : State :=
  s.numEvent code (if code = 0x0101 then 6 else 5) die { ctxOf false a with layer := e.layer, tensor := some e.tensor }

/-- EXP_ILLEGAL for a block an Inlet reads (R49). -/
def State.inletIllegal (s : State) (a : Attempt) (die : Nat) (e : UpdateEntry) (e8 : Nat) : State :=
  if illegalE logL8 e8 then s.inletNum a 0x0102 die e else s

/-- Stores bytes where an update of some pages writes (R214). -/
def State.storePages (s : State) (p : Program) (k : Pages) (a : Nat) (bs : List Byte) : State :=
  if k.writes p a then s.store a bs else s

/-- The earlier of two cuts of one layer. -/
def firstCut (x y : Option Cut) : Option Cut :=
  match x, y with
  | some (.at l), _ => some (.at l)
  | _, some c => some c
  | c, none => c

/-- The cut of a non-finite Inlet result written at `a`: at its layer for a V page, after it for a U page (R229); none where the update
does not write there. -/
def resultCut (p : Program) (e : UpdateEntry) (k : Pages) (a : Nat) (bad : Bool) : Option Cut :=
  if bad && k.writes p a then some (if inPlace p a then .after e.layer else .at e.layer) else none

/-- Applies one block: `f` gives the new element from its index in the block, its momentum and its second moment, which are those before
the step whatever pages are written now (`k`, R214). An illegal E8 of the old momentum is raised once (R49), and NONFINITE where the
new momentum block is poisoned (R63); SD and SW go to SCR, and the elements count, with the weights (R255). The cut of the results
that are not finite comes with it. -/
def State.applyBlock (s : State) (p : Program) (a : Attempt) (e : UpdateEntry) (die : Nat) (k : Pages) (i j0 : Nat)
    (f : Nat → Word → Word → NewElem) : State × Option Cut :=
  let facu := e.rule == .facu
  let o := i * e.cols + j0
  let vAt (n : Nat) : Nat := tarnAddr e.stat + 4 * (o + n)
  let wAt := tarnAddr e.wh + 2 * o
  let mAt := tarnAddr e.momc + o
  let out := (List.range 128).map fun n =>
    let m := s.momentum e i (j0 + n)
    let v := if facu then s.committedWord (vAt n) else 0
    updateElem e (a.lr.getD 0) (gated p e.layer) (s.weight e i (j0 + n)) m v (f n m v)
  let ms := out.map (·.m)
  let b := narrowBlock logL8 ms (fit32 logL8 (BitVec.ofNat 32 (amaxOf ms)) 0)
  let s1 := s.storePages p k wAt (out.flatMap fun x => leBytes 2 (x.w.toNat / 2 ^ 16))
  let s2 := s1.storePages p k (tarnAddr e.wm + 2 * o) (out.flatMap fun x => leBytes 2 (x.w.toNat % 2 ^ 16))
  let s3 := s2.storePages p k mAt (b.codes.map fun c => BitVec.ofNat 8 c)
  let s4 := s3.storePages p k (tarnAddr e.mome + o / 128) (leBytes 1 b.e8)
  let s5 := if facu then s4.storePages p k (vAt 0) (out.flatMap fun x => leBytes 4 x.v.toNat) else s4
  let part (r : Nat) : RatioPart :=
    let l := (out.drop (64 * r)).take 64
    ⟨e.tensor, unitOf e i (j0 + 64 * r), o / 64 + r, sum64 (l.map (·.sd)), sum64 (l.map (·.sw))⟩
  let s6 := if k.writes p wAt then
      let t := (s5.bump64 .inl die 0x60 128).store (ratioAt e (o / 128))
        (leBytes 4 (fAdd (part 0).sd (part 1).sd).toNat ++ leBytes 4 (fAdd (part 0).sw (part 1).sw).toNat)
      { t with inl := { t.inl with parts := t.inl.parts ++ [part 0, part 1] } }
    else s5
  let s7 := if k = .u then s6 else s6.inletIllegal a die e (leNat (s.loadCommitted (tarnAddr e.mome + o / 128) 1))
  let s8 := if k.writes p mAt && ms.any notFinite then s7.inletNum a 0x0101 die e else s7
  (s8, firstCut (resultCut p e k wAt (out.any (·.badW)))
    (firstCut (resultCut p e k mAt (out.any (·.badM))) (resultCut p e k (vAt 0) (out.any (·.badV)))))

/-- The areas of a tensor that one block of 128 elements from element `o` on reads and writes: halves, momentum, FACU's second moments. -/
def blockSpans (e : UpdateEntry) (o : Nat) : List (Nat × Nat) :=
  [(tarnAddr e.wh + 2 * o, 256), (tarnAddr e.wm + 2 * o, 256), (tarnAddr e.momc + o, 128), (tarnAddr e.mome + o / 128, 1)] ++
    (if e.rule = .facu then [(tarnAddr e.stat + 4 * o, 512)] else [])

/-- Those spans that an update writes now, and with the weights the block's SD and SW. -/
def blockWrites (p : Program) (k : Pages) (e : UpdateEntry) (o : Nat) : List (Nat × Nat) :=
  (blockSpans e o).filter (fun x => k.writes p x.1) ++
    if k.writes p (tarnAddr e.wh + 2 * o) then [(ratioAt e (o / 128), 8)] else []

/-- The lines of a post of `nb` blocks. -/
def postLines (q : InlPost) (nb : Nat) : List Nat :=
  let span (a n : Nat) : List Nat := (List.range ((a + n + 63) / 64 - a / 64)).map fun j => a / 64 + j
  span q.codes (128 * nb) ++ span q.exps (2 * nb)

/-- Requester 2 takes post `q` of `nb` blocks: it reads the committed copy of some spans and writes others. -/
def State.inletAccess (s : State) (q : InlPost) (nb : Nat) (reads writes : List (Nat × Nat)) (t : State) : State :=
  s.strandIO false 2 (postLines q nb ++ reads.flatMap fun x => s.committedLines x.1 x.2) writes t

/-- A reduced gradient that a post delivers is not finite (R215). -/
def State.postBad (s : State) (e : UpdateEntry) (q : InlPost) : Bool :=
  (List.range (if e.sparse then e.cols / 128 else 1)).any fun b =>
    let (e8, cs) := s.postBlock q b
    cs.any fun c => notFinite (decode32 logL8 e8 c)

/-- Every reduced gradient is watched when it is delivered, before any gate: a poisoned or non-finite one is a veto at its layer (R215,
R229). -/
def State.watchPosts (s : State) (ra : Bool) (e : UpdateEntry) (posts : List InlPost) : State :=
  posts.foldl (fun t q => if t.postBad e q then t.vetoIn ra false e.layer (.at e.layer) else t) s

/-- The veto of non-finite Inlet results, with their cut (R215, R229). A block whose gradient was a veto at its delivery counts no second
one. -/
def State.inletVeto (s : State) (e : UpdateEntry) (gradBad : Bool) (cut : Option Cut) : State :=
  match cut with
  | some c => if gradBad then s else s.vetoIn false false e.layer c
  | none => s

/-! ## Arrival (R239, R240, R245, R251) -/

/-- The areas of a tensor that its Inlets write (R237, R240): base and bytes. -/
def entryAreas (e : UpdateEntry) : List (Nat × Nat) :=
  let n := e.rows * e.cols
  [(e.wh, 2 * n), (e.wm, 2 * n), (e.momc, n), (e.mome, n / 128),
    (e.stat, match e.rule with
      | .fac => 4 * (e.rows + e.cols)
      | .facu => 4 * n
      | .pre => 8 * n),
    (e.root, if e.rule = .pre then 8 * n else 0), (e.hdr, 16), (e.rcnt, if e.sparse then 4 * e.rows else 0),
    (e.scr, 2048 * pieceCount e + 2 * bitmapBytes e + n / 16)].filter fun x => decide (0 < x.2)

/-- An entry whose writes wait for an epoch (R287). -/
def State.entryWaits (s : State) (e : UpdateEntry) : Bool := (entryAreas e).any fun x => s.spanWaits (tarnAddr x.1) x.2

/-- The first post of a die for a tensor `pick` accepts that does not wait for its gate and that no cut has stopped (R216), the entry with that die's addresses, and the pages
its update writes now (R214). -/
def State.nextPost (s : State) (p : Program) (a : Attempt) (die : Nat) (pick : UpdateEntry → Bool) :
    Option (InlPost × UpdateEntry × Pages) :=
  s.inl.posts.findSome? fun q =>
    if q.die = die then
      ((updateOf p q.tensor).filter fun x => !s.stops p a (some x.layer)).bind fun x =>
        let e := forDie x die
        (phaseOf p a e q.vDone).bind fun k => if pick e then some (q, e, k) else none
    else none

/-- A post for a frozen tensor is dropped (R251). -/
def State.frozenPost (s : State) (a : Attempt) (q : InlPost) (e : UpdateEntry) : State :=
  let s1 : State := { s with inl := { s.inl with posts := s.inl.posts.erase q } }
  let s2 := (s1.bump .inl q.die 0x6C 1).raiseCtx 0x0502 q.die 5 { ctxOf false a with layer := e.layer, tensor := some e.tensor }
    (leBytes 4 e.tensor ++ leBytes 4 q.index)
  if bit (s2.reg .inl q.die 0x14) 0 then s2.addCause ⟨5, e.layer, .at e.layer, a.step, false⟩ else s2

/-- A post whose bit of the applied bitmap is set is ignored (R240). -/
def State.redelivered (s : State) (q : InlPost) : State :=
  ({ s with inl := { s.inl with posts := s.inl.posts.erase q } } : State).bump .inl q.die 0x70 1

/-- A bit of the applied bitmap is set in SCR: its byte. -/
def bitmapByte (e : UpdateEntry) (n index : Nat) : Nat := bitmapAt e n + index / 8

/-- A list with its first `q` replaced. -/
def replaceFirst (q r : InlPost) : List InlPost → List InlPost
  | [] => []
  | y :: t => if y = q then r :: t else y :: replaceFirst q r t

/-- Takes a post at the update of some pages: at the first one its bit of the applied bitmap is set (R240); it stays while its U pages
wait for the gate. -/
def State.markApplied (s : State) (a : Attempt) (q : InlPost) (e : UpdateEntry) (k : Pages) : State :=
  let x := s.inl
  let posts := if k = .v then replaceFirst q { q with vDone := true } x.posts else x.posts.erase q
  if k = .u then { s with inl := { x with posts := posts } }
  else
    let at' := bitmapByte e a.step q.index
    let old := leNat (s.load at' 1)
    let new := if old / 2 ^ (q.index % 8) % 2 = 1 then old else old + 2 ^ (q.index % 8)
    (({ s with inl := { x with posts := posts, seen := x.seen ++ [q] } } : State).store at' (leBytes 1 new)).setAttempt false
      { a with applied := a.applied ++ [(q.tensor, q.index)] }

/-- The byte that `markApplied` writes. -/
def markSpans (a : Attempt) (q : InlPost) (e : UpdateEntry) (k : Pages) : List (Nat × Nat) :=
  if k = .u then [] else [(bitmapByte e a.step q.index, 1)]

/-- The count t of a tensor in this step; at its first block on a die the header's COUNT becomes t (R245), once that page is written. -/
def State.countOf (s : State) (p : Program) (e : UpdateEntry) (die : Nat) (k : Pages) : Nat × State :=
  match s.inl.counts.find? fun c => c.1 == die && c.2.1 == e.tensor with
  | some c => (c.2.2, s)
  | none =>
    let t := leNat (s.loadCommitted (tarnAddr e.hdr) 4) + 1
    if k.writes p (tarnAddr e.hdr) then
      let u := s.store (tarnAddr e.hdr) (leBytes 4 t)
      (t, { u with inl := { u.inl with counts := u.inl.counts ++ [(die, e.tensor, t)] } })
    else (t, s)

/-- The header word that `countOf` writes. -/
def State.countSpans (s : State) (p : Program) (e : UpdateEntry) (die : Nat) (k : Pages) : List (Nat × Nat) :=
  if (s.inl.counts.any fun c => c.1 == die && c.2.1 == e.tensor) || !k.writes p (tarnAddr e.hdr) then [] else [(tarnAddr e.hdr, 4)]

/-- The rule of FAC and FACU for one element of column `j` (R245); `vh` is the factored or the element's own second moment. -/
def facElem (e : UpdateEntry) (t : Nat) (rs sc cs g m v : Word) : NewElem :=
  let q := quadOf e g
  let m1 := decay e.b1 m g
  if e.rule = .facu then
    let v1 := decay e.b2 v q
    ⟨m1, v1, facStep e m1 v1 (fSub fOne (pw e.b2 t)) t⟩
  else if t = 1 then ⟨m1, 0, facStep e m1 q fOne t⟩
  else ⟨m1, 0, facStep e m1 (fDiv (fMul rs cs) sc) (fSub fOne (pw e.b2 (t - 1))) t⟩

/-- A dense FAC or FACU block is applied (R245). -/
def State.facBlock (s : State) (p : Program) (a : Attempt) (q : InlPost) (e : UpdateEntry) (k : Pages) : State :=
  let (i, j0) := blockPos e q.index
  let (t, s1) := (s.markApplied a q e k).countOf p e q.die k
  let g := s1.postGrad e q 0
  let word (o : Nat) : Word := s1.committedWord (tarnAddr e.stat + 4 * o)
  let fac := e.rule == .fac
  let rs := if fac then word i else 0
  let sc : Word := if fac then s1.committedWord (tarnAddr e.hdr + 4) else 0
  let (s2, cut) := s1.applyBlock p a e q.die k i j0 fun n m v =>
    facElem e t rs sc (if fac then word (e.rows + j0 + n) else 0) ((g[n]?).getD 0) m v
  let s3 := if k = .u then s2 else s2.inletIllegal a q.die e (s1.postBlock q 0).1
  s3.inletVeto e (s.postBad e q) cut

/-- The spans that `facBlock` writes. -/
def State.facWrites (s : State) (p : Program) (a : Attempt) (q : InlPost) (e : UpdateEntry) (k : Pages) : List (Nat × Nat) :=
  let (i, j0) := blockPos e q.index
  blockWrites p k e (i * e.cols + j0) ++ markSpans a q e k ++ s.countSpans p e q.die k

/-- `facBlock` with the lines it reads and writes (R270): the block's areas, the header, and under FAC its row and column statistics. -/
def State.facTake (s : State) (p : Program) (a : Attempt) (q : InlPost) (e : UpdateEntry) (k : Pages) : State :=
  let (i, j0) := blockPos e q.index
  let stats := if e.rule = .fac then [(tarnAddr e.stat + 4 * i, 4), (tarnAddr e.stat + 4 * (e.rows + j0), 512)] else []
  s.inletAccess q 1 (blockSpans e (i * e.cols + j0) ++ (tarnAddr e.hdr, 8) :: stats) (s.facWrites p a q e k) (s.facBlock p a q e k)

/-- A post is taken: dropped for a frozen tensor (R251), ignored where its bit of the applied bitmap is set (R240), else `t`. -/
def State.takePost (s : State) (a : Attempt) (q : InlPost) (e : UpdateEntry) (t : State) : State :=
  if e.frozen then s.frozenPost a q e
  else if !q.vDone && a.applied.contains (q.tensor, q.index) then s.redelivered q
  else t

/-- GRADIENT_BLOCK (R239, R245): the first dense block that waits at an Inlet is taken. A PRE block waits for the rest of its unit
(R248). `ue`: the block buffer meets an uncorrectable error in this word (R259). -/
def execGradientBlock (die : Nat) (ue : Option Nat) (s : State) : Host.Outcome State Fault Refusal :=
  match ue, s.prog, s.step.att with
  | some w, _, _ => guarded s.hubUp s ((s.raiseEv 0x0505 die (leBytes 4 w)).markFaulted)
  | none, some p, some a =>
    match s.nextPost p a die fun e => !e.sparse with
    | none => .next s
    | some (q, e, k) =>
      guarded (!s.entryWaits e && a.lr.isSome && !s.step.committing) s
        (s.takePost a q e
          (if e.rule = .pre then
            s.inletAccess q 1 [] (markSpans a q e .all) ((s.markApplied a q e .all).inletIllegal a die e (s.postBlock q 0).1)
          else s.facTake p a q e k))
  | none, _, _ => .next s

/-- The sum of R247 over one row: sum64 of each 64-column run, folded in ascending order. -/
def rowSum (l : List Word) : Word := sumRuns l

/-- A sparse row is updated (R250). Its statistic is always the factored one, so R245's branches that look at the committed statistics do
not apply; DESIGN CHOICE (log 101): c2 is 1 - pw(B2, t), as where the new second moment is used. -/
def State.rowUpdate (s : State) (p : Program) (a : Attempt) (q : InlPost) (e : UpdateEntry) (k : Pages) : State :=
  let i := q.index
  let nb := e.cols / 128
  let cntAt := tarnAddr e.rcnt + 4 * i
  let statAt := tarnAddr e.stat + 4 * i
  let g := (List.range nb).flatMap (s.postGrad e q)
  let t := (s.committedWord cntAt).toNat + 1
  let sum := rowSum (g.map (quadOf e))
  let old := s.committedWord statAt
  let rs := decay e.b2 old (fDiv sum (f32Nat e.cols))
  let rsBad := notFinite rs && gated p e.layer
  let s1 := (s.markApplied a q e k).storePages p k statAt (leBytes 4 (if rsBad then old else rs).toNat)
  let c2 := fSub fOne (pw e.b2 t)
  let (s2, cut) := (List.range nb).foldl (fun (acc : State × Option Cut) b =>
    let (u, x) := acc.1.applyBlock p a e q.die k i (128 * b) fun n m _ =>
      let m1 := decay e.b1 m ((g[128 * b + n]?).getD 0)
      ⟨m1, 0, facStep e m1 rs c2 t⟩
    (u, firstCut acc.2 x)) (s1, resultCut p e k statAt (notFinite rs))
  let s3 := s2.storePages p k cntAt (leBytes 4 t)
  let s4 := if k = .u then s3 else (List.range nb).foldl (fun (u : State) b => u.inletIllegal a q.die e (s.postBlock q b).1)
    (s3.bump .inl q.die 0x68 1)
  s4.inletVeto e (s.postBad e q) cut

/-- The spans of a row: its count and statistic, and its blocks. -/
def rowSpans (e : UpdateEntry) (i : Nat) : List (Nat × Nat) := [(tarnAddr e.rcnt + 4 * i, 4), (tarnAddr e.stat + 4 * i, 4)]

/-- The spans that `rowUpdate` writes. -/
def rowWrites (p : Program) (a : Attempt) (q : InlPost) (e : UpdateEntry) (k : Pages) : List (Nat × Nat) :=
  (rowSpans e q.index).filter (fun x => k.writes p x.1) ++
    ((List.range (e.cols / 128)).flatMap fun b => blockWrites p k e (q.index * e.cols + 128 * b)) ++ markSpans a q e k

/-- ROW_RECORD (R250): the first row record that waits at an Inlet is taken. -/
def execRowRecord (die : Nat) (s : State) : Host.Outcome State Fault Refusal :=
  match s.prog, s.step.att with
  | some p, some a =>
    match s.nextPost p a die fun e => e.sparse with
    | none => .next s
    | some (q, e, k) =>
      guarded (!s.entryWaits e && a.lr.isSome && !s.step.committing) s
        (s.takePost a q e
          (s.inletAccess q (e.cols / 128)
            (rowSpans e q.index ++ (List.range (e.cols / 128)).flatMap fun b => blockSpans e (q.index * e.cols + 128 * b))
            (rowWrites p a q e k) (s.rowUpdate p a q e k)))
  | _, _ => .next s

/-! ## Rule PRE (R248, R249) -/

def preSide (e : UpdateEntry) : Nat := 64 * 2 ^ e.pb

def transpose (l : List (List Word)) : List (List Word) :=
  (List.range (l.headD []).length).map fun j => l.map fun r => (r[j]?).getD 0

/-- A matrix product: each entry an FMA chain from +0 in ascending inner index (R248). -/
def matMul (a b : List (List Word)) : List (List Word) :=
  let bt := transpose b
  a.map fun r => bt.map fun c => (r.zip c).foldl (fun acc x => fMa x.1 x.2 acc) 0

/-- An n × n matrix in Tarn, as a strand reads it, or its committed copy. -/
def State.matrix (s : State) (addr n : Nat) (committed : Bool) : List (List Word) :=
  runsOf n ((List.range (n * n)).map fun k =>
    if committed then s.committedWord (addr + 4 * k) else s.loadWord (addr + 4 * k))

/-- Where the left statistic (or root) of a PRE block lies; the right one follows it (R237). -/
def preAt (base n block : Nat) : Nat := base + 8 * n * n * block

/-- An elementwise decay of two matrices. -/
def decayMat (b : Word) (old new : List (List Word)) : List (List Word) :=
  (old.zip new).map fun r => (r.1.zip r.2).map fun x => decay b x.1 x.2

/-- P of R248 from the gradient block and the committed roots. -/
def preDirection (e : UpdateEntry) (g lr rr : List (List Word)) : List (List Word) :=
  let p := matMul (matMul lr g) rr
  if e.graft then
    let norm (m : List (List Word)) : Word := fSqrt (foldAdd ((m.flatMap id).map fun x => fMul x x))
    let ng := norm g
    let np := norm p
    if fLt 0 np then p.map fun r => r.map fun x => fMul x (fDiv ng np) else p
  else p

/-- A new matrix of statistics; in a gated layer an entry that is not finite keeps its old value (R215). Whether one is not finite comes
with it. -/
def newMatrix (gate : Bool) (b : Word) (old new : List (List Word)) : List (List Word) × Bool :=
  let x := decayMat b old new
  ((x.zip old).map fun r => (r.1.zip r.2).map fun v => if notFinite v.1 && gate then v.2 else v.1, x.any fun r => r.any notFinite)

/-- One PRE block: its statistics are updated, and P is formed. The cut of statistics that are not finite comes with it. -/
def State.preBlock (s : State) (p : Program) (e : UpdateEntry) (k : Pages) (block : Nat) (g : List (List Word)) :
    State × List (List Word) × Option Cut :=
  let n := preSide e
  let st := preAt (tarnAddr e.stat) n block
  let rt := preAt (tarnAddr e.root) n block
  let gt := transpose g
  let gate := gated p e.layer
  let (ls, lbad) := newMatrix gate e.b2 (s.matrix st n true) (matMul g gt)
  let (rs, rbad) := newMatrix gate e.b2 (s.matrix (st + 4 * n * n) n true) (matMul gt g)
  let d := preDirection e g (s.matrix rt n true) (s.matrix (rt + 4 * n * n) n true)
  let bytes (m : List (List Word)) : List Byte := (m.flatMap id).flatMap fun w => leBytes 4 w.toNat
  ((s.storePages p k st (bytes ls)).storePages p k (st + 4 * n * n) (bytes rs), d, resultCut p e k st (lbad || rbad))

/-- The gradient rows of a PRE unit, where every block that covers it has been taken. -/
def State.preGrad (s : State) (e : UpdateEntry) (die unit : Nat) : Option (List (List Word)) :=
  let n := preSide e
  let w := max n 128
  let i0 := unit / (e.cols / w) * n
  let j0 := unit % (e.cols / w) * w
  (List.range n).foldl (fun acc r =>
    let row := (List.range (w / 128)).foldl (fun (x : Option (List Word)) b =>
      let k := (i0 + r) * (e.cols / 128) + j0 / 128 + b
      match x, s.inl.seen.find? fun q => q.die == die && q.tensor == e.tensor && q.index == k with
      | some l, some q => some (l ++ s.postGrad e q 0)
      | _, _ => none) (some [])
    match acc, row with
    | some l, some x => some (l ++ [x])
    | _, _ => none) (some [])

/-- First row and column of a PRE unit, its width, and its blocks. -/
def preRect (e : UpdateEntry) (unit : Nat) : Nat × Nat × Nat :=
  let n := preSide e
  let w := max n 128
  (unit / (e.cols / w) * n, unit % (e.cols / w) * w, w)

def preBlocks (e : UpdateEntry) (unit : Nat) : List Nat :=
  let n := preSide e
  let (i0, j0, w) := preRect e unit
  (List.range (w / n)).map fun b => i0 / n * (e.cols / n) + j0 / n + b

/-- A PRE unit is preconditioned and updated (R248). -/
def State.preUpdate (s : State) (p : Program) (a : Attempt) (e : UpdateEntry) (die unit : Nat) (k : Pages) (g : List (List Word)) :
    State :=
  let n := preSide e
  let (i0, j0, w) := preRect e unit
  let (t, s1) := s.countOf p e die k
  let (s2, ps, cut1) := ((preBlocks e unit).zipIdx).foldl (fun (acc : State × List (List (List Word)) × Option Cut) b =>
    let (u, x, c) := acc.1.preBlock p e k b.1 (g.map fun r => (r.drop (n * b.2)).take n)
    (u, acc.2.1 ++ [x], firstCut acc.2.2 c)) (s1, [], none)
  let dir (r c : Nat) : Word := ((((ps[c / n]?).getD [])[r]?).getD [])[c % n]?.getD 0
  let (s3, cut) := (List.range (n * (w / 128))).foldl (fun (acc : State × Option Cut) x =>
    let r := x / (w / 128)
    let b := x % (w / 128)
    let (u, c) := acc.1.applyBlock p a e die k (i0 + r) (j0 + 128 * b) fun c m _ =>
      let m1 := decay e.b1 m (dir r (128 * b + c))
      ⟨m1, 0, mHat e m1 t⟩
    (u, firstCut acc.2 c)) (s2, cut1)
  let x := s3.inl
  let s4 : State := { s3 with inl :=
    if k = .v then { x with preV := x.preV ++ [(e.tensor, unit)] } else { x with pre := x.pre ++ [(e.tensor, unit)] } }
  s4.inletVeto e false cut

/-- The spans that `preUpdate` writes: statistics, the blocks' areas and the header. -/
def State.preWrites (s : State) (p : Program) (e : UpdateEntry) (die unit : Nat) (k : Pages) : List (Nat × Nat) :=
  let n := preSide e
  let (i0, j0, w) := preRect e unit
  ((preBlocks e unit).map fun b => (preAt (tarnAddr e.stat) n b, 8 * n * n)).filter (fun x => k.writes p x.1) ++
    ((List.range (n * (w / 128))).flatMap fun x =>
      blockWrites p k e ((i0 + x / (w / 128)) * e.cols + j0 + 128 * (x % (w / 128)))) ++
    s.countSpans p e die k

/-- `preUpdate` with the lines it reads and writes (R270): statistics, committed roots, header and the blocks' areas. -/
def State.preStep (s : State) (p : Program) (a : Attempt) (e : UpdateEntry) (die unit : Nat) (k : Pages) (g : List (List Word)) :
    State :=
  let n := preSide e
  let (i0, j0, w) := preRect e unit
  let blocks := preBlocks e unit
  let reads := (blocks.flatMap fun b => [(preAt (tarnAddr e.stat) n b, 8 * n * n), (preAt (tarnAddr e.root) n b, 8 * n * n)]) ++
    (tarnAddr e.hdr, 4) :: (List.range (n * (w / 128))).flatMap fun x =>
      blockSpans e ((i0 + x / (w / 128)) * e.cols + j0 + 128 * (x % (w / 128)))
  s.strandIO false 2 (reads.flatMap fun x => s.committedLines x.1 x.2) (s.preWrites p e die unit k) (s.preUpdate p a e die unit k g)

/-- PRE_BLOCK (R248): every gradient block of a PRE unit has arrived. The unit is a PRE block, or the two side by side that share their
gradient blocks where PB is 64 (log 34). Its U pages wait for the gate of a gated layer, its V pages do not (R214). -/
def execPreBlock (die tensor unit : Nat) (s : State) : Host.Outcome State Fault Refusal :=
  match s.prog, s.step.att with
  | some p, some a =>
    match (updateOf p tensor).map fun x => forDie x die with
    | some e =>
      match s.preGrad e die unit, phaseOf p a e (s.inl.preV.contains (tensor, unit)) with
      | some g, some k =>
        guarded (e.rule == .pre && !e.frozen && !s.stops p a (some e.layer) && !s.inl.pre.contains (tensor, unit) && !s.entryWaits e && a.lr.isSome &&
            !s.step.committing && !g.isEmpty) s
          (s.preStep p a e die unit k g)
      | _, _ => .next s
    | none => .next s
  | _, _ => .next s

/-- The pieces of a tensor this die owns, by index. -/
def State.ownedPieces (s : State) (e : UpdateEntry) (die : Nat) : List Nat :=
  (e.own.zipIdx).filterMap fun x => if x.1 = (s.dom.rank, die) then some x.2 else none

/-- Rows and columns of a piece: first, and how many. -/
def pieceRect (e : UpdateEntry) (k : Nat) : Nat × Nat × Nat × Nat :=
  let n := (e.cols + 255) / 256
  let i := 256 * (k / n)
  let j := 256 * (k % n)
  (i, min 256 (e.rows - i), j, min 256 (e.cols - j))

/-- The dense blocks of a piece. -/
def pieceBlocks (e : UpdateEntry) (k : Nat) : List Nat :=
  let (i, h, j, w) := pieceRect e k
  (List.range h).flatMap fun r => (List.range (w / 128)).map fun b => (i + r) * (e.cols / 128) + j / 128 + b

/-- PRE_PERIOD, PRE_ITER_MAX and TOL of a die (R262). -/
def State.prePeriod (s : State) (d : Nat) : Nat := s.field .inl d 0x18 16 16

def State.preIters (s : State) (d : Nat) : Nat := s.field .inl d 0x18 8 6

def State.preTol (s : State) (d : Nat) : Nat := s.field .inl d 0x18 0 5

/-- Step `n` is a refresh step (R249). -/
def State.refreshStep (s : State) (d n : Nat) : Bool := decide ((n + 1) % s.prePeriod d = 0)

/-- The trace of a matrix, in ascending order. -/
def trace (m : List (List Word)) : Word := foldAdd ((m.zipIdx).map fun r => (r.1[r.2]?).getD 0)

def scalarMat (n : Nat) (x : Word) : List (List Word) :=
  (List.range n).map fun i => (List.range n).map fun j => if i = j then x else 0

/-- A, X0 and M0 of R249 from a statistic; none where its trace is 0. -/
def stageRoot (m : List (List Word)) (n : Nat) (epsd : Word) : Option (List (List Word) × List (List Word) × List (List Word)) :=
  let tr := trace m
  if isZero32 tr then none
  else
    let a := (m.zipIdx).map fun r => (r.1.zipIdx).map fun x =>
      if x.2 = r.2 then fAdd x.1 (fMul epsd (fDiv tr (f32Nat n))) else x.1
    let c := trace a
    let k := fDiv fOne c
    some (a, scalarMat n (fSqrt (fRsqrt c)), a.map fun r => r.map fun x => fMul x k)

/-- The statistics updates of a PRE tensor on a die are done: those of every unit of a piece it owns (R249). -/
def State.preDone (s : State) (e : UpdateEntry) (die : Nat) : Bool :=
  (s.ownedPieces e die).all fun k => (pieceBlocks e k).all fun b => s.inl.pre.contains (e.tensor, preUnit e b)

/-- ROOT_REFRESH (R249): in a refresh step, after the tensor's statistics updates, the Inlet stages one side for its NS_ITER kernel, the
strand `id`. -/
def execRootRefresh (id : Nat) (s : State) : Host.Outcome State Fault Refusal :=
  match s.prog, s.step.att, (s.strand? id).map Strand.kind with
  | some p, some a, some (StrandKind.nsIter d) =>
    match (updateOf p d.tensor).map fun x => forDie x d.die with
    | some e =>
      let n := preSide e
      let m := s.matrix (preAt (tarnAddr e.stat) n d.block + if d.right then 4 * n * n else 0) n false
      let c := s.physCluster d.cluster
      let at' := poolAddr c d.stage
      let put := match stageRoot m n e.epsd with
        | none => { s with inl := { s.inl with staged := s.inl.staged ++ [(id, true)] } }
        | some (x, y, z) =>
          let t := s.putWords at' ((x ++ y ++ z).flatMap fun r => r)
          { t with inl := { t.inl with staged := t.inl.staged ++ [(id, false)] } }
      let lines := s.strandLines (preAt (tarnAddr e.stat) n d.block + if d.right then 4 * n * n else 0) (4 * n * n)
      guarded (s.refreshStep d.die a.step && s.preDone e d.die && !s.stops p a (some e.layer) && !s.inl.staged.any fun x => x.1 == id) s
        (s.strandIO false 2 lines [] put)
    | none => .next s
  | _, _, _ => .next s

/-- One Newton–Schulz iteration on X and M (R249). -/
def nsStep (x m : List (List Word)) : List (List Word) × List (List Word) :=
  let five : Word := 0x40A00000
  let t := (m.zipIdx).map fun r => (r.1.zipIdx).map fun v =>
    fMul (fSub (if v.2 = r.2 then five else 0) v.1) 0x3E800000
  let t2 := matMul t t
  (matMul x t, matMul (matMul t2 t2) m)

/-- Every entry of I - M is at most 2^-tol in magnitude; false with a non-finite entry. -/
def nsDone (m : List (List Word)) (tol : Nat) : Bool :=
  (m.zipIdx).all fun r => (r.1.zipIdx).all fun v =>
    let d := fSub (if v.2 = r.2 then fOne else 0) v.1
    !notFinite d && decide (magBits d ≤ (pow2W (-(tol : Int))).toNat)

/-- The iteration of R249: the root, where it is accepted. -/
def nsLoop (tol : Nat) : Nat → List (List Word) → List (List Word) → Option (List (List Word))
  | 0, _, _ => none
  | k + 1, x, m =>
    let (x1, m1) := nsStep x m
    if x1.any (fun r => r.any notFinite) || m1.any (fun r => r.any notFinite) then none
    else if nsDone m1 tol then some x1
    else nsLoop tol k x1 m1

/-- A block keeps a root at this refresh: counted once (R237, R249). -/
def State.keepRoot (s : State) (d : NsDesc) : State :=
  let k := (d.die, d.tensor, d.block)
  { s with inl := { s.inl with kept := if s.inl.kept.contains k then s.inl.kept else s.inl.kept ++ [k] } }

/-- ROOT_STEP and ROOT_KEPT of the header: the blocks of its own die that kept their root (R237). -/
def State.rootHeader (s : State) (d : NsDesc) (n : Nat) : State :=
  s.store (tarnAddr d.hdr + 8) (leBytes 4 n ++ leBytes 4 (s.inl.kept.filter fun k => k.1 == d.die && k.2.1 == d.tensor).length)

/-- What an NS_ITER kernel does: in a step without a refresh nothing; otherwise the iteration on what is staged. -/
def State.nsPass (s : State) (ra : Bool) (a : Attempt) (t : Strand) (c : Nat) (d : NsDesc) : State :=
  let done (u : State) : State := u.setCutter c { u.cutter c with kernel := some (t.id, ra, true), waiting := false }
  if !s.refreshStep d.die a.step then done s
  else match s.inl.staged.find? fun x => x.1 == t.id with
    | none => s
    | some (_, true) => done ((s.keepRoot d).rootHeader d a.step)
    | some (_, false) =>
      let n := 64 * 2 ^ d.pb
      let at' := poolAddr c d.stage
      let x0 := s.poolRows c (d.stage + 4 * n * n) n n
      let m0 := runsOf n (s.words (at' + 8 * n * n) (n * n))
      match nsLoop (s.preTol d.die) (s.preIters d.die) x0 m0 with
      | some x => done ((s.storeWords (tarnAddr d.root) (x.flatMap fun r => r)).rootHeader d a.step)
      | none =>
        let s1 := ((s.keepRoot d).rootHeader d a.step).bump .inl d.die 0x74 1
        done (s1.raiseCtx 0x0503 d.die 5 { ctxOf false a with tensor := some d.tensor }
          (leBytes 4 d.block ++ leBytes 1 (b2n d.right)))

/-- A root or a header in a U region is written only after the gate of its layer (R214). -/
def State.rootShut (s : State) (d : NsDesc) : Bool :=
  match s.prog, s.step.att with
  | some p, some a => (inPlace p (tarnAddr d.root) || inPlace p (tarnAddr d.hdr)) &&
      (updateOf p d.tensor).any fun e => gateShut p a e.layer
  | _, _ => false

/-- NS_ITER (R249). -/
def execNsIter (ra : Bool) (id : Nat) (fault : CutFault) (s : State) : Host.Outcome State Fault Refusal :=
  s.runKernel ra id fault (fun k => match k with
    | .nsIter d => !s.spanWaits (tarnAddr d.root) (4 * (64 * 2 ^ d.pb) ^ 2) && !s.writeWaits (tarnAddr d.hdr) && !s.rootShut d
    | _ => false) fun _ a t c _ u =>
    match t.kind with
    | .nsIter d =>
      let n := 64 * 2 ^ d.pb
      let spans := match u.refreshStep d.die a.step, u.inl.staged.find? fun x => x.1 == t.id with
        | true, some (_, skip) => (tarnAddr d.hdr + 8, 8) :: if skip then [] else [(tarnAddr d.root, 4 * n * n)]
        | _, _ => []
      u.strandIO ra 0 [] spans (u.nsPass ra a t c d)
    | _ => u

/-! ## Statistics (R247) -/

/-- q of every element of a piece, by rows. -/
def State.pieceQ (s : State) (e : UpdateEntry) (die k : Nat) : List (List Word) :=
  let (i, h, j, w) := pieceRect e k
  (List.range h).map fun r => (List.range (w / 128)).flatMap fun b =>
    let ix := (i + r) * (e.cols / 128) + j / 128 + b
    match s.inl.seen.find? fun q => q.die == die && q.tensor == e.tensor && q.index == ix with
    | some q => (s.postGrad e q 0).map (quadOf e)
    | none => List.replicate 128 0

/-- The lines of a piece's gradient blocks. -/
def State.seenLines (s : State) (e : UpdateEntry) (die k : Nat) : List Nat :=
  (pieceBlocks e k).flatMap fun ix =>
    match s.inl.seen.find? fun q => q.die == die && q.tensor == e.tensor && q.index == ix with
    | some q => postLines q 1
    | none => []

/-- Where the partials of a piece go in SCR: 256 row partials, then 256 column partials (log 35). -/
def partialAt (e : UpdateEntry) (k : Nat) : Nat := tarnAddr e.scr + 2048 * k

/-- The partials of some pieces of a tensor go to SCR: the sums of the rows, and those of the columns. -/
def State.putPartials (s : State) (e : UpdateEntry) (die : Nat) (ps : List Nat) : State :=
  ps.foldl (fun (u : State) k =>
    let q := s.pieceQ e die k
    (u.storeWords (partialAt e k) (q.map rowSum)).storeWords (partialAt e k + 1024) ((transpose q).map foldAdd)) s

/-- STATISTICS_PASS (R247): every block the die owns in a dense FAC tensor is applied: the row and column partials are formed, and the
strand of the pass completes. -/
def execStatisticsPass (id : Nat) (s : State) : Host.Outcome State Fault Refusal :=
  match s.prog, s.step.att, (s.strand? id).map Strand.kind with
  | some p, some a, some (StrandKind.statsPass die tensor) =>
    match (updateOf p tensor).map fun x => forDie x die with
    | some e =>
      let ps := s.ownedPieces e die
      let ready := a.started.contains id && !a.done.contains id && !s.stops p a (some e.layer) && e.rule == .fac && !e.sparse && !gateShut p a e.layer &&
        (e.frozen || (ps.all fun k => (pieceBlocks e k).all fun b => a.applied.contains (tensor, b)) &&
          !s.inl.posts.any fun q => q.die == die && q.tensor == tensor)
      let s1 := s.putPartials e die ps
      guarded ready s
        (s.strandIO false 2 (ps.flatMap fun k => s.seenLines e die k) (ps.map fun k => (partialAt e k, 2048))
          (({ s1 with inl := { s1.inl with passed := s1.inl.passed ++ [(die, tensor)] } } : State).completeStrand false id))
    | none => .next s
  | _, _, _ => .next s

/-- A statistic's new value; in a gated layer a non-finite one is not written (R247): the value, and whether it is bad. -/
def newStat (gate : Bool) (b old sum : Word) (n : Nat) : Word × Bool :=
  let v := decay b old (fDiv sum (f32Nat n))
  if notFinite v then (if gate then old else v, true) else (v, false)

/-- A span of Tarn lies in the stacks of a die (R235, R265). -/
def onDie (die a n : Nat) : Bool := decide (n = 0) || (stackDie (stackOf a) == die && stackDie (stackOf (a + n - 1)) == die)

/-- STATISTICS_RESULT (R247): the statistics collectives have delivered the sums, at two Tarn addresses of the die (R235); Rs, Cs and S are
updated. -/
def execStatisticsResult (die tensor rowSums colSums : Nat) (s : State) : Host.Outcome State Fault Refusal :=
  match s.prog, s.step.att with
  | some p, some a =>
    match (updateOf p tensor).map fun x => forDie x die with
    | some e =>
      let gate := gated p e.layer
      let old (k : Nat) : Word := BitVec.ofNat 32 (leNat (s.load (tarnAddr e.stat + 4 * k) 4))
      let rs := (List.range e.rows).map fun i => newStat gate e.b2 (old i) (s.loadWord (tarnAddr rowSums + 4 * i)) e.cols
      let cs := (List.range e.cols).map fun j =>
        newStat gate e.b2 (old (e.rows + j)) (s.loadWord (tarnAddr colSums + 4 * j)) e.rows
      let sv := fDiv (sumRuns (cs.map (·.1))) (f32Nat e.cols)
      let s1 := s.storeWords (tarnAddr e.stat) ((rs ++ cs).map (·.1))
      let s2 := if notFinite sv && gate then s1 else s1.storeWord (tarnAddr e.hdr + 4) sv
      let s3 : State := { s2 with inl := { s2.inl with stats := s2.inl.stats ++ [(die, tensor)] } }
      guarded (s.inl.passed.contains (die, tensor) && !s.inl.stats.contains (die, tensor) && !s.entryWaits e && !e.frozen &&
          !s.step.committing && !a.skip && !s.stops p a (some e.layer) && onDie die (tarnAddr rowSums) (4 * e.rows) &&
          onDie die (tarnAddr colSums) (4 * e.cols)) s
        (let stat := (tarnAddr e.stat, 4 * (e.rows + e.cols))
         let lines := s.strandLines stat.1 stat.2 ++ s.strandLines (tarnAddr rowSums) (4 * e.rows) ++
           s.strandLines (tarnAddr colSums) (4 * e.cols)
         s.strandIO false 2 lines [stat, (tarnAddr e.hdr + 4, 4)]
           (s3.inletVeto e false (firstCut (resultCut p e .all (tarnAddr e.stat) ((rs ++ cs).any (·.2)))
             (resultCut p e .all (tarnAddr e.hdr) (notFinite sv)))))
    | none => .next s
  | _, _ => .next s

/-! ## Update ratios (R255) -/

/-- Everything that feeds a tensor's Inlet posts is complete. -/
def feedsDone (a : Attempt) (ts : List Strand) (tensor : Nat) : Bool :=
  ts.all fun t => !active a t || a.done.contains t.id || (match t.kind with
    | .coll d | .hosted d => !(d.op == .rs && d.toInlet && d.inletTensor == tensor)
    | _ => true)

/-- The parts of a unit are all there: every run of a piece; for a row unit every touched row. -/
def State.unitWhole (s : State) (a : Attempt) (ts : List Strand) (e : UpdateEntry) (unit : Nat) : Bool :=
  if e.sparse then feedsDone a ts e.tensor && !s.inl.posts.any fun q => q.tensor == e.tensor && q.index / 256 == unit
  else (s.inl.parts.filter fun x => x.tensor == e.tensor && x.unit == unit).length == 2 * (pieceBlocks e unit).length

/-- A list of parts with one more, in ascending order. -/
def insertPart (x : RatioPart) : List RatioPart → List RatioPart
  | [] => [x]
  | y :: t => if x.index ≤ y.index then x :: y :: t else y :: insertPart x t

/-- The partials of a unit folded in ascending block order (R255). -/
def foldUnit (l : List RatioPart) : Word × Word :=
  let sorted := l.foldl (fun acc x => insertPart x acc) []
  let blocks := runsOf 2 sorted
  let pair (f : RatioPart → Word) (b : List RatioPart) : Word :=
    match b with
    | [x, y] => fAdd (f x) (f y)
    | [x] => f x
    | _ => 0
  (foldAdd (blocks.map (pair (·.sd))), foldAdd (blocks.map (pair (·.sw))))

/-- The first unit whose parts are all there: its update-table index and entry. -/
def State.wholeUnit (s : State) (p : Program) (a : Attempt) : Option (Nat × UpdateEntry × Nat) :=
  s.inl.parts.findSome? fun x =>
    (p.updates.zipIdx).findSome? fun e =>
      if e.1.tensor = x.tensor ∧ s.unitWhole a p.strands e.1 x.unit then some (e.2, e.1, x.unit) else none

/-- The wellhead takes a folded pair. -/
def State.addRatio (s : State) (i unit : Nat) (sd sw : Word) : State :=
  { s with dom := { s.dom with ratios := s.dom.ratios ++ [(i, unit, sd, sw)] } }

/-- A RATIO message on its way up: taken at the wellhead until the step is committed, passed on unchanged elsewhere (R406). -/
def State.relayRatio (s : State) : State :=
  match s.takeUp 0x12 with
  | none => s
  | some (_, f, t) =>
    if t.isWellhead then
      match t.step.att with
      | some a =>
        if a.step = f.step ∧ a.base = fld f 0 ∧ !a.gotCommit then
          t.addRatio (fld f 1) (fld f 2) (BitVec.ofNat 32 (fld f 3)) (BitVec.ofNat 32 (fld f 4))
        else t
      | none => t
    else t.sendRank (t.parentOf t.dom.rank) 0 (.dom f)

/-- RATIO (R255): a complete unit of this module is folded and sent to the wellhead; one on its way is relayed. -/
def execRatio (s : State) : Host.Outcome State Fault Refusal :=
  let own :=
    match s.prog, s.step.att with
    | some p, some a =>
      match s.wholeUnit p a with
      | some (i, e, unit) =>
        let mine (x : RatioPart) : Bool := x.tensor == e.tensor && x.unit == unit
        let (sd, sw) := foldUnit (s.inl.parts.filter mine)
        let t : State := { s with inl := { s.inl with parts := s.inl.parts.filter fun x => !mine x } }
        if t.isWellhead then t.addRatio i unit sd sw
        else t.sendRank (t.parentOf t.dom.rank) 0
          (.dom (t.domFrame 0x12 false a.step a.number 0 (encN [a.base, i, unit, sd.toNat, sw.toNat])))
      | none => s
    | _, _ => s
  .next own.relayRatio

end Sys2Proof.Machine
end

