-- ==== Sys2Proof/Machine/Collective.lean ====
section
/-! DEFINITION. Collectives (R306 to R329): the canonical tree on the fabric, issue, frames and credit, stalls and restarts,
completion, and the hosted launch. -/
namespace Sys2Proof.Machine

/-! ## Geometry of a collective (R307, R308, R313) -/

/-- Number of leaves. -/
def leafCount (d : CollDesc) : Nat := 2 ^ d.llog

/-- DKIND 1, which only an RS has: the blocks go to the owning Inlet (R307). -/
def collPosts (d : CollDesc) : Bool := d.op == .rs && d.toInlet

/-- The elements of each segment: its first and how many. Under DKIND 1 the segments are the pieces or row units in index order. -/
def segments (p : Program) (d : CollDesc) : List (Nat × Nat) :=
  let even (n len : Nat) : List (Nat × Nat) := (List.range ((n + len - 1) / len)).map fun k => (k * len, min len (n - k * len))
  match collPosts d, updateOf p d.inletTensor with
  | true, some e =>
    if e.sparse then even (e.rows * e.cols) (256 * e.cols)
    else (List.range (e.own.length)).foldl (fun (acc : List (Nat × Nat)) k =>
      let r := pieceRect e k
      let start := acc.foldl (fun a x => a + x.2) 0
      acc ++ [(start, r.2.1 * r.2.2.2)]) []
  | _, _ => even d.elems (if d.segLen = 0 then d.elems else d.segLen)

/-- The owner member of segment `k` (R307 OWNMAP, which only an RS has; R313). -/
def Coll.owner (c : Coll) (k : Nat) : Nat :=
  match c.desc.op with
  | .rs => (c.desc.ownMap[k]?).getD (k % c.ranks.length)
  | _ => k % c.ranks.length

/-- The member that holds a leaf; none for padding (R315). -/
def Coll.holder (c : Coll) (leaf : Nat) : Option Nat := c.leaves.findIdx? fun l => l.contains leaf

/-- The members that hold leaves of the node of level `l` from leaf `first`. -/
def Coll.holders (c : Coll) (l first : Nat) : List Nat :=
  (List.range c.leaves.length).filter fun m => ((c.leaves[m]?).getD []).any fun x => decide (first ≤ x ∧ x < first + 2 ^ l)

/-- The node covers padding leaves only. -/
def Coll.padding (c : Coll) (l first : Nat) : Bool := (c.holders l first).isEmpty

/-- Who forms a node below the root of a segment owned by `own` (R312). -/
def Coll.former (c : Coll) (own l first : Nat) : Nat :=
  match c.holders l first with
  | [] => own
  | [m] => m
  | m :: _ =>
    if c.aligned then
      let per := max ((leafCount c.desc) / c.ranks.length) 1
      first / per + own % (2 ^ l / per)
    else (c.holder first).getD m

/-- Levels below the root; a single leaf counts as one. -/
def Coll.depth (c : Coll) : Nat := max c.desc.llog 1

/-- The nodes below the root, by level and first leaf, without padding. -/
def Coll.treeNodes (c : Coll) : List (Nat × Nat) :=
  ((List.range c.depth).flatMap fun l => (List.range (2 ^ (c.desc.llog - l))).map fun j => (l, j * 2 ^ l)).filter fun n =>
    !c.padding n.1 n.2

/-- LEVEL of a root, and of the data of an AG or BC (R319). -/
def rootLevel : Nat := 0xFE

def dataLevel : Nat := 0xFF

/-- A transfer of a node between two members. -/
structure Edge where
  level : Nat
  first : Nat
  src : Nat
  dst : Nat
  deriving DecidableEq, Repr

/-- The transfers that bring the data of member `src` to every member (R313): over the partners in descending crossing level, or
directly. -/
def Coll.spread (c : Coll) (level first src : Nat) : List Edge :=
  let g := c.ranks.length
  if c.aligned then
    (List.range g).flatMap fun m =>
      let x := m ^^^ src
      ((List.range g.log2).filter fun b => x % 2 ^ (b + 1) = 0).map fun b => ⟨level, first, m, m ^^^ 2 ^ b⟩
  else ((List.range g).filter fun m => m != src).map fun m => ⟨level, first, src, m⟩

/-- The transfers of the reduction of segment `k`. -/
def Coll.reduceEdges (c : Coll) (k : Nat) : List Edge :=
  let own := c.owner k
  c.treeNodes.filterMap fun n =>
    let f := c.former own n.1 n.2
    let up := if n.1 + 1 ≥ c.desc.llog then own else c.former own (n.1 + 1) (n.2 / 2 ^ (n.1 + 1) * 2 ^ (n.1 + 1))
    if f = up then none else some ⟨n.1, n.2, f, up⟩

/-- Every transfer of segment `k` (R313). -/
def Coll.edges (c : Coll) (k : Nat) : List Edge :=
  match c.desc.op with
  | .rs => c.reduceEdges k
  | .ar => c.reduceEdges k ++ c.spread rootLevel 0 (c.owner k)
  | .ag => (List.range c.ranks.length).flatMap fun m => c.spread dataLevel m m
  | .bc => c.spread dataLevel 0 0

/-- The members FIN is exchanged with, by crossing level (aligned) or member (R326). -/
def Coll.peers (c : Coll) : List (Nat × Nat) :=
  if c.aligned then (List.range c.ranks.length.log2).map fun k => (k, c.me ^^^ 2 ^ k)
  else ((List.range c.ranks.length).filter fun m => m != c.me).map fun m => (m, m)

def Coll.rankOf (c : Coll) (m : Nat) : Nat := (c.ranks[m]?).getD 0xFFFF

/-! ## Values of nodes (R306, R315, R318) -/

/-- The elements of a block, decoded; none where it is poisoned. -/
def blockDy (g : Bool) (b : Nat × List Nat) : Option (List Dy) :=
  if 0xEF < b.1 then none
  else if b.1 = 0 then some (b.2.map fun _ => dyZero)
  else some (b.2.map fun c => if g then (let v := l8gValue c; ⟨v.m, v.e + b.1 - 127⟩) else (decodeDy logL8 b.1 c).getD dyZero)

/-- The unclamped fit exponent 127 + E of a magnitude that is not zero (R64). -/
def fitRaw (f : LogFmt) (amax : Dy) : Int :=
  let m := amax.m.natAbs
  let e0 := (m.log2 : Int) + amax.e - f.vexp
  127 + (if m * 2 ^ 23 ≤ f.vtop * 2 ^ m.log2 then e0 else e0 + 1)

/-- A node block from the blocks of its children, and whether it is newly poisoned (R306). -/
def sumBlock (root ga gb : Bool) (a b : Nat × List Nat) : (Nat × List Nat) × Bool :=
  let zeros := a.2.map fun _ => 0
  match blockDy ga a, blockDy gb b with
  | some x, some y =>
    let v := (x.zip y).map fun p => p.1.add p.2
    let amax := v.foldl (fun m d => if m.lt d.abs then d.abs else m) dyZero
    if amax.m = 0 then ((0, zeros), false)
    else if 0xEF < fitRaw logL8 amax then ((0xFF, zeros), true)
    else
      let e := fitDy logL8 amax
      if root then
        let r := narrowBlockDy logL8 v e
        ((r.e8, r.codes), false)
      else
        let cs := v.map fun d => toL8g d e
        ((if cs.all fun c => c % 512 == 0 then 0 else e, cs), false)
  | _, _ => ((0xFF, zeros), false)

/-- The rows that occur in a list of row blocks, in ascending order. -/
def rowsOf (l : List (Nat × Nat × List Nat)) : List Nat :=
  l.foldl (fun acc b => insert' b.1 acc) []
where
  insert' (r : Nat) : List Nat → List Nat
    | [] => [r]
    | x :: t => if r < x then r :: x :: t else if r = x then x :: t else x :: insert' r t

/-- A node from its two children, and how many of its blocks are newly poisoned. -/
def combineVals (root : Bool) (a b : SegVal) : SegVal × Nat :=
  match a, b with
  | .blocks ga x, .blocks gb y =>
    let r := (x.zip y).map fun p => sumBlock root ga gb p.1 p.2
    (.blocks (!root) (r.map (·.1)), (r.filter (·.2)).length)
  | .f32 x, .f32 y =>
    (.f32 ((x.zip y).map fun p => (fAdd (BitVec.ofNat 32 p.1) (BitVec.ofNat 32 p.2)).toNat), 0)
  | .rows ga x, .rows gb y =>
    let r := (rowsOf (x ++ y)).flatMap fun row =>
      let xs := x.filter fun q => q.1 == row
      let ys := y.filter fun q => q.1 == row
      let zero (l : List (Nat × Nat × List Nat)) : List (Nat × Nat × List Nat) := l.map fun q => (row, 0, q.2.2.map fun _ => 0)
      let xs1 := if xs.isEmpty then zero ys else xs
      let ys1 := if ys.isEmpty then zero xs else ys
      (xs1.zip ys1).map fun p => (row, sumBlock root ga gb p.1.2 p.2.2)
    (.rows (!root) (r.map fun q => (q.1, q.2.1)), (r.filter (·.2.2)).length)
  | _, _ => (a, 0)

/-- A node whose leaves are all padding is +0 (R315). -/
def zeroVal (d : CollDesc) (len : Nat) : SegVal :=
  match d.fmt with
  | .f32 => .f32 (List.replicate len 0)
  | .l8 => .blocks true (List.replicate (len / (collBlk d)) (0, List.replicate (collBlk d) 0))
  | .bytes => .bytes (List.replicate len 0)
  | .sparse => .rows true []

/-! ## Memory of a collective -/

/-- A run of blocks in memory: codes from `at'`, exponent entries from `ex` (R143). -/
def State.loadBlocks (s : State) (at' ex blk n : Nat) : List (Nat × List Nat) :=
  let es := s.load ex (2 * n)
  let cs := s.load at' (blk * n)
  (List.range n).map fun i => ((es.getD (2 * i) 0).toNat, ((cs.drop (blk * i)).take blk).map (·.toNat))

/-- The row records of a SPARSE leaf or root from record `i` on: the row, and where its codes and exponents lie. A list ends at row
index 0xFFFFFFFF. -/
def State.rowRecords (s : State) (at' ex cols blk : Nat) : Nat → Nat → List (Nat × Nat × Nat)
  | 0, _ => []
  | n + 1, i =>
    let a := at' + i * (4 + cols)
    let r := leNat (s.load a 4)
    if r = 0xFFFFFFFF then [] else (r, a + 4, ex + 2 * (cols / blk) * i) :: rowRecords s at' ex cols blk n (i + 1)

/-- The value of held leaf number `pos` of this member for the elements from `start` (R307). -/
def State.leafVal (s : State) (d : CollDesc) (pos start len : Nat) : SegVal :=
  let base := d.src + pos * d.lstride
  let ex := d.srce + pos * (2 * d.lstride / (collBlk d))
  match d.fmt with
  | .bytes => .bytes ((s.load (base + start) len).map (·.toNat))
  | .f32 => .f32 ((s.loadWords (base + 4 * start) len).map (·.toNat))
  | .l8 => .blocks false (s.loadBlocks (base + start) (ex + 2 * (start / (collBlk d))) (collBlk d) (len / (collBlk d)))
  | .sparse =>
    let rs := (s.rowRecords base ex d.cols (collBlk d) (d.elems / d.cols) 0).filter fun r =>
      decide (start ≤ r.1 * d.cols ∧ r.1 * d.cols < start + len)
    .rows false (rs.flatMap fun r => (s.loadBlocks r.2.1 r.2.2 (collBlk d) (d.cols / (collBlk d))).map fun b => (r.1, b))

/-- The lines that leaf number `pos` occupies for the elements from `start`. -/
def State.leafLines (s : State) (d : CollDesc) (pos start len : Nat) : List Nat :=
  let base := d.src + pos * d.lstride
  let ex := d.srce + pos * (2 * d.lstride / (collBlk d))
  match d.fmt with
  | .bytes => s.strandLines (base + start) len
  | .f32 => s.strandLines (base + 4 * start) (4 * len)
  | .l8 => s.strandLines (base + start) len ++ s.strandLines (ex + 2 * (start / (collBlk d))) (2 * (len / (collBlk d)))
  | .sparse =>
    let rs := s.rowRecords base ex d.cols (collBlk d) (d.elems / d.cols) 0
    s.strandLines (base + rs.length * (4 + d.cols)) 4 ++
      rs.flatMap fun r => s.strandLines (r.2.1 - 4) (4 + d.cols) ++ s.strandLines r.2.2 (2 * (d.cols / (collBlk d)))

/-- Illegal exponents among the blocks of a leaf (R49). -/
def illegalExps : SegVal → Nat
  | .blocks false l => (l.filter fun b => illegalE logL8 b.1).length
  | .rows false l => (l.filter fun b => illegalE logL8 b.2.1).length
  | _ => 0

/-- The exponent entry of block `i` of a destination: TAG counts from the start of DST (R307). -/
def expEntry (i e8 : Nat) : List Byte := leBytes 2 (e8 + i % 16 * 256)

/-- Where row record `i` of the segment from `start` goes in a SPARSE destination: its record, and its exponents. -/
def rowDst (d : CollDesc) (start i : Nat) : Nat × Nat :=
  let k := start / d.cols + i
  (d.dst + k * (4 + d.cols), d.dste + 2 * (d.cols / (collBlk d)) * k)

/-- Writes a destination segment that starts at element `start` of the destination. -/
def State.writeSegment (s : State) (d : CollDesc) (start len : Nat) (v : SegVal) : State :=
  match v with
  | .bytes l => s.store (d.dst + start) (l.map fun b => BitVec.ofNat 8 b)
  | .f32 l => s.storeWords (d.dst + 4 * start) (l.map fun w => BitVec.ofNat 32 w)
  | .blocks _ l =>
    let b0 := start / (collBlk d)
    (s.store (d.dst + start) (l.flatMap fun b => b.2.map fun c => BitVec.ofNat 8 c)).store (d.dste + 2 * b0)
      ((l.zipIdx).flatMap fun b => expEntry (b0 + b.2) b.1.1)
  | .rows _ l =>
    let rs := rowsOf l
    let t := (rs.zipIdx).foldl (fun (u : State) r =>
      let bs := l.filter fun b => b.1 == r.1
      let w := rowDst d start r.2
      (u.store w.1 (leBytes 4 r.1 ++ bs.flatMap fun b => b.2.2.map fun c => BitVec.ofNat 8 c)).store w.2
        ((bs.zipIdx).flatMap fun b => expEntry ((w.2 - d.dste) / 2 + b.2) b.1.2.1)) s
    if rs.length * d.cols < len then t.store (rowDst d start rs.length).1 (leBytes 4 0xFFFFFFFF) else t

/-- The spans that `writeSegment` writes. -/
def segmentSpans (d : CollDesc) (start len : Nat) (v : SegVal) : List (Nat × Nat) :=
  match v with
  | .bytes l => [(d.dst + start, l.length)]
  | .f32 l => [(d.dst + 4 * start, 4 * l.length)]
  | .blocks _ l => [(d.dst + start, collBlk d * l.length), (d.dste + 2 * (start / (collBlk d)), 2 * l.length)]
  | .rows _ l =>
    let n := (rowsOf l).length
    let w := rowDst d start 0
    [(w.1, n * (4 + d.cols) + (if n * d.cols < len then 4 else 0)), (w.2, 2 * (d.cols / (collBlk d)) * n)]

/-- The posts of a root segment to its Inlet (R238, R313). -/
def State.rootPosts (s : State) (d : CollDesc) (e : UpdateEntry) (k start : Nat) (v : SegVal) : List InlPost :=
  let die := ((e.own[k]?).getD (0, d.eng)).2
  match v with
  | .blocks _ l =>
    ((pieceBlocks e k).zip (List.range l.length)).map fun b =>
      ⟨die, e.tensor, k, b.1, s.strandAddr (d.dst + start + (collBlk d) * b.2),
        s.strandAddr (d.dste + 2 * (start / (collBlk d) + b.2)), false⟩
  | .rows _ l => ((rowsOf l).zipIdx).map fun r =>
      let w := rowDst d start r.2
      ⟨die, e.tensor, k, r.1, s.strandAddr (w.1 + 4), s.strandAddr w.2, false⟩
  | _ => []

/-! ## Frames of a node (R319, R320) -/

/-- Blocks of `n` code bytes that fit one frame beside their exponents and `h` more bytes. -/
def blocksPerFrame (h n : Nat) : Nat := ((List.range 300).filter fun k => decide (h + (k + 3) / 4 * 4 + k * n ≤ 8192)).length - 1

/-- Code bytes of a block. -/
def segCodeBytes (g : Bool) (blk : Nat) : Nat := if g then blk * 10 / 8 else blk

/-- A list in runs of `n`; an empty list is one empty run. -/
def cut {α : Type} (n : Nat) (l : List α) : List (List α) := if l.isEmpty then [[]] else runsOf n l

/-- Bytes of row records. -/
def recordBytes (g : Bool) (blk : Nat) (l : List (Nat × Nat × List Nat)) : Nat :=
  (rowsOf l).foldl (fun n r =>
    let k := (l.filter fun b => b.1 == r).length
    n + 4 + (k + 3) / 4 * 4 + k * segCodeBytes g blk) 0

/-- Row records packed into frames: a frame takes the next record, or the next part of one, while it has room. -/
def packRows (g : Bool) (blk : Nat) : List (Nat × Nat × List Nat) → List (List (Nat × Nat × List Nat)) →
    List (List (Nat × Nat × List Nat))
  | cur, [] => [cur]
  | cur, p :: t =>
    if cur.isEmpty || decide (recordBytes g blk (cur ++ p) ≤ 8192) then packRows g blk (cur ++ p) t else cur :: packRows g blk p t

/-- What the frames of a node carry (R320): whole blocks. A SPARSE frame holds whole row records, but for a row longer than one frame,
which continues in the next. -/
def chunks (blk : Nat) : SegVal → List SegVal
  | .bytes l => (cut 8192 l).map .bytes
  | .f32 l => (cut 2048 l).map .f32
  | .blocks g l => (cut (blocksPerFrame 0 (segCodeBytes g blk)) l).map (.blocks g)
  | .rows g l =>
    (packRows g blk [] ((rowsOf l).flatMap fun r =>
      runsOf (blocksPerFrame 4 (segCodeBytes g blk)) (l.filter fun b => b.1 == r))).map (.rows g)

/-- Frames of a node: one for an empty SPARSE node. -/
def frameCount (blk : Nat) (v : SegVal) : Nat := (chunks blk v).length

/-- FMT of a frame (R319). -/
def fmtCode : SegVal → Nat
  | .bytes _ => 0
  | .blocks false _ => 1
  | .blocks true _ => 2
  | .f32 _ => 3
  | .rows false _ => 4
  | .rows true _ => 5

/-- The payload that carries a value; `last` where it ends its node. -/
def SegVal.payload (last : Bool) : SegVal → SegPayload
  | .bytes l => ⟨[], l, [], last⟩
  | .f32 l => ⟨[], l, [], last⟩
  | .blocks _ l => ⟨l.map (·.1), l.flatMap (·.2), [], last⟩
  | .rows _ l => ⟨l.map (·.2.1), l.flatMap (·.2.2), l.map (·.1), last⟩

/-- The value that a frame carries. -/
def payloadVal (fmt blk : Nat) (x : SegPayload) : SegVal :=
  let codes := runsOf blk x.codes
  match fmt with
  | 0 => .bytes x.codes
  | 3 => .f32 x.codes
  | 1 => .blocks false (x.exps.zip codes)
  | 2 => .blocks true (x.exps.zip codes)
  | 4 => .rows false (x.rows.zip (x.exps.zip codes))
  | _ => .rows true (x.rows.zip (x.exps.zip codes))

/-- A value continued by the next frame. -/
def SegVal.append : SegVal → SegVal → SegVal
  | .bytes a, .bytes b => .bytes (a ++ b)
  | .f32 a, .f32 b => .f32 (a ++ b)
  | .blocks g a, .blocks _ b => .blocks g (a ++ b)
  | .rows g a, .rows _ b => .rows g (a ++ b)
  | a, _ => a

/-- Elements that a value holds, as OFFSET and COUNT count them. -/
def SegVal.elems (blk : Nat) : SegVal → Nat
  | .bytes l => l.length
  | .f32 l => l.length
  | .blocks _ l => blk * l.length
  | .rows _ l => blk * l.length

/-- A frame of a collective from this member. -/
def Coll.frame (c : Coll) (ctype : CollType) (level : Nat) : CollFrame where
  ctype := ctype
  fmt := 0
  blk := match c.desc.fmt with
    | .l8 | .sparse => c.desc.blk + 1
    | _ => 0
  grp := c.desc.grp
  dseq := c.dseq
  rgen := c.rgen
  level := level
  srcMember := c.me
  node := 0
  seg := 0
  offset := 0
  count := 0
  step := c.step
  credit := 0
  payload := ⟨[], [], [], true⟩

/-- SEG frame `i` of a node; OFFSET counts the elements of the frames before it (log 90). -/
def Coll.segFrame (c : Coll) (k level first : Nat) (v : SegVal) (i : Nat) : CollFrame :=
  let blk := collBlk c.desc
  let l := chunks blk v
  let x := (l[i]?).getD v
  { c.frame .seg level with
    fmt := fmtCode v, node := first, seg := k
    offset := (l.take i).foldl (fun n y => n + y.elems blk) 0
    count := x.elems blk, payload := x.payload (decide (l.length ≤ i + 1)) }

/-! ## Access to the collectives of an engine -/

def State.coll? (s : State) (d dseq : Nat) : Option Coll := (s.engine d).active.find? fun c => c.dseq == dseq

def State.updColl (s : State) (d dseq : Nat) (f : Coll → Coll) : State :=
  let e := s.engine d
  s.setEngine d { e with active := e.active.map fun c => if c.dseq = dseq then f c else c }

/-- Acts on an active collective. -/
def State.onColl (s : State) (d dseq : Nat) (f : Coll → State → State) : State :=
  match s.coll? d dseq with
  | some c => f c s
  | none => s

def Coll.node? (c : Coll) (k level first : Nat) : Option CollNode :=
  c.nodes.find? fun n => n.seg == k && n.level == level && n.first == first

/-- A node that is all there. -/
def Coll.val? (c : Coll) (k level first : Nat) : Option SegVal :=
  match c.node? k level first with
  | some n => if n.whole then some n.val else none
  | none => none

/-- The segments of a collective in the program loaded. -/
def State.segmentsOf (s : State) (c : Coll) : List (Nat × Nat) :=
  match s.prog with
  | some p => segments p c.desc
  | none => []

/-! ## Forming nodes (R312, R315) -/

/-- A child of a node, where it is there. -/
def Coll.child (c : Coll) (k len l first : Nat) : Option SegVal :=
  if c.padding l first then some (zeroVal c.desc len) else c.val? k l first

/-- The number of a leaf among those this member holds. -/
def Coll.leafPos (c : Coll) (first : Nat) : Nat := (((c.leaves[c.me]?).getD []).findIdx? (· == first)).getD 0

/-- What this member's part makes of one node, where its inputs are there: the value, and the events NONFINITE and EXP_ILLEGAL. -/
def State.formNode (s : State) (c : Coll) (k start len l first : Nat) : Option (SegVal × Nat × Nat) :=
  if l = 0 then
    let v := s.leafVal c.desc (c.leafPos first) start len
    some (v, 0, illegalExps v)
  else
    match c.child k len (l - 1) first, c.child k len (l - 1) (first + 2 ^ (l - 1)) with
    | some a, some b =>
      let r := combineVals (decide (l = c.desc.llog)) a b
      some (r.1, r.2, 0)
    | _, _ => none

/-- The root of a segment: with one leaf, that leaf. -/
def State.formRoot (s : State) (c : Coll) (k start len : Nat) : Option (SegVal × Nat × Nat) :=
  if c.desc.llog = 0 then (c.val? k 0 0).map fun v => (v, 0, 0) else s.formNode c k start len c.desc.llog 0

/-- NONFINITE and EXP_ILLEGAL of the engine of a die; the tensor is the one whose gradients the collective delivers, where it does. -/
def State.collEvents (s : State) (c : Coll) (nf ill : Nat) : State :=
  let ctx : EvCtx := { step := some c.step, tensor := if collPosts c.desc then some c.desc.inletTensor else none, attempt := c.attempt, layer := c.desc.layer.getD 0xFFFF, ra := c.ra }
  let t := (List.range nf).foldl (fun (u : State) _ => u.numEvent 0x0101 6 c.die ctx) s
  (List.range ill).foldl (fun (u : State) _ => u.numEvent 0x0102 6 c.die ctx) t

/-- Adds a formed node. -/
def State.addNode (s : State) (d dseq k level first : Nat) (v : SegVal) : State :=
  s.updColl d dseq fun c => { c with nodes := c.nodes ++ [⟨k, level, first, true, v⟩] }

/-- Forms one node, where it is this member's, is not there yet and has its inputs; `reads` gives the lines of memory it takes. -/
def State.tryForm (s : State) (d dseq k level first : Nat) (reads : Coll → State → List Nat)
    (f : Coll → State → Option (SegVal × Nat × Nat)) : State :=
  s.onColl d dseq fun c t =>
    if (c.node? k level first).isSome then t
    else match f c t with
      | some (v, nf, ill) => t.strandIO c.ra 1 (reads c t) [] ((t.addNode d dseq k level first v).collEvents c nf ill)
      | none => t

/-- Forms what this member can form of segment `k` in a reduction. -/
def State.formSegment (s : State) (d dseq k start len : Nat) : State :=
  s.onColl d dseq fun c t =>
    let t1 := c.treeNodes.foldl (fun (u : State) n =>
      if c.former (c.owner k) n.1 n.2 = c.me then
        u.tryForm d dseq k n.1 n.2 (fun c1 v => if n.1 = 0 then v.leafLines c1.desc (c1.leafPos n.2) start len else [])
          fun c1 v => v.formNode c1 k start len n.1 n.2
      else u) t
    if c.owner k = c.me then t1.tryForm d dseq k rootLevel 0 (fun _ _ => []) fun c1 v => v.formRoot c1 k start len else t1

/-- The unit of an update entry has been posted complete by its Inlet (R242). -/
def State.unitPosted (s : State) (p : Program) (a : Attempt) (e : UpdateEntry) (unit : Nat) : Bool :=
  if e.frozen then true
  else if e.sparse then feedsDone a p.strands e.tensor && !s.inl.posts.any fun q => q.tensor == e.tensor && q.index / 256 == unit
  else (pieceBlocks e unit).all fun b =>
    if e.rule = .pre then s.inl.pre.contains (e.tensor, preUnit e b)
    else a.applied.contains (e.tensor, b) && !s.inl.posts.any fun q => q.tensor == e.tensor && q.index == b

/-- SRCWAIT (R242, R307): while the step before is open, a run-ahead AG reads the `k`-th unit this die owns only after the post. -/
def State.srcReady (s : State) (c : Coll) (k : Nat) : Bool :=
  if !c.desc.srcWait || !c.ra || c.desc.op != .ag then true
  else match s.prog, s.step.att with
    | some p, some a =>
      (updateOf p c.desc.inletTensor).all fun e =>
        (((s.ownedPieces e c.die)[k]?).map fun u => s.unitPosted p a e u).getD true
    | _, _ => true

/-- Forms the data of an AG or BC at its source member. -/
def State.sourceSegment (s : State) (d dseq k start len : Nat) : State :=
  s.onColl d dseq fun c t =>
    let src := if c.desc.op = .bc then 0 else c.me
    if c.me = src ∧ t.srcReady c k then
      t.tryForm d dseq k dataLevel src (fun c1 v => v.leafLines c1.desc 0 start len)
        fun c1 v => some (v.leafVal c1.desc 0 start len, 0, 0)
    else t

/-! ## Sending (R321) -/

def lookupN (l : List (Nat × Nat)) (k : Nat) : Option Nat := (l.find? fun e => e.1 == k).map (·.2)

def putN (l : List (Nat × Nat)) (k n : Nat) : List (Nat × Nat) := (l.filter fun e => e.1 != k) ++ [(k, n)]

/-- Frames of one transfer that have been sent. -/
def Coll.sentOf (c : Coll) (k : Nat) (e : Edge) : Nat :=
  match c.sent.find? fun x => x.seg == k && x.level == e.level && x.first == e.first && x.member == e.dst with
  | some x => x.frames
  | none => 0

def Coll.setSent (c : Coll) (k : Nat) (e : Edge) (n : Nat) : Coll :=
  { c with sent := (c.sent.filter fun x => !(x.seg == k && x.level == e.level && x.first == e.first && x.member == e.dst))
      ++ [⟨k, e.level, e.first, e.dst, n⟩] }

/-- All frames of a transfer have been sent. -/
def Coll.edgeDone (c : Coll) (k : Nat) (e : Edge) : Bool :=
  (c.val? k e.level e.first).any fun v => decide (frameCount (collBlk c.desc) v ≤ c.sentOf k e)

/-- This member's transfers, with their segments, that are not finished. -/
def Coll.pendingEdges (c : Coll) (n : Nat) : List (Nat × Edge) :=
  (List.range n).flatMap fun k => ((c.edges k).filter fun e => e.src == c.me && !c.edgeDone k e).map fun e => (k, e)

/-- Every collective this module carries. -/
def State.allColls (s : State) : List Coll := (List.range 4).flatMap fun d => (s.engine d).active

/-- The collective is the lowest in DSEQ order that has frames pending toward a rank. -/
def State.lowestToward (s : State) (c : Coll) (rank : Nat) : Bool :=
  s.allColls.all fun x => decide (x.dseq = c.dseq) || decide ((c.dseq + 2 ^ 32 - x.dseq) % 2 ^ 32 ≥ 2 ^ 31) ||
    !(x.pendingEdges (s.segmentsOf x).length).any fun e => x.rankOf e.2.dst == rank

/-- How many frames may be sent to a member now: its credit, or what is left of EARLY (R321). -/
def State.maySend (s : State) (c : Coll) (m : Nat) : Nat :=
  match lookupN c.credit m with
  | some n => n
  | none =>
    if s.lowestToward c (c.rankOf m) then
      s.field .ceEng c.die 0x14 0 8 - (c.sent.filter fun x => x.member == m).foldl (fun a x => a + x.frames) 0
    else 0

/-- Sends what may be sent of one transfer. -/
def State.sendEdge (s : State) (d dseq k : Nat) (e : Edge) : State :=
  s.onColl d dseq fun c t =>
    match c.val? k e.level e.first with
    | none => t
    | some v =>
      let i := c.sentOf k e
      let n := min (frameCount (collBlk c.desc) v - i) (t.maySend c e.dst)
      if n = 0 then t
      else
        let t1 := t.updColl d dseq fun x =>
          let y := x.setSent k e (i + n)
          match lookupN y.credit e.dst with
          | some m => { y with credit := putN y.credit e.dst (m - n) }
          | none => y
        (List.range n).foldl (fun (u : State) j =>
          u.sendRank (c.rankOf e.dst) (k + e.level) (.coll (c.segFrame k e.level e.first v (i + j)))) t1

/-! ## Landing (R314, R325) -/

/-- The destination segments this member writes: key, node, start in the destination and length (R313, R314). -/
def Coll.targets (c : Coll) (segs : List (Nat × Nat)) : List (Nat × Nat × Nat × Nat × Nat × Nat) :=
  let g := c.ranks.length
  let n := segs.length
  match c.desc.op with
  | .rs => ((segs.zipIdx).filter fun x => c.owner x.2 == c.me).map fun x => (x.2, x.2, rootLevel, 0, x.1.1, x.1.2)
  | .ar => (segs.zipIdx).map fun x => (x.2, x.2, rootLevel, 0, x.1.1, x.1.2)
  | .ag => (List.range g).flatMap fun m => (segs.zipIdx).map fun x =>
      (m * n + x.2, x.2, dataLevel, m, m * c.desc.elems + x.1.1, x.1.2)
  | .bc => (segs.zipIdx).map fun x => (x.2, x.2, dataLevel, 0, x.1.1, x.1.2)

/-- Writes one destination segment that is there and not written: memory, the posts to its Inlet with what R215 watches in
them, and the strands of SEGDONE. -/
def State.land (s : State) (d dseq : Nat) (x : Nat × Nat × Nat × Nat × Nat × Nat) : State :=
  let (key, k, level, first, start, len) := x
  s.onColl d dseq fun c t =>
    match c.val? k level first with
    | none => t
    | some v =>
      if c.written.contains key || (segmentSpans c.desc start len v).any (fun x => t.spanWaits x.1 x.2) || t.step.committing then t
      else
        let t1 := (t.writeSegment c.desc start len v).updColl d dseq fun y => { y with written := y.written ++ [key] }
        let posts := match collPosts c.desc, t.prog.bind fun p => updateOf p c.desc.inletTensor with
          | true, some e => t1.rootPosts c.desc e k start v
          | _, _ => []
        let t2 : State := { t1 with inl := { t1.inl with posts := t1.inl.posts ++ posts } }
        let t3 := match t.prog.bind fun p => updateOf p c.desc.inletTensor with
          | some e => t2.watchPosts c.ra e posts
          | none => t2
        t.strandIO c.ra 1 [] (segmentSpans c.desc start len v)
          (match (if c.desc.op = .ag ∧ c.packet.isNone then c.desc.segDone[key]? else none) with
           | some id => if (t3.strand? id).isSome then t3.completeStrand c.ra id else t3
           | none => t3)

/-! ## Completion (R326) -/

/-- A frame of a collective, other than FIN and FINQ, waits to be sent or for its acknowledgement. -/
def State.collUnacked (s : State) (dseq : Nat) : Bool :=
  s.fab.links.any fun l => (l.replay.map (·.data) ++ l.waiting).any fun d => match d with
    | .coll x => decide (x.dseq = dseq) && x.ctype != .fin && x.ctype != .finq
    | _ => false

/-- This member has done its part: every segment written, every frame sent and acknowledged. -/
def State.partDone (s : State) (c : Coll) : Bool :=
  let segs := s.segmentsOf c
  !c.lost && ((c.targets segs).all fun x => c.written.contains x.1) && (c.pendingEdges segs.length).isEmpty &&
    !s.collUnacked c.dseq

/-- FIN may go to a peer: in an aligned group once every FIN of a lower level is held. -/
def Coll.finReady (c : Coll) (k : Nat) : Bool := !c.aligned || (List.range k).all fun j => c.fins.contains j

/-- Sends the FINs that are due. -/
def State.sendFins (s : State) (d dseq : Nat) : State :=
  s.onColl d dseq fun c t =>
    if t.partDone c then
      c.peers.foldl (fun (u : State) x =>
        if !c.finsTo.contains x.1 && c.finReady x.1 then
          (u.updColl d dseq fun y => { y with finsTo := y.finsTo ++ [x.1] }).sendRank (c.rankOf x.2) (if c.aligned then x.1 else 0)
            (.coll (c.frame .fin (if c.aligned then x.1 else 0)))
        else u) t
    else t

/-- The collective is complete on this member. -/
def State.collWhole (s : State) (c : Coll) : Bool :=
  s.partDone c && c.peers.all fun x => c.finsTo.contains x.1 && (c.fins.contains x.1 || (c.aligned && decide (x.1 + 1 < c.peers.length)))

/-- Completion: STRAND is signalled, a hosted launch replies, and the collective is kept among the last 64. -/
def State.finishColl (s : State) (d dseq : Nat) : State :=
  s.onColl d dseq fun c t =>
    if t.collWhole c then
      let e := t.engine d
      let t1 := (t.setEngine d { e with
        active := e.active.filter fun x => x.dseq != dseq
        finished := (⟨c.dseq, c.rgen, c.desc.grp, c.step, c.ranks, c.me⟩ :: e.finished).take 64 }).bump .ceEng d 0x40 1
      let done := t1.completeStrand c.ra c.id
      let t2 := if c.desc.strand ≠ c.id ∧ (done.strand? c.desc.strand).isSome then done.completeStrand c.ra c.desc.strand else done
      match c.packet with
      | some (i, pk) => t2.finishIssued i pk stOk 0 []
      | none => t2
    else t

/-- What an active collective can do now: form, write, send, finish. -/
def State.pump (s : State) (d dseq : Nat) : State :=
  s.onColl d dseq fun c t =>
    let segs := t.segmentsOf c
    let t1 := (segs.zipIdx).foldl (fun (u : State) x => match c.desc.op with
      | .rs | .ar => u.formSegment d dseq x.2 x.1.1 x.1.2
      | .ag | .bc => u.sourceSegment d dseq x.2 x.1.1 x.1.2) t
    let t2 := (c.targets segs).foldl (fun (u : State) x => u.land d dseq x) t1
    let t3 := (c.pendingEdges segs.length).foldl (fun (u : State) x => u.sendEdge d dseq x.1 x.2) t2
    (t3.sendFins d dseq).finishColl d dseq

/-! ## Frames in (R319 to R322) -/

/-- A SEG frame joins its node: in order, until the node is whole. -/
def Coll.addSegment (c : Coll) (segs : List (Nat × Nat)) (f : CollFrame) : Coll :=
  let blk := (collBlk c.desc)
  let v := payloadVal f.fmt blk f.payload
  let len := ((segs[f.seg]?).getD (0, 0)).2
  let whole (x : SegVal) : Bool := match x with
    | .rows _ _ => f.payload.last
    | y => decide (len ≤ y.elems blk)
  match c.node? f.seg f.level f.node with
  | none => if f.offset = 0 then { c with nodes := c.nodes ++ [⟨f.seg, f.level, f.node, whole v, v⟩] } else c
  | some n =>
    if n.whole || n.val.elems blk != f.offset then c
    else
      let x := n.val.append v
      { c with nodes := c.nodes.map fun y =>
          if y.seg == f.seg && y.level == f.level && y.first == f.node then { y with whole := whole x, val := x } else y }

/-- A frame from a peer is consumed: after WINDOW of them the peer is granted WINDOW more (R321). -/
def State.consume (s : State) (d dseq m : Nat) : State :=
  s.onColl d dseq fun c t =>
    let w := t.field .ceEng d 0x14 16 8
    let n := (lookupN c.used m).getD 0 + 1
    if n < w then t.updColl d dseq fun x => { x with used := putN x.used m n }
    else (t.updColl d dseq fun x => { x with used := putN x.used m 0 }).sendRank (c.rankOf m) 0
      (.coll { c.frame .credit 0 with credit := w })

/-- A frame of an active collective and of its present RGEN. -/
def State.feed (s : State) (d : Nat) (f : CollFrame) : State :=
  match f.ctype with
  | .seg => (s.onColl d f.dseq fun c t => t.updColl d f.dseq fun x => x.addSegment (t.segmentsOf c) f).consume d f.dseq f.srcMember
  | .credit => s.updColl d f.dseq fun c =>
      { c with credit := putN c.credit f.srcMember ((lookupN c.credit f.srcMember).getD 0 + f.credit) }
  | .fin => s.updColl d f.dseq fun c =>
      let k := if c.aligned then f.level else f.srcMember
      { c with fins := if c.fins.contains k then c.fins else c.fins ++ [k] }
  | .finq => s.onColl d f.dseq fun c t =>
      if c.finsTo.contains (if c.aligned then f.level else f.srcMember) then
        t.sendRank (c.rankOf f.srcMember) f.level (.coll (c.frame .fin f.level))
      else t
  | .restart => s

/-- A stale frame is dropped and counted (R322). -/
def State.collStale (s : State) (d : Nat) : State := s.bump .ceEng d 0x48 1

/-- A frame is held early (R321). -/
def State.holdEarly (s : State) (d : Nat) (f : CollFrame) : State :=
  let e := s.engine d
  (s.setEngine d { e with early := e.early ++ [f] }).bump .ceEng d 0x4C 1

/-- The early frames of a collective just issued or restarted: those of its RGEN are consumed, older ones dropped. Frames that came
before their attempt opened lie in whichever engine's buffer took them. -/
def State.replayEarly (s : State) (d dseq : Nat) : State :=
  s.onColl d dseq fun c t =>
    let own (f : CollFrame) : Bool := decide (f.dseq = dseq ∧ f.rgen ≤ c.rgen)
    let mine := (List.range 4).flatMap fun i => (t.engine i).early.filter own
    let t1 := (List.range 4).foldl (fun (u : State) i =>
      let e := u.engine i
      u.setEngine i { e with early := e.early.filter fun f => !own f }) t
    mine.foldl (fun (u : State) f => if f.rgen = c.rgen then u.feed d f else u.collStale d) t1

/-- The members that will send frames to this one are granted credit (R321). -/
def State.grantAll (s : State) (d dseq : Nat) : State :=
  s.onColl d dseq fun c t =>
    let n := (t.segmentsOf c).length
    let from' := (List.range c.ranks.length).filter fun m =>
      (List.range n).any fun k => (c.edges k).any fun e => e.src == m && e.dst == c.me
    from'.foldl (fun (u : State) m =>
      u.sendRank (c.rankOf m) 0 (.coll { c.frame .credit 0 with credit := t.field .ceEng d 0x14 16 8 })) t

/-- A member starts its part again from the unchanged source (R327). -/
def State.startPart (s : State) (d dseq : Nat) : State := ((s.grantAll d dseq).replayEarly d dseq).pump d dseq

/-- The count would exceed RESTART_MAX (R328): COLL_EXHAUSTED, and the step aborts with cause 0x13. -/
def State.collExhausted (s : State) (c : Coll) : State :=
  let ctx : EvCtx := { step := some c.step, attempt := c.attempt, layer := c.desc.layer.getD 0xFFFF, ra := c.ra }
  (s.raiseCtx 0x0412 c.die 6 ctx (leBytes 4 c.dseq ++ leBytes 2 c.desc.grp ++ leBytes 1 c.rgen)).causeIn c.ra
    ⟨0x13, 0xFFFF, .outside, c.step, false⟩

/-- RESTART_MAX is reached. -/
def State.collSpent (s : State) (c : Coll) : Bool := decide (s.field .ceEng c.die 0x10 16 4 ≤ c.count)

/-- The part restarts at a generation: RESTART goes to every partner or member, what is held is discarded (R327). -/
def State.restartColl (s : State) (d dseq rgen : Nat) : State :=
  s.onColl d dseq fun c t =>
    let c1 : Coll := { c with
      rgen := rgen, count := c.count + 1, nodes := [], sent := [], written := [], fins := [], finsTo := [], credit := [], used := []
      lost := false }
    let t1 := t.updColl d dseq fun _ => c1
    let t2 := c1.peers.foldl (fun (u : State) x => u.sendRank (c1.rankOf x.2) 0 (.coll (c1.frame .restart 0))) t1
    t2.startPart d dseq

/-- A RESTART with a higher RGEN is adopted and counted (R327, R328). -/
def State.adopt (s : State) (d : Nat) (f : CollFrame) : State :=
  s.onColl d f.dseq fun c t =>
    if t.collSpent c then t.collExhausted c else t.restartColl d f.dseq f.rgen

/-- A FINQ for one of the last 64 collectives completed is answered (R327). -/
def State.answerDone (s : State) (x : CollDone) (f : CollFrame) : State :=
  s.sendRank ((x.ranks[f.srcMember]?).getD 0xFFFF) f.level
    (.coll { f with ctype := .fin, rgen := x.rgen, srcMember := x.me })

/-- The engine a collective number belongs to: that which carries it or has it among its last 64, or the ENG of the program's strand. -/
def State.engineOf (s : State) (dseq : Nat) : Nat :=
  match (List.range 4).find? fun d => ((s.engine d).active.any fun c => c.dseq == dseq) || (s.engine d).finished.any fun c => c.dseq == dseq with
  | some d => d
  | none =>
    let bases := (s.step.att.toList ++ s.step.ra.toList).map (·.base)
    (s.strands.findSome? fun t => match t.kind with
      | .coll d | .hosted d => if bases.any fun b => decide ((b + d.pidx) % 2 ^ 32 = dseq) then some d.eng else none
      | _ => none).getD 0

/-- Its DSEQ precedes the base of the current attempt (R322). While none is open, the base of the next one lies above every number of the
last (R309). -/
def State.beforeBase (s : State) (dseq : Nat) : Bool :=
  let base := match (s.step.att.toList ++ s.step.ra.toList).head? with
    | some a => a.base
    | none => (s.reg .twn 0 0x18).toNat + (s.prog.map fun p => max p.collCount 1).getD 0
  let d := (base + 2 ^ 32 - dseq % 2 ^ 32) % 2 ^ 32
  decide (0 < d ∧ d < 2 ^ 31)

/-- The collective of an open attempt has completed on this member (R322). -/
def State.collOver (s : State) (dseq : Nat) : Bool :=
  (s.step.att.toList ++ s.step.ra.toList).any fun a => s.strands.any fun t => match t.kind with
    | .coll d | .hosted d => decide ((a.base + d.pidx) % 2 ^ 32 = dseq) && a.done.contains t.id
    | _ => false

/-- A RESTART of a collective not yet issued is recorded (R327). -/
def State.recordRestart (s : State) (d : Nat) (f : CollFrame) : State :=
  let e := s.engine d
  s.setEngine d { e with restarts := putN e.restarts f.dseq (max f.rgen ((lookupN e.restarts f.dseq).getD 0)) }

/-- A collective frame is taken from the receive buffer (R321, R322, R327). -/
def State.collFrame (s : State) (f : CollFrame) : State :=
  let d := s.engineOf f.dseq
  match s.allColls.find? fun c => c.dseq == f.dseq with
  | some c =>
    if s.beforeBase f.dseq then s.collStale d
    else if f.rgen < c.rgen then s.collStale d
    else if f.ctype = .restart then (if c.rgen < f.rgen then s.adopt d f else s)
    else if c.rgen < f.rgen then s.holdEarly d f
    else (s.feed d f).pump d f.dseq
  | none =>
    match (s.engine d).finished.find? fun x => x.dseq == f.dseq with
    | some x => if f.ctype = .finq then s.answerDone x f else s.collStale d
    | none =>
      if s.beforeBase f.dseq || s.collOver f.dseq then s.collStale d
      else if f.ctype = .restart then s.recordRestart d f
      else s.holdEarly d f

/-- Runs the row of one frame type: the first frame of it in the receive buffer. -/
def State.collRow (s : State) (ctype : CollType) : State :=
  match s.takeFrame fun x => match x.data with
    | .coll f => if f.ctype = ctype then some f else none
    | _ => none with
  | some (_, f, t) => t.collFrame f
  | none => s

/-- SEG (R312 to R314). -/
def execSeg (s : State) : Host.Outcome State Fault Refusal := .next (s.collRow .seg)

/-- CREDIT (R321). -/
def execCredit (s : State) : Host.Outcome State Fault Refusal := .next (s.collRow .credit)

/-- RESTART (R327). -/
def execRestart (s : State) : Host.Outcome State Fault Refusal := .next (s.collRow .restart)

/-- FIN (R326). -/
def execFin (s : State) : Host.Outcome State Fault Refusal := .next (s.collRow .fin)

/-- FINQ (R327). -/
def execFinq (s : State) : Host.Outcome State Fault Refusal := .next (s.collRow .finq)

/-- COLL_STALL (R327): for COLL_TIMEOUT ms nothing of this collective has moved on this member: it restarts, or queries. -/
def execCollStall (die dseq : Nat) (s : State) : Host.Outcome State Fault Refusal :=
  .next (s.onColl die dseq fun c t =>
    let query := !c.finsTo.isEmpty
    let ctx : EvCtx := { step := some c.step, attempt := c.attempt, layer := c.desc.layer.getD 0xFFFF, ra := c.ra }
    if t.collSpent c then t.collExhausted c
    else
      let ev (rgen : Nat) : State := (t.bump .ceEng die 0x44 1).raiseCtx 0x0411 die 6 ctx
        (leBytes 4 dseq ++ leBytes 2 c.desc.grp ++ leBytes 1 rgen ++ leBytes 1 (b2n query))
      if query then
        let lacking := c.peers.filter fun x => !c.fins.contains x.1
        let ask := if c.aligned then lacking.take 1 else lacking
        ask.foldl (fun (u : State) x =>
          u.sendRank (c.rankOf x.2) (if c.aligned then x.1 else 0) (.coll (c.frame .finq (if c.aligned then x.1 else 0))))
          ((ev c.rgen).updColl die dseq fun x => { x with count := x.count + 1 })
      else (ev (c.rgen + 1)).restartColl die dseq (c.rgen + 1))

/-! ## Issue (R308 to R310, R323) -/

/-- The collective of a strand of an attempt on this module, as its engine derives it from the group table (R323); none where this
module takes no part. -/
def State.implicitColl (s : State) (p : Program) (ra : Bool) (a : Attempt) (t : Strand) : Option Coll :=
  match t.kind with
  | .coll d =>
    match s.groupOf p d.grp with
    | some g =>
      (g.ranks.findIdx? (· == s.dom.rank)).map fun me =>
        let ls := leavesOf g d
        { die := d.eng, id := t.id, dseq := (a.base + d.pidx) % 2 ^ 32, step := a.step, attempt := a.number, ra := ra, desc := d
          ranks := g.ranks, me := me, leaves := ls, aligned := alignedLeaves d ls, packet := none }
    | none => none
  | _ => none

/-- A collective has been issued in its attempt. -/
def State.collIssued (s : State) (a : Attempt) (id dseq : Nat) : Bool :=
  a.done.contains id || s.allColls.any fun c => c.dseq == dseq

/-- The collectives of an attempt that have started and are not issued: implicit ones, and hosted ones that were launched. -/
def State.readyColls (s : State) (ra : Bool) : List Coll :=
  match s.prog, s.attempt ra with
  | some p, some a =>
    let started := p.strands.filter fun t => active a t && a.started.contains t.id && !a.done.contains t.id && !s.stopped ra t
    let own := started.filterMap (s.implicitColl p ra a)
    let hosted := ((List.range 4).flatMap fun d => (s.engine d).waiting).filter fun c =>
      c.ra == ra && started.any fun t => t.id == c.id
    (own ++ hosted).filter fun c => !s.collIssued a c.id c.dseq
  | _, _ => []

/-- Every collective of lower DSEQ on the same group that this module takes part in has been issued (R310). The run-ahead's numbers lie
above all those of the open step: one of its collectives also waits for those of the open step that its own engine is still to issue, which
would not follow it. -/
def State.groupOrder (s : State) (c : Coll) : Bool :=
  [false, true].all fun ra =>
    match s.prog, s.attempt ra with
    | some p, some a =>
      (ra && !c.ra) || p.strands.all fun t => match t.kind with
        | .coll d | .hosted d =>
          !active a t || (decide (d.grp ≠ c.desc.grp) && (ra == c.ra || decide (d.eng ≠ c.die))) ||
            (ra == c.ra && decide (c.desc.pidx ≤ d.pidx)) || s.collIssued a t.id ((a.base + d.pidx) % 2 ^ 32) ||
            (match t.kind with
             | .coll _ => (s.implicitColl p ra a t).isNone
             | _ => false)
        | _ => true
    | _, _ => ra != c.ra

/-- The lowest in DSEQ order: of a list whose numbers lie close together. -/
def lowestColl : List Coll → Option Coll
  | [] => none
  | c :: t =>
    match lowestColl t with
    | some x => if (x.dseq + 2 ^ 32 - c.dseq) % 2 ^ 32 < 2 ^ 31 then some c else some x
    | none => some c

/-- The member issues a collective (R310): CE_LAST_DSEQ, credit to its senders, and its part begins. -/
def State.issueColl (s : State) (c : Coll) : State :=
  let d := c.die
  let last := (s.reg .ceEng d 0x18).toNat
  let e := s.engine d
  let gap := (c.dseq + 2 ^ 32 - last) % 2 ^ 32
  if e.issuedAny && !decide (0 < gap ∧ gap < 2 ^ 31) then
    let ctx : EvCtx := { step := some c.step, attempt := c.attempt, layer := c.desc.layer.getD 0xFFFF, ra := c.ra }
    (s.raiseCtx 0x0410 d 6 ctx (leBytes 4 c.dseq ++ leBytes 4 last)).causeIn c.ra
      ⟨6, c.desc.layer.getD 0xFFFF, (c.desc.layer.map Cut.at).getD .beforeAll, c.step, false⟩
  else
    let recorded := (List.range 4).foldl (fun n i => max n ((lookupN (s.engine i).restarts c.dseq).getD 0)) 0
    let stale := (e.early.filter fun f => s.beforeBase f.dseq).length
    let t := s.setEngine d { e with
      issuedAny := true
      active := e.active ++ [{ c with rgen := recorded }]
      waiting := e.waiting.filter fun x => x.dseq != c.dseq
      early := e.early.filter fun f => !s.beforeBase f.dseq }
    let t1 := (List.range 4).foldl (fun (u : State) i =>
      let x := u.engine i
      u.setEngine i { x with restarts := x.restarts.filter fun r => r.1 != c.dseq }) t
    ((t1.bump .ceEng d 0x48 stale).setReg .ceEng d 0x18 (BitVec.ofNat 32 c.dseq)).startPart d c.dseq

/-- A collective row: the engine of a die issues the lowest collective that is ready, where it is of this operation, and every one of
this operation that it carries moves on. -/
def State.collOpRow (s : State) (op : CollOp) (die : Nat) : State :=
  let pick (l : List Coll) : Option Coll := lowestColl (l.filter fun c => c.die == die)
  let next := match pick (s.readyColls false) with
    | some c => some c
    | none => pick (s.readyColls true)
  let t := match next with
    | some c =>
      if c.desc.op = op ∧ (s.engine die).active.length < 16 ∧ s.groupOrder c then s.issueColl c else s
    | none => s
  (((t.engine die).active.filter fun c => c.desc.op == op).map (·.dseq)).foldl (fun (u : State) q => u.pump die q) t

/-- ALL_GATHER (R313, R325). -/
def execAllGather (die : Nat) (s : State) : Host.Outcome State Fault Refusal :=
  guarded (decide (die < 4)) s (s.collOpRow .ag die)

/-- BROADCAST (R313). -/
def execBroadcast (die : Nat) (s : State) : Host.Outcome State Fault Refusal :=
  guarded (decide (die < 4)) s (s.collOpRow .bc die)

/-- REDUCE_SCATTER (R312, R313). -/
def execReduceScatter (die : Nat) (s : State) : Host.Outcome State Fault Refusal :=
  guarded (decide (die < 4)) s (s.collOpRow .rs die)

/-- ALL_REDUCE (R313, R315). -/
def execAllReduce (die : Nat) (s : State) : Host.Outcome State Fault Refusal :=
  guarded (decide (die < 4)) s (s.collOpRow .ar die)

/-! ## Hosted launches (R323, R324) -/

/-- The fields of a hosted launch after the descriptor. -/
structure Launch where
  step : Nat
  attempt : Nat
  levels : Nat
  g : Nat
  member : Nat
  zero : Nat
  leaf0 : Nat
  held : Nat
  partners : List Nat

def parseLaunch (l : List Byte) : Launch where
  step := leAt 64 4 l
  attempt := leAt 68 1 l
  levels := leAt 69 1 l
  g := leAt 70 2 l
  member := leAt 72 2 l
  zero := leAt 74 2 l
  leaf0 := leAt 76 4 l
  held := leAt 80 4 l
  partners := (List.range 10).map fun k => leAt (84 + 2 * k) 2 l

/-- A field out of range, by its offset in the payload. -/
def Launch.badField (x : Launch) : Option Nat :=
  if 10 < x.levels then some 69
  else if x.g ≠ 2 ^ x.levels then some 70
  else if x.g ≤ x.member then some 72
  else if x.zero ≠ 0 then some 74
  else none

/-- Two descriptors agree in every field of the numerics digest (R307). -/
def sameNumerics (a b : CollDesc) : Bool :=
  a.op == b.op && a.fmt == b.fmt && a.blk == b.blk && decide (a.llog = b.llog ∧ a.elems = b.elems)

/-- Why a launch is refused: the reason byte of COLL_DESC (R324, R331). -/
def State.launchFault (s : State) (x : Launch) (d : CollDesc) : Option Nat :=
  let hostedOf := s.strands.findSome? fun t => match t.kind with
    | .hosted h => if h.pidx = d.pidx then some h else none
    | _ => none
  if !(s.step.att.any fun a => decide (a.step = x.step ∧ a.number = x.attempt)) then some 0
  else match hostedOf with
    | none => some 1
    | some h =>
      if !sameNumerics h d then some 2
      else if !((List.range x.levels).all fun k => (s.route ((x.partners[k]?).getD 0xFFFF)).any fun w => !w.ports.isEmpty) then some 3
      else if (d.op == .rs || d.op == .ar) && decide (x.g * x.held ≠ (leafCount d) ∨ x.leaf0 ≠ x.member * x.held) then some 4
      else none

/-- The collective that a hosted launch describes: the ranks of partners only are known. -/
def State.hostedColl (s : State) (x : Launch) (d : CollDesc) (i : Nat) (pk : Packet) : Option Coll :=
  match s.step.att, s.strands.find? fun t => match t.kind with
      | .hosted h => decide (h.pidx = d.pidx)
      | _ => false with
  | some a, some t =>
    let rank (m : Nat) : Nat :=
      if m = x.member then s.dom.rank
      else match (List.range x.levels).find? fun k => x.member ^^^ 2 ^ k == m with
        | some k => (x.partners[k]?).getD 0xFFFF
        | none => 0xFFFF
    some { die := d.eng, id := t.id, dseq := (a.base + d.pidx) % 2 ^ 32, step := a.step, attempt := a.number, ra := false, desc := d
           ranks := (List.range x.g).map rank, me := x.member
           leaves := (List.range x.g).map fun m => (List.range x.held).map fun j => m * x.held + j
           aligned := true, packet := some (i, pk) }
  | _, _ => none

/-- COLL_LAUNCH (R324): the 64-byte descriptor is given as data (log 42). -/
def execCollLaunch (queue : Nat) (desc : CollDesc) (s : State) : Host.Outcome State Fault Refusal :=
  .next (s.runHost queue 0x0410 (lenIs 104) (inState [.loaded]) fun pk l t =>
    let x := parseLaunch l
    match x.badField with
    | some o => (t, .done stBadField o [])
    | none =>
      match t.launchFault x desc with
      | some why =>
        (t.raiseCtx 0x0413 desc.eng 6 {} (leBytes 4 desc.pidx ++ leBytes 1 why), .done stLaunchRefused why [])
      | none =>
        match t.hostedColl x desc queue pk with
        | some c =>
          let e := t.engine c.die
          (t.setEngine c.die { e with waiting := e.waiting ++ [c] }, .issued)
        | none => (t, .done stLaunchRefused 1 []))

end Sys2Proof.Machine
end

