-- ==== Sys2Proof/Machine/Twin.lean ====
section
/-! DEFINITION. The twin pair (R389 to R400): copy frames and who may send them (R305), pairing, the twin digest, losing a partner,
restoring one. -/
namespace Sys2Proof.Machine

/-! ## Copy frames (R305) -/

/-- Takes the first copy frame that `p` accepts. -/
def State.takeCopy (s : State) (p : CopyFrame → Bool) : Option (RxFrame × CopyFrame × State) :=
  s.takeFrame fun x => match x.data with
    | .copy f => if p f then some f else none
    | _ => none

/-- The frame came over a twin link. -/
def State.fromTwin (s : State) (x : RxFrame) : Bool := (s.link? x.port x.mac).any (·.twin)

/-- Answers over the link a frame came on. -/
def State.answer (s : State) (x : RxFrame) (f : CopyFrame) : State := s.onLink x.port x.mac fun l t => t.linkSend l (.copy f)

/-- An ACK of a copy frame. -/
def ackOf (f : CopyFrame) : CopyFrame := ⟨.ack, f.use, f.tag, f.addr, 0, f.step, 0, 0, []⟩

/-- A refused request: an ACK with bit 31 of TAG set, and counted; between twins a MARK with the reason goes before it (log 38). -/
def State.refuseCopy (s : State) (x : RxFrame) (f : CopyFrame) (why : Nat) : State :=
  let t := s.bump .cePort x.port 0x38 1
  let u := if f.use = 0 then t else t.answer x (whyMark f.use (f.tag % 2 ^ 31 / 2 ^ 26) why)
  u.answer x ⟨.ack, f.use, f.tag % 2 ^ 31 + 2 ^ 31, f.addr, 0, f.step, 0, 0, []⟩

/-- The reason that came before a refusing ACK of a USE for a stack; `d` where none did. -/
def State.takeWhy (s : State) (use i d : Nat) : Nat × State :=
  match s.takeCopy fun f => f.cop == .mark && f.use == use && f.mark % 2 ^ 8 == 0x12 && f.mark / 2 ^ 8 % 16 == i with
  | some (_, f, t) => (f.mark / 2 ^ 12, t)
  | none => (d, s)

/-- The MARK that names the stacks of a restore, before its header pages: code 0x13 (log 38). -/
def stacksMark (mask : Nat) : LinkData := .copy ⟨.mark, 2, 0, 0, 0, 0, 0, 0x13 + 2 ^ 8 * mask, []⟩

/-- The stacks of the restore that begins: as the MARK that came names them, else as known. -/
def State.takeStacks (s : State) : Nat × State :=
  match s.takeCopy fun f => f.cop == .mark && f.use == 2 && f.mark % 2 ^ 8 == 0x13 with
  | some (_, f, t) => (f.mark / 2 ^ 8, t)
  | none => (s.twin.wanted, s)

/-- The Spillway area is open to the sender of a frame, for bytes `f.addr` to `f.addr + n` of it (R394). -/
def State.spillwayOpen (s : State) (x : RxFrame) (f : CopyFrame) (n : Nat) : Bool :=
  let c := s.reg .twn 0 0x4C
  bit c 31 && (if bit c 30 then s.fromTwin x else x.rank == bits c 0 10) &&
    decide (f.addr + n ≤ s.spillwayArea.2 - s.spillwayArea.1 ∧ s.spillwayArea.2 ≤ tarnTop)

/-- The page at a device address lies in the area that its stack receives checkpoints into, from the partner (R288). -/
def State.areaOpen (s : State) (x : RxFrame) (f : CopyFrame) : Bool :=
  s.fromTwin x && decide (f.addr < tarnTop ∧ f.addr % 4096 = 0 ∧ f.data.length = 4096) &&
    (match s.ckptArea (stackOf f.addr) with
     | some (b, z) => decide (b ≤ f.addr ∧ f.addr < b + z)
     | none => false)

/-! ## The receiving side of a restore (R400) -/

/-- TAG of a restore frame: the stack, and 0 for the header or the page's place. -/
def tagStack (tag : Nat) : Nat := tag % 2 ^ 31 / 2 ^ 26

def tagPage (tag : Nat) : Nat := tag % 2 ^ 26

/-- Why a header page of a restore is refused: 1 the program digest differs, 2 the numerics digest, 3 no program, or a step is open. -/
def State.restoreFault (s : State) (l : List Byte) : Option Nat :=
  match s.prog with
  | none => some 3
  | some p =>
    if s.step.att.isSome ∨ s.step.committing ∨ s.hasDown 4 then some 3
    else if slice 64 48 l ≠ digestBytes p.programDigest then some 1
    else if slice 16 48 l ≠ digestBytes p.numericsDigest then some 2
    else none

/-- Every stack of the restore is opened and every page of it is written: RESTORE_END. -/
def State.restoreDone (s : State) (step : Nat) : State :=
  let r := s.twin.receiving
  if (r.all fun x => x.2 == 0) && (List.range 8).all fun i => !s.twin.wanted.testBit i || r.any fun x => x.1 == i then
    ({ s with twin := { s.twin with receiving := [], wanted := 0 } } : State).sendTwin
      (markFrame 6 0 step (leBytes 1 s.twin.wanted ++ [0, 0, 0]))
  else s

/-- A restore frame: the header opens the stack's V pages and names the stacks of the restore, and squashes a run-ahead, which may have read
them (R142); each page is written whole into its committed frame, with C set; after the last, RESTORE_END. -/
def State.restoreWrite (s : State) (x : RxFrame) (f : CopyFrame) : State :=
  let i := tagStack f.tag
  if tagPage f.tag = 0 then
    match s.restoreFault f.data with
    | some why => s.refuseCopy x f why
    | none =>
      let (named, u) := s.squash.takeStacks
      let t : State := { u with twin := { u.twin with
        receiving := u.twin.receiving.filter (fun r => r.1 != i) ++ [(i, (u.vPages i).length)]
        wanted := named } }
      (t.answer x (ackOf f)).restoreDone f.step
  else if s.step.att.isNone && (s.twin.receiving.any fun r => r.1 == i) && stackOf f.addr == i && decide (f.addr % 4096 = 0 ∧ f.data.length = 4096) &&
      (match s.vRegion f.addr with
       | some (_, g) => !g
       | none => false) then
    let s1 := s.putBytes (s.committedAddr f.addr) f.data
    let s2 := s1.setVt f.addr { s1.vtOf f.addr with c := true }
    let s3 : State := { s2 with twin := { s2.twin with
      receiving := s2.twin.receiving.map fun r => if r.1 = i then (i, r.2 - 1) else r } }
    (s3.answer x (ackOf f)).restoreDone f.step
  else s.refuseCopy x f 3

/-- A MARK that closes a stack of a restore that has failed (log 38). -/
def closesStack (f : CopyFrame) : Bool := f.cop == .mark && f.use == 2 && f.mark % 2 ^ 8 == 0x14

/-- COPY_WRITE (R305): a WRITE lands in an area opened for its USE and its sender, or is refused. A MARK before it that closes a stack is
taken first. -/
def execCopyWrite (s : State) : Host.Outcome State Fault Refusal :=
  .next (match s.takeCopy fun f => f.cop == .write || closesStack f with
    | none => s
    | some (x, f, t) =>
      if f.cop = .mark then
        { t with twin := { t.twin with receiving := t.twin.receiving.filter fun r => r.1 != f.mark / 2 ^ 8 } }
      else match f.use with
      | 0 =>
        let a := t.spillwayArea.1 + f.addr
        if t.spillwayOpen x f f.data.length then
          (t.strandIO false 8 [] [(a, f.data.length)] (t.putBytes a f.data)).answer x (ackOf f)
        else t.refuseCopy x f 0
      | 1 =>
        if t.areaOpen x f then
          let u := (t.touch f.addr true).putBytes (t.shadowAddr f.addr) f.data
          (u.setStack (stackOf f.addr) { u.stack (stackOf f.addr) with receiving := true }).answer x (ackOf f)
        else t.refuseCopy x f 3
      | 2 => if t.fromTwin x then t.restoreWrite x f else t.refuseCopy x f 3
      | _ => t.refuseCopy x f 0)

/-- How many frames of a page or less an answer of `n` bytes takes: at least one (R297, log 90). -/
def pages (n : Nat) : List Nat := List.range (max 1 ((n + 4095) / 4096))

/-- READ_REQ (R305): the Spillway area answers its source; a line of it that is uncorrectable gives a refused ACK, which is SPILL_LOST
for the block's owner (R270). -/
def execReadReq (s : State) : Host.Outcome State Fault Refusal :=
  .next (match s.takeCopy fun f => f.cop == .readReq with
    | none => s
    | some (x, f, t) =>
      if f.use = 0 ∧ t.spillwayOpen x f f.len then
        let a := t.spillwayArea.1 + f.addr
        match t.poisoned a (a + f.len) with
        | [] =>
          (pages f.len).foldl (fun u k =>
            let data := u.bytes (a + 4096 * k) (min 4096 (f.len - 4096 * k))
            u.answer x ⟨.readData, 0, f.tag, f.addr + 4096 * k, data.length, f.step, (crc32c data).toNat, 0, data⟩) t
        | ls => (ls.foldl (fun u l => u.lineUE l 8 false) t).refuseCopy x f 1
      else t.refuseCopy x f 0)

/-! ## The Spillway's owner (R206 to R208) -/

/-- The spilled block that a TAG belongs to, and the page of it. -/
def Stash.blockOf (x : Stash) (tag : Nat) : Option (Spilled × Nat) :=
  (x.spilled.find? fun b => decide (b.offset / 4096 ≤ tag ∧ tag < (b.offset + b.size) / 4096)).map fun b =>
    (b, tag - b.offset / 4096)

/-- A spilled block with changed bookkeeping. -/
def State.setSpilled (s : State) (b : Spilled) : State :=
  s.setStash { s.stash with spilled := s.stash.spilled.map fun q => if q.isBlock b.id b.shard b.ra then b else q }

/-- READ_DATA (R207, R208): a page of a return is checked and put in the Pond; with the last one the block is resident again. -/
def execReadData (s : State) : Host.Outcome State Fault Refusal :=
  .next (match s.takeCopy fun f => f.cop == .readData with
    | none => s
    | some (_, f, t) =>
      match t.stash.blockOf f.tag with
      | none => t
      | some (b, j) =>
        match b.returning with
        | none => t
        | some (addr, pages) =>
          if b.crcs[j]? != some (crc32c f.data) then t.spillLost b
          else
            let u := t.putBytes (addr + 4096 * j) f.data
            let back := if pages.contains j then pages else pages ++ [j]
            if back.length = b.size / 4096 then
              u.setStash { u.stash with
                spilled := u.stash.spilled.filter fun q => !q.isBlock b.id b.shard b.ra
                resident := u.stash.resident ++ [⟨b.id, b.shard, b.ra, addr, b.size, false⟩] }
            else u.setSpilled { b with returning := some (addr, back) })

/-- A page of a spill has landed: with the last one the Pond space is released (R206). -/
def State.spillAck (s : State) (tag : Nat) : State :=
  match s.stash.blockOf tag with
  | none => s
  | some (b, j) =>
    let left := b.unacked.filter (· != j)
    let t := s.setSpilled { b with unacked := left }
    if left.isEmpty then
      t.setStash { t.stash with resident := t.stash.resident.filter fun r => !r.isBlock b.id b.shard b.ra }
    else t

/-! ## The sending side of a restore (R400) -/

/-- The pages of the epoch held in the area of stack `i`: the TAG, where each goes, and its bytes; the segments of the header name the
places. -/
def State.heldPages (s : State) (i : Nat) : List (Nat × Nat × List Byte) :=
  match s.ckptArea i with
  | none => []
  | some (b, _) =>
    let h := s.loadCommitted b 4096
    (List.range (leAt 112 4 h)).flatMap fun j =>
      let base := leAt (128 + 16 * j) 6 h
      let first := leAt (128 + 16 * j + 12) 4 h
      (List.range (leAt (128 + 16 * j + 8) 4 h)).map fun k =>
        (ckptTag i (1 + first + k), base + 4096 * k, s.loadCommitted (b + 4096 * (1 + first + k)) 4096)

/-- The lines of the area of stack `i` that a restore reads: the header page and the pages that it names. -/
def State.heldLines (s : State) (i : Nat) : List Nat :=
  match s.ckptArea i with
  | none => []
  | some (b, _) => s.committedLines b 4096 ++ (s.heldPages i).flatMap fun x => s.committedLines (b + 4096 * tagPage x.1) 4096

/-- A WRITE of a restore. -/
def restoreFrame (tag addr step : Nat) (l : List Byte) : LinkData := .copy ⟨.write, 2, tag, addr, l.length, step, 0, 0, l⟩

def State.setSending (s : State) (r : Option RestoreTx) : State := { s with twin := { s.twin with sending := r } }

/-- The command of the restore replies. One that has failed closes what its headers have opened on the partner (R400): MARK code 0x14 for
each of its stacks, on the link that stack's header took (log 38). -/
def State.endRestore (s : State) (r : RestoreTx) (code detail : Nat) : State :=
  let t := if code = stOk then s else
    ((List.range 8).filter fun i => r.mask.testBit i).foldl (fun (u : State) i =>
      u.sendTwinOn (oxbowOf i) (.copy ⟨.mark, 2, 0, 0, 0, 0, 0, 0x14 + 2 ^ 8 * i, []⟩)) s
  (t.setSending none).finishIssued r.queue r.packet code detail []

/-- Every header is accepted: the pages of every stack of the mask are sent. A line of them found uncorrectable has its outcome, and the
command replies UNCORRECTABLE (R270). -/
def State.sendRestorePages (s : State) (r : RestoreTx) : State :=
  let tarns := (List.range 8).filter fun i => r.mask.testBit i
  match s.badLines (tarns.flatMap s.heldLines) with
  | [] => tarns.foldl (fun t i => (t.heldPages i).foldl (fun u x =>
      u.sendTwinOn (oxbowOf i) (restoreFrame x.1 x.2.1 r.step x.2.2)) t) s
  | ls => (ls.foldl (fun (t : State) l => t.lineUE l 11 false) s).endRestore r stUncorrectable 0

/-- An ACK of USE 2: a header accepted or refused, or a page written. -/
def State.restoreAck (s : State) (f : CopyFrame) : State :=
  match s.twin.sending with
  | none => s
  | some r =>
    if 2 ^ 31 ≤ f.tag then
      let (why, t) := s.takeWhy 2 (tagStack f.tag) 3
      if why = 1 then t.endRestore r stDigest 0
      else if why = 2 then t.endRestore r stDigest 1
      else t.endRestore r stBadState (cpCode t.cp)
    else if tagPage f.tag = 0 then
      let left := r.headers.filter (· != tagStack f.tag)
      let pages := (List.range 8).flatMap fun i => if r.mask.testBit i then (s.heldPages i).map (·.1) else []
      let t := s.setSending (some { r with headers := left, pages := if left.isEmpty then pages else r.pages })
      if left.isEmpty then t.sendRestorePages r else t
    else s.setSending (some { r with pages := r.pages.filter (· != f.tag) })

/-- COPY_ACK (R305): it completes a write, or reports a refusal. -/
def execCopyAck (s : State) : Host.Outcome State Fault Refusal :=
  .next (match s.takeCopy fun f => f.cop == .ack with
    | none => s
    | some (_, f, t) =>
      match f.use with
      | 0 =>
        if 2 ^ 31 ≤ f.tag then
          match t.stash.blockOf (f.tag - 2 ^ 31) with
          | some (b, _) => t.spillLost b
          | none => t
        else t.spillAck f.tag
      | 1 =>
        let i := tagStack f.tag
        if 8 ≤ i then t
        else if 2 ^ 31 ≤ f.tag then
          let (why, u) := t.takeWhy 1 i 3
          u.ckptLost i why
        else t.epochAck i (tagPage f.tag)
      | _ => t.restoreAck f)

/-- Takes the first MARK of USE 2 with a code (R391). -/
def State.takeMark (s : State) (code : Nat) : Option (CopyFrame × State) :=
  (s.takeCopy fun f => f.cop == .mark && f.use == 2 && f.mark % 2 ^ 8 == code).map fun r => (r.2.1, r.2.2)

/-- RESTORE_END (R400): the partner has every page, and TWIN_RESTORE replies. -/
def execRestoreEnd (s : State) : Host.Outcome State Fault Refusal :=
  .next (match s.takeMark 6 with
    | none => s
    | some (f, t) =>
      match t.twin.sending with
      | some r => if leAt 0 1 f.data = r.mask then t.endRestore r stOk 0 else t
      | none => t)

/-! ## Pairing (R392) -/

/-- What a HELLO names. -/
def helloOf (l : List Byte) : Hello where
  mode := leAt 0 1 l
  caps := leAt 4 4 l
  key := BitVec.ofNat 384 (beNat (slice 8 48 l))
  domain := leAt 56 4 l
  rank := leAt 60 2 l

/-- The HELLO messages of both agree. -/
def State.agrees (s : State) (h : Hello) : Bool :=
  decide (s.twin.mode ≠ 0 ∧ h.mode = s.twin.mode ∧ h.caps / 2 ^ 24 = (sysCaps s.part).toNat / 2 ^ 24) &&
    (s.twin.mode != 2 || (h.domain != s.ceDomain && h.rank == s.srcRank))

/-- After a HELLO sent or received: a new pairing sets PAIRED, clears UNPAIRED and raises TWN_PAIRED. -/
def State.pairUp (s : State) : State :=
  if s.twin.hello.any s.agrees then
    if s.twin.paired then s
    else
      ({ s with twin := { s.twin with paired := true, unpaired := false } } : State).raiseEv 0x0422 0 (leBytes 1 s.twin.mode)
  else { s with twin := { s.twin with paired := false } }

/-- HELLO (R392). -/
def execHello (s : State) : Host.Outcome State Fault Refusal :=
  .next (match s.takeMark 1 with
    | none => s
    | some (f, t) => ({ t with twin := { t.twin with hello := some (helloOf f.data) } } : State).pairUp)

/-! ## The twin digest (R396, R397) -/

/-- The touched pages of the program in a stack, ascending. -/
def State.touchedPages (s : State) (i : Nat) : List Nat :=
  ((s.stack i).vt.filter fun e => e.2.t && !s.areaPage i e.1).map (·.1)

/-- D[s]: the digest over a stack's touched pages. -/
def State.stackDigest (s : State) (i : Nat) : Digest :=
  sha384 ((s.touchedPages i).flatMap fun p => leBytes 8 (4096 * p) ++ s.bytes (s.shadowAddr (4096 * p)) 4096)

/-- The twin digest of step `n`. -/
def State.twinDigest (s : State) (n : Nat) : List Byte :=
  (digestBytes (sha384 ([0x5A, 0x54, 0x54, 0x57] ++ leBytes 4 n ++
    (List.range 8).flatMap fun i => digestBytes (s.stackDigest i)))).take 16

/-- READY of this module. -/
def State.sendReady (s : State) (a : Attempt) (unpaired : Bool) : State :=
  (s.setAttempt false { a with readySent := true }).addOwn
    (s.domFrame 0xE false a.step a.number 0 (encN [a.base, 1, b2n unpaired]))

/-- Compares the digests once both are in (R397): READY, or TWN_MISMATCH and cause 0x14, which halts where an attempt of the same step
has mismatched before. -/
def State.compareDigests (s : State) : State :=
  match s.step.att, s.twin.mine, s.twin.theirs with
  | some a, some (n, k, d), some (n', k', d') =>
    if a.step = n ∧ n = n' ∧ a.number = k ∧ min 255 k = min 255 k' then
      let t := ({ s with twin := { s.twin with mine := none, theirs := none } } : State).bump .twn 0 0x70 1
      if d = d' then t.sendReady a false
      else
        ((t.bump .twn 0 0x74 1).raiseCtx 0x0421 0 13 (ctxOf false a) (leBytes 4 n ++ leBytes 1 a.number)).addCause
          ⟨0x14, mismatchLayer, .outside, n, false⟩
    else s
  | _, _, _ => s

/-- TWIN_DIGEST (R396): at stage 4 the digest is formed, shown in the registers and sent. Its reads are those of requester 5. -/
def execTwinDigest (s : State) : Host.Outcome State Fault Refusal :=
  match s.step.att with
  | none => .next s
  | some a =>
    let due := decide (s.twin.mode = 2) && s.twin.paired && a.endSent && !a.readySent && a.vetoes.isEmpty && s.step.causes.isEmpty &&
      s.twin.mine.all fun m => m.1 != a.step || m.2.1 != a.number
    let lines := (List.range 8).flatMap fun i => (s.touchedPages i).flatMap fun p =>
      (List.range 64).map fun j => s.shadowAddr (4096 * p + 64 * j) / 64
    let d := s.twinDigest a.step
    let s1 := (List.range 4).foldl (fun t k => t.setReg .twn 0 (0x20 + 4 * k) (BitVec.ofNat 32 (leAt (4 * k) 4 d))) s
    let s2 := s1.setReg .twn 0 0x30 (BitVec.ofNat 32 a.step)
    let s3 : State := { s2 with twin := { s2.twin with mine := some (a.step, a.number, d) } }
    guarded due s
      (match s.badLines lines with
       | [] => (s3.sendTwin (markFrame 2 a.number a.step d)).compareDigests
       | ls => ls.foldl (fun t l => t.lineUE l 5 false) s)

/-- DIGEST (R397): the partner's digest. -/
def execDigest (s : State) : Host.Outcome State Fault Refusal :=
  .next (match s.takeMark 2 with
    | none => s
    | some (f, t) =>
      ({ t with twin := { t.twin with theirs := some (f.step, f.mark / 2 ^ 8, f.data.take 16) } } : State).compareDigests)

/-- ABORTED (R397): the open attempt of the same step and number aborts with cause 0x14. A mark for an attempt that has not opened here
yet, a later one of this step or one of the next step, waits. -/
def execAborted (s : State) : Host.Outcome State Fault Refusal :=
  match s.takeMark 3 with
  | none => .next s
  | some (f, t) =>
    let k := f.mark / 2 ^ 8
    match s.step.att with
    | some a =>
      guarded (!decide ((a.step = f.step ∧ a.number < k) ∨ f.step = a.step + 1)) s
        (if a.step = f.step ∧ a.number % 2 ^ 24 = k then t.addCause ⟨0x14, 0xFFFF, .outside, a.step, false⟩ else t)
    | none =>
      guarded (!(decide (f.step = s.stepNum ∧ s.step.nextAttempt ≤ k) && s.cp == .loaded && s.step.halted.isNone)) s t

/-- HALTED (R397): the own domain halts with cause 0x14, with a step open or idle. -/
def execHalted (s : State) : Host.Outcome State Fault Refusal :=
  .next (match s.takeMark 4 with
    | none => s
    | some (_, t) =>
      if t.step.halted.isSome then t
      else t.addCause ⟨0x14, 0xFFFF, .outside, (t.step.att.map (·.step)).getD t.stepNum, true⟩)

/-! ## Losing the partner (R390, R398, R399) -/

/-- LOST of a rank, which is its ORIGIN (R406). -/
def State.lostFrame (s : State) (r : Nat) : DomFrame := { s.domFrame 0x14 false s.stepNum 0 r (encN [r]) with origin := r }

/-- Reports a lost rank to the wellhead (R408), with MEMBER_LOST; the wellhead itself raises that as it marks the rank. -/
def State.sendLost (s : State) (r : Nat) : State :=
  (if s.isWellhead then s else s.raiseEv 0x0423 0 (leBytes 2 r)).sendDirect (s.lostFrame r)

/-- The rank of the partner in this module's own domain: that of the route entry with its address. -/
def State.partnerRank (s : State) : Option Nat :=
  (s.fab.links.find? (·.twin)).bind fun l => s.rankOfMac l.mac

/-- The partner is lost while this module receives a restore: the committed frames of the stacks it opened are undefined (R412). -/
def State.restoreLost (s : State) : State :=
  s.twin.receiving.foldl (fun t r => (t.vPages r.1).foldl (fun (u : State) p =>
    u.makeUndef (u.committedAddr (4096 * p)) (u.committedAddr (4096 * p) + 4096)) t) s

/-- PARTNER_LOSS_TIMEOUT (R390): no twin link has been up for LOSS_MS ms. -/
def execPartnerLossTimeout (s : State) : Host.Outcome State Fault Refusal :=
  let m := s.twin.mode
  let s0 := s.restoreLost
  let s1 := ({ s0 with twin := { s0.twin with lost := true, unpaired := true, paired := false, hello := none, receiving := [], wanted := 0 } } :
    State).raiseEv 0x0420 0 (leBytes 1 m)
  let s2 := if m = 1 then (List.range 8).foldl (fun t i => if t.ckptSend i then t.ckptLost i 0 else t) s1 else s1
  let s3 : State := if m = 1 then (List.range 8).foldl (fun t i => t.setStack i { t.stack i with due := none }) s2 else s2
  let s4 := s3.spillTargetLost (·.toTwin)
  let s5 := match s4.partnerRank with
    | some r => if s4.dom.rankValid && decide (r < s4.dom.size) && !s4.isLost r then s4.sendLost r else s4
    | none => s4
  let s6 := match s5.twin.sending with
    | some r => s5.endRestore r stFaulted 0
    | none => s5
  let s7 := match s6.step.att with
    | some a => if m = 2 ∧ a.endSent ∧ !a.readySent ∧ a.vetoes = [] then s6.sendReady a true else s6
    | none => s6
  let s8 := match s7.twin.loadWait with
    | some (q, _) => ({ s7 with twin := { s7.twin with loadWait := none } } : State).finishBusy q 0x0301 stLoadRefused 0xFFFE []
    | none => s7
  guarded (s.umc.phase == .dies && !s.partnerPresent && !s.twin.lost) s s8

/-! ## TWIN_MODE and TWIN_RESTORE (R392, R400, R403) -/

/-- TWIN_MODE (R392): sets the mode and sends HELLO. -/
def execTwinMode (queue : Nat) (s : State) : Host.Outcome State Fault Refusal :=
  .next (s.runHost queue 0x0401 (lenIs 4) (inState [.config, .ready]) fun _ l t =>
    let m := leAt 0 1 l
    if 2 < m then (t, .done stBadField 0 [])
    else if leAt 1 3 l ≠ 0 then (t, .done stBadField 1 [])
    else
      let u : State := { t with twin := { t.twin with mode := m, paired := t.twin.paired && t.twin.mode == m } }
      (u.sendHello.pairUp, .done stOk 0 []))

/-- The step that the epoch held in the area of a stack names (R289). -/
def State.heldEpoch (s : State) (i : Nat) : Option Nat :=
  match s.ckptArea i with
  | some (b, _) => if s.reg .trn i 0x7C = 0xFFFFFFFF then none else some (leAt 4 4 (s.loadCommitted b 4096))
  | none => none

/-- Halted or no step open. -/
def State.quiet (s : State) : Bool := s.step.halted.isSome || (s.step.att.isNone && !s.step.committing)

/-- TWIN_RESTORE (R400): the header pages go first; the partner checks them. -/
def execTwinRestore (queue : Nat) (s : State) : Host.Outcome State Fault Refusal :=
  .next (s.runHost queue 0x0404 (lenIs 8) (fun t => t.cp == .loaded && t.quiet && t.partnerPresent && t.twin.sending.isNone)
    fun p l t =>
      let mask := leAt 0 1 l
      let step := leAt 4 4 l
      let tarns := (List.range 8).filter fun i => mask.testBit i
      if mask = 0 then (t, .done stBadField 0 [])
      else if leAt 1 3 l ≠ 0 then (t, .done stBadField 1 [])
      else if tarns.any fun i => t.heldEpoch i != some step then (t, .done stBadField 4 [])
      else
        match t.badLines (tarns.flatMap t.heldLines) with
        | [] =>
          let u := tarns.foldl (fun v i => (v.sendTwinOn (oxbowOf i) (stacksMark mask)).sendTwinOn (oxbowOf i)
            (restoreFrame (ckptTag i 0) 0 step
              (match v.ckptArea i with
               | some (b, _) => v.loadCommitted b 4096
               | none => []))) t
          (u.setSending (some ⟨queue, p, mask, step, tarns, []⟩), .issued)
        | ls => (ls.foldl (fun (v : State) l => v.lineUE l 11 false) t, .done stUncorrectable 0 []))

end Sys2Proof.Machine
end

