-- ==== Sys2Proof/Machine/Domain.lean ====
section
/-! DEFINITION. Multi-module domains (R402 to R412): the rank table, joining, silence and loss, planned and forced handover. -/
namespace Sys2Proof.Machine

/-! ## The rank table (R408) -/

/-- A digest as six fields. -/
def digestFields (d : Digest) : List Nat := (List.range 6).map fun i => d.toNat / 2 ^ (64 * i) % 2 ^ 64

def fieldsDigest (l : List Nat) : Digest := BitVec.ofNat 384 ((l.zipIdx).foldl (fun a x => a + x.1 * 2 ^ (64 * x.2)) 0)

/-- The digest at field `i` of a payload. -/
def fldDigest (f : DomFrame) (i : Nat) : Digest := fieldsDigest ((List.range 6).map fun k => fld f (i + k))

/-- What goes before a rank table: SIZE, WGEN, the wellhead. -/
def State.tableHead (s : State) : List Nat := [s.dom.size, s.dom.wgen, s.dom.wh]

/-- The rank table as a message carries it: its head, then for each rank its state, its program digest and its key hash. -/
def State.tableFields (s : State) : List Nat :=
  s.tableHead ++
    (List.range s.dom.size).flatMap fun r => (s.rankEntry r).state :: (digestFields (s.rankEntry r).digest ++ digestFields (s.rankEntry r).key)

/-- Adopts the rank table at field `i` of a message. -/
def State.adoptTable (s : State) (f : DomFrame) (i : Nat) : State :=
  { s with dom := { s.dom with
    size := fld f i
    wgen := fld f (i + 1)
    wh := fld f (i + 2)
    ranks := (List.range (fld f i)).foldl (fun b r =>
      Bank.put rankDefault b r ⟨fld f (i + 3 + 13 * r), fldDigest f (i + 4 + 13 * r), fldDigest f (i + 10 + 13 * r)⟩) [] } }

def State.setRank (s : State) (r : Nat) (e : RankEntry) : State :=
  { s with dom := { s.dom with ranks := Bank.put rankDefault s.dom.ranks r e } }

/-- RANKS to every member after any change (R407). -/
def State.sendRanks (s : State) : State := s.passDown (s.domFrame 3 true s.stepNum 0 0 (encN s.tableFields))

/-- The digest of the program loaded here, zero for none. -/
def State.loadedDigest (s : State) : Digest :=
  match s.prog with
  | some p => p.programDigest
  | none => 0

/-- Every rank below SIZE is joined (R405). -/
def State.allJoined (s : State) : Bool := (List.range s.dom.size).all fun r => (s.rankEntry r).state == 1

/-- The committed step, HUB_STEP_NUM − 1 (R405). -/
def State.committedStep (s : State) : Nat := (s.stepNum + 2 ^ 32 - 1) % 2 ^ 32

/-- The domain halts with cause 0x14; no attempt is dropped by it (R411). -/
def State.haltAll (s : State) : State :=
  s.awaitHalts.sendDown (s.domFrame 0x11 true s.stepNum 0 0 (encN [2 ^ 40, 0x14, 0, 0, 1]))

/-- A rank becomes LOST here: MEMBER_LOST, and what the Spillway had at it is lost with it (R208). -/
def State.memberLost (s : State) (r : Nat) : State :=
  let t := (s.setRank r { s.rankEntry r with state := 2 }).raiseEv 0x0423 0 (leBytes 2 r)
  (({ t with dom := { t.dom with halting := t.dom.halting.filter (· != r) } } : State).spillTargetLost fun b => !b.toTwin && b.peer == r).haltSettled

/-- The wellhead marks a rank LOST (R408): MEMBER_LOST, the open attempt aborts with cause 0x14 and the halt flag, and the table goes
out. -/
def State.markLost (s : State) (r : Nat) : State :=
  if s.dom.size ≤ r ∨ s.isLost r then s
  else
    let t := s.memberLost r
    ((if t.step.committing || t.hasDown 0xF then t.haltAll else t.sendAbort ⟨0x14, 0xFFFF, .outside, t.stepNum, true⟩ true)).sendRanks

/-! ## Joining (R404, R405) -/

/-- Why the wellhead refuses a JOIN; 0 accepts it. -/
def State.joinFault (s : State) (f : DomFrame) : Nat :=
  let caps := (sysCaps s.part).toNat
  let e := s.rankEntry f.origin
  let digest := fldDigest f 7
  let mine := s.loadedDigest
  if fld f 0 / 2 ^ 24 ≠ caps / 2 ^ 24 then 1
  else if fld f 0 / 2 ^ 16 % 16 ≠ caps / 2 ^ 16 % 16 then 2
  else if f.arg ≠ s.ceDomain then 3
  else if s.dom.size ≤ f.origin ∨ (e.state = 1 ∧ e.key ≠ fldDigest f 1) then 4
  else if digest ≠ 0 ∧ mine ≠ 0 ∧ (digest ≠ mine ∨ fld f 13 ≠ s.committedStep) then 5
  else if e.state = 2 ∧ (digest = 0 ∨ digest ≠ mine ∨ fld f 13 ≠ s.committedStep ∨ s.step.halted.isNone) then 5
  else 0

/-- JOIN (R404): the wellhead accepts the joiner, or refuses it with a reason. -/
def execJoin (s : State) : Host.Outcome State Fault Refusal :=
  .next (match s.takeUp 1 with
    | none => s
    | some (_, f, t) =>
      if !t.isWellhead then t
      else
        let reply (u : State) (l : List Nat) : State :=
          u.sendRank f.origin 0 (.dom { u.domFrame 2 true u.stepNum 0 0 (encN l) with origin := f.origin })
        match t.joinFault f with
        | 0 =>
          let u := t.setRank f.origin ⟨1, fldDigest f 7, fldDigest f 1⟩
          (reply u (0 :: u.tableFields)).sendRanks
        | k => reply (t.raiseEv 0x0425 0 (leBytes 2 f.origin ++ leBytes 1 k)) [k])

/-- JOIN_ACK (R404): an accepted joiner takes the rank table and CE_RANK, RANK_JOIN replies, and HELLO goes to the twin (R391). -/
def execJoinAck (s : State) : Host.Outcome State Fault Refusal :=
  .next (match s.takeDown 2 with
    | none => s
    | some (f, t) =>
      if fld f 0 = 0 then
        let u := t.adoptTable f 1
        (({ u with dom := { u.dom with rank := f.origin, rankValid := true } } : State).finishOp 0x0403 stOk 0 []).sendHello.pairUp
      else (t.finishOp 0x0403 stLoadRefused (fld f 0) []).sendHello)

/-- RANK_JOIN (R404): JOIN goes directly to WH_RANK; JOIN_ACK ends the command. A module that has no rank, as after a reset, has no step of
a domain open and counts as halted: so a lost rank rejoins with its program loaded (R405, log 41). -/
def execRankJoin (queue : Nat) (s : State) : Host.Outcome State Fault Refusal :=
  .next (s.runHost queue 0x0403 (lenIs 8) (fun t => t.cp == .ready || (t.cp == .loaded && (t.step.halted.isSome || !t.dom.rankValid) && t.quiet))
    fun _ l t =>
      let r := leAt 4 2 l
      let wh := leAt 6 2 l
      if 1023 < r then (t, .done stBadField 4 [])
      else if 1023 < wh then (t, .done stBadField 6 [])
      else
        let payload := encN ([(sysCaps t.part).toNat] ++ digestFields t.keyHash ++ digestFields t.loadedDigest ++
          [t.committedStep])
        let f : DomFrame := ⟨1, false, r, t.stepNum, 0, t.dom.wgen % 256, leAt 0 4 l, payload⟩
        (if t.dom.rankValid then t.sendRank wh 0 (.dom f) else t.sendRoute wh 0 (.dom f), .wait))

/-! ## RANKS (R407, R410, R412) -/

/-- Another module takes the wellhead's part over: a takeover of this module's own that loses replies BAD_STATE (R412). -/
def State.yieldTo (s : State) : State :=
  let t := if s.dom.takeover.isSome then s.finishOp 0x0402 stBadState (cpCode s.cp) [] else s
  { t with dom := { t.dom with takeover := none, running := false, limit := none, held := [] } }

/-- Whether a claim of generation `g` by rank `w` wins over what this module holds (R412). -/
def State.claimWins (s : State) (g w : Nat) : Bool := decide (s.dom.wgen < g ∨ (g = s.dom.wgen ∧ w ≤ s.dom.wh))

/-- The table of a RANKS is taken; what the Spillway had at a rank that it shows LOST is lost (R208). -/
def State.takeTable (s : State) (f : DomFrame) : State :=
  let t := s.adoptTable f 0
  t.spillTargetLost fun b => !b.toTwin && t.isLost b.peer && !s.isLost b.peer

/-- RANKS (R407): the table is taken and sent on, and the control tree is rebuilt around the wellhead it names. -/
def execRanks (s : State) : Host.Outcome State Fault Refusal :=
  .next (match s.takeDown 3 with
    | none => s
    | some (f, t) =>
      if t.dom.rankValid && t.claimWins (fld f 1) (fld f 2) then
        let u := if t.isWellhead && fld f 2 != t.dom.rank then t.yieldTo else t
        (u.takeTable f).passDown f
      else t)

/-! ## BEAT, silence and loss (R407, R408) -/

/-- BEAT_TIMER (R407): BEAT to every tree neighbour. -/
def execBeatTimer (s : State) : Host.Outcome State Fault Refusal :=
  guarded (s.dom.rankValid && decide (1 < s.dom.size)) s
    (s.neighbours.foldl (fun t r => t.sendRank r 0 (.dom (t.domFrame 0x13 false t.stepNum 0 0 []))) s)

/-- BEAT (R407): the sender is heard. The silence timer itself is MEMBER_SILENCE_TIMEOUT's (log 3). -/
def execBeat (s : State) : Host.Outcome State Fault Refusal :=
  .next (match s.takeUp 0x13 with
    | some (_, _, t) => t
    | none => s)

/-- Some link to a rank is up. -/
def State.rankLinkUp (s : State) (r : Nat) : Bool := (s.routeLink r 0).isSome

/-! ## Handover (R410, R411) -/

/-- This module's answer to STATE_Q. -/
def State.rankState (s : State) : RankState where
  committed := s.committedStep
  base := (s.reg .twn 0 0x18).toNat
  sentReady := s.step.att.any (·.readySent)
  gotCommit := s.step.committing
  program := s.loadedDigest

/-- STATE: the answer as a payload. -/
def stateFields (x : RankState) : List Nat := [x.committed, x.base, b2n x.sentReady, b2n x.gotCommit] ++ digestFields x.program

/-- STATE to the wellhead: a load or an unload is reported so too (log 41). -/
def State.sendState (s : State) : State :=
  s.sendDirect (s.domFrame 0x15 false s.stepNum 0 0 (encN (stateFields s.rankState)))

/-- Every rank has answered, or is LOST. -/
def State.allAnswered (s : State) (k : Takeover) : Bool :=
  (List.range s.dom.size).all fun r => s.isLost r || k.answers.any fun a => a.1 == r

/-- COMMIT(n) goes to a rank that lacks it (R411): it names no base, for the last base that a rank tells may be its run-ahead's. -/
def State.commitTo (s : State) (n : Nat) (r : Nat) : State := s.sendRank r 0 (.dom (s.domFrame 0xF true n 0 0 (encN [anyBase])))

/-- The takeover ends once the answers are in (R411, steps 3 to 5). -/
def State.finishTakeover (s : State) (k : Takeover) : State :=
  let next (a : Nat × RankState) : Nat := (a.2.committed + 1) % 2 ^ 32
  let n := k.answers.foldl (fun m a => min m (next a)) s.stepNum
  let anyCommit := k.answers.any fun a => decide (n < next a) || a.2.gotCommit
  let s1 : State := { s with dom := { s.dom with
    takeover := none
    lastBase := k.answers.foldl (fun m a => max m a.2.base) s.dom.lastBase
    doneIn := true, running := false, stopping := false, raBase := none } }
  let s2 := s1.sendRanks
  let lost := (List.range s.dom.size).any s.isLost
  let s3 :=
    if anyCommit then
      k.answers.foldl (fun t a => if next a = n ∧ !a.2.gotCommit then t.commitTo n a.1 else t) s2
    else if s2.step.att.isSome then s2.sendAbort ⟨0x14, 0xFFFF, .outside, n, true⟩ true
    else s2
  let s4 := if lost then s3.haltAll else s3
  (s4.raiseEv 0x0424 0 (leBytes 2 s.dom.rank ++ leBytes 1 s.dom.wgen ++ [1])).finishOp 0x0402 stOk 0 []

/-- The takeover goes on with what has been answered. -/
def State.takeoverStep (s : State) : State :=
  match s.dom.takeover with
  | some k => if s.allAnswered k then s.finishTakeover k else s
  | none => s

/-- LOST (R408): the wellhead marks a rank LOST, in a forced handover as its step 2 does (R412). A faulted module reports itself. -/
def execLost (s : State) : Host.Outcome State Fault Refusal :=
  let own := s.cp == .faulted && s.dom.rankValid && !s.dom.faultSent
  let s1 := if own then
      (({ s with dom := { s.dom with faultSent := true } } : State)).sendDirect (s.lostFrame s.dom.rank)
    else s
  .next (match s1.takeUp 0x14 with
    | none => s1
    | some (_, f, t) =>
      if !t.isWellhead then t
      else if t.dom.takeover.isSome then (if t.dom.size ≤ fld f 0 ∨ t.isLost (fld f 0) then t else (t.memberLost (fld f 0)).takeoverStep)
      else t.markLost (fld f 0))

/-- MEMBER_SILENCE_TIMEOUT (R408, R411): a tree neighbour silent for MEMBER_MS with no link up is reported; on a new wellhead a rank that
gives no answer is marked LOST. -/
def execMemberSilenceTimeout (rank : Nat) (s : State) : Host.Outcome State Fault Refusal :=
  let waits := s.dom.takeover.any fun k => !k.answers.any fun a => a.1 == rank
  let known := s.dom.rankValid && decide (rank < s.dom.size ∧ rank ≠ s.dom.rank) && !s.isLost rank
  let t :=
    if waits then (s.memberLost rank).takeoverStep
    else if rank = s.dom.wh then s.memberLost rank
    else if s.isWellhead then s.markLost rank
    else s.sendLost rank
  guarded (known && (waits || (s.neighbours.contains rank && !s.rankLinkUp rank))) s t

/-- STATE_Q (R411): the new wellhead's generation is taken, and STATE answered. -/
def execStateQ (s : State) : Host.Outcome State Fault Refusal :=
  match s.takeFrame fun x => match x.data with
    | .dom f => if f.mtype = 0x15 ∧ f.down ∧ f.arg = 0 then some f else none
    | _ => none with
  | none => .next s
  | some (_, f, t) =>
    .next (if t.dom.rankValid && t.claimWins (fld f 0) f.origin then
        let u := if t.isWellhead then t.yieldTo else t
        ({ u with dom := { u.dom with wgen := fld f 0, wh := f.origin } } : State).sendState
      else t)

/-- STATE (R411): an answer for a takeover, the report of a load, that a RESTORE has completed on a member (ARG 3; R185, log 41), or that a
member has carried a halting abort out (ARG 5; R381, log 55). -/
def execState (s : State) : Host.Outcome State Fault Refusal :=
  match s.takeFrame fun x => match x.data with
    | .dom f => if f.mtype = 0x15 ∧ !f.down ∧ (f.arg = 0 ∨ f.arg = 3 ∨ f.arg = 5) then some f else none
    | _ => none with
  | none => .next s
  | some (_, f, t) =>
    let x : RankState := ⟨fld f 0, fld f 1, fld f 2 == 1, fld f 3 == 1, fldDigest f 4⟩
    let u := t.setRank f.origin { t.rankEntry f.origin with digest := x.program }
    .next (if !t.isWellhead ∨ t.isLost f.origin then t
      else if f.arg = 5 then ({ t with dom := { t.dom with halting := t.dom.halting.filter (· != f.origin) } } : State).haltSettled
      else if f.arg = 3 then { t with step := { t.step with exhausted := false } }
      else match t.dom.takeover with
        | some k =>
          ({ u with dom := { u.dom with takeover := some { k with
              answers := k.answers.filter (fun a => a.1 != f.origin) ++ [(f.origin, x)] } } } : State).takeoverStep
        | none => u.sendRanks)

/-- The state that the old wellhead hands over (R410): n, the last base, the attempt and retry counts, the halted state and cause, and
the RUN limit; of the rank table, of which every member keeps a copy (R408), the head. -/
def State.handoverFields (s : State) : List Nat :=
  [s.stepNum, s.dom.lastBase, s.step.nextAttempt, s.step.retries,
    (match s.step.halted with
     | some c => c + 1
     | none => 0), b2n s.step.exhausted,
    (match s.dom.limit with
     | some n => n + 1
     | none => 0), b2n s.dom.running, b2n s.dom.stopping, b2n s.step.skipNext + 2 * b2n s.step.rerunNext + 4 * b2n s.step.resumed] ++ s.tableHead

def optOf (n : Nat) : Option Nat := if n = 0 then none else some (n - 1)

/-- The new wellhead takes the state over, raises WGEN and sends RANKS. -/
def State.takeOver (s : State) (f : DomFrame) : State :=
  let t := ({ s with dom := { s.dom with size := fld f 10 } } : State).setStepNum (fld f 0)
  let u : State := { t with
    step := { t.step with
      nextAttempt := fld f 2, retries := fld f 3, halted := optOf (fld f 4), exhausted := fld f 5 == 1
      skipNext := fld f 9 % 2 == 1, rerunNext := fld f 9 / 2 % 2 == 1, resumed := fld f 9 / 4 == 1 }
    dom := { t.dom with
      lastBase := fld f 1, limit := optOf (fld f 6), running := fld f 7 == 1, stopping := fld f 8 == 1
      wgen := fld f 11 + 1, wh := t.dom.rank, doneIn := true } }
  (u.sendRanks.raiseEv 0x0424 0 (leBytes 2 u.dom.rank ++ leBytes 1 u.dom.wgen ++ [0])).finishOp 0x0402 stOk 0 []

/-- The old wellhead may hand over: no step open, or at once where the domain is halted (R410). -/
def State.mayHandOver (s : State) : Bool :=
  s.quiet && s.dom.halting.isEmpty && (s.step.halted.isSome || s.dom.doneIn) && !s.hasDown 4 && !s.hasDown 0x11 && !s.hasDown 0xF

/-- A request for a planned handover is turned down: its WELLHEAD_TAKE replies BAD_STATE (R412). -/
def State.refuseHandover (s : State) (r : Nat) : State := s.sendRank r 0 (.dom (s.domFrame 0x15 true s.stepNum 0 4 []))

/-- A request of rank `r` for a planned handover: of two that meet at one WGEN, the lower rank wins (R412). -/
def State.askHandover (s : State) (r : Nat) : State :=
  if !s.isWellhead then s.refuseHandover r
  else match s.dom.handover with
    | none => { s with dom := { s.dom with handover := some r } }
    | some q => ({ s with dom := { s.dom with handover := some (min q r) } } : State).refuseHandover (max q r)

/-- PLANNED_HANDOVER (R410): the old wellhead takes a request and, at the next point with no step open, passes its state; the new one
takes it over (log 39); one that is turned down replies BAD_STATE. -/
def execPlannedHandover (s : State) : Host.Outcome State Fault Refusal :=
  .next (match s.takeFrame fun x => match x.data with
    | .dom f => if f.mtype = 0x15 ∧ f.down ∧ f.arg = 2 then some f else none
    | _ => none with
    | some (_, f, t) => t.takeOver f
    | none =>
      let s1 := match s.takeFrame fun x => match x.data with
        | .dom f => if f.mtype = 0x15 ∧ !f.down ∧ f.arg = 1 then some f else none
        | _ => none with
        | some (_, f, t) => t.askHandover f.origin
        | none => match s.takeFrame fun x => match x.data with
          | .dom f => if f.mtype = 0x15 ∧ f.down ∧ f.arg = 4 then some f else none
          | _ => none with
          | some (_, _, t) => t.finishOp 0x0402 stBadState (cpCode t.cp) []
          | none => s
      match s1.dom.handover with
      | some r =>
        if s1.isWellhead && s1.mayHandOver then
          let t := s1.sendRank r 0 (.dom (s1.domFrame 0x15 true s1.stepNum 0 2 (encN s1.handoverFields)))
          { t with dom := { t.dom with handover := none, wh := r, running := false, limit := none } }
        else s1
      | none => s1)

/-- The largest domain of the variant (R16). -/
def State.domainMax (s : State) : Nat := if s.part.variant = .n then 2 else 1024

/-- A forced handover starts (R411): WGEN rises and every rank is asked for its state. -/
def State.startTakeover (s : State) : State :=
  let t : State := { s with dom := { s.dom with
    wgen := s.dom.wgen + 1, wh := s.dom.rank, takeover := some ⟨[(s.dom.rank, s.rankState)], s.dom.wh⟩ } }
  let ask := (List.range t.dom.size).filter fun r => r != t.dom.rank && !t.isLost r
  ask.foldl (fun u r => u.sendRank r 0 (.dom (u.domFrame 0x15 true u.stepNum 0 0 (encN [u.dom.wgen])))) t

/-- WELLHEAD_TAKE (R403, R410, R411): creates a domain, or starts a planned or a forced handover. -/
def execWellheadTake (queue : Nat) (s : State) : Host.Outcome State Fault Refusal :=
  .next (s.runHost queue 0x0402 (lenIs 12) (inState [.ready, .loaded]) fun _ l t =>
    let dom := leAt 0 4 l
    let rank := leAt 4 2 l
    let size := leAt 6 2 l
    let force := leAt 8 1 l
    if dom ≠ t.ceDomain then (t, .done stBadField 0 [])
    else if 1 < force then (t, .done stBadField 8 [])
    else if leAt 9 3 l ≠ 0 then (t, .done stBadField 9 [])
    else if !t.dom.rankValid then
      if size = 0 ∨ t.domainMax < size then (t, .done stBadField 6 [])
      else if size ≤ rank then (t, .done stBadField 4 [])
      else
        let d : Domain := { size := size, wgen := 1, wh := rank, rank := rank, rankValid := true }
        (({ t with dom := d } : State).setRank rank ⟨1, t.loadedDigest, t.keyHash⟩, .done stOk 0 [])
    else if t.dom.wh = t.dom.rank then (t, .done stOk 0 [])
    else if force = 1 then
      if t.step.halted.isSome || t.isLost t.dom.wh then
        let u := t.startTakeover
        match u.dom.takeover with
        | some k => if u.allAnswered k then (u.finishTakeover k, .done stOk 0 []) else (u, .wait)
        | none => (u, .wait)
      else (t, .done stBadState (cpCode t.cp) [])
    else (t.sendRank t.dom.wh 0 (.dom (t.domFrame 0x15 false t.stepNum 0 1 [])), .wait))

end Sys2Proof.Machine
end

