-- ==== Sys2Proof/Machine/Program.lean ====
section
/-! DEFINITION. Programs and runs (R381): the load checks in their order, loading and unloading, the twin's program digest, and
RUN, STOP, ABORT and RESUME. -/
namespace Sys2Proof.Machine

/-! ## The numerics-relevant registers (R479) -/

/-- Block and offset of each, in the order of R479. -/
def numericsRegs : List (Block × Nat) := [
  (.cut, 0x10), (.cut, 0x14), (.cut, 0x18), (.cut, 0x1C), (.cut, 0x20), (.lpe, 0x10), (.lpe, 0x14), (.policy, 0x10), (.policy, 0x14),
  (.policy, 0x18), (.policy, 0x1C), (.step, 0x10), (.inl, 0x10), (.inl, 0x14), (.inl, 0x18)]

/-- LPE_PERIOD.K is 0 or lies from 4 to 20 (R195). -/
def periodOk (v : Word) : Bool := decide (bits v 0 5 = 0 ∨ (4 ≤ bits v 0 5 ∧ bits v 0 5 ≤ 20))

/-- Every field of a register value lies in its stated range. -/
def fieldsOk (b : Block) (o : Nat) (v : Word) : Bool :=
  (match regDesc b o with
   | some r => inRanges v r.ranges
   | none => true) && (!(b == .lpe && o == 0x14) || periodOk v)

/-- The entry of a program's configuration block for a register. -/
def configEntry (p : Program) (b : Block) (o : Nat) : Option ConfigEntry :=
  p.config.find? fun e => allBlocks[e.block]? == some b && e.off == o

/-- The value a register takes at load: that of its entry, else its reset value (R479). A value out of range is not taken (log 43). -/
def configValue (p : Program) (b : Block) (o : Nat) : Word :=
  let r := regReset (regAddr b 0 o)
  match (configEntry p b o).bind fun e => e.values.head? with
  | some v => if fieldsOk b o v then v &&& BitVec.ofNat 32 (((regDesc b o).map (·.mask)).getD 0) else r
  | none => r

/-- The values in force after load, for the numerics digest (R34). -/
def numericsValues (p : Program) : List Word := numericsRegs.map fun x => configValue p x.1 x.2

/-- Whether the part applies a numerics-relevant register (R4, R261). -/
def applies (part : Part) (x : Block × Nat) : Bool := part.variant.full || !(x.1 == .lpe || (x.1 == .inl && x.2 == 0x18))

/-- Every instance of every numerics-relevant register takes its value. -/
def State.applyConfig (s : State) (p : Program) : State :=
  (numericsRegs.filter (applies s.part)).foldl (fun (t : State) (x : Block × Nat) =>
    (List.range (instances x.1)).foldl (fun (u : State) i => u.setReg x.1 i x.2 (configValue p x.1 x.2)) t) s

/-! ## Load checks of the tables: the index of the first offending entry, where there is one (R382) -/

/-- R25: the strand that exceeds 2^24 in its phase. -/
def tooManyStrands (p : Program) : Option Nat :=
  p.strands.findIdx? fun t => decide (2 ^ 24 < (p.strands.filter fun x => x.phase == t.phase).length)

/-- Length of the rotation block (R129 ROT); 1 for none. -/
def rotLen (r : Nat) : Nat := if r = 0 then 1 else 32 * 2 ^ r

/-- The limits of R129 on one copy whose lines have `n` elements; `affected`: inclusions and shifts act on it. -/
def copyBad (n : Nat) (affected : Bool) (q : QuantDesc) (d : CopyDesc) : Bool :=
  d.en && if d.fmt = .f16 then decide (3 < d.rot ∨ n % rotLen d.rot ≠ 0) else
    (decide (2 < d.blk ∨ n % blkLen d.blk ≠ 0 ∨ 3 < d.rot ∨ n % rotLen d.rot ≠ 0) ||
      (d.fmt == .l6 && (decide (d.blk ≠ 1 ∨ d.rot ≠ 0) || (affected && (decide (0 < q.inclN) || q.shiftEn)))))

/-- The limits of R129. -/
def quantBad (q : QuantDesc) : Bool :=
  decide (q.pr < 32 ∨ 4096 < q.pr ∨ q.pc < 32 ∨ 4096 < q.pc ∨ 262144 < q.pr * q.pc ∨ q.parts = 0 ∨ 4095 < q.parts ∨ 128 < q.inclN) ||
    copyBad q.pc (!q.inclAxis) q q.row || copyBad q.pr q.inclAxis q q.col

def badQuant (p : Program) : Option Nat := p.strands.findIdx? fun t => (quantOf t.kind).any quantBad

/-- The copy format that a product of a format takes. -/
def fmtOf : PFmt → Fmt
  | .l4 => .l4
  | .l8 => .l8
  | .f16 => .f16
  | .cnm => .l6

/-- Two strands that no attempt runs both (R168, R180). -/
def alternatives (a b : Strand) : Bool :=
  (match a.wide, b.wide with
   | some x, some y => x != y
   | _, _ => false) ||
  (match a.seg, b.seg, a.rung, b.rung with
   | some x, some y, some r, some q => x.1 == y.1 && r != q
   | _, _, _, _ => false)

/-- A kernel that may run in one attempt with a task writes an operand copy of it in another format than the task's. -/
def operandMixed (p : Program) (t : Strand) (d : TileDesc) (copy : Nat × Bool) : Bool :=
  p.strands.any fun u => !alternatives t u && (quantOf u.kind).any fun q =>
    let c := if copy.2 then q.col else q.row
    q.tensor == copy.1 && c.en && c.fmt != fmtOf d.format

/-- R80: a task with an operand in another format; R156: a fused task whose row spans more than 256 chunks (log 31). -/
def badTile (p : Program) : Option Nat :=
  p.strands.findIdx? fun t => match t.kind with
    | .tile d => (decide (d.fused ≠ 0) && decide (256 < d.fk.chunks)) ||
        p.products.any fun e => e.tensor == d.tensor && (operandMixed p t d e.aCopy || operandMixed p t d e.bCopy)
    | _ => false

/-- R168: a layer that lacks one of its three variants. A CNM program has one rung (R186). -/
def badLayer (p : Program) : Option Nat :=
  if isCnm p then none
  else p.layers.findIdx? fun e => !([Rung.l4, .l8, .f16].all fun r => e.rungs.contains r)

/-- R180: a training program other than a CNM program carries an alternate wide schedule. -/
def lacksWide (p : Program) : Option Nat := if !p.serving && !isCnm p && !p.hasWide then some 0 else none

/-- R479: a register whose instances are given different values, in one entry or in several. -/
def badConfig (p : Program) : Option Nat :=
  p.config.findIdx? fun e => (numericsRegs.any fun x => allBlocks[e.block]? == some x.1 && e.off == x.2) &&
    let first := (p.config.find? fun x => x.block == e.block && x.off == e.off).bind fun x => x.values.head?
    e.values.any fun v => first != some v

/-- The bytes of device address space that a region takes (R275). -/
def regionEnd (r : Region) : Nat := r.base + (if r.versioned then 2 * r.size else r.size)

/-- R203, R210, R275, R285: what is wrong with region number `i`: a base or size that is no multiple of its unit (log 75), a kind that its
class does not allow, a versioned region in two stacks or one too many in its stack, an overlap, a host-private window. -/
def State.regionBad (s : State) (p : Program) (r : Region) (i : Nat) : Bool :=
  decide (r.base % 4096 ≠ 0 ∨ r.size % 4096 ≠ 0) || (r.cls == .pond && decide (r.size % 2097152 ≠ 0)) ||
    ((r.cls == .history || r.cls == .policy || r.cls == .shift) && !r.versioned) ||
    (r.cls == .pond && r.versioned) ||
    (r.versioned && (decide (0 < r.size ∧ stackOf r.base ≠ stackOf (regionEnd r - 1)) ||
      decide (64 < ((p.regions.take (i + 1)).filter fun x => x.versioned && stackOf x.base == stackOf r.base).length))) ||
    ((p.regions.zipIdx).any fun x => x.2 != i && (r.versioned || x.1.versioned) &&
      overlaps r.base (regionEnd r) x.1.base (regionEnd x.1)) ||
    ((List.range 32).any fun k =>
      let w := s.window (k / 4) (k % 4)
      overlaps r.base (regionEnd r) w.1 w.2)

def State.badRegion (s : State) (p : Program) : Option Nat :=
  ((p.regions.zipIdx).find? fun x => s.regionBad p x.1 x.2).map (·.2)

/-- The bytes from `a` up to `b` lie in regions of the program, in no frame-1 half, or in SRAM (R279). -/
def inRegions (p : Program) (a b : Nat) : Bool :=
  if tarnTop ≤ a then inSram a && inSram (b - 1) && decide (a < poolBase 160 ↔ b ≤ poolBase 160)
  else decide (b ≤ reach p p.regions.length a)
where
  /-- The end of the run of bytes from `a` on that up to `n` regions hold without a gap. -/
  reach (p : Program) : Nat → Nat → Nat
    | 0, a => a
    | n + 1, a => match p.regions.find? fun r => decide (r.base ≤ a ∧ a < r.base + r.size) with
      | some r => reach p n (r.base + r.size)
      | none => a

/-- What an Inlet reads and writes in Tarn for piece or row unit `k` that it owns, from first to last element (R237), and the tensor's
header and scratch area. -/
def unitSpans (e : UpdateEntry) (k : Nat) : List (Nat × Nat) :=
  let (i, h, j, w) := if e.sparse then (256 * k, min 256 (e.rows - 256 * k), 0, e.cols) else pieceRect e k
  let lo := i * e.cols + j
  let n := (h - 1) * e.cols + w
  let b := preSide e
  let stats :=
    match e.rule, e.sparse with
    | .fac, false => [(tarnAddr e.stat, 4 * (e.rows + e.cols))]
    | .fac, true => [(tarnAddr e.stat + 4 * i, 4 * h), (tarnAddr e.rcnt + 4 * i, 4 * h)]
    | .facu, _ => [(tarnAddr e.stat + 4 * lo, 4 * n)]
    | .pre, _ => (List.range (h / b)).flatMap fun r => (List.range (w / b)).flatMap fun c =>
        let block := (i / b + r) * (e.cols / b) + j / b + c
        [(preAt (tarnAddr e.stat) b block, 8 * b * b), (preAt (tarnAddr e.root) b block, 8 * b * b)]
  [(tarnAddr e.wh + 2 * lo, 2 * n), (tarnAddr e.wm + 2 * lo, 2 * n), (tarnAddr e.momc + lo, n), (tarnAddr e.mome + lo / 128, (n + 127) / 128),
    (tarnAddr e.hdr, 32), (tarnAddr e.scr, ratioAt e (e.rows * (e.cols / 128)) - tarnAddr e.scr)] ++ stats

/-- R236 and R265: what is wrong with an entry of the update table. All that an Inlet of this module reads and writes for a piece or row
unit that it owns lies with its die, at the addresses given for that die (R235, R237), in regions of the program and off frame 1 (R279). The
gradient areas hold what the die owns of the tensor. -/
def State.updateBad (s : State) (p : Program) (e : UpdateEntry) : Bool :=
  (e.rule == .pre && (decide (e.rows % preSide e ≠ 0 ∨ e.cols % preSide e ≠ 0) || e.sparse)) ||
    (e.sparse && e.rule != .fac) || (decide (e.rows = 1) && e.rule != .facu) ||
    ((e :: e.dies.map fun x => forDie e x.1).any fun x =>
      (regionOf p x.wh).map (·.versioned) != (regionOf p x.wm).map (·.versioned)) ||
    (e.own.zipIdx.filter fun o => o.1.1 == s.srcRank).any fun o =>
      let x := forDie e o.1.2
      let off (a : Nat) : Bool := stackDie (stackOf a) != o.1.2
      let n := ((e.own.filter (· == o.1)).length * 256 * if e.sparse then e.cols else 256)
      ([(tarnAddr x.grad, n), (tarnAddr x.grade, n / 64)].any fun y => off y.1 || off (y.1 + y.2 - 1)) ||
        (unitSpans x o.2).any fun y => off y.1 || off (y.1 + y.2 - 1) || !inRegions p y.1 (y.1 + y.2)

/-- R204: a stash block's size at each rung is a multiple of 4 KiB; an entry that breaks this is refused (log 75). -/
def badStash (p : Program) : Option Nat :=
  p.stash.findIdx? fun e => decide (e.bytesL4 % 4096 ≠ 0 ∨ e.bytesL8 % 4096 ≠ 0 ∨ e.bytesF16 % 4096 ≠ 0)

def State.badUpdate (s : State) (p : Program) : Option Nat := p.updates.findIdx? (s.updateBad p)

/-- The bytes from first to last row that one side of a serving program's copy touches, where its rows follow the batch (R340). -/
def slotSpan (i : ServInfo) (base stride len : Nat) : Nat × Nat := (base, base + (2048 * i.ctxMax - 1) * stride + len)

/-- The slots' contexts (R340). -/
def contextSpan (i : ServInfo) : Nat × Nat := (i.ctxAddr, i.ctxAddr + 2048 * i.ctxMax * i.ctxBytes)

/-- R340: what is wrong with one side of a serving program's copy: rows that follow the batch leave the regions, or lie in the contexts
at another stride than CTX_BYTES; rows that do not follow it touch the contexts. -/
def slotRowsBad (p : Program) (i : ServInfo) (k : SlotRows) (base stride len rows : Nat) : Bool :=
  let x := if k = .fixed then (base, base + (rows - 1) * stride + len) else slotSpan i base stride len
  let touches := overlaps x.1 x.2 (contextSpan i).1 (contextSpan i).2
  if k = .fixed then touches else !inRegions p x.1 x.2 || (touches && stride != i.ctxBytes)

/-- R337, R340: what is wrong with a copy of a serving program. Elsewhere no row follows a batch. -/
def servCopyBad (p : Program) (d : CopyStrand) : Bool :=
  match p.serv with
  | some i => slotRowsBad p i d.srcRows d.src d.sstride (copyReadLen d) d.rows || slotRowsBad p i d.dstRows d.dst d.dstride d.len d.rows ||
      (d.srcRows == .history && d.dstRows == .event) || (d.srcRows == .event && d.dstRows == .history)
  | none => d.srcRows != .fixed || d.dstRows != .fixed

/-- R279: what is wrong with a program copy or fill. -/
def copyStrandBad (p : Program) (d : CopyStrand) : Bool :=
  let aligned (a : Nat) : Bool := decide (tarnTop ≤ a ∨ a % 64 = 0)
  servCopyBad p d ||
  decide (d.len = 0 ∨ d.len % 64 ≠ 0 ∨ d.rows = 0 ∨ d.sstride % 64 ≠ 0 ∨ d.dstride % 64 ≠ 0) ||
    !aligned d.src || !aligned d.dst ||
    (List.range d.rows).any fun j =>
      let (a, b) := copyRowAt d j
      (d.srcRows == .fixed && !inRegions p a (a + copyReadLen d)) || (d.dstRows == .fixed && !inRegions p b (b + d.len))

def badCopy (p : Program) : Option Nat :=
  p.strands.findIdx? fun t => match t.kind with
    | .copy d => copyStrandBad p d
    | _ => false

/-! ## Collectives (R308, R311, R323) -/

/-- The completion strand of `a` precedes the issue of `b` (R311), through dependencies or a phase barrier (R26). -/
def precedes (ts : List Strand) (a b : Strand) : Bool :=
  let done : List Nat := match a.kind with
    | .coll d | .hosted d => [a.id, d.strand]
    | _ => [a.id]
  decide (a.phase < b.phase) || ((before ts ts.length b.deps).any fun i => done.contains i)

/-- The collectives this module takes part in, with how many leaves it holds and how many members there are. A hosted one on a group that
the table does not hold counts with one leaf and one member, which it has at least. -/
def State.ownColls (s : State) (p : Program) : List (Strand × CollDesc × Nat × Nat) :=
  p.strands.filterMap fun t => match t.kind with
    | .coll d | .hosted d =>
      match s.groupOf p d.grp with
      | some g => (g.ranks.findIdx? (· == s.srcRank)).map fun me => (t, d, ((leavesOf g d)[me]?.getD []).length, g.ranks.length)
      | none => match t.kind with
        | .hosted _ => some (t, d, 1, 1)
        | _ => none
    | _ => none

/-- R311: a destination that overlaps its own source, or a source or destination of an unordered collective. -/
def State.collOverlap (s : State) (p : Program) (t : Strand) : Bool :=
  let l := s.ownColls p
  (l.find? fun x => x.1.id == t.id).any fun x =>
    let dst := collDest x.2.1 x.2.2.2
    anyOverlap dst (collSource x.2.1 x.2.2.1) ||
      l.any fun y => decide (y.1.id ≠ t.id) && !alternatives t y.1 && !precedes p.strands t y.1 && !precedes p.strands y.1 t &&
        anyOverlap dst (collSource y.2.1 y.2.2.1 ++ collDest y.2.1 y.2.2.2)

/-- The limits of the descriptor's table (R307): PIDX below the collective count, BLK, LLOG and SEGLEN (log 75). -/
def collDescBad (p : Program) (d : CollDesc) : Bool :=
  let red := d.op == .rs || d.op == .ar
  let pair := match d.fmt with
    | .bytes => !red
    | .l8 | .f32 => red
    | .sparse => d.op == .rs
  !pair || decide (p.collCount ≤ d.pidx ∨ 16 < d.llog) ||
    (if red then decide (d.llog = 0) && !(d.op == .ar && d.fmt == .f32) else decide (d.llog ≠ 0)) ||
    ((d.fmt == .l8 || d.fmt == .sparse) && decide (2 < d.blk ∨ d.segLen % collBlk d ≠ 0))

/-- R235, R265: a gradient block or row record that this module's Inlets take lies in another die's Tarn. -/
def State.gradElsewhere (s : State) (p : Program) (d : CollDesc) : Bool :=
  collPosts d && (updateOf p d.inletTensor).any fun e => (e.own.zipIdx.filter fun o => o.1.1 == s.srcRank).any fun o =>
    let (at', n) := ((segments p d)[o.2]?).getD (0, 0)
    let off (a : Nat) : Bool := stackDie (stackOf a) != o.1.2
    let spans := if d.fmt = .sparse then
        let w := rowDst d at' 0
        [(w.1, elemBytes d n), (w.2, entryBytes d n)]
      else [(d.dst + at', elemBytes d n), (d.dste + 2 * (at' / collBlk d), entryBytes d n)]
    spans.any fun y => decide (0 < y.2) && (off y.1 || off (y.1 + y.2 - 1))

/-- R279: where a strand other than a copy reads and writes in Tarn: history records, the loss, wide sources of the Loupe, roots, and the
memory of a collective. -/
def State.strandSpans (s : State) (p : Program) (t : Strand) : List (Nat × Nat) :=
  let records := match quantOf t.kind with
    | some q => if p.serving then [] else ((copiesOf q).filter fun x => logCopy x.d && x.d.gran != .loc).map fun x =>
        let a := histOf x.d (amaxGroup x.d 0)
        (a, a + 512 * if x.d.gran = .line then (if x.col then q.pc else q.pr) else 1)
    | none => []
  records ++ match t.kind with
    | .loss a n => [(a, a + 4 * n)]
    | .nsIter d => [(tarnAddr d.root, tarnAddr d.root + 4 * (64 * 2 ^ d.pb) ^ 2), (tarnAddr d.hdr, tarnAddr d.hdr + 16)]
    | .tile d => ((p.products.find? fun e => e.tensor == d.tensor).bind (·.loupe)).toList.flatMap fun x =>
        ([(x.1, d.aLine), (x.2, d.bLine)].filter fun y => !y.1.pool).map fun y =>
          let a := tarnAddr y.1.src + y.2 * y.1.stride
          (a, a + 63 * y.1.stride + d.k * if y.1.fmt = 0 then 4 else 2)
    | .coll _ | .hosted _ => ((s.ownColls p).find? fun x => x.1.id == t.id).toList.flatMap fun x =>
        collSource x.2.1 x.2.2.1 ++ collDest x.2.1 x.2.2.2
    | _ => []

/-- R275, R279, R285: a strand that reaches memory outside the program's regions, which hold no frame-1 half and no window; for a collective
whose engine is on no die of the posts it feeds, R235. -/
def State.badReach (s : State) (p : Program) : Option Nat :=
  p.strands.findIdx? fun t => ((s.strandSpans p t).any fun y => decide (y.1 < y.2) && !inRegions p y.1 y.2) || (match t.kind with
    | .coll d | .hosted d => s.gradElsewhere p d
    | _ => false)

/-- R179, R279: a policy record outside the program's regions. -/
def badPolicy (p : Program) : Option Nat :=
  if p.serving then none
  else p.layers.findIdx? fun e => !inRegions p (p.policyBase + 8 * e.num) (p.policyBase + 8 * e.num + 8)

/-- R307, R311, R323: a descriptor out of its limits, an overlap, or an implicit collective in a domain of more than 64 modules. -/
def State.badColl (s : State) (p : Program) : Option Nat :=
  p.strands.findIdx? fun t => match t.kind with
    | .coll d => collDescBad p d || decide (64 < s.dom.size) || s.collOverlap p t
    | .hosted d => collDescBad p d || s.collOverlap p t
    | _ => false

/-- R299, R308: a group that the engine cannot hold, or with a member whose rank has no valid route entry (log 43). -/
def State.badGroup (s : State) (p : Program) : Option Nat :=
  let used (grp : Nat) : Bool := p.strands.any fun t => match t.kind with
    | .coll d => d.grp == grp
    | _ => false
  let whole := if used 0 && !p.groups.any (fun g => g.grp == 0) then [s.wholeGroup p] else []
  (((p.groups ++ whole).zipIdx).find? fun g => decide (255 < g.2) || (g.1.grp == 0 && g.1 != s.wholeGroup p) ||
    (used g.1.grp && decide (64 < g.1.ranks.length)) ||
    g.1.ranks.any fun r => r != s.srcRank && !(s.route r).any fun x => !x.ports.isEmpty).map (·.2)

/-! ## Serving programs (R148, R336, R337) -/

/-- A task that breaks R337: a product over events off the F16 path, one of its operands held in another format, or scores without the
causal mask. -/
def servTileBad (p : Program) (t : Strand) (d : TileDesc) : Bool :=
  (decide (d.fused = 2) && !d.fk.causal) ||
    p.products.any fun e => e.tensor == d.tensor && e.events && (d.format != .f16 || operandMixed p t d e.aCopy || operandMixed p t d e.bCopy)

/-- What is wrong with what a serving program declares (R340, R341): INF, or a context that no U region of the program holds. -/
def servInfoBad (p : Program) (i : ServInfo) : Bool :=
  decide (i.inf < 2 ∨ 112 < i.inf) ||
    !p.regions.any fun r => !r.versioned && decide (r.base ≤ (contextSpan i).1 ∧ (contextSpan i).2 ≤ r.base + r.size)

/-- A serving program that breaks a rule of R148, R336, R337, R340, R341 or R351: a backward segment of a batch, an Inlet update, a
collective; stochastic rounding; a log copy that is not LOCAL; a product over events in a log format; softmax without the causal mask; a
backward product off the F16 path. That a strand's rows in the pool keep to one slot is `rulesOk` (log 85). -/
def badServing (p : Program) : Option Nat :=
  if !p.serving then none
  else if decide (configValue p .cut 0x10 ≠ 0x1FFFFF) || !p.updates.isEmpty || p.layers.any (·.hasBwd) ||
      p.serv.all fun i => !i.rulesOk || servInfoBad p i then some 0
  else p.strands.findIdx? fun t =>
    (t.seg.any fun x => x.2) ||
    (match t.kind with
     | .coll _ | .hosted _ | .statsPass _ _ | .nsIter _ => true
     | .tile d => servTileBad p t d || (d.format != .f16 && p.serv.any fun i => i.backPhases.contains t.phase)
     | .apply d => d.kind == .smxApply && !d.causal
     | _ => false) ||
    (quantOf t.kind).any fun q => [q.row, q.col].any fun d => d.en && d.fmt != .f16 && d.gran != .loc

/-! ## The load checks in their order (R381) -/

/-- The image with its digest fields read as zero (R34). -/
def Program.bare (p : Program) : Program := { p with programDigest := 0, numericsDigest := 0 }

/-! What the numerics digest covers (R34): the image with everything that it leaves out read as zero. -/

/-- A copy descriptor without its addresses. -/
def numCopy (d : CopyDesc) : CopyDesc := { d with codes := 0, exps := 0, hist := 0, amaxv := 0 }

/-- A QUANT descriptor without its binding, its shard and its addresses. -/
def numQuant (q : QuantDesc) : QuantDesc := { q with
  shard := q.shard.map fun _ => 0, cluster := 0, src := 0, tally := 0, row := numCopy q.row, col := numCopy q.col, inclList := 0, inclDst := 0, shiftAddr := 0, xmap := 0 }

/-- A task without its binding and addresses. -/
def numTile (d : TileDesc) : TileDesc := { d with
  cluster := 0, facet := 0, aBase := 0, bBase := 0, aeBase := 0, beBase := 0, scales := 0, dest := 0, aLine := 0, bLine := 0
  incl := d.incl.map fun n => { n with aArea := 0, bArea := 0, aLine0 := 0, bLine0 := 0, result := 0 }
  fk := { d.fk with z := 0, pCodes := 0, pExps := 0, gamma := 0, x := 0 } }

/-- A collective as the numerics digest covers it (R307): OP, FMT, BLK, LLOG, ELEMS, and the tensor and rows that its leaves are of. -/
def numColl (d : CollDesc) : CollDesc := { d with
  grp := 0, pidx := 0, layer := none, eng := 0, lmap := [], segLen := 0, src := 0, srce := 0, lstride := 0, dst := 0, dste := 0, toInlet := false
  ownMap := [], srcWait := false, segDone := [], strand := 0 }

/-- An operation of the graph without its binding and addresses; none for a program copy, whose plan is left out. -/
def numKind : StrandKind → Option StrandKind
  | .tile d => some (.tile (numTile d))
  | .quant q => some (.quant (numQuant q))
  | .apply d => some (.apply { d with
      cluster := 0, stat := 0, src := 0, dy := 0, gamma := 0, rArea := 0, leaf := 0, pCodes := 0, pExps := 0, dst := 0, quant := numQuant d.quant })
  | .elem d => some (.elem { d with cluster := 0, a := 0, b := 0, dst := 0, quant := d.quant.map numQuant })
  | .nsIter d => some (.nsIter { d with cluster := 0, stage := 0, root := 0, hdr := 0, die := 0 })
  | .loss _ n => some (.loss 0 n)
  | .statsPass _ tensor => some (.statsPass 0 tensor)
  | .copy _ => none
  | .coll d => some (.coll (numColl d))
  | .hosted d => some (.hosted (numColl d))

/-- The place of a number among those of a list: how many different ones are smaller. -/
def rankIn (l : List Nat) (x : Nat) : Nat := (l.eraseDups.filter (· < x)).length

/-- The operations of one shard and those that the shards share. -/
def numOps (ts : List Strand) : List Strand :=
  let first := (ts.filterMap (·.shard)).foldl (fun m x => min m x) (2 ^ 17)
  ts.filter fun t => (numKind t.kind).isSome && t.shard.all (· == first)

/-- The phases that hold an operation. -/
def numPhases (ts : List Strand) : List Nat := (numOps ts).map (·.phase)

/-- The per-shard operation graph: the operations of one shard and those that the shards share, numbered in their order, each with those
that come before it, through copies as well. -/
def numericsGraph (ts : List Strand) : List Strand :=
  let kept := numOps ts
  kept.zipIdx.filterMap fun t => (numKind t.1.kind).map fun k =>
    let earlier := before ts ts.length t.1.deps
    { t.1 with
      id := t.2, phase := rankIn (numPhases ts) t.1.phase, kind := k, shard := t.1.shard.map fun _ => 0
      deps := (List.range kept.length).filter fun j => ((kept[j]?).map (·.id)).any earlier.contains }

/-- The kind of the region that an address lies in, as the numerics digest covers it (R210): 1 for V. -/
def kindAt (p : Program) (a : Nat) : Nat := b2n ((regionOf p (tarnAddr a)).any (·.versioned))

/-- An update entry without OWN, and without its addresses but for the kinds of their regions (R210, R236). -/
def numUpdate (p : Program) (e : UpdateEntry) : UpdateEntry := { e with
  wh := kindAt p e.wh, wm := kindAt p e.wm, momc := kindAt p e.momc, mome := kindAt p e.mome, stat := kindAt p e.stat
  root := kindAt p e.root, hdr := kindAt p e.hdr, rcnt := kindAt p e.rcnt, scr := 0, grad := 0, grade := 0, stage := 0, own := [], dies := [] }

/-- The image as the numerics digest covers it (R34, R149, R204, R236): the operation graph with formats, K-group lengths, rotations and
inclusion lists, the trouble table, the shard count, the wide schedule, the frozen set and the update rules. The configuration block counts
by the values in force. -/
def Program.numerics (p : Program) : Program := { Program.bare p with
  cL := 0, fL := 0, config := []
  regions := ((p.regions.filter fun r => r.cls == .param || r.cls == .state || r.cls == .rowcount).map fun r =>
    { r with base := 0, size := 0 }).eraseDups
  stash := [], policyBase := 0, collCount := 0, groups := [], shardMap := [], ports := []
  copies := p.copies.map fun c => { c with shift := b2n (c.shift != 0) }
  products := p.products.map fun e => { e with loupe := e.loupe.map fun x =>
    ({ x.1 with src := 0, inclList := 0, shiftAddr := 0 }, { x.2 with src := 0, inclList := 0, shiftAddr := 0 }) }
  updates := p.updates.map (numUpdate p)
  strands := numericsGraph p.strands
  serv := p.serv.map fun i => { i with
    batchPhases := i.batchPhases.map (rankIn (numPhases p.strands)), pointPhases := i.pointPhases.map (rankIn (numPhases p.strands))
    backPhases := i.backPhases.map (rankIn (numPhases p.strands)), ctxAddr := 0, inputAddr := 0, hiddenAddr := 0, scoreAddr := 0, pointAddr := 0, seedAddr := 0, gradAddr := 0, attrAddr := 0 } }

/-- 1: the digests. -/
def digestFault (p : Program) (expected : List Byte) : Option (Nat × Nat) :=
  if Config.programDigest (Program.bare p) ≠ p.programDigest ∨ digestBytes p.programDigest ≠ expected then some (stDigest, 0)
  else if Config.numericsDigest (Program.numerics p) (numericsValues p) ≠ p.numericsDigest then some (stDigest, 1)
  else none

/-- 2: the features, by their bit of SYS_CAPS (R5). -/
def featureFault (part : Part) (p : Program) : Option (Nat × Nat) :=
  if isCnm p && !part.variant.full then some (stUnsupported, 14)
  else if (p.updates.any fun e => e.rule == .pre) && !part.variant.full then some (stUnsupported, 13)
  else (p.ports.find? fun n => !portEnabled part n).map fun n => (stUnsupported, n)

/-- A ring of `n` bytes lies wholly within one window (R499). -/
def State.ringIn (s : State) (b : Block) (base n : Nat) : Bool := s.inOneWindow (s.ringBase b base) (s.ringBase b base + n)

/-- The event ring and, for a training program, the ratio ring are in place. -/
def State.ringsOk (s : State) (p : Program) : Bool :=
  s.log.set && s.ringIn .policy 0x40 (48 * s.logSize) && (p.serving || s.ringIn .inl 0x40 (64 * 2 ^ s.field .inl 0 0x48 0 5))

/-- 3: the tables and placements, then domain, rings and pairing. -/
def State.tableFault (s : State) (p : Program) : Option (Nat × Nat) :=
  match [tooManyStrands p, badQuant p, badTile p, badLayer p, lacksWide p, badConfig p, s.badRegion p, s.badUpdate p, badStash p, badCopy p,
      s.badReach p, badPolicy p, s.badColl p, s.badGroup p, badServing p].findSome? id with
  | some i => some (stLoadRefused, i % 2 ^ 16)
  | none =>
    if p.shards < s.dom.size ∨ (p.serving ∧ 1 < s.dom.size) then some (stLoadRefused, 0)
    else if !s.ringsOk p then some (stLoadRefused, 0xFFFC)
    else if s.twin.mode ≠ 0 ∧ s.twin.paired = false then some (stLoadRefused, 0xFFFE)
    else none

/-- 4: the physical clusters that take the logical ones (R18); none where too few qualify. -/
def State.binding (s : State) (p : Program) : Option (List Nat) :=
  let l := ((List.range 160).filter fun c => decide (p.fL ≤ (s.usableOf c).length)).take p.cL
  if l.length < p.cL then none else some l

/-- Every check but the twin's digest and the binding. -/
def State.loadFault (s : State) (p : Program) (expected : List Byte) : Option (Nat × Nat) :=
  match digestFault p expected with
  | some x => some x
  | none =>
    match featureFault s.part p with
    | some x => some x
    | none => s.tableFault p

/-! ## Loading -/

/-- The step sequencer, the Inlets, the units and the engines start afresh with a program, and at its unload. -/
def State.freshRun (s : State) : State :=
  let engines : Bank Engine := Bank.mapV engineDefault (fun (e : Engine) => { e with
    issuedAny := false, active := [], waiting := [], early := [], restarts := [] }) s.fab.engines
  let t := (s.cancelColls fun _ => true).clearUnits true
  { t with
    step := {}
    stash := { hwm := t.stash.hwm }
    fab := { t.fab with engines := engines }
    inl := { armed := t.inl.armed }
    dom := { t.dom with
      own := [], running := false, limit := none, stopping := false, doneIn := true, held := [], finiteClear := false, lvotes := [], lfailed := []
      raBase := none, blocked := none, ratios := [] } }

/-- This module's entry of the rank table names its program; a member reports it (log 41). -/
def State.reportLoad (s : State) : State :=
  if s.dom.rankValid then (s.setRank s.dom.rank { s.rankEntry s.dom.rank with digest := s.loadedDigest }).sendState else s

/-- A program whose checks have passed is loaded (R381): the numerics-relevant registers take its values, n is 0 (R29), INIT runs. -/
def State.load' (s : State) (p : Program) (bound : List Nat) : State :=
  let t : State := { (s.freshRun.applyConfig p) with prog := some p, bound := bound, cp := .loaded }
  (t.setStepNum 0).initVersions.reportLoad

/-- The last check, the binding, and the load. -/
def State.finishLoad (s : State) (p : Program) : State × Result :=
  match s.binding p with
  | none => (s, .done stUnsupported 0xFFFF [])
  | some l => (s.load' p l, .done stOk 0 (digestBytes p.numericsDigest))

/-- The twin's check (R395): the digest that the partner sent is taken. -/
def State.twinLoad (s : State) (p : Program) (d : Digest) : State × Result :=
  let t : State := { s with twin := { s.twin with progdig := none, loadWait := none } }
  if d = p.programDigest then t.finishLoad p else (t, .done stLoadRefused 0xFFFD [])

/-- PROG_LOAD (R381): `prog` is what the image spells (log 7). -/
def execProgLoad (queue : Nat) (prog : Program) (s : State) : Host.Outcome State Fault Refusal :=
  .next (s.runHost queue 0x0301 (lenIs 64) (inState [.ready]) fun _ l t =>
    let image := leAt 0 8 l
    let len := leAt 8 8 l
    if len = 0 ∨ !t.inOneWindow image (image + len) then (t, .done stBadField 0 [])
    else match t.firstBad image len with
      | some j => (t.bulkUE image j, .done stUncorrectable (lineDetail j) [])
      | none =>
        match t.loadFault prog (slice 16 48 l) with
        | some x => (t, .done x.1 x.2 [])
        | none =>
          if t.twin.mode = 2 then
            let u := t.sendTwin (markFrame 5 0 0 (digestBytes prog.programDigest))
            match u.twin.progdig with
            | some d => u.twinLoad prog d
            | none => ({ u with twin := { u.twin with loadWait := some (queue, prog) } }, .wait)
          else t.finishLoad prog)

/-- PROGDIG (R395): the partner's digest; a load that waits for it goes on. -/
def execProgdig (s : State) : Host.Outcome State Fault Refusal :=
  .next (match s.takeMark 5 with
    | none => s
    | some (f, t) =>
      let d : Digest := BitVec.ofNat 384 (beNat (f.data.take 48))
      match t.twin.loadWait with
      | none => { t with twin := { t.twin with progdig := some d } }
      | some (q, p) =>
        if t.cp ≠ .ready then
          ({ t with twin := { t.twin with loadWait := none } } : State).finishBusy q 0x0301 stBadState (cpCode t.cp) []
        else
          match t.twinLoad p d with
          | (u, .done code detail payload) => u.finishBusy q 0x0301 code detail payload
          | (u, _) => u)

/-! ## Unloading (R278, R381) -/

/-- PROG_UNLOAD: with no step open, or halted, and no model loaded. It waits for epochs and for the bulk commands issued (R287, R385). -/
def execProgUnload (queue : Nat) (s : State) : Host.Outcome State Fault Refusal :=
  .next (s.runHost queue 0x0302 (lenIs 0) (fun t => t.cp == .loaded && t.quiet && t.serv.model.isNone) fun _ _ t => (t, .wait))

/-- The condition of SETTLE: PROG_UNLOAD waits for it, no step is open, and no bulk command and no epoch is in progress. -/
def State.settling (s : State) : Bool :=
  (s.busyWith 0x0302).isSome && s.quiet && s.bulk.isEmpty && (List.range 8).all fun i => !s.epochRuns i

/-- SETTLE_COMPLETE (R278): every committed copy is back at its frame-0 address, and PROG_UNLOAD replies. -/
def execSettleComplete (s : State) : Host.Outcome State Fault Refusal :=
  let t := s.settle.freshRun
  let u : State := { t with prog := none, bound := [], cp := if t.cp = .faulted then .faulted else .ready }
  guarded s.settling s (u.reportLoad.finishOp 0x0302 stOk 0 [])

/-! ## RUN, STOP, ABORT and RESUME (R377, R381) -/

/-- The order of the checks of a domain-wide command: state, wellhead, then the domain's conditions in `body`. -/
def State.domainCmd (s : State) (queue op n : Nat) (body : List Byte → State → State × Result) : Host.Outcome State Fault Refusal :=
  .next (s.runHost queue op (lenIs n) (fun t => t.cp == .loaded && t.prog.any fun p => !p.serving) fun _ l t =>
    if t.isWellhead then body l t else (t, .done stNotWellhead 0 []))

def State.badState (s : State) : State × Result := (s, .done stBadState (cpCode s.cp) [])

/-- RUN (R381): STEPS is recorded; 0 sets no limit. Until every rank has loaded the program it replies BAD_STATE (R405). -/
def execRun (queue : Nat) (s : State) : Host.Outcome State Fault Refusal :=
  s.domainCmd queue 0x0303 4 fun l t =>
    let n := leAt 0 4 l
    if t.step.halted.isSome ∨ !t.allLoaded then t.badState
    else ({ t with dom := { t.dom with running := true, stopping := false, limit := if n = 0 then none else some n } }, .done stOk 0 [])

/-- A step is open in the domain, from OPEN to the last DONE. -/
def State.stepOpen (s : State) : Bool := s.step.att.isSome || s.step.committing || !s.dom.doneIn || s.hasDown 4

/-- STOP (R381): no further step opens; it replies when the open step has committed or the domain has halted. -/
def execStop (queue : Nat) (s : State) : Host.Outcome State Fault Refusal :=
  s.domainCmd queue 0x0304 0 fun _ t =>
    if t.step.halted.isNone ∧ t.stepOpen then ({ t with dom := { t.dom with stopping := true } }, .wait)
    else ({ t with dom := { t.dom with running := false } }, .done stOk 0 [])

/-- ABORT (R381): it waits for VETO to decide it, and replies when every module has carried the abort out. -/
def execAbort (queue : Nat) (s : State) : Host.Outcome State Fault Refusal :=
  s.domainCmd queue 0x0305 0 fun _ t => (t, if t.step.halted.isSome && t.dom.halting.isEmpty then .done stOk 0 [] else .wait)

/-- RESUME (R185, R222): step n opens again with a fresh retry count; every rank below SIZE is joined (R408). -/
def execResume (queue : Nat) (s : State) : Host.Outcome State Fault Refusal :=
  s.domainCmd queue 0x0306 0 fun _ t =>
    if t.step.halted.isNone ∨ t.step.exhausted ∨ !t.allJoined then t.badState
    else
      let u : State := { t with
        step := { t.step with halted := none, retries := 0, resumed := true }
        dom := { t.dom with running := true, stopping := false } }
      (u, .done stOk 0 [])

end Sys2Proof.Machine
end

