-- ==== Sys2Proof/Machine/Serving.lean ====
section
/-! DEFINITION. Serving (R336 to R357): the model, slots, the batcher, provenance records, and explanation passes. -/
namespace Sys2Proof.Machine

/-! ## Slots and the model -/

def slotDefault (_ : Nat) : Slot := {}

def State.slot (s : State) (i : Nat) : Slot := Bank.get slotDefault s.serv.slots i

def State.setSlot (s : State) (i : Nat) (x : Slot) : State :=
  { s with serv := { s.serv with slots := Bank.put slotDefault s.serv.slots i x } }

/-- What the loaded serving program declares. -/
def State.servInfo (s : State) : ServInfo := ((s.prog.bind (·.serv))).getD default

def inBytes (i : ServInfo) : Nat := 2 * i.inf

/-- SCORES of the model (R339). -/
def State.servScores (s : State) : Nat := (s.serv.model.map fun m => m.calib.scores).getD 0

/-- The bytes that a row of `n` bytes takes where serving keeps rows: whole lines (log 44). -/
def lineUp (n : Nat) : Nat := (n + 63) / 64 * 64

/-- Puts rows of `n` bytes each at their places in turn, filled up with zeros to whole lines. -/
def State.putRows (s : State) (n : Nat) (l : List (Nat × List Byte)) : State :=
  l.foldl (fun (t : State) x => t.putBytes x.1 (x.2 ++ List.replicate (lineUp n - x.2.length) 0)) s

/-- `k` rows of `n` bytes of data, the first at `a`. -/
def rowsFrom (a n k : Nat) (l : List Byte) : List (Nat × List Byte) :=
  (List.range k).map fun j => (a + lineUp n * j, slice (n * j) n l)

/-- The requests of a slot in the batch that runs. -/
def State.batchReqs (s : State) (slot : Nat) : List Request :=
  match s.serv.batch with
  | some b => b.reqs.filter fun r => r.slot == slot
  | none => []

def countEvents (l : List Request) : Nat := (l.map (·.count)).foldl (· + ·) 0

/-- The position that the next event of a slot takes: LEN and the events of its requests that wait or run (R341). -/
def State.nextPos (s : State) (slot : Nat) : Nat :=
  (s.slot slot).len + countEvents (s.slot slot).queue + countEvents (s.batchReqs slot)

/-- Requests that the batcher holds. -/
def State.heldRequests (s : State) : Nat :=
  (s.serv.slots.map fun e => e.2.queue.length).foldl (· + ·) 0 + ((s.serv.batch.map fun b => b.reqs.length).getD 0)

/-- The pending slots, by number (R342). -/
def State.pendingSlots (s : State) : List (Nat × Slot) := s.serv.slots.filter fun e => !e.2.queue.isEmpty

/-- The slot is borrowed by an explanation pass. -/
def State.borrowed (s : State) (slot : Nat) : Bool := s.serv.pass.any fun x => x.slot == slot

/-- I(−1) (R345). -/
def chainStart (commit : Digest) : Digest := sha384 ([0x5A, 0x54, 0x49, 0x4E] ++ digestBytes commit)

/-- I(p) from I(p − 1) and the bytes of event p (R345). -/
def chainNext (d : Digest) (event : List Byte) : Digest := sha384 (digestBytes d ++ event)

/-- The chain over events of `n` bytes each. -/
def chainOver (d : Digest) (n : Nat) (l : List Byte) : Digest := (runsOf n l).foldl chainNext d

/-! ## MODEL_LOAD (R338, R339) -/

/-- Little-endian H16 values widened. -/
def wideH16 : List Byte → List Word
  | a :: b :: t => h16to32 (BitVec.ofNat 16 (a.toNat + 256 * b.toNat)) :: wideH16 t
  | _ => []

/-- The binary16 features of events, widened. -/
def wideF16 : List Byte → List Word
  | a :: b :: t => f16to32 (BitVec.ofNat 16 (a.toNat + 256 * b.toNat)) :: wideF16 t
  | _ => []

/-- One entry of the command: tensor, the field that must be zero, the H16 area. -/
def modelEntries (n : Nat) (l : List Byte) : List (Nat × Nat × Nat) :=
  (List.range n).map fun i => (leAt (64 + 16 * i) 4 l, leAt (68 + 16 * i) 4 l, leAt (72 + 16 * i) 8 l)

/-- Bytes of a parameter tensor's H16 area. -/
def paramBytes (info : ServInfo) (tensor : Nat) : Nat :=
  ((info.params.find? fun p => p.1 == tensor).map fun p => 2 * p.2.1 * p.2.2).getD 0

/-- What is wrong with entry number `i`: the offset of its field. -/
def modelEntryFault (info : ServInfo) (es : List (Nat × Nat × Nat)) (e : Nat × Nat × Nat) (i : Nat) : Option Nat :=
  if (info.params.any fun p => p.1 == e.1) = false ∨ ((es.take i).any fun x => x.1 == e.1) then some (64 + 16 * i)
  else if e.2.1 ≠ 0 then some (68 + 16 * i)
  else if tarnTop < e.2.2 + paramBytes info e.1 then some (72 + 16 * i)
  else none

/-- The first field of a MODEL_LOAD that is out of range, by offset. -/
def modelLoadFault (info : ServInfo) (cal len n : Nat) (es : List (Nat × Nat × Nat)) : Option Nat :=
  if tarnTop < cal + len then some 0
  else match (es.zipIdx).findSome? fun e => modelEntryFault info es e.1 e.2 with
    | some o => some o
    | none => if n ≠ info.params.length then some 12 else none

/-- Reads ranges in turn through the bulk engine: their bytes, or the first uncorrectable line. -/
def State.bulkReadAll (s : State) : List (Nat × Nat) → List Byte → State × Except Nat (List Byte)
  | [], acc => (s, .ok acc)
  | r :: t, acc =>
    match s.bulkRead r.1 (r.2 - r.1) with
    | (u, .ok l) => u.bulkReadAll t (acc ++ l)
    | (u, .error j) => (u, .error j)

/-- Bulk writes in turn; the first uncorrectable line that one covers in part ends them (R268): the write's address and the line's number. -/
def State.bulkWrites : List (Nat × List Byte) → State → State × Option (Nat × Nat)
  | [], s => (s, none)
  | w :: r, s =>
    match s.bulkWrite w.1 w.2 with
    | (u, none) => State.bulkWrites r u
    | (u, some j) => (u, some (w.1, j))

/-- Narrows one weight copy from the H16 area at `area` (R148): TENSOR or LINE exponents on the just-in-time path. Every non-finite block,
value and inclusion raises NONFINITE (R63, R66, R68; the Cutter named is Cutter 0, log 84). -/
def State.narrowWeight (s : State) (rows cols area : Nat) (w : WeightCopy) : State × Option (Nat × Nat) :=
  let ieee := bit (s.reg .cut 0 0x14) 0
  let panel := runsOf cols (wideH16 (s.loadCommitted area (2 * rows * cols)))
  let ax : Axis := { ch0 := 0, list := w.list, shiftOn := w.shiftOn, sideB := w.sideB, shifts := w.shifts }
  let ls := (panelLines panel cols w.col).map (prepare ax w.affected w.copy.rot)
  let incl := (if w.affected then ls.zipIdx else []).flatMap fun l => l.1.incl.map fun e =>
    (tarnAddr (w.inclDst + 2 * (l.2 * w.list.length + e.1)), toF16 ieee e.2)
  let rs := ls.map fun l => f16Line ieee l.x
  let f := logFmt w.copy.fmt
  let all := ls.foldl (fun m l => max m (amaxOf l.x)) 0
  let o := ls.foldl (fun (o : CopyOut) l =>
    let a := if w.copy.gran = .tensor then all else amaxOf l.x
    o.addLine f ax w.affected 0 0 w.copy (groupExp f (BitVec.ofNat 32 a) w.margin) l.x) {}
  let bad := (incl.filter fun e => e.2.2.1).length +
    (if w.copy.fmt = .f16 then rs.foldl (fun n r => n + r.2.2) 0 else o.pois)
  let out := if w.copy.fmt = .f16 then [(tarnAddr w.copy.codes, rs.flatMap (·.1))]
    else [(tarnAddr w.copy.codes, o.codes), (tarnAddr w.copy.exps, o.exps)]
  State.bulkWrites (incl.map (fun e => (e.1, leBytes 2 e.2.1.toNat)) ++ out)
    (s.nonfinite 0 { tensor := some w.tensor, part := b2n w.col } bad)

/-- Narrows every weight copy that the calibration block names; the first uncorrectable line of a merge ends it. -/
def State.narrowWeights (info : ServInfo) (es : List (Nat × Nat × Nat)) : List WeightCopy → State → State × Option (Nat × Nat)
  | [], s => (s, none)
  | w :: r, s =>
    match info.params.find? fun p => p.1 == w.tensor, es.find? fun e => e.1 == w.tensor with
    | some p, some e =>
      match s.narrowWeight p.2.1 p.2.2 e.2.2 w with
      | (u, none) => State.narrowWeights info es r u
      | (u, some j) => (u, some j)
    | _, _ => State.narrowWeights info es r s

/-- The provenance ring: its base, its size in entries, and the place of entry `j` (R348). -/
def State.prvSize (s : State) : Nat := 2 ^ s.field .serv 0 0x28 0 5

def State.prvPlace (s : State) (j : Nat) : Nat := s.ringBase .serv 0x20 + 256 * (j % s.prvSize)

/-- The ranges that a model load reads: the calibration block, then the H16 areas in ascending tensor identifier. -/
def modelRanges (info : ServInfo) (cal len : Nat) (es : List (Nat × Nat × Nat)) : List (Nat × Nat) :=
  let ids := (info.params.map (·.1)).foldl (fun b t => Bank.put (fun _ => 0) b t 1) ([] : Bank Nat)
  (cal, cal + len) :: ids.filterMap fun t =>
    (es.find? fun e => e.1 == t.1).map fun e => (e.2.2, e.2.2 + paramBytes info t.1)

/-- What is wrong with a calibration block, by number: SCORES outside 1 to 4 (R339), or a copy of an activation that breaks R148 or R337: an
operand of a product over events that is not F16. The spec names no status; DESIGN CHOICE (log 85): LOAD_REFUSED. -/
def calibFault (p : Program) (c : Calib) : Option Nat :=
  if c.scores = 0 ∨ 4 < c.scores then some 0
  else c.acts.findIdx? fun x => x.fmt != .f16 && p.products.any fun e =>
    e.events && (e.aCopy == (x.tensor, x.col) || e.bCopy == (x.tensor, x.col))

/-- MODEL_LOAD (R338): `cal` is what the calibration block spells. Where the merge of a narrowed copy's line meets an uncorrectable line,
the command ends as a host read does (R268, R270), and no copy is written (R370). -/
def execModelLoad (queue : Nat) (cal : Calib) (s : State) : Host.Outcome State Fault Refusal :=
  .next (s.runHost queue 0x0501 (fun n => decide (64 ≤ n ∧ n % 16 = 0))
    (fun t => t.cp == .loaded && (t.prog.any fun p => p.serving) && t.serv.model.isNone) fun _ l t =>
    let info := t.servInfo
    let n := leAt 12 4 l
    let base := leAt 0 8 l
    let len := leAt 8 4 l
    if l.length ≠ 64 + 16 * n then (t, .done stBadLength 0 [])
    else
      let es := modelEntries n l
      match modelLoadFault info base len n es with
      | some o => (t, .done stBadField o [])
      | none =>
        if !t.ringIn .serv 0x20 (256 * t.prvSize) then (t, .done stLoadRefused 0xFFFC [])
        else
          let ranges := modelRanges info base len es
          match t.bulkReadAll ranges [] with
          | (u, .error j) => (u, .done stUncorrectable (lineDetail j) [])
          | (u, .ok bytes) =>
            let commit := sha384 bytes
            if digestBytes commit ≠ slice 16 48 l then (u, .done stDigest 2 [])
            else match t.prog.bind fun p => calibFault p cal with
            | some i => (u, .done stLoadRefused i [])
            | none =>
              match State.narrowWeights info es cal.weights u with
              | (_, some (a, j)) => (u.bulkUE a j, .done stUncorrectable (lineDetail j) [])
              | (v, none) =>
                ({ v with serv := { model := some { commit := commit, ranges := ranges, calib := cal } } }, .done stOk 0 []))

/-! ## SCORE and SLOT_RESET (R340, R341) -/

/-- SCORE (R341): every check before any state changes. -/
def execScore (queue : Nat) (s : State) : Host.Outcome State Fault Refusal :=
  .next (s.runHost queue 0x0503 (fun n => decide (16 ≤ n)) anyState fun p l t =>
    let slot := leAt 0 2 l
    let count := leAt 2 2 l
    let pos := leAt 4 4 l
    let info := t.servInfo
    if t.serv.model.isNone then (t, .done stNoModel 0 [])
    else if 2047 < slot then (t, .done stBadField 0 [])
    else if count = 0 ∨ 32 < count then (t, .done stBadField 2 [])
    else if leAt 8 8 l ≠ 0 then (t, .done stBadField 8 [])
    else if l.length ≠ 16 + count * inBytes info then (t, .done stBadLength 0 [])
    else if t.borrowed slot then (t, .done stSlotBusy 0 [])
    else if pos ≠ t.nextPos slot ∨ info.ctxMax < pos + count then (t, .done stPosition 0 [])
    else if 8192 ≤ t.heldRequests then (t, .done stQueueFull 0 [])
    else
      let r : Request := { queue := queue, packet := p, slot := slot, count := count, pos := pos, data := l.drop 16, at' := t.us }
      let x := t.slot slot
      (t.setSlot slot { x with queue := x.queue ++ [r] }, .issued))

/-- A slot reset applies: LEN := 0 and the chain starts again (R340). -/
def State.resetSlot (s : State) (slot : Nat) : State := s.setSlot slot { s.slot slot with len := 0, chain := none }

/-- No request of the slot waits or runs. -/
def State.slotIdle (s : State) (slot : Nat) : Bool := (s.slot slot).queue.isEmpty && (s.batchReqs slot).isEmpty

/-- SLOT_RESET (R340, R354). -/
def execSlotReset (queue : Nat) (s : State) : Host.Outcome State Fault Refusal :=
  .next (s.runHost queue 0x0504 (lenIs 4) anyState fun _ l t =>
    let slot := leAt 0 2 l
    if t.serv.model.isNone then (t, .done stNoModel 0 [])
    else if 2047 < slot then (t, .done stBadField 0 [])
    else if leAt 2 2 l ≠ 0 then (t, .done stBadField 2 [])
    else if t.borrowed slot then (t, .done stSlotBusy 0 [])
    else if t.slotIdle slot then (t.resetSlot slot, .done stOk 0 [])
    else (t, .wait))

/-- SLOT_RESETs that wait and whose slot has become idle complete. -/
def State.finishResets (s : State) : State :=
  (List.range 16).foldl (fun (t : State) i =>
    match (t.queue i).busy with
    | some p =>
      let slot := leAt 0 2 p.payload
      if p.opcode = 0x0504 ∧ t.slotIdle slot then (t.resetSlot slot).finishBusy i 0x0504 stOk 0 [] else t
    | none => t) s

/-! ## MODEL_UNLOAD (R354) -/

/-- A batch or a path point runs. -/
def State.servRuns (s : State) : Bool := s.serv.batch.isSome || s.serv.pass.any (·.running)

/-- The model goes: queued requests and passes are withdrawn, and slot resets that waited for them apply. -/
def State.dropModel (s : State) : State :=
  let s1 := s.serv.slots.foldl (fun (t : State) e =>
    e.2.queue.foldl (fun (u : State) r => u.finishIssued r.queue r.packet stCancelled 0 []) t) s
  let xs := (s.serv.pass.toList.map (·.ex)) ++ s.serv.passes
  let s2 := xs.foldl (fun (t : State) x => t.finishIssued x.queue x.packet stCancelled 0 []) s1
  (({ s2 with serv := {} } : State).finishResets)

/-- MODEL_UNLOAD (R354). -/
def execModelUnload (queue : Nat) (s : State) : Host.Outcome State Fault Refusal :=
  .next (s.runHost queue 0x0502 (lenIs 0) anyState fun _ _ t =>
    if t.serv.model.isNone then (t, .done stNoModel 0 [])
    else if t.servRuns then (t, .wait)
    else (t.dropModel, .done stOk 0 []))

/-- After a batch or a point has ended: slot resets and an unload that wait. -/
def State.servSettled (s : State) : State :=
  let t := s.finishResets
  if (t.busyWith 0x0502).isSome ∧ t.servRuns = false then t.dropModel.finishOp 0x0502 stOk 0 [] else t

/-! ## Attempts of serving -/

/-- A serving attempt: only the given phases run, every layer at its calibrated rung (R336, R339). -/
def State.servAttempt (s : State) (phases : List Nat) : Attempt :=
  let rungs := ((s.serv.model.map fun m => m.calib.rungs).getD [])
  { step := s.stepNum, number := 0, base := 0, lr := none, wide := false, rerun := false, skip := false, only := some phases
    layers := rungs.foldl (fun b e => Bank.put layerDefault b e.1 { rung := e.2 }) [] }

def State.servStart (s : State) (phases : List Nat) : State :=
  let t := s.newAttemptUnits
  { t with step := { t.step with att := some (s.servAttempt phases), causes := [] } }

/-- Every strand of the serving attempt is complete and no fault is on record. -/
def State.servDone (s : State) : Bool :=
  match s.prog, s.step.att with
  | some p, some a => ((p.strands.filter (active a)).all fun t => a.done.contains t.id) && s.step.causes.isEmpty
  | _, _ => false

/-- A serving attempt that has completed goes. -/
def State.servEnd (s : State) : State :=
  let t := s.clearUnits true
  { t with step := { t.step with att := none, causes := [] } }

/-- The cause that aborts a serving attempt (R343). -/
def State.servCause (s : State) : Option Nat :=
  (s.step.causes.find? fun c => decide (c.code = 4 ∨ (0x10 ≤ c.code ∧ c.code ≤ 0x12))).map (·.code)

/-! ## The batcher (R342, R343, R348) -/

/-- The longest wait has passed for some head request. -/
def State.waitDue (s : State) : Bool :=
  let w := (s.reg .serv 0 0x14).toNat
  decide (w ≠ 0xFFFFFFFF) && s.pendingSlots.any fun e => e.2.queue.head?.any fun r => decide (w ≤ s.us - r.at')

/-- MAX_WAIT is evaluated against the requests queued. -/
def State.evalWait (s : State) : State := { s with serv := { s.serv with due := s.waitDue } }

/-- MAX_WAIT_EXPIRY (R342). -/
def execMaxWaitExpiry (s : State) : Host.Outcome State Fault Refusal :=
  guarded s.waitDue s { s with serv := { s.serv with due := true } }

/-- A batch is ready to launch (R342). -/
def State.batchReady (s : State) : Bool :=
  s.serv.model.isSome && !s.pendingSlots.isEmpty &&
    (s.serv.due || decide (s.field .serv 0 0x10 0 12 ≤ s.pendingSlots.length))

/-- Where a slot's event at a position lies as input. -/
def inputPlace (info : ServInfo) (slot pos : Nat) : Nat :=
  tarnAddr (info.inputAddr + (slot * info.ctxMax + pos) * lineUp (inBytes info))

/-- Puts a batch's events in their slots' input areas and starts it. -/
def State.startBatch (s : State) (b : Batch) : State :=
  let info := s.servInfo
  let t := s.putRows (inBytes info) (b.reqs.flatMap fun r => rowsFrom (inputPlace info r.slot r.pos) (inBytes info) r.count r.data)
  ({ t with serv := { t.serv with batch := some b } } : State).servStart info.batchPhases

/-- The places of the next `n` entries of the provenance ring that lie outside every window. -/
def State.prvOutside (s : State) (n : Nat) : List Nat :=
  ((List.range n).map fun k => s.prvPlace ((s.reg .serv 0 0x2C).toNat + k)).filter fun a => !s.inOneWindow a (a + 256)

/-- The ring has room for `n` records (R348, R499). -/
def State.prvRoom (s : State) (n : Nat) : Bool :=
  decide (s.ringUsed .serv 0x2C 0x30 + n ≤ s.prvSize) && (s.prvOutside n).isEmpty

/-- TRN_ACCESS once for a provenance record whose place `a` lies outside every window (R499). -/
def State.prvRefused (s : State) (a : Nat) : State :=
  if s.serv.prvOut then s
  else
    let t := s.raiseEv 0x0305 (stackOf a % 8) (leBytes 6 a ++ [9, 0])
    { t with serv := { t.serv with prvOut := true } }

/-- A batch waits for ring room: PRV_FULL once, and TRN_ACCESS where a place lies outside every window. -/
def State.waitRing (s : State) (n : Nat) : State :=
  let s1 := match s.prvOutside n with
    | [] => s
    | a :: _ => s.prvRefused a
  if s1.serv.prvFull then s1
  else
    let t : State := { s1 with serv := { s1.serv with prvFull := true } }
    t.raiseEv 0x0842 0 (leBytes 4 (s.reg .serv 0 0x2C).toNat)

/-- BATCH_LAUNCH (R342, R343): the head request of every pending slot. -/
def execBatchLaunch (s : State) : Host.Outcome State Fault Refusal :=
  let ready := s.batchReady && !s.servRuns && (s.busyWith 0x0502).isNone
  let reqs := s.pendingSlots.filterMap fun e => e.2.queue.head?
  if !s.prvRoom (countEvents reqs) then guarded ready s (s.waitRing (countEvents reqs))
  else
    let t := s.pendingSlots.foldl (fun (u : State) e => u.setSlot e.1 { e.2 with queue := e.2.queue.drop 1 }) s
    let u : State := { t with serv := { t.serv with prvFull := false, prvOut := false } }
    guarded ready s (u.startBatch { reqs := reqs, retried := false }).evalWait

/-! ## Provenance (R345 to R348) -/

/-- 1588 time as a record holds it: seconds in 6 bytes, nanoseconds in 4. -/
def State.stamp (s : State) : List Byte :=
  let ns := s.host.clockNs.toNat
  leBytes 6 (ns / 1000000000) ++ leBytes 4 (ns % 1000000000)

/-- Where the final hidden row and the scores of event `e` of the attempt lie. -/
def hiddenPlace (info : ServInfo) (e : Nat) : Nat := tarnAddr (info.hiddenAddr + lineUp (4 * info.hiddenLen) * e)

def scorePlace (info : ServInfo) (e : Nat) : Nat := tarnAddr (info.scoreAddr + 64 * e)

/-- The final hidden row and the scores of event `e` of the attempt. -/
def State.hiddenRow (s : State) (info : ServInfo) (e : Nat) : List Word := s.loadWords (hiddenPlace info e) info.hiddenLen

def State.scoresOf (s : State) (info : ServInfo) (e : Nat) : List Word := s.loadWords (scorePlace info e) s.servScores

/-- The lines of the results of some events: a line of them that is uncorrectable is a strand's read of it (R270; log 45). -/
def State.resultLines (s : State) (info : ServInfo) (es : List Nat) : List Nat :=
  es.flatMap fun e => s.strandLines (hiddenPlace info e) (4 * info.hiddenLen) ++ s.strandLines (scorePlace info e) (4 * s.servScores)

def wordBytes (l : List Word) : List Byte := l.flatMap fun w => leBytes 4 w.toNat

/-- The output digest of event `e` (R346). -/
def State.outputDigest (s : State) (info : ServInfo) (e : Nat) : Digest :=
  sha384 (wordBytes (s.hiddenRow info e ++ s.scoresOf info e))

/-- The 240 bytes of a provenance record (R347). -/
def provRecord (model program input output : Digest) (slot flags pos : Nat) (stamp : List Byte) (batch : Nat) (scores : List Word)
    (rseq : Nat) : List Byte :=
  digestBytes model ++ digestBytes program ++ digestBytes input ++ digestBytes output ++ leBytes 2 slot ++ leBytes 2 flags
    ++ leBytes 4 pos ++ stamp ++ leBytes 4 batch ++ leBytes 2 0 ++ wordBytes ((scores ++ List.replicate 4 0).take 4) ++ leBytes 8 rseq

/-- The next entry of the provenance ring. -/
def State.prvPut (s : State) (rec : List Byte) : State :=
  (s.putBytes (s.prvPlace (s.reg .serv 0 0x2C).toNat) (rec ++ List.replicate 16 0)).bump .serv 0 0x2C 1

/-- Event `e` of a batch, number `j` of request `r`, is scored: the chain and LEN advance and its record is written. A non-finite score raises
NONFINITE (R347); of the units that R480 lists for it, the event names Facet 0 (log 45). -/
def State.scoreEvent (s : State) (p : Program) (m : Model) (b : Batch) (r : Request) (e j : Nat) : State × List Byte :=
  let info := s.servInfo
  let x := s.slot r.slot
  let input := chainNext (x.chain.getD (chainStart m.commit)) (slice (j * inBytes info) (inBytes info) r.data)
  let scores := s.scoresOf info e
  let bad := (s.hiddenRow info e ++ scores).any notFinite
  let rec' := provRecord m.commit p.programDigest input (s.outputDigest info e) r.slot (b2n bad + 2 * b2n b.retried) (r.pos + j)
    s.stamp (s.reg .serv 0 0x40).toNat scores s.serv.rseq
  let s1 := s.setSlot r.slot { x with len := x.len + 1, chain := some input }
  let s2 := if scores.any notFinite then s1.numEvent 0x0101 0 0 { step := some s.stepNum, attempt := b2n b.retried } else s1
  let s3 : State := { s2 with serv := { s2.serv with rseq := s2.serv.rseq + 1 } }
  ((s3.prvPut rec').bump .serv 0 0x44 1, rec')

/-- One request of a batch, whose first event is number `e`, completes. -/
def State.scoreRequest (s : State) (p : Program) (m : Model) (b : Batch) (e : Nat) (r : Request) : State :=
  let (t, recs) := (List.range r.count).foldl (fun (acc : State × List Byte) j =>
    let (u, x) := acc.1.scoreEvent p m b r (e + j) j
    (u, acc.2 ++ x)) (s, [])
  t.finishIssued r.queue r.packet stOk 0 (leBytes 4 r.count ++ recs)

/-- BATCH_COMPLETE (R343, R347): a record whose place lies outside every window is held, and the batch with it (R499). -/
def execBatchComplete (s : State) : Host.Outcome State Fault Refusal :=
  match s.prog, s.serv.model, s.serv.batch with
  | some p, some m, some b =>
    let out := s.prvOutside (countEvents b.reqs)
    let done := b.reqs.foldl (fun (acc : State × Nat) r => (acc.1.scoreRequest p m b acc.2 r, acc.2 + r.count)) (s, 0)
    let t := done.1.servEnd.bump .serv 0 0x40 1
    let u : State := { t with serv := { t.serv with batch := none, prvOut := false } }
    guarded s.servDone s (match out with
      | [] => s.strandIO false 0 (s.resultLines s.servInfo (List.range (countEvents b.reqs))) [] u.servSettled
      | a :: _ => s.prvRefused a)
  | _, _, _ => .next s

/-! ## Explanation passes (R349 to R353) -/

/-- The field of an EXPLAIN that is out of range, by offset. -/
def State.explainFault (s : State) (info : ServInfo) (l : List Byte) : Option Nat :=
  let pos := leAt 196 4 l
  let events := leAt 240 8 l
  let out := leAt 248 8 l
  let base := leAt 259 1 l
  if info.ctxMax ≤ pos then some 196
  else if !s.inOneWindow events (events + (pos + 1) * inBytes info) then some 240
  else if !s.inOneWindow out (out + (pos + 1) * info.inf * 4) then some 248
  else if 64 < leAt 256 2 l then some 256
  else if s.servScores ≤ leAt 258 1 l then some 258
  else if 1 < base then some 259
  else if base = 1 ∧ s.rangeStatus false (leAt 260 8 l) (inBytes info) ≠ stOk then some 260
  else if leAt 268 4 l ≠ 0 then some 268
  else none

/-- EXPLAIN (R349, R353). -/
def execExplain (queue : Nat) (s : State) : Host.Outcome State Fault Refusal :=
  .next (s.runHost queue 0x0505 (lenIs 272) anyState fun p l t =>
    match t.serv.model, t.prog with
    | some m, some g =>
      if slice 0 48 l ≠ digestBytes m.commit then (t, .done stDigest 2 [])
      else if slice 48 48 l ≠ digestBytes g.programDigest then (t, .done stDigest 0 [])
      else match t.explainFault t.servInfo l with
        | some o => (t, .done stBadField o [])
        | none =>
          if 64 ≤ t.serv.passes.length then (t, .done stQueueFull 0 [])
          else
            let x : Explain :=
              { queue := queue, packet := p, recSlot := leAt 192 2 l, recInput := BitVec.ofNat 384 (beNat (slice 96 48 l))
                recOutput := BitVec.ofNat 384 (beNat (slice 144 48 l)), pos := leAt 196 4 l, events := leAt 240 8 l, out := leAt 248 8 l
                n := leAt 256 2 l, target := leAt 258 1 l, base := leAt 259 1 l, baseAddr := leAt 260 8 l }
            ({ t with serv := { t.serv with passes := t.serv.passes ++ [x] } }, .issued)
    | _, _ => (t, .done stNoModel 0 []))

/-- A pass ends without attributions; its slot is free again. -/
def State.endPass (s : State) (x : Explain) (code detail : Nat) : State :=
  ({ s with serv := { s.serv with pass := none } } : State).finishIssued x.queue x.packet code detail []

/-- EXPLAIN_MISMATCH (R350, R355): 0 input, 1 output. -/
def State.mismatch (s : State) (x : Explain) (which : Nat) : State :=
  (s.raiseEv 0x0841 0 (leBytes 1 which ++ leBytes 1 0 ++ leBytes 2 x.recSlot ++ leBytes 4 x.pos)).endPass x stDigest (3 + which)

/-- The inputs of path point `k` (R351): the events themselves for the verification, else points on the path. -/
def pathInputs (p : Pass) (n : Nat) : List Word :=
  if p.point = 0 then p.x
  else
    let a := fDiv (f32Nat (2 * p.point - 1)) (f32Nat (2 * n))
    (p.x.zip p.b).map fun e => fAdd e.2 (fMul a (fSub e.1 e.2))

/-- The seed of each score of event `e`: 1.0 for SCORE[TARGET] of the event at POS, else +0. -/
def seeds (scores : Nat) (x : Explain) (e : Nat) : List Word :=
  (List.range scores).map fun i => if e = x.pos ∧ i = x.target then fOne else 0

/-- A point starts: the verification runs as a scoring batch, a path point its own forward phases; the backward phases follow where the
point's gradient is asked for. -/
def State.startPoint (s : State) (p : Pass) : State :=
  let info := s.servInfo
  let n := p.ex.pos + 1
  let s1 := if p.point = 0 then s.putRows (inBytes info) (rowsFrom (inputPlace info p.slot 0) (inBytes info) n p.data) else s
  let s2 := s1.putRows (4 * info.inf) (rowsFrom (tarnAddr info.pointAddr) (4 * info.inf) n (wordBytes (pathInputs p p.ex.n)))
  let s3 := s2.putRows 64 ((List.range n).map fun e => (tarnAddr (info.seedAddr + 64 * e), wordBytes (seeds s.servScores p.ex e)))
  let t := s3.servStart (if p.point ≠ 0 then info.pointPhases ++ info.backPhases
    else if p.ex.n = 0 then info.batchPhases ++ info.backPhases else info.batchPhases)
  { t with serv := { t.serv with pass := some { p with running := true } } }

/-- The baseline of every input: +0, or the features of the event at BASE_ADDR. -/
def State.baseline (s : State) (info : ServInfo) (x : Explain) : State × Except Nat (List Word) :=
  if x.base = 0 then (s, .ok (List.replicate ((x.pos + 1) * info.inf) 0))
  else match s.bulkRead x.baseAddr (inBytes info) with
    | (u, .ok l) => (u, .ok ((List.range (x.pos + 1)).flatMap fun _ => wideF16 l))
    | (u, .error j) => (u, .error j)

/-- Step 1 of R350: the events are copied to the borrowed slot, and the input digest is recomputed. -/
def State.beginPass (s : State) (m : Model) (slot : Nat) (x : Explain) : State :=
  let info := s.servInfo
  match s.bulkRead x.events ((x.pos + 1) * inBytes info) with
  | (u, .error j) => u.endPass x stUncorrectable (lineDetail j)
  | (u, .ok l) =>
    let u1 := u.putRows (inBytes info) (rowsFrom (inputPlace info slot 0) (inBytes info) (x.pos + 1) l)
    if chainOver (chainStart m.commit) (inBytes info) l ≠ x.recInput then u1.mismatch x 0
    else match u1.baseline info x with
      | (v, .error j) => v.endPass x stUncorrectable (lineDetail j)
      | (v, .ok b) =>
        v.startPoint
          { ex := x, slot := slot, data := l, x := wideF16 l, b := b, point := 0, running := false, retried := false
            sum := List.replicate ((x.pos + 1) * info.inf) 0, output := 0 }

/-- EXPLAIN_PASS_START (R350, R353): the oldest pass borrows a free slot, when no batch is ready. -/
def execExplainPassStart (slot : Nat) (s : State) : Host.Outcome State Fault Refusal :=
  match s.serv.model, s.serv.passes with
  | some m, x :: rest =>
    let free := decide (slot < 2048 ∧ (s.slot slot).len = 0) && s.slotIdle slot
    let ready := free && s.serv.pass.isNone && s.serv.batch.isNone && !s.batchReady && (s.busyWith 0x0502).isNone
    let t : State := { s with serv := { s.serv with passes := rest } }
    guarded ready s (t.beginPass m slot x)
  | _, _ => .next s

/-- The 128-byte explanation record (R352). -/
def explainRecord (p : Pass) (attr : Digest) (stamp : List Byte) (nonFinite : Bool) : List Byte :=
  digestBytes p.output ++ digestBytes attr ++ leBytes 4 p.ex.pos ++ leBytes 2 p.ex.n ++ leBytes 1 p.ex.target ++ leBytes 1 p.ex.base
    ++ stamp ++ leBytes 1 (b2n nonFinite) ++ List.replicate 13 0

/-- Steps 3 and 4 of R350: the attributions go to the borrowed slot's area and to OUT, and the pass replies. -/
def State.finishPass (s : State) (p : Pass) (grad : List Word) : State :=
  let a := ((p.x.zip p.b).zip grad).map fun e => fMul (fSub e.1.1 e.1.2) e.2
  let bytes := wordBytes a
  let info := s.servInfo
  let place := tarnAddr (info.attrAddr + p.slot * info.ctxMax * lineUp (4 * info.inf))
  let s1 := s.putRows (4 * info.inf) (rowsFrom place (4 * info.inf) (p.ex.pos + 1) bytes)
  if !s1.inOneWindow p.ex.out (p.ex.out + bytes.length) then s1.endPass p.ex stBadField 248
  else match s1.bulkWrite p.ex.out bytes with
    | (u, some j) => u.endPass p.ex stUncorrectable (lineDetail j)
    | (u, none) =>
      let t : State := { u with serv := { u.serv with pass := none } }
      (t.bump .serv 0 0x48 1).finishIssued p.ex.queue p.ex.packet stOk 0 (explainRecord p (sha384 bytes) u.stamp (a.any notFinite))

/-- Where the gradients of event `e` of a point lie. -/
def gradPlace (info : ServInfo) (e : Nat) : Nat := tarnAddr (info.gradAddr + lineUp (4 * info.inf) * e)

/-- The lines that the end of a point reads: the verification's results, and the gradients where it has them. -/
def State.pointLines (s : State) (p : Pass) : List Nat :=
  let info := s.servInfo
  (if p.point = 0 then s.resultLines info [p.ex.pos] else []) ++
    (if p.point = 0 ∧ p.ex.n ≠ 0 then [] else (List.range (p.ex.pos + 1)).flatMap fun e => s.strandLines (gradPlace info e) (4 * info.inf))

/-- A point has finished: the verification compares the output digest; the others add their gradient (R350, R351). -/
def State.finishPoint (s : State) (p : Pass) : State :=
  let info := s.servInfo
  let n := p.ex.n
  let grad := (List.range (p.ex.pos + 1)).flatMap fun e => s.loadWords (gradPlace info e) info.inf
  let t := s.servEnd
  let idle : Pass := { p with running := false, retried := false }
  if p.point = 0 then
    let d := s.outputDigest info p.ex.pos
    if d ≠ p.ex.recOutput then t.mismatch p.ex 1
    else if n = 0 then t.finishPass { idle with output := d } grad
    else { t with serv := { t.serv with pass := some { idle with output := d, point := 1 } } }
  else
    let sum := (p.sum.zip grad).map fun e => fAdd e.1 e.2
    if p.point = n then t.finishPass idle (sum.map fun g => fDiv g (f32Nat n))
    else { t with serv := { t.serv with pass := some { idle with sum := sum, point := p.point + 1 } } }

/-- PATH_POINT (R353): a point that has run ends; the next one starts only when no batch is ready. -/
def execPathPoint (s : State) : Host.Outcome State Fault Refusal :=
  match s.serv.pass with
  | none => .next s
  | some p =>
    if p.running then guarded s.servDone s (s.strandIO false 0 (s.pointLines p) [] (s.finishPoint p).servSettled)
    else guarded (s.serv.batch.isNone && !s.batchReady && (s.busyWith 0x0502).isNone) s (s.startPoint p)

/-! ## Faults (R343, R354) -/

/-- A batch that fails for the second time: BATCH_ABORT, its requests are refused, and what still waits on those slots no longer fits
their LEN (log 45). -/
def State.failBatch (s : State) (b : Batch) (cause : Nat) : State :=
  let s1 := s.raiseEv 0x0840 0 (leBytes 4 (s.reg .serv 0 0x40).toNat ++ leBytes 1 cause)
  let s2 : State := { s1 with serv := { s1.serv with batch := none } }
  let s3 := b.reqs.foldl (fun (t : State) r => t.finishIssued r.queue r.packet stBatchFailed cause []) s2
  b.reqs.foldl (fun (t : State) r =>
    let x := t.slot r.slot
    let u := t.setSlot r.slot { x with queue := [] }
    x.queue.foldl (fun (v : State) q => v.finishIssued q.queue q.packet stPosition 0 []) u) s3

/-- BATCH_FAULT (R343, R354): a batch, or a path point, runs again once; a second fault ends it. -/
def execBatchFault (s : State) : Host.Outcome State Fault Refusal :=
  match s.step.att, s.servCause with
  | some a, some cause =>
    let t := s.dropAttempt a
    match s.serv.batch with
    | some b =>
      .next (if b.retried then ((t.failBatch b cause).evalWait).servSettled else t.startBatch { b with retried := true })
    | none =>
      match s.serv.pass with
      | some p =>
        guarded p.running s
          (if p.retried then (t.endPass p.ex stBatchFailed cause).servSettled else t.startPoint { p with retried := true })
      | none => .next s
  | _, _ => .next s

end Sys2Proof.Machine
end

