-- ==== Sys2Proof/Machine/RegView.lean ====
section
/-! DEFINITION. What registers read as (R12, R471 to R478): a register with a home of its own reads what is stored there; the status
registers, the indexed registers and those that show the state of a unit are computed here. -/
namespace Sys2Proof.Machine

/-- A value in the field of `w` bits at bit `lo`. -/
def fieldAt (lo w v : Nat) : Nat := v % 2 ^ w * 2 ^ lo

def flagAt (lo : Nat) (b : Bool) : Nat := if b then 2 ^ lo else 0

/-- A byte count in MiB, rounded up. -/
def mibUp (n : Nat) : Nat := (n + 2 ^ 20 - 1) / 2 ^ 20

/-! ## SYS and HOST -/

/-- SYS_EVSUM.PEND (R477). -/
def State.evSum (s : State) : Nat := ((List.range 14).filter s.evPending).foldl (fun n u => n + 2 ^ u) 0

/-- HOST_PTP_STATUS.OFFSET: two's complement, saturating at 24 bits. -/
def offset24 (o : Int) : Nat := (max (-8388608) (min 8388607 o) % 16777216).toNat

def State.hostView (s : State) (o : Nat) : Option Nat :=
  let e := s.egr (s.field .host 0 0x60 0 6)
  let q := s.queue (s.field .host 0 0x90 0 4)
  match o with
  | 0x00 => some (fieldAt 29 3 (cpCode s.cp) + flagAt 28 s.host.link + flagAt 27 s.host.lanes + flagAt 26 s.host.macSet)
  | 0x14 => some (s.host.mac.toNat % 2 ^ 32)
  | 0x18 => some (s.host.mac.toNat / 2 ^ 32)
  | 0x54 => some (flagAt 31 s.host.synced + offset24 s.host.offsetNs)
  | 0x64 => some ((e.addr[0]?).getD 0).toNat
  | 0x68 => some ((e.addr[1]?).getD 0).toNat
  | 0x6C => some ((e.addr[2]?).getD 0).toNat
  | 0x70 => some ((e.addr[3]?).getD 0).toNat
  | 0x74 => some e.ports.toNat
  | 0x78 => some e.cfg.toNat
  | 0x94 => some q.next.toNat
  | 0x98 => some (flagAt 31 q.syncWait.isSome + fieldAt 7 7 (min 64 q.running) + fieldAt 0 7 (min 63 q.held.length))
  | _ => none

/-! ## The policy, step and serving pages -/

/-- HUB_TRB_STATUS.STATE: halted after TRB_EXHAUSTED, a DECISION on its way, reports being collected, or idle. -/
def State.trbState (s : State) : Nat :=
  if s.step.halted = some 7 then 3
  else if s.hasDown 7 then 2
  else if s.dom.own.any fun f => f.mtype == 6 then 1
  else 0

def State.policyView (s : State) (o : Nat) : Option Nat :=
  match o with
  | 0x00 => some (fieldAt 30 2 s.trbState + flagAt 29 (s.step.att.any (·.wide)) + flagAt 28 (s.step.att.any (·.rerun))
      + flagAt 27 (!s.log.held.isEmpty) + flagAt 26 s.prog.isSome + fieldAt 15 11 (min 1024 ((s.step.att.map (·.w)).getD 0)))
  | _ => none

/-- A training program is loaded: the step page shows a step only then. -/
def State.training (s : State) : Bool := s.prog.any fun p => !p.serving

/-- HUB_STEP_STATUS.STATE (R234). -/
def State.stepState (s : State) : Nat :=
  if s.prog.isNone then 0
  else if s.step.halted.isSome then 5
  else if s.hasDown 0x11 then 4
  else if s.step.committing then 3
  else if s.training && s.step.att.isSome then 2
  else 1

/-- Current attempt, as R190 numbers it. R234 does not say what ATTEMPT shows with no attempt open; DESIGN CHOICE (log 100): the number of
the next one. -/
def State.attemptNo (s : State) : Nat :=
  min 255 (match s.step.att with
    | some a => a.number
    | none => s.step.nextAttempt)

/-- The Ponds of the loaded program, in MiB. -/
def State.pondCap (s : State) : Nat :=
  ((s.regions.filter fun r => r.cls == .pond).foldl (fun n r => n + r.size) 0) / 2 ^ 20

def State.stepView (s : State) (o : Nat) : Option Nat :=
  match o with
  | 0x00 => some (fieldAt 29 3 s.stepState + flagAt 28 s.step.ra.isSome
      + flagAt 27 (s.prog.any fun p => p.layers.any fun e => gated p e.num) + flagAt 26 s.prog.isSome + fieldAt 18 8 s.attemptNo)
  | 0x1C => some (match s.step.lastAbort with
      | some a => 2 ^ 31 + flagAt 30 a.inprog + fieldAt 16 8 a.code + fieldAt 0 11 a.cut
      | none => 0)
  | 0x20 => some (match s.step.lastGate with
      | some l => 2 ^ 31 + fieldAt 0 10 l
      | none => 0)
  | 0x24 => some ((s.step.ra.map fun a => a.hold.length).getD 0)
  | 0x30 => some s.pondCap
  | 0x34 => some (mibUp s.stash.bytesUsed)
  | 0x38 => some (mibUp s.stash.hwm)
  | 0x44 => some (mibUp s.stash.spilledBytes)
  | _ => none

/-- HUB_SRV_STATUS.STATE (R357). -/
def State.servState (s : State) : Nat :=
  if s.serv.model.isNone then 0
  else if s.serv.batch.isSome then 2
  else if s.serv.pass.any (·.running) then 3
  else 1

def State.servView (s : State) (o : Nat) : Option Nat :=
  match o with
  | 0x00 => some (fieldAt 30 2 s.servState + flagAt 29 s.serv.prvFull + fieldAt 12 7 (min 64 s.serv.passes.length)
      + fieldAt 0 12 (min 2048 s.pendingSlots.length))
  | _ => none

/-! ## PWR, SEC, UMC and TWN -/

/-- A temperature as its 8-bit field shows it: a reading below 0 °C shows 0 (log 18). -/
def tempField (l : List Int) : Nat := min 255 (l.foldl max 0).toNat

def State.tempsOf (s : State) (l : List Nat) : List Int := l.map s.temp

/-- A bit for each die that `f` holds of, die 0 in bit `lo`. -/
def dieBits (lo : Nat) (f : Nat → Bool) : Nat := (List.range 4).foldl (fun n d => n + flagAt (lo + d) (f d)) 0

def State.pwrView (s : State) (o : Nat) : Option Nat :=
  match o with
  | 0x00 => some (fieldAt 29 3 s.pwr.step + fieldAt 25 4 s.duty
      + flagAt 24 (decide (s.pwr.step = 4 ∧ s.duty = 1) && s.overLimit) + flagAt 23 s.pwr.throttle
      + flagAt 22 s.pwr.switching.isSome + dieBits 18 s.trimmed + dieBits 14 fun d => (s.die d).aged)
  | 0x34 => some (s.trim (s.field .pwr 0 0x30 0 5)).toNat
  | 0x38 => some ((s.reg .pwr 0 0x38).toNat + min 15 s.pwr.calPeak)
  | 0x40 => some (min 4095 (s.powerSum 1000 / 1000))
  | 0x44 => some ((List.range 4).foldl (fun n d => n + fieldAt (8 * d) 8 (s.ageOf d)) 0)
  | 0x48 => some ((List.range 4).foldl (fun n d => n + fieldAt (8 * d) 8 (tempField (s.tempsOf ((List.range 4).map (4 * d + ·))))) 0)
  | 0x4C => some (fieldAt 8 8 (tempField (s.tempsOf tarnSensors)) + fieldAt 0 8 (tempField (s.tempsOf [16, 17])))
  | _ => none

def keysCode : Keys → Nat
  | .none => 0
  | .ready => 1
  | .zeroised => 2
  | .pufFailed => 3

/-- Word `k` of a digest, bytes 4k to 4k + 3, little-endian. -/
def digestWord (d : Digest) (k : Nat) : Nat := leAt (4 * k) 4 (digestBytes d)

/-- SEC_PTX_LIMIT of a port. -/
def State.ptxLimit (s : State) (n : Nat) : Word := Bank.get (fun _ => 0x640) s.sec.ptx n

def State.secView (s : State) (o : Nat) : Option Nat :=
  if 0x40 ≤ o ∧ o ≤ 0x6C then some (digestWord s.sec.fwDigest ((o - 0x40) / 4))
  else if 0x70 ≤ o ∧ o ≤ 0x9C then some (digestWord s.sec.cfgDigest ((o - 0x70) / 4))
  else match o with
    | 0x00 => some (fieldAt 30 2 (keysCode s.sec.keys) + fieldAt 28 2 s.sec.level + flagAt 27 s.sec.fw + flagAt 26 s.sec.cfgFormed
        + fieldAt 16 8 s.sec.svn + fieldAt 8 8 s.part.svnFloor)
    | 0x14 => some (s.ptxLimit (s.field .sec 0 0x10 0 4)).toNat
    | 0x18 => some s.part.serial.toNat
    | _ => none

def State.umcView (s : State) (o : Nat) : Option Nat :=
  match o with
  | 0x00 => some (flagAt 31 s.mainOn + flagAt 30 s.hubUp + fieldAt 28 2 s.umc.alevel + flagAt 27 s.umc.zeroised
      + flagAt 26 s.umc.tamper + flagAt 25 s.umc.trip + flagAt 24 s.umc.calValid + fieldAt 21 3 s.umc.lastReset + flagAt 20 s.inputOk)
  | 0x10 => some (flagAt 31 s.umc.autoOn)
  | 0x18 => some (s.calSecs % 2 ^ 32)
  | 0x1C => some (s.calSecs / 2 ^ 32 % 2 ^ 16)
  | 0x30 => some s.umc.alarms.length
  | _ => none

/-- Ranks joined and not LOST, on the wellhead. -/
def State.joined (s : State) : Nat :=
  if s.isWellhead then ((List.range s.dom.size).filter fun r => decide ((s.rankEntry r).state = 1)).length else 0

/-- TWN_RT_INFO of the rank that TWN_RT_IDX names; LOADED: the program that the wellhead has loaded (R415). -/
def State.rankInfo (s : State) : Nat :=
  let r := s.field .twn 0 0x60 0 10
  let e := s.rankEntry r
  if r < s.dom.size then
    2 ^ 31 + fieldAt 29 2 e.state + flagAt 28 (s.rankLoaded r)
  else 0

def State.twnView (s : State) (o : Nat) : Option Nat :=
  match o with
  | 0x00 => some (fieldAt 30 2 s.twin.mode + flagAt 29 s.twin.paired + flagAt 28 s.twin.unpaired + flagAt 27 s.umc.siteB
      + flagAt 26 (s.twin.sending.isSome || !s.twin.receiving.isEmpty) + fieldAt 0 11 s.joined)
  | 0x14 => some (flagAt 31 s.isWellhead + fieldAt 20 11 s.dom.size + fieldAt 10 10 s.dom.wgen + fieldAt 0 10 s.dom.wh)
  | 0x64 => some s.rankInfo
  | _ => none

/-! ## INL, CE and TRN -/

/-- A strand of the open attempt or the run-ahead has been issued, is not complete, and `f` holds of it. -/
def State.strandRuns (s : State) (f : Strand → Bool) : Bool :=
  [s.step.att, s.step.ra].any fun a => a.any fun x =>
    s.strands.any fun t => f t && x.started.contains t.id && !x.done.contains t.id

/-- INL_STATUS.STATE of a die: a statistics pass, blocks that all wait for a gate, blocks to apply, or idle. Blocks of a PRE unit that is
not updated count with those that wait. -/
def State.inlState (s : State) (die : Nat) : Nat :=
  if s.strandRuns fun t => match t.kind with
    | .statsPass d _ => d == die
    | _ => false then 3
  else match s.prog, s.step.att with
    | some p, some a =>
      let l := s.inl.posts.filter fun q => q.die == die
      let pre := s.inl.seen.filter fun q => q.die == die && s.preOwed p q
      if l.isEmpty && pre.isEmpty then 0
      else if l.all (fun q => q.waits p a) && pre.all (s.preWaits p a) then 2
      else 1
    | _, _ => 0

/-- INL_STATUS.LAYER (R262): the layer of the tensor that the Inlet is at: that of the statistics pass that runs, of the first block that
waits, of the first PRE unit that is taken and not updated; 0 for none. -/
def State.inlLayer (s : State) (die : Nat) : Nat :=
  match s.prog with
  | some p =>
    let passes := ([s.step.att, s.step.ra].filterMap id).flatMap fun x => s.strands.filterMap fun t => match t.kind with
      | .statsPass d tensor => if d == die && x.started.contains t.id && !x.done.contains t.id then some tensor else none
      | _ => none
    let posts := (s.inl.posts.filter fun q => q.die == die).map (·.tensor)
    let pre := (s.inl.seen.filter fun q => q.die == die && s.preOwed p q).map (·.tensor)
    (((passes ++ posts ++ pre).head?.bind (updateOf p)).map (·.layer)).getD 0
  | none => 0

def State.inlView (s : State) (i o : Nat) : Option Nat :=
  match o with
  | 0x00 => some (fieldAt 30 2 (s.inlState i) + flagAt 29 s.prog.isSome
      + flagAt 28 (decide (i = 0) && s.isWellhead && s.dom.blocked.isSome)
      + flagAt 27 (decide (i = 0) && !s.dom.ratioHeld.isEmpty)
      + flagAt 26 (s.strandRuns fun t => match t.kind with
          | .nsIter d => d.die == i && s.inl.staged.any fun x => x.1 == t.id
          | _ => false)
      + fieldAt 16 10 (s.inlLayer i))
  | _ => none

/-- A collective has segments or transfers left, and none of them waits for the Inlet (SRCWAIT): it waits for credit or a child. -/
def State.starved (s : State) (c : Coll) : Bool :=
  let segs := s.segmentsOf c
  (!((c.targets segs).all fun x => c.written.contains x.1) || !(c.pendingEdges segs.length).isEmpty) &&
    (List.range segs.length).all fun k => s.srcReady c k

/-- CE_STATUS.STATE (log 50): 3 while a RESTART waits for a collective that the engine carries or one has lost a frame, 2 while every one
waits for credit or a child and no frame has come for them. -/
def State.ceState (s : State) (d : Nat) : Nat :=
  let l := (s.engine d).active
  let queued (p : CollFrame → Bool) : Bool := s.fab.inbox.any fun f => match f.data with
    | .coll x => p x && l.any fun c => c.dseq == x.dseq
    | _ => false
  if l.isEmpty then 0
  else if (l.any (·.lost)) || queued fun x => x.ctype == .restart then 3
  else if queued (fun _ => true) || l.any fun c => !s.starved c then 1
  else 2

def State.ceView (s : State) (i o : Nat) : Option Nat :=
  match o with
  | 0x00 => some (fieldAt 30 2 (s.ceState i) + fieldAt 25 5 (min 16 (s.engine i).active.length) + flagAt 24 s.prog.isSome)
  | 0x24 => if i = 0 then some (flagAt 31 s.dom.rankValid + (if s.dom.rankValid then fieldAt 0 10 s.dom.rank else 0)) else some 0
  | 0x2C | 0x30 | 0x34 => if i = 0 then none else some 0
  | _ => none

def State.portView (s : State) (n o : Nat) : Option Nat :=
  match o with
  | 0x00 => some (flagAt 31 (s.port n).phy + fieldAt 24 7 (min 64 (s.fab.links.filter fun l => l.port == n && l.up).length)
      + flagAt 23 ((s.port n).paused.contains (s.pcpData n)) + flagAt 22 (s.port n).held
      + fieldAt 12 10 (min 512 ((s.rxUsed n + 4095) / 4096)))
  | _ => none

/-- Pages of the receiving area of a stack. -/
def State.areaPages (s : State) (i : Nat) : Nat := ((s.ckptArea i).map fun b => b.2 / 4096).getD 0

def State.trnView (s : State) (i o : Nat) : Option Nat :=
  let k := s.stack i
  match o with
  | 0x00 => some (fieldAt 29 3 (if s.step.committing then 2 else if s.settling then 5 else 0) + flagAt 28 s.sec.cfgFormed + flagAt 27 k.scrubLate
      + fieldAt 25 2 (b2n k.epoch.isSome + 2 * b2n k.receiving) + flagAt 24 (s.epochRuns i) + fieldAt 0 13 (min 4096 k.poison.length))
  | 0x24 => some (s.repair i (s.field .trn i 0x20 0 13)).toNat
  | 0x80 => some ((s.vPages i).length + s.areaPages i)
  | 0x84 => some (k.vt.filter fun e => e.2.t).length
  | 0x88 => some (k.vt.filter fun e => e.2.c).length
  | _ => none

/-! ## LPE, CUT, INC and FCT -/

def State.lpeView (s : State) (g o : Nat) : Option Nat :=
  let x := s.loupe g
  match o with
  | 0x00 => some (fieldAt 30 2 (if x.halted then 3 else if 32 ≤ x.queue.length then 2 else b2n !x.queue.isEmpty)
      + flagAt 29 s.prog.isSome + fieldAt 16 6 (min 32 x.queue.length))
  | _ => none

/-- CUT_STATUS.KERNEL. -/
def kernelCode : StrandKind → Nat
  | .quant _ => 1
  | .apply d => match d.kind with
    | .rmsApply => 2
    | .rmsBwdApply => 3
    | .smxApply => 4
    | .smxBwdApply => 5
  | .elem _ => 6
  | .nsIter _ => 7
  | _ => 0

/-- CUT_STATUS (R163). The table does not say from when to when a fused drain kernel is active; DESIGN CHOICE (log 83): from the first row
that the drain reads of a task that names it until the task completes. -/
def State.cutView (s : State) (c o : Nat) : Option Nat :=
  let x := s.cutter c
  match o with
  | 0x00 => some (fieldAt 30 2 (if x.halted then 3 else if x.waiting then 2 else b2n x.kernel.isSome)
      + fieldAt 24 6 (((x.kernel.bind fun k => s.strand? k.1).map fun t => kernelCode t.kind).getD 0)
      + (List.range 4).foldl (fun n k => n + flagAt (20 + k) ((s.clusterTasks c).any fun t => t.2.2.fused == k + 1 && decide (0 < t.2.1.next))) 0
      + flagAt 19 s.prog.isSome)
  | _ => none

/-- INC_STATUS (R478): the first task in issue order is in progress (log 46). -/
def State.incView (s : State) (c o : Nat) : Option Nat :=
  match o with
  | 0x00 => some (match s.inclHead c with
    | none => 0
    | some t => fieldAt 30 2 (if t.2.2.incl.any (s.inclWaits c t.2.1) then 2 else 1) + fieldAt 28 2 t.1
        + fieldAt 24 4 (min 8 ((s.inclTasks c).length - 1)) + fieldAt 16 8 ((t.2.2.incl.map (·.count)).getD 0))
  | _ => none

def modeCode : PartMode → Nat
  | .whole => 0
  | .h2 => 1
  | .q4 => 2

/-- The whole-mode task that accumulates: the first begun one with K-groups left (R119). While two accumulate at once in different cells the
table does not say whose bank BANK shows; DESIGN CHOICE (log 83): that of the older task. -/
def State.accumulating (s : State) (f : Nat) : Option FTask :=
  ((s.facet f).live 0).find? fun t => t.begun && (s.tileOf t).any fun d => !allFolded t d

/-- FCT_STATUS (R119). The table does not say what BANK reads while no whole-mode task accumulates, or in H2 and Q4; DESIGN CHOICE
(log 83): 0. Nor does it say what PBUSY and STATE read while a partition's only task has been discarded by a fault and waits for its replay;
DESIGN CHOICE (log 83): PBUSY 1 and busy. -/
def State.fctView (s : State) (f o : Nat) : Option Nat :=
  let x := s.facet f
  match o with
  | 0x04 => some (fieldAt 30 2 (if x.pilot.isSome then 3 else if !s.usable f then 0 else if x.tasks.isEmpty then 1 else 2)
      + fieldAt 28 2 (modeCode x.mode)
      + (List.range 4).foldl (fun n k => n + flagAt (24 + k) (x.tasks.any fun t => t.pidx == k)) 0
      + fieldAt 20 4 (s.activity f)
      + flagAt 19 (x.mode == .whole && (s.accumulating f).any fun t => t.bank == 1)
      + flagAt 18 s.sec.cfgFormed)
  | _ => none

/-! ## Reading -/

/-- What a computed register reads as; none for a register that is stored. -/
def State.viewNat (s : State) (b : Block) (i o : Nat) : Option Nat :=
  match b with
  | .sys => if o = 0 then some (sysCaps s.part).toNat else if o = 0x10 then some s.evSum else none
  | .host => s.hostView o
  | .policy => s.policyView o
  | .step => s.stepView o
  | .serv => s.servView o
  | .pwr => s.pwrView o
  | .sec => s.secView o
  | .umc => s.umcView o
  | .twn => s.twnView o
  | .inl => s.inlView i o
  | .ceEng => s.ceView i o
  | .cePort => s.portView i o
  | .trn => s.trnView i o
  | .lpe => s.lpeView i o
  | .cut => s.cutView i o
  | .inc => s.incView i o
  | .fct => s.fctView i o

/-- The pages of units that the variant disables read as zero and ignore writes (R4). -/
def pageDisabled (p : Part) (b : Block) (i : Nat) : Bool :=
  match b with
  | .lpe => !p.variant.full
  | .cePort => !portEnabled p i
  | _ => false

/-- Registers that only the page of die C0 has (R261, R332). -/
def onlyC0 (b : Block) (o : Nat) : Bool :=
  match b with
  | .ceEng => decide (0x20 ≤ o ∧ o ≤ 0x34)
  | .inl => decide ((0x20 ≤ o ∧ o ≤ 0x34) ∨ (0x40 ≤ o ∧ o ≤ 0x50))
  | _ => false

/-- The register word at an offset of a page, as a read without side effects shows it. -/
def State.regView (s : State) (b : Block) (i o : Nat) : Word :=
  match regDesc b o with
  | none => 0
  | some r =>
    if pageDisabled s.part b i then 0
    else if onlyC0 b o && i != 0 then 0
    else if b = .inl ∧ o = 0x18 ∧ s.part.variant.full = false then 0
    else if b = .trn ∧ (s.stack i).trained = false then BitVec.ofNat 32 r.reset
    else if r.kind = .wo then 0
    else match s.viewNat b i o with
      | some v => BitVec.ofNat 32 v
      | none => s.reg b i o

end Sys2Proof.Machine
end

