-- ==== Sys2Proof/Machine/Firmware.lean ====
section
/-! DEFINITION. Firmware load and start, the end of configuration load, and attestation (R451 to R458). -/
namespace Sys2Proof.Machine

/-! ## The firmware image (R451) -/

def imageDefault (_ : Nat) : Byte := 0

/-- Bytes of the image in the hub's instruction SRAM; one that no FW_LOAD has written reads as 0 (log 47). -/
def State.image (s : State) (a n : Nat) : List Byte := Bank.getRange imageDefault s.sec.image a n

/-- A little-endian field of the image. -/
def State.imageNat (s : State) (a n : Nat) : Nat := leNat (s.image a n)

def imageMax : Nat := 0x400000

/-- FW_LOAD (R377, R451): bytes beyond the 4 MiB of instruction SRAM are refused. -/
def execFwLoad (queue : Nat) (s : State) : Host.Outcome State Fault Refusal :=
  .next (s.runHost queue 0x0101 (fun n => decide (5 ≤ n)) (inState [.boot]) fun _ l t =>
    let o := leAt 0 4 l
    let data := l.drop 4
    if imageMax < o + data.length then (t, .done stBadField 0 [])
    else
      let img := Bank.putRange imageDefault t.sec.image o data
      ({ t with sec := { t.sec with image := img } }, .done stOk 0 []))

/-- The lowest SVN that starts: max(fuse SVN floor, UMC_SVN_MIN). -/
def State.svnFloor (s : State) : Nat := max s.part.svnFloor (s.field .umc 0 0x14 0 8)

def allZero (l : List Byte) : Bool := l.all (· == 0)

/-- The field checks of R452, in its order: the status and DETAIL of the first that fails. -/
def State.imageFault (s : State) (length : Nat) : Option (Nat × Nat) :=
  let body := s.imageNat 8 4
  if s.image 0 4 ≠ [0x5A, 0x54, 0x46, 0x57] then some (stBadField, 0)
  else if s.imageNat 4 1 ≠ 1 then some (stBadField, 4)
  else if length ≠ 17152 + body ∨ body % 64 ≠ 0 ∨ body < 64 ∨ 4177152 < body then some (stBadField, 8)
  else if body ≤ s.imageNat 12 4 then some (stBadField, 12)
  else if !allZero (s.image 7 1) then some (stBadField, 7)
  else if !allZero (s.image 496 16) then some (stBadField, 496)
  else if !allZero (s.image 17120 32) then some (stBadField, 17120)
  else if s.imageNat 5 1 < s.svnFloor then some (stBadField, 5)
  else if 1 < s.imageNat 6 1 ∨ s.part.slotRevoked.contains (s.imageNat 6 1) then some (stBadField, 6)
  else none

/-- What RSASSA-PSS finds over the signed header (R451, R452). -/
def State.rsaVerdict (s : State) : Bool := pssVerifies (s.image 64 384) (s.image 0 512) (s.image 512 384)

/-- What SLH-DSA finds over the signed header. -/
def State.slhVerdict (s : State) : Bool := Config.slhVerifies (s.image 448 48) (s.image 0 512) (s.image 896 16224)

/-- The ROM's hashes of SLOT are those of the image's keys: of the RSA modulus, and of the SLH-DSA key. -/
def State.romKeys (s : State) : Bool × Bool :=
  match s.part.vendorKeys[s.imageNat 6 1]? with
  | some (r, l) => (sha384 (s.image 64 384) == r, sha384 (s.image 448 48) == l)
  | none => (false, false)

/-- All checks of R452, with what the two signature algorithms find. -/
def State.startFault (s : State) (length : Nat) (rsaOk slhOk : Bool) : Option (Nat × Nat) :=
  match s.imageFault length with
  | some f => some f
  | none =>
    let (r, l) := (s.romKeys.1 && rsaOk, s.romKeys.2 && slhOk)
    if !(r && l) then some (stVerifyFailed, b2n (!r) + 2 * b2n (!l))
    else if digestBytes (sha384 (s.image 17152 (s.imageNat 8 4))) ≠ s.image 16 48 then some (stVerifyFailed, 3)
    else none

/-- FW_REJECT (R453, R460): the image is discarded, an event and a level-1 alarm are raised. -/
def State.fwReject (s : State) (code detail : Nat) : State :=
  let t : State := { s with sec := { s.sec with image := [] } }
  (t.raiseEv 0x0703 0 (leBytes 2 code ++ leBytes 2 detail)).alarm 9 1

/-- The firmware starts (R376, R453): CONFIG, with every queue of the host port afresh. -/
def State.fwRun (s : State) : State :=
  let d := sha384 (s.image 0 512)
  let v := s.imageNat 5 1
  { s with
    cp := .config
    sec := { s.sec with fw := true, svn := v, fwDigest := d }
    queues := Bank.drop (fun i => i != 16) s.queues }

/-- FW_START (R452, R453). The row carries the verdicts of the two signature algorithms over the image; others than theirs are no event that
can happen, and change nothing (log 8). -/
def execFwStart (queue : Nat) (rsaOk slhOk : Bool) (s : State) : Host.Outcome State Fault Refusal :=
  guarded (rsaOk == s.rsaVerdict && slhOk == s.slhVerdict) s
    (s.runHost queue 0x0102 (lenIs 4) (inState [.boot]) fun _ l t =>
      match t.startFault (leAt 0 4 l) rsaOk slhOk with
      | some (code, detail) => (t.fwReject code detail, .done code detail [])
      | none => (t.fwRun, .done stOk 0 []))

/-! ## Digests of registers (R457) -/

/-- Register values as the digests cover them. -/
def valueBytes (l : List Word) : List Byte := l.flatMap fun v => leBytes 4 v.toNat

/-- FCT_CTRL, FCT_SPARE and the delays of a Facet. -/
def State.facetConfig (s : State) (f : Nat) : List Word :=
  [0x00, 0x20, 0x24, 0x28, 0x2C, 0x30, 0x34].map fun o => s.regView .fct f o

/-- TRN_ECC and the repair entries of a stack. -/
def State.stackConfig (s : State) (i : Nat) : List Word :=
  s.regView .trn i 0x10 :: (List.range 8192).map (s.repair i)

/-- What the configuration digest covers. -/
def State.configValues (s : State) : List Word :=
  (List.range 640).flatMap s.facetConfig ++ (List.range 8).flatMap s.stackConfig
    ++ (List.range 32).map s.trim ++ [s.regView .pwr 0 0x38]

def State.configDigest (s : State) : Digest := sha384 (valueBytes s.configValues)

/-- An allow-list entry's registers. -/
def egressWords (e : Egress) : List Word := e.addr ++ [e.ports, e.cfg]

/-- The window registers of a stack. -/
def State.windowWords (s : State) (i : Nat) : List Word :=
  (List.range 4).flatMap fun k => [s.regView .trn i (0x40 + 8 * k), s.regView .trn i (0x44 + 8 * k)]

/-- What the bounds digest covers. -/
def State.boundsValues (s : State) : List Word :=
  (List.range 64).flatMap (fun i => egressWords (s.egr i)) ++ [s.regView .host 0 0x80]
    ++ (List.range 12).map s.ptxLimit ++ [s.regView .pwr 0 0x14] ++ (List.range 8).flatMap s.windowWords

def State.boundsDigest (s : State) : Digest := sha384 (valueBytes s.boundsValues)

/-! ## CONFIG_END and ATTEST -/

/-- Configuration load ends: the configuration digest is formed, and the configuration registers lock. -/
def State.endConfig (s : State) : State :=
  { s with
    cp := .ready
    sec := { s.sec with cfgFormed := true, cfgDigest := s.configDigest } }

/-- CONFIG_END (R377, R457, R458). -/
def execConfigEnd (queue : Nat) (s : State) : Host.Outcome State Fault Refusal :=
  .next (s.runHost queue 0x0103 (lenIs 0) (inState [.config]) fun _ _ t => (t.endConfig, .done stOk 0 []))

/-- FLAGS of the report. -/
def State.attestFlags (s : State) : Nat :=
  b2n s.sec.cfgFormed + 2 * b2n s.prog.isSome + 4 * b2n s.serv.model.isSome + 8 * b2n s.umc.calValid

/-- Bytes 0 to 511 of the report (R456). -/
def State.reportBody (s : State) (nonce : List Byte) : List Byte :=
  let num := (s.prog.map (·.numericsDigest)).getD 0
  let model := (s.serv.model.map (·.commit)).getD 0
  [0x5A, 0x54, 0x41, 0x54, 1, 0, 0, 0] ++ leBytes 4 (sysCaps s.part).toNat ++ leBytes 4 s.part.serial.toNat ++ nonce
    ++ digestBytes s.part.bootRomDigest ++ digestBytes s.sec.fwDigest ++ leBytes 1 s.sec.svn ++ leBytes 1 s.svnFloor
    ++ leBytes 1 (cpCode s.cp) ++ leBytes 1 (min 2 s.sec.level) ++ digestBytes s.sec.cfgDigest ++ digestBytes s.boundsDigest
    ++ digestBytes s.loadedDigest ++ digestBytes num ++ digestBytes model ++ leBytes 6 s.calSecs ++ leBytes 2 s.attestFlags
    ++ (if s.sec.pubKey = [] then List.replicate 97 0 else s.sec.pubKey) ++ [0, 0, 0]

/-- The whole report: the body and its signature with the identity key. -/
def State.report (s : State) (nonce : List Byte) : List Byte :=
  let b := s.reportBody nonce
  b ++ ecSign s.sec.privKey b

/-- The store holds the private key. -/
def State.canSign (s : State) : Bool := s.sec.keys == .ready && !s.umc.zeroised

/-- ATTEST (R456): SEC_ATTESTS counts the reports signed. -/
def execAttest (queue : Nat) (s : State) : Host.Outcome State Fault Refusal :=
  .next (s.runHost queue 0x0104 (lenIs 48) (inState [.config, .ready, .loaded]) fun _ l t =>
    if t.canSign then (t.bump .sec 0 0xB0 1, .done stOk 0 (t.report l))
    else (t, .done stZeroised 0 []))

/-- STATUS (R377). -/
def execStatus (queue : Nat) (s : State) : Host.Outcome State Fault Refusal :=
  .next (s.runHost queue 0x0004 (lenIs 0) anyState fun _ _ t =>
    (t, .done stOk 0 (valueBytes [t.regView .host 0 0, t.regView .step 0 0, t.regView .step 0 0x18, t.regView .serv 0 0]
      ++ valueBytes ((List.range 16).map fun i => (t.queue i).next))))

end Sys2Proof.Machine
end

