-- ==== Sys2Proof/Machine/RegAccess.lean ====
section
/-! DEFINITION. Register access (R12, R35, R378, R383, R471 to R476): reads with their side effects, and writes with the checks that
refuse them and what each register's write does. -/
namespace Sys2Proof.Machine

/-! ## Reading -/

/-- LO offsets of the read-only 64-bit pairs (R473). -/
def pairLo : Block → Option Nat
  | .fct => some 0x60
  | .cut => some 0x44
  | .inl => some 0x60
  | .trn => some 0x30
  | .pwr => some 0x60
  | _ => none

def latchKey (who : Requester) (a : Nat) : Nat :=
  2 * a + match who with
    | .host => 0
    | .urhild => 1

def latchDefault (_ : Nat) : Word := 0

/-- The HI latch of a requester for the pair whose LO register lies at `a`. -/
def State.hiLatch (s : State) (who : Requester) (a : Nat) : Word := Bank.get latchDefault s.latches (latchKey who a)

/-- What a read of an RC register leaves behind (R476). -/
def State.readClear (s : State) (b : Block) (o : Nat) : State :=
  match b, o with
  | .policy, 0x54 => s.setReg .policy 0 0x54 0
  | .step, 0x38 => { s with stash := { s.stash with hwm := s.stash.bytesUsed } }
  | .pwr, 0x44 => { s with pwr := { s.pwr with age := [] } }
  | _, _ => s

/-- A read of the register at an offset of a page: the value, and the state after the latch or the clear. -/
def State.readAt (s : State) (who : Requester) (b : Block) (i o : Nat) : State × Word :=
  let v := s.regView b i o
  if pairLo b = some o then
    let hi := s.regView b i (o + 4)
    ({ s with latches := Bank.put latchDefault s.latches (latchKey who (regAddr b i o)) hi }, v)
  else if pairLo b = some (o - 4) ∧ 4 ≤ o then (s, s.hiLatch who (regAddr b i (o - 4)))
  else (s.readClear b o, v)

/-- The register space begins here; below it lies no register page (R471). -/
def regSpace : Nat := 0x020000000000

/-- A block on the hub, the dies or the Tarn bases: out of reach while the hub is down (R447). -/
def hubSide : Block → Bool
  | .umc => false
  | _ => true

/-- One register read (R378). -/
def State.readReg (s : State) (who : Requester) (a : Nat) : State × Access × Word :=
  if a % 4 ≠ 0 then (s, .badField, 0)
  else match pageOf a with
    | none => (s, .unmapped, 0)
    | some (b, i, o) =>
      if hubSide b && !s.hubUp then (s, .badState, 0)
      else
        let r := s.readAt who b i o
        (r.1, .ok, r.2)

/-! ## Which writes are refused -/

/-- A step is open: from STEP_OPEN to the end of its commit or abort. -/
def State.stepHere (s : State) : Bool := s.step.att.isSome || s.step.committing

/-- The times at which HUB_STEP_NUM may be written (R29). -/
def State.stepNumOpen (s : State) : Bool :=
  s.isWellhead && s.training && !s.stepHere && !s.stepOpen && (!s.step.openedSinceLoad || s.step.halted.isSome)

/-- A latched step-size slot (R254). -/
def State.slotLatched (s : State) (k : Nat) : Bool := s.inl.latched.any fun n => n % 2 == k

/-- PWR_CAL.EN. -/
def State.calEn (s : State) : Bool := bit (s.reg .pwr 0 0x38) 31

/-- The registers of R378's status LOCKED: their class, and TRN_CKPT_AREA_LO and HI while RECV is 1. -/
def State.locked (s : State) (b : Block) (i : Nat) (r : RegDesc) : Bool :=
  (match r.lock with
   | .none => false
   | .program => s.prog.isSome
   | .config => s.sec.cfgFormed && !(b == .pwr && s.calEn)
   | .model => s.serv.model.isSome
   | .step => s.stepHere
   | .slot0 => s.slotLatched 0
   | .slot1 => s.slotLatched 1
   | .stepNum => !s.stepNumOpen) ||
  (b == .trn && (r.off == 0x6C || r.off == 0x70) && bit (s.reg .trn i 0x60) 30)

/-- FCT_PILOT_STAT.PASS holds for the map and delays in force. -/
def State.passHolds (s : State) (f : Nat) : Bool := bit (s.reg .fct f 0x44) 30

/-- The register's unit cannot take the write now (R108, R123). -/
def State.unitRefuses (s : State) (b : Block) (i o : Nat) (v : Word) : Bool :=
  match b, o with
  | .fct, 0x00 => bit v 0 && !s.passHolds i
  | .fct, 0x40 => bit v 0 && (s.usable i || (s.facet i).pilot.isSome)
  | _, _ => false

/-- The MAC address that a write to HOST_MAC_HI would commit (R360). -/
def State.newMac (s : State) (v : Word) : Mac :=
  BitVec.ofNat 48 (bits v 0 16 * 2 ^ 32 + ((s.host.macLo.getD (BitVec.ofNat 32 s.host.mac.toNat))).toNat)

/-- A unicast address other than zero. -/
def macUsable (m : Mac) : Bool := m != 0 && !m.getLsbD 40

/-- HEAD less a new TAIL stays within the ring (R197, R262, R357). -/
def State.tailOk (s : State) (b : Block) (head : Nat) (size : Nat) (v : Word) : Bool :=
  decide ((s.reg b 0 head - v).toNat ≤ size)

/-- Conditions on a value beyond the ranges of single fields. -/
def State.valueOk (s : State) (b : Block) (i o : Nat) (v : Word) : Bool :=
  match b, o with
  | .host, 0x18 => macUsable (s.newMac v)
  | .host, 0x78 => match bits v 29 2 with
    | 1 => decide (bits v 0 8 ≤ 32)
    | 2 => decide (bits v 0 8 ≤ 128)
    | _ => true
  | .policy, 0x50 => s.tailOk .policy 0x4C s.logSize v
  | .serv, 0x30 => s.tailOk .serv 0x2C s.prvSize v
  | .inl, 0x50 => s.tailOk .inl 0x4C (2 ^ s.field .inl 0 0x48 0 5) v
  | .step, 0x40 => bits v 0 1 == 0
  | .twn, 0x48 => bits v 0 1 == 0
  | .lpe, 0x14 => decide (bits v 0 5 = 0 ∨ (4 ≤ bits v 0 5 ∧ bits v 0 5 ≤ 20))
  | .ceEng, 0x2C => (List.range (bits v 16 3)).all fun k => portEnabled s.part (bits v (4 * k) 4)
  | .cePort, 0x10 => bits v 28 3 != bits v 25 3
  | .cePort, 0x18 => bits v 16 16 != 0x8100 && bits v 16 16 != 0x8808
  | .cePort, 0x20 => decide (bits v 8 8 + bits v 0 8 ≤ 127)
  | .trn, 0x68 => stackOf (bits v 0 16 * 2 ^ 32) == i
  | .trn, 0x40 => s.windowOk i 0 false v
  | .trn, 0x44 => s.windowOk i 0 true v
  | .trn, 0x48 => s.windowOk i 1 false v
  | .trn, 0x4C => s.windowOk i 1 true v
  | .trn, 0x50 => s.windowOk i 2 false v
  | .trn, 0x54 => s.windowOk i 2 true v
  | .trn, 0x58 => s.windowOk i 3 false v
  | .trn, 0x5C => s.windowOk i 3 true v
  | _, _ => true

/-- The access status of a write to a register (R378), in the order of log 11. -/
def State.writeStatus (s : State) (who : Requester) (b : Block) (i : Nat) (r : RegDesc) (v : Word) : Access :=
  if who = .host ∧ r.urhild then .owned
  else if b = .trn ∧ (s.stack i).trained = false then .badState
  else if r.kind = .ro ∨ r.kind = .rc then .ok
  else if r.kind = .w1c then .ok
  else if s.locked b i r then .locked
  else if s.unitRefuses b i r.off v then .badState
  else if !(inRanges v r.ranges && s.valueOk b i r.off v) then .badField
  else .ok

/-! ## What a write does -/

/-- The event ring is set (R459): the boot buffer is written in order, then the records of class 0x01 that were held. -/
def State.setLogRing (s : State) : State :=
  if s.log.set then s
  else
    let old := s.log.held
    let t : State := { s with log := { s.log with set := true, boot := [], held := [] } }
    let u := s.log.boot.foldl (fun (x : State) r => x.logRecord r) t
    State.logDrain old.length { u with log := { u.log with held := u.log.held ++ old } }

/-- HOST_CTRL (R388): a change of LANES retrains the link, which goes down. -/
def State.hostCtrl (s : State) (w : Word) : State :=
  let t := s.setReg .host 0 0x10 w
  if s.host.link ∧ bit w 30 ≠ s.ctrlBit 30 then
    ({ t with host := { t.host with link := false } } : State).raiseEv 0x0801 0 (leBytes 1 0)
  else t

/-- HOST_EGR_CFG (R363, R388): the entry at INDEX is committed with the address and ports last written. -/
def State.commitEgress (s : State) (w : Word) : State :=
  let i := s.field .host 0 0x60 0 6
  let e : Egress := { s.host.egrNew with cfg := w }
  let t : State := { s with host := { s.host with egress := Bank.put egressDefault s.host.egress i e } }
  t.setReg .host 0 0x60 (BitVec.ofNat 32 ((i + 1) % 64))

/-- Holds a word of the entry being written. -/
def State.egrWord (s : State) (k : Nat) (w : Word) : State :=
  { s with host := { s.host with egrNew := { s.host.egrNew with addr := s.host.egrNew.addr.set k w } } }

def State.hostStore (s : State) (o : Nat) (w : Word) : State :=
  match o with
  | 0x10 => s.hostCtrl w
  | 0x14 => { s with host := { s.host with macLo := some w } }
  | 0x18 => { s with host := { s.host with mac := s.newMac w, macLo := none, macSet := true } }
  | 0x64 => s.egrWord 0 w
  | 0x68 => s.egrWord 1 w
  | 0x6C => s.egrWord 2 w
  | 0x70 => s.egrWord 3 w
  | 0x74 => { s with host := { s.host with egrNew := { s.host.egrNew with ports := w } } }
  | 0x78 => s.commitEgress w
  | _ => s.setReg .host 0 o w

def State.policyStore (s : State) (o : Nat) (w : Word) : State :=
  let t := s.setReg .policy 0 o w
  match o with
  | 0x44 => t.setLogRing
  | 0x50 => State.logDrain t.log.held.length t
  | _ => t

/-- HUB_STEP_NUM (R29): the next step opens at ATTEMPT 0 with a fresh retry count. -/
def State.stepStore (s : State) (o : Nat) (w : Word) : State :=
  let t := s.setReg .step 0 o w
  if o = 0x18 then { t with step := { t.step with nextAttempt := 0, retries := 0 } } else t

def State.servStore (s : State) (o : Nat) (w : Word) : State :=
  let t := s.setReg .serv 0 o w
  match o with
  | 0x14 => t.evalWait
  | 0x30 => { t with serv := { t.serv with prvFull := t.serv.prvFull && decide (w = s.reg .serv 0 0x30) } }
  | _ => t

def State.pwrStore (s : State) (o : Nat) (w : Word) : State :=
  match o with
  | 0x18 => (s.setReg .pwr 0 o w).capEffect
  | 0x20 => (s.setReg .pwr 0 o w).evalThrottle
  | 0x24 => State.guardEffect s (s.setReg .pwr 0 o w)
  | 0x34 => s.trimWrite w
  | 0x38 => s.calWrite w
  | _ => s.setReg .pwr 0 o w

def State.secStore (s : State) (o : Nat) (w : Word) : State :=
  if o = 0x14 then
    let n := s.field .sec 0 0x10 0 4
    { s with sec := { s.sec with ptx := Bank.put (fun _ => 0x640) s.sec.ptx n w } }
  else s.setReg .sec 0 o w

/-- The calendar clock is set (R447, R470). -/
def State.setCalendar (s : State) (secs : Nat) : State :=
  { s with umc := { s.umc with calUs := 1000000 * secs, calValid := true } }

def State.umcStore (s : State) (o : Nat) (w : Word) : State :=
  match o with
  | 0x10 => { s with umc := { s.umc with autoOn := bit w 31 } }
  | 0x18 => { s with umc := { s.umc with timeLo := w } }
  | 0x1C => s.setCalendar (bits w 0 16 * 2 ^ 32 + s.umc.timeLo.toNat)
  | _ => s.setReg .umc 0 o w

/-- Writing a slot's step number arms the slot; 0xFFFFFFFF leaves it not armed (R252, R262). -/
def State.armSlot (s : State) (k : Nat) (w : Word) : State :=
  let l := s.inl.armed.filter (· != k)
  let t := s.setReg .inl 0 (0x24 + 8 * k) w
  { t with inl := { t.inl with armed := if w = 0xFFFFFFFF then l else k :: l } }

def State.inlStore (s : State) (i o : Nat) (w : Word) : State :=
  match o with
  | 0x24 => s.armSlot 0 w
  | 0x2C => s.armSlot 1 w
  | 0x50 =>
    let t := s.setReg .inl 0 o w
    if t.dom.ratioHeld.isEmpty then t else t.writeRatio false t.dom.ratioHeld
  | _ => s.setReg .inl i o w

/-- CE_RT_MAC_HI (R333): the entry at INDEX is committed with the ports and the low half last written. -/
def State.commitRoute (s : State) (w : Word) : State :=
  let n := s.field .ceEng 0 0x28 0 10
  let l := s.reg .ceEng 0 0x2C
  let ports := (List.range (bits l 16 3)).map fun k => bits l (4 * k) 4
  let m : Mac := BitVec.ofNat 48 (bits w 0 16 * 2 ^ 32 + (s.reg .ceEng 0 0x30).toNat)
  let r : Option Route := if bit w 31 then some ⟨m, ports⟩ else none
  let t : State := { s with fab := { s.fab with routes := Bank.put routeDefault s.fab.routes n r } }
  t.setReg .ceEng 0 0x28 (BitVec.ofNat 32 ((n + 1) % 1024))

def State.ceStore (s : State) (i o : Nat) (w : Word) : State :=
  if o = 0x34 then (s.commitRoute w).setReg .ceEng i o w else s.setReg .ceEng i o w

/-- CE_LNK_CTRL: a write of 1 to EN is ignored while the port MAC is zero (R335). -/
def State.lnkCtrl (s : State) (n : Nat) (w : Word) : Word :=
  if bit w 31 ∧ s.portMac n = 0 then
    (w &&& 0x7FFFFFFF) ||| (s.lnk n 0x10 &&& 0x80000000)
  else w

/-- A port's links go down, to come up again under R300 (R330), and the control frames that wait for its pause with them. -/
def State.linksAnew (s : State) (n : Nat) : State :=
  let t := s.portDown n 4
  t.setPort n { t.port n with ctl := [] }

/-- CE_LNK_CTRL and CE_LNK_MAC take the port's links down (R330). -/
def State.portStore (s : State) (n o : Nat) (w : Word) : State :=
  match o with
  | 0x10 =>
    let t := (s.linksAnew n).setReg .cePort n o (s.lnkCtrl n w)
    let p := t.port n
    t.setPort n { p with held := p.held && p.paused.contains (t.pcpData n), pfcSent := p.pfcSent && t.portUp n }
  | 0x14 => (s.linksAnew n).setReg .cePort n o w
  | 0x18 => (s.linksAnew n).setReg .cePort n o w
  | 0x20 =>
    let t := s.setReg .cePort n o w
    ((if bit w 31 then t else t.setPort n { t.port n with pfcSent := false }).pfcCheck n).xonCheck n
  | _ => s.setReg .cePort n o w

/-- TRN_CKPT_CTRL: the first epoch after SEND is set sends every V page (R286); once it is cleared no epoch starts, and none is waited
for (R287). -/
def State.ckptCtrl (s : State) (i : Nat) (w : Word) : State :=
  let t := s.setReg .trn i 0x60 w
  if !bit w 31 then t.setStack i { t.stack i with due := none }
  else if !bit (s.reg .trn i 0x60) 31 then t.setStack i { t.stack i with fullNext := true } else t

/-- A window register (R285, R499): records that waited for their place to lie in a window are tried again. -/
def State.setWindow (s : State) (i o : Nat) (w : Word) : State := (s.setReg .trn i o w).retryRings

def State.trnStore (s : State) (i o : Nat) (w : Word) : State :=
  if o = 0x24 then s.repairWrite i w
  else if 0x40 ≤ o ∧ o ≤ 0x5C then s.setWindow i o w
  else if o = 0x60 then s.ckptCtrl i w
  else s.setReg .trn i o w

/-- The map or a delay changes: DONE and PASS are cleared, and a test that runs can no longer set PASS (R108). -/
def State.mapChanged (s : State) (f : Nat) : State :=
  let x := s.facet f
  let t := s.setReg .fct f 0x44 (s.reg .fct f 0x44 &&& 0x3FFFFFFF)
  match x.pilot with
  | some (m, d, _) => t.setFacet f { x with pilot := some (m, d, true) }
  | none => t

/-- FCT_PILOT.START (R106): the test runs under the map and delays in force. -/
def State.startPilot (s : State) (f : Nat) : State :=
  s.setFacet f { s.facet f with pilot := some (s.reg .fct f 0x20, s.delays f, false) }

def State.fctStore (s : State) (f o : Nat) (w : Word) : State :=
  if o = 0x40 then (if bit w 0 then s.startPilot f else s)
  else if 0x20 ≤ o ∧ o ≤ 0x34 then (s.setReg .fct f o w).mapChanged f
  else s.setReg .fct f o w

/-- A write that no check refuses: `w` holds the register's writable bits. -/
def State.storeReg (s : State) (b : Block) (i o : Nat) (w : Word) : State :=
  match b with
  | .sys => s
  | .host => s.hostStore o w
  | .policy => s.policyStore o w
  | .step => s.stepStore o w
  | .serv => s.servStore o w
  | .pwr => s.pwrStore o w
  | .sec => s.secStore o w
  | .umc => s.umcStore o w
  | .twn => s.setReg .twn 0 o w
  | .inl => s.inlStore i o w
  | .ceEng => s.ceStore i o w
  | .cePort => s.portStore i o w
  | .trn => s.trnStore i o w
  | .lpe => s.setReg .lpe i o w
  | .cut => s.setReg .cut i o w
  | .inc => s
  | .fct => s.fctStore i o w

/-- A register that this instance does not have or that its variant ignores (R4, R261, R332). -/
def absent (p : Part) (b : Block) (i o : Nat) : Bool :=
  pageDisabled p b i || (onlyC0 b o && i != 0) || (b == .inl && o == 0x18 && !p.variant.full)

/-- What a refused write leaves behind: a rejected MAC address discards the held low half (R360), and a window register written by
another requester than Urhild raises TRN_ACCESS (R285, R292). -/
def State.refusedWrite (s : State) (b : Block) (i o : Nat) (why : Access) : State :=
  if b = .host ∧ o = 0x18 ∧ why = .badField then { s with host := { s.host with macLo := none } }
  else if b = .trn ∧ 0x40 ≤ o ∧ o ≤ 0x5C ∧ why = .owned then
    s.raiseEv 0x0305 i (leBytes 6 (regAddr b i o) ++ [13, 2])
  else s

/-- A write to a register of a page. -/
def State.writeAt (s : State) (who : Requester) (b : Block) (i o : Nat) (r : RegDesc) (v : Word) : State × Access :=
  match s.writeStatus who b i r v with
  | .ok =>
    (match r.kind with
     | .rw => s.storeReg b i o (v &&& BitVec.ofNat 32 r.mask)
     | .wo => s.storeReg b i o (v &&& BitVec.ofNat 32 r.mask)
     | .w1c => s.clearFlags b i v
     | _ => s, .ok)
  | why => (s.refusedWrite b i o why, why)

/-- One register write (R378). -/
def State.writeReg (s : State) (who : Requester) (a : Nat) (v : Word) : State × Access :=
  if a % 4 ≠ 0 then (s, .badField)
  else match pageOf a with
    | none => (s, .unmapped)
    | some (b, i, o) =>
      if hubSide b && !s.hubUp then (s, .badState)
      else match regDesc b o with
        | none => (s, .ok)
        | some r => if absent s.part b i o then (s, .ok) else s.writeAt who b i o r v

/-! ## Single accesses -/

/-- The requester runs: the command processor with the hub, the bridge with Urhild. -/
def State.reaches (s : State) (who : Requester) : Bool :=
  match who with
  | .host => s.hubUp
  | .urhild => s.umc.standby

/-- One write by a requester; its access status is kept. -/
def State.accessWrite (s : State) (who : Requester) (a : Nat) (v : Word) : Host.Outcome State Fault Refusal :=
  let r := s.writeReg who a v
  guarded (s.reaches who) s { r.1 with access := r.2 }

/-- One read by a requester; its value and access status are kept. -/
def State.accessRead (s : State) (who : Requester) (a : Nat) : Host.Outcome State Fault Refusal :=
  let r := s.readReg who a
  guarded (s.reaches who) s { r.1 with access := r.2.1, readValue := r.2.2 }

/-! ## REG_READ and REG_WRITE (R378, R382) -/

/-- The status code of an access (R382). -/
def accessCode : Access → Nat
  | .ok => stOk
  | .unmapped => stUnmapped
  | .badField => stBadField
  | .locked => stLocked
  | .owned => stOwned
  | .badState => stBadState

/-- The status of a whole command: the first access that is not OK. -/
def firstBadAccess (l : List Access) : Nat := ((l.find? fun a => a != .ok).map accessCode).getD stOk

/-- DETAIL of the first entry whose access is not OK (R382): of BAD_FIELD the byte offset of the field in the payload, of BAD_STATE CPSTATE.
`w`: bytes of an entry; `off`: where in its entry a bad field lies. -/
def State.firstBadDetail (s : State) (w : Nat) (off : List Byte → Nat) (l : List (List Byte × Access)) : Nat :=
  match (l.zipIdx).find? fun e => e.1.2 != .ok with
  | some ((e, .badField), j) => w * j + off e
  | some ((_, .badState), _) => cpCode s.cp
  | _ => 0

/-- The bad field of a REG_READ entry: bits 63:48, or the address. -/
def readField (e : List Byte) : Nat := if leAt 6 2 e ≠ 0 then 6 else 0

/-- The bad field of a REG_WRITE entry: bits 63:48, the address, or the value. -/
def writeField (e : List Byte) : Nat := if leAt 6 2 e ≠ 0 then 6 else if leAt 0 6 e % 4 ≠ 0 then 0 else 8

/-- The requester a port's accesses are made as (R447). -/
def requesterOf : CmdPort → Requester
  | .host => .host
  | .mgmt => .urhild

/-- One entry of a REG_READ. -/
def State.readEntry (s : State) (who : Requester) (e : List Byte) : State × Access × Word :=
  if leAt 6 2 e ≠ 0 then (s, .badField, 0) else s.readReg who (leAt 0 6 e)

/-- One entry of a REG_WRITE. -/
def State.writeEntry (s : State) (who : Requester) (e : List Byte) : State × Access :=
  if leAt 6 2 e ≠ 0 then (s, .badField) else s.writeReg who (leAt 0 6 e) (BitVec.ofNat 32 (leAt 8 4 e))

/-- The entries of a REG_READ in order. -/
def State.readEntries (who : Requester) : List (List Byte) → State → State × List (Access × Word)
  | [], s => (s, [])
  | e :: t, s =>
    let r := s.readEntry who e
    let u := State.readEntries who t r.1
    (u.1, r.2 :: u.2)

/-- The entries of a REG_WRITE in order. -/
def State.writeEntries (who : Requester) : List (List Byte) → State → State × List Access
  | [], s => (s, [])
  | e :: t, s =>
    let r := s.writeEntry who e
    let u := State.writeEntries who t r.1
    (u.1, r.2 :: u.2)

/-- A payload of entries of `n` bytes each. -/
def entriesOf (n : Nat) (l : List Byte) : List (List Byte) := (List.range (l.length / n)).map fun k => slice (n * k) n l

/-- A payload of whole entries, from 1 to `most`. -/
def entryLen (n most : Nat) (l : Nat) : Bool := decide (l % n = 0 ∧ n ≤ l ∧ l ≤ n * most)

/-- REG_READ (R378). -/
def execRegRead (port : CmdPort) (queue : Nat) (s : State) : Host.Outcome State Fault Refusal :=
  .next (s.runCmd (queueIdx port queue) 0x0201 (entryLen 8 1019) anyState fun _ l t =>
    let r := State.readEntries (requesterOf port) (entriesOf 8 l) t
    (r.1, .done (firstBadAccess (r.2.map (·.1))) (r.1.firstBadDetail 8 readField ((entriesOf 8 l).zip (r.2.map (·.1))))
      (r.2.flatMap fun x => leBytes 4 x.2.toNat ++ leBytes 4 (accessCode x.1))))

/-- REG_WRITE (R378). -/
def execRegWrite (port : CmdPort) (queue : Nat) (s : State) : Host.Outcome State Fault Refusal :=
  .next (s.runCmd (queueIdx port queue) 0x0202 (entryLen 12 680) anyState fun _ l t =>
    let r := State.writeEntries (requesterOf port) (entriesOf 12 l) t
    (r.1, .done (firstBadAccess r.2) (r.1.firstBadDetail 12 writeField ((entriesOf 12 l).zip r.2)) (r.2.flatMap fun x => leBytes 4 (accessCode x))))

/-! ## The rows of single accesses -/

/-- PLAIN_REGISTER_WRITE (R378). -/
def execPlainRegisterWrite (who : Requester) (addr : Nat) (value : Word) (s : State) : Host.Outcome State Fault Refusal :=
  s.accessWrite who addr value

/-- W1C_CLEAR (R474). -/
def execW1cClear (who : Requester) (addr : Nat) (value : Word) (s : State) : Host.Outcome State Fault Refusal :=
  s.accessWrite who addr value

/-- PAIR_LO_READ (R473). -/
def execPairLoRead (who : Requester) (addr : Nat) (s : State) : Host.Outcome State Fault Refusal :=
  s.accessRead who addr

/-- HUB_LOG_LOST_READ (R476). -/
def execHubLogLostRead (who : Requester) (s : State) : Host.Outcome State Fault Refusal :=
  s.accessRead who (regAddr .policy 0 0x54)

/-- HUB_POND_HWM_READ (R476). -/
def execHubPondHwmRead (who : Requester) (s : State) : Host.Outcome State Fault Refusal :=
  s.accessRead who (regAddr .step 0 0x38)

/-- PWR_AGE_READ (R476). -/
def execPwrAgeRead (who : Requester) (s : State) : Host.Outcome State Fault Refusal :=
  s.accessRead who (regAddr .pwr 0 0x44)

/-- HOST_MAC_LO_WRITE (R360). -/
def execHostMacLoWrite (who : Requester) (value : Word) (s : State) : Host.Outcome State Fault Refusal :=
  s.accessWrite who (regAddr .host 0 0x14) value

/-- HOST_MAC_HI_WRITE (R360). -/
def execHostMacHiWrite (who : Requester) (value : Word) (s : State) : Host.Outcome State Fault Refusal :=
  s.accessWrite who (regAddr .host 0 0x18) value

/-- HOST_CTRL_WRITE (R388). -/
def execHostCtrlWrite (who : Requester) (value : Word) (s : State) : Host.Outcome State Fault Refusal :=
  s.accessWrite who (regAddr .host 0 0x10) value

/-- HOST_EGR_CFG_WRITE (R363). -/
def execHostEgrCfgWrite (who : Requester) (value : Word) (s : State) : Host.Outcome State Fault Refusal :=
  s.accessWrite who (regAddr .host 0 0x78) value

/-- HUB_STEP_NUM_WRITE (R29). -/
def execHubStepNumWrite (who : Requester) (value : Word) (s : State) : Host.Outcome State Fault Refusal :=
  s.accessWrite who (regAddr .step 0 0x18) value

/-- INL_LR_STEP_WRITE (R252). -/
def execInlLrStepWrite (k : Nat) (who : Requester) (value : Word) (s : State) : Host.Outcome State Fault Refusal :=
  s.accessWrite who (regAddr .inl 0 (0x24 + 8 * (k % 2))) value

/-- LOG_RING_SET (R459). -/
def execLogRingSet (who : Requester) (value : Word) (s : State) : Host.Outcome State Fault Refusal :=
  s.accessWrite who (regAddr .policy 0 0x44) value

/-- HUB_LOG_TAIL_WRITE (R192). -/
def execHubLogTailWrite (who : Requester) (value : Word) (s : State) : Host.Outcome State Fault Refusal :=
  s.accessWrite who (regAddr .policy 0 0x50) value

/-- INL_RLOG_TAIL_WRITE (R256). -/
def execInlRlogTailWrite (who : Requester) (value : Word) (s : State) : Host.Outcome State Fault Refusal :=
  s.accessWrite who (regAddr .inl 0 0x50) value

/-- HUB_PRV_TAIL_WRITE (R348). -/
def execHubPrvTailWrite (who : Requester) (value : Word) (s : State) : Host.Outcome State Fault Refusal :=
  s.accessWrite who (regAddr .serv 0 0x30) value

/-- HUB_SRV_FILL_WRITE (R342). -/
def execHubSrvFillWrite (who : Requester) (value : Word) (s : State) : Host.Outcome State Fault Refusal :=
  s.accessWrite who (regAddr .serv 0 0x10) value

/-- HUB_SRV_WAIT_WRITE (R342). -/
def execHubSrvWaitWrite (who : Requester) (value : Word) (s : State) : Host.Outcome State Fault Refusal :=
  s.accessWrite who (regAddr .serv 0 0x14) value

/-- FCT_SPARE_WRITE (R108). -/
def execFctSpareWrite (facet : Nat) (who : Requester) (value : Word) (s : State) : Host.Outcome State Fault Refusal :=
  s.accessWrite who (regAddr .fct facet 0x20) value

/-- FCT_ROW_DLY_WRITE (R108). -/
def execFctRowDlyWrite (facet k : Nat) (who : Requester) (value : Word) (s : State) : Host.Outcome State Fault Refusal :=
  s.accessWrite who (regAddr .fct facet (0x24 + 4 * (k % 5))) value

/-- PILOT_START (R106). -/
def execPilotStart (facet : Nat) (who : Requester) (value : Word) (s : State) : Host.Outcome State Fault Refusal :=
  s.accessWrite who (regAddr .fct facet 0x40) value

/-- FCT_ENABLE_WRITE (R108). -/
def execFctEnableWrite (facet : Nat) (who : Requester) (value : Word) (s : State) : Host.Outcome State Fault Refusal :=
  s.accessWrite who (regAddr .fct facet 0) value

/-- TRN_RPR_DATA_WRITE (R273). -/
def execTrnRprDataWrite (stack : Nat) (who : Requester) (value : Word) (s : State) : Host.Outcome State Fault Refusal :=
  s.accessWrite who (regAddr .trn stack 0x24) value

/-- TRN_HPW_WRITE (R285). -/
def execTrnHpwWrite (stack k : Nat) (size : Bool) (who : Requester) (value : Word) (s : State) : Host.Outcome State Fault Refusal :=
  s.accessWrite who (regAddr .trn stack (0x40 + 8 * (k % 4) + 4 * b2n size)) value

/-- CE_LNK_RECONFIG (R330). -/
def execCeLnkReconfig (port : Nat) (mac hi : Bool) (who : Requester) (value : Word) (s : State) :
    Host.Outcome State Fault Refusal :=
  s.accessWrite who (regAddr .cePort port (0x10 + 4 * b2n mac + 4 * b2n (mac && hi))) value

/-- CE_RT_MAC_HI_WRITE (R333). -/
def execCeRtMacHiWrite (who : Requester) (value : Word) (s : State) : Host.Outcome State Fault Refusal :=
  s.accessWrite who (regAddr .ceEng 0 0x34) value

/-- CAP_STEP_WRITE (R420). -/
def execCapStepWrite (who : Requester) (value : Word) (s : State) : Host.Outcome State Fault Refusal :=
  s.accessWrite who (regAddr .pwr 0 0x18) value

/-- PWR_TRIM_DATA_WRITE (R431). -/
def execPwrTrimDataWrite (who : Requester) (value : Word) (s : State) : Host.Outcome State Fault Refusal :=
  s.accessWrite who (regAddr .pwr 0 0x34) value

/-- PWR_CAL_WRITE (R436). -/
def execPwrCalWrite (who : Requester) (value : Word) (s : State) : Host.Outcome State Fault Refusal :=
  s.accessWrite who (regAddr .pwr 0 0x38) value

/-- UMC_TIME_HI_WRITE (R470). -/
def execUmcTimeHiWrite (who : Requester) (value : Word) (s : State) : Host.Outcome State Fault Refusal :=
  s.accessWrite who (regAddr .umc 0 0x1C) value

end Sys2Proof.Machine
end

