-- ==== Sys2Proof/Machine/Mgmt.lean ====
section
/-! DEFINITION. Urhild's own commands (R447, R448): power, the alarm log, the calendar clock, and SMBus. -/
namespace Sys2Proof.Machine

/-! ## UMC_POWER (R447, R449) -/

/-- The ACTION of a well-formed UMC_POWER at the front of the management queue. -/
def State.powerAction (s : State) : Option Nat :=
  match s.front 16 0x0601 with
  | some (p, _) =>
    match content p with
    | some l => if l.length = 4 ∧ leAt 0 1 l < 4 then some (leAt 0 1 l) else none
    | none => none
  | none => none

/-- Runs the UMC_POWER at the front of the management queue. -/
def State.runPower (s : State) : State :=
  s.runCmd 16 0x0601 (lenIs 4) anyState fun _ l t =>
    if 3 < leAt 0 1 l then (t, .done stBadField 0 [])
    else if leAt 1 3 l ≠ 0 then (t, .done stBadField 1 [])
    else
      let r := t.umcPower (leAt 0 1 l)
      (r.1, .done (if r.2 then stBadState else stOk) (if r.2 then t.cpByte else 0) [])

/-- A UMC_POWER row: the management port's command, where its ACTION is this one or is malformed; or Urhild's own action. -/
def State.powerRow (s : State) (action : Nat) (mgmt : Bool) : State :=
  if mgmt then (if s.powerAction = none ∨ s.powerAction = some action then s.runPower else s)
  else (s.umcPower action).1

/-- MAIN_OFF (R449). -/
def execMainOff (mgmt : Bool) (s : State) : Host.Outcome State Fault Refusal := .next (s.powerRow 0 mgmt)

/-- MAIN_ON (R450). -/
def execMainOn (mgmt : Bool) (s : State) : Host.Outcome State Fault Refusal := .next (s.powerRow 1 mgmt)

/-- WARM_RESET (R449). -/
def execWarmReset (mgmt : Bool) (s : State) : Host.Outcome State Fault Refusal := .next (s.powerRow 2 mgmt)

/-- FULL_RESET (R449). -/
def execFullReset (mgmt : Bool) (s : State) : Host.Outcome State Fault Refusal := .next (s.powerRow 3 mgmt)

/-! ## The alarm log and the clock -/

/-- The 16 bytes of an alarm record (R462). -/
def alarmBytes (a : Alarm) : List Byte :=
  leBytes 6 a.secs ++ leBytes 2 a.frac ++ leBytes 1 a.code ++ leBytes 1 a.level ++ leBytes 1 a.cpstate ++ [0]
    ++ leBytes 2 a.count ++ [0, 0]

/-- UMC_ALARM_READ (R447): the records held from FIRST on, oldest first. -/
def execUmcAlarmRead (s : State) : Host.Outcome State Fault Refusal :=
  .next (s.runCmd 16 0x0602 (lenIs 4) anyState fun _ l t =>
    if leAt 2 2 l ≠ 0 then (t, .done stBadField 2 [])
    else
      let rs := t.umc.alarms.drop (leAt 0 2 l)
      (t, .done stOk 0 (leBytes 4 rs.length ++ rs.flatMap alarmBytes)))

/-- Bit 0 of FLAGS empties the log, bit 1 clears TAMPER; ZEROISED stays (R447). -/
def State.clearAlarms (s : State) (flags : Byte) : State :=
  { s with umc := { s.umc with
      alarms := if flags.getLsbD 0 then [] else s.umc.alarms
      alevel := if flags.getLsbD 0 then 0 else s.umc.alevel
      tamper := s.umc.tamper && !flags.getLsbD 1 } }

/-- UMC_ALARM_CLEAR (R447). -/
def execUmcAlarmClear (s : State) : Host.Outcome State Fault Refusal :=
  .next (s.runCmd 16 0x0603 (lenIs 4) anyState fun _ l t =>
    if leAt 1 3 l ≠ 0 then (t, .done stBadField 1 [])
    else (t.clearAlarms (BitVec.ofNat 8 (leAt 0 1 l)), .done stOk 0 []))

/-- UMC_TIME (R447). -/
def execUmcTime (s : State) : Host.Outcome State Fault Refusal :=
  .next (s.runCmd 16 0x0604 (lenIs 8) anyState fun _ l t =>
    if leAt 6 2 l ≠ 0 then (t, .done stBadField 6 [])
    else (t.setCalendar (leAt 0 6 l), .done stOk 0 []))

/-! ## SMBus (R448) -/

/-- Urhild's slave address: 0x68 at site A, 0x69 at site B (R446, R484). -/
def State.smbSlave (s : State) : Nat := 0x68 + b2n s.umc.siteB

/-- An SMBus transaction (R446, R448): ignored where it names another slave or its PEC fails, and while Urhild has no standby power. -/
def State.smbus (s : State) (frame : SmbFrame) (ok : Bool) (t : State) : Host.Outcome State Fault Refusal :=
  guarded (frame.pecOk && decide (frame.slave = s.smbSlave) && s.umc.standby && ok) s t

/-- Bytes answered over SMBus. -/
def State.smbSend (s : State) (l : List Byte) : State := { s with out := s.out ++ [.smbus l] }

/-- SMB_ADDRESS_WRITE. -/
def execSmbAddressWrite (frame : SmbFrame) (data : List Byte) (s : State) : Host.Outcome State Fault Refusal :=
  s.smbus frame (data.length == 6) { s with umc := { s.umc with smbAddr := leNat data } }

/-- SMB_BLOCK_READ: the value, then the low byte of the access status. -/
def execSmbBlockRead (frame : SmbFrame) (s : State) : Host.Outcome State Fault Refusal :=
  let r := s.readReg .urhild s.umc.smbAddr
  let t : State := { r.1 with access := r.2.1, readValue := r.2.2 }
  s.smbus frame true (t.smbSend (leBytes 4 r.2.2.toNat ++ leBytes 1 (accessCode r.2.1)))

/-- SMB_BLOCK_WRITE: with Urhild's rights. -/
def execSmbBlockWrite (frame : SmbFrame) (data : List Byte) (s : State) : Host.Outcome State Fault Refusal :=
  let r := s.writeReg .urhild s.umc.smbAddr (BitVec.ofNat 32 (leNat data))
  s.smbus frame (data.length == 4) { r.1 with access := r.2 }

/-- SMB_POWER: UMC_POWER with this ACTION; a value above 3 names none. -/
def execSmbPower (frame : SmbFrame) (action : Byte) (s : State) : Host.Outcome State Fault Refusal :=
  s.smbus frame (decide (action.toNat < 4)) (s.umcPower action.toNat).1

/-- SMB_STATUS_READ: bits 31:24 of UMC_STATUS. -/
def execSmbStatusRead (frame : SmbFrame) (s : State) : Host.Outcome State Fault Refusal :=
  s.smbus frame true (s.smbSend (leBytes 1 (bits (s.regView .umc 0 0) 24 8)))

/-- SMB_ALARM_CLEAR. -/
def execSmbAlarmClear (frame : SmbFrame) (flags : Byte) (s : State) : Host.Outcome State Fault Refusal :=
  s.smbus frame true (s.clearAlarms flags)

end Sys2Proof.Machine
end

