-- ==== Sys2Proof/Machine/Dispatch.lean ====
section
/-! DEFINITION. One arm per command: the command's meaning, or its rejection by name. -/
namespace Sys2Proof.Machine

def exec (i : Instr) (s : State) : Host.Outcome State Fault Refusal :=
  match i with
  | .standbyPowerUp siteB laneSel held elapsedUs => Sys2Proof.Machine.execStandbyPowerUp siteB laneSel held elapsedUs s
  | .standbyLost => Sys2Proof.Machine.execStandbyLost s
  | .mainInputApplied millivolts => Sys2Proof.Machine.execMainInputApplied millivolts s
  | .mainInputFault millivolts => Sys2Proof.Machine.execMainInputFault millivolts s
  | .mainOff mgmt => Sys2Proof.Machine.execMainOff mgmt s
  | .mainOn mgmt => Sys2Proof.Machine.execMainOn mgmt s
  | .warmReset mgmt => Sys2Proof.Machine.execWarmReset mgmt s
  | .fullReset mgmt => Sys2Proof.Machine.execFullReset mgmt s
  | .railPowerGoodTimeout rail => Sys2Proof.Machine.execRailPowerGoodTimeout rail s
  | .hubResetRelease pufOk => Sys2Proof.Machine.execHubResetRelease pufOk s
  | .dieResetRelease => Sys2Proof.Machine.execDieResetRelease s
  | .tarnTrainingDone stack => Sys2Proof.Machine.execTarnTrainingDone stack s
  | .mesh => Sys2Proof.Machine.execMesh s
  | .cover => Sys2Proof.Machine.execCover s
  | .vglitchCore => Sys2Proof.Machine.execVglitchCore s
  | .vglitchStby => Sys2Proof.Machine.execVglitchStby s
  | .refclkDrift => Sys2Proof.Machine.execRefclkDrift s
  | .refclkLoss => Sys2Proof.Machine.execRefclkLoss s
  | .tempLow sensor celsius => Sys2Proof.Machine.execTempLow sensor celsius s
  | .debugPort => Sys2Proof.Machine.execDebugPort s
  | .thermThrottle sensor celsius => Sys2Proof.Machine.execThermThrottle sensor celsius s
  | .throttleClear readings => Sys2Proof.Machine.execThrottleClear readings s
  | .thermTrip sensor celsius => Sys2Proof.Machine.execThermTrip sensor celsius s
  | .clkFault cause n => Sys2Proof.Machine.execClkFault cause n s
  | .powerSample watts => Sys2Proof.Machine.execPowerSample watts s
  | .stepEvaluation => Sys2Proof.Machine.execStepEvaluation s
  | .freqSwitch die quietCycles => Sys2Proof.Machine.execFreqSwitch die quietCycles s
  | .dSlowNarrow => Sys2Proof.Machine.execDSlowNarrow s
  | .dSlowWiden => Sys2Proof.Machine.execDSlowWiden s
  | .dFastRecovery => Sys2Proof.Machine.execDFastRecovery s
  | .capStepWrite who value => Sys2Proof.Machine.execCapStepWrite who value s
  | .droopResponse sense => Sys2Proof.Machine.execDroopResponse sense s
  | .droopHoldEnd region cycles => Sys2Proof.Machine.execDroopHoldEnd region cycles s
  | .trimChoice die => Sys2Proof.Machine.execTrimChoice die s
  | .trimExit die => Sys2Proof.Machine.execTrimExit die s
  | .railReached die => Sys2Proof.Machine.execRailReached die s
  | .ageReport die region slack => Sys2Proof.Machine.execAgeReport die region slack s
  | .pwrTrimDataWrite who value => Sys2Proof.Machine.execPwrTrimDataWrite who value s
  | .pwrCalWrite who value => Sys2Proof.Machine.execPwrCalWrite who value s
  | .mgmtPacket frame => Sys2Proof.Machine.execMgmtPacket frame s
  | .umcAlarmRead => Sys2Proof.Machine.execUmcAlarmRead s
  | .umcAlarmClear => Sys2Proof.Machine.execUmcAlarmClear s
  | .umcTime => Sys2Proof.Machine.execUmcTime s
  | .umcTimeHiWrite who value => Sys2Proof.Machine.execUmcTimeHiWrite who value s
  | .smbAddressWrite frame data => Sys2Proof.Machine.execSmbAddressWrite frame data s
  | .smbBlockRead frame => Sys2Proof.Machine.execSmbBlockRead frame s
  | .smbBlockWrite frame data => Sys2Proof.Machine.execSmbBlockWrite frame data s
  | .smbPower frame action => Sys2Proof.Machine.execSmbPower frame action s
  | .smbStatusRead frame => Sys2Proof.Machine.execSmbStatusRead frame s
  | .smbAlarmClear frame flags => Sys2Proof.Machine.execSmbAlarmClear frame flags s
  | .hostLink up => Sys2Proof.Machine.execHostLink up s
  | .arpRequest frame => Sys2Proof.Machine.execArpRequest frame s
  | .neighborSolicitation frame => Sys2Proof.Machine.execNeighborSolicitation frame s
  | .echoRequest frame => Sys2Proof.Machine.execEchoRequest frame s
  | .ptpMessage frame => Sys2Proof.Machine.execPtpMessage frame s
  | .ptpSyncTimeout => Sys2Proof.Machine.execPtpSyncTimeout s
  | .commandPacket frame => Sys2Proof.Machine.execCommandPacket frame s
  | .queueSync port queue => Sys2Proof.Machine.execQueueSync port queue s
  | .nop port queue => Sys2Proof.Machine.execNop port queue s
  | .ident port queue => Sys2Proof.Machine.execIdent port queue s
  | .sizeTable queue => Sys2Proof.Machine.execSizeTable queue s
  | .status queue => Sys2Proof.Machine.execStatus queue s
  | .fence queue => Sys2Proof.Machine.execFence queue s
  | .fenceComplete queue => Sys2Proof.Machine.execFenceComplete queue s
  | .fwLoad queue => Sys2Proof.Machine.execFwLoad queue s
  | .fwStart queue rsaOk slhOk => Sys2Proof.Machine.execFwStart queue rsaOk slhOk s
  | .configEnd queue => Sys2Proof.Machine.execConfigEnd queue s
  | .attest queue => Sys2Proof.Machine.execAttest queue s
  | .regRead port queue => Sys2Proof.Machine.execRegRead port queue s
  | .regWrite port queue => Sys2Proof.Machine.execRegWrite port queue s
  | .memRead queue => Sys2Proof.Machine.execMemRead queue s
  | .memWrite queue => Sys2Proof.Machine.execMemWrite queue s
  | .memFill queue => Sys2Proof.Machine.execMemFill queue s
  | .memDigest queue => Sys2Proof.Machine.execMemDigest queue s
  | .bulkComplete => Sys2Proof.Machine.execBulkComplete s
  | .progLoad queue prog => Sys2Proof.Machine.execProgLoad queue prog s
  | .progUnload queue => Sys2Proof.Machine.execProgUnload queue s
  | .settleComplete => Sys2Proof.Machine.execSettleComplete s
  | .run queue => Sys2Proof.Machine.execRun queue s
  | .stop queue => Sys2Proof.Machine.execStop queue s
  | .abort queue => Sys2Proof.Machine.execAbort queue s
  | .resume queue => Sys2Proof.Machine.execResume queue s
  | .restore queue => Sys2Proof.Machine.execRestore queue s
  | .twinMode queue => Sys2Proof.Machine.execTwinMode queue s
  | .wellheadTake queue => Sys2Proof.Machine.execWellheadTake queue s
  | .rankJoin queue => Sys2Proof.Machine.execRankJoin queue s
  | .twinRestore queue => Sys2Proof.Machine.execTwinRestore queue s
  | .collLaunch queue desc => Sys2Proof.Machine.execCollLaunch queue desc s
  | .modelLoad queue cal => Sys2Proof.Machine.execModelLoad queue cal s
  | .modelUnload queue => Sys2Proof.Machine.execModelUnload queue s
  | .score queue => Sys2Proof.Machine.execScore queue s
  | .slotReset queue => Sys2Proof.Machine.execSlotReset queue s
  | .explain queue => Sys2Proof.Machine.execExplain queue s
  | .plainRegisterWrite who addr value => Sys2Proof.Machine.execPlainRegisterWrite who addr value s
  | .w1cClear who addr value => Sys2Proof.Machine.execW1cClear who addr value s
  | .pairLoRead who addr => Sys2Proof.Machine.execPairLoRead who addr s
  | .hubLogLostRead who => Sys2Proof.Machine.execHubLogLostRead who s
  | .hubPondHwmRead who => Sys2Proof.Machine.execHubPondHwmRead who s
  | .pwrAgeRead who => Sys2Proof.Machine.execPwrAgeRead who s
  | .hostMacLoWrite who value => Sys2Proof.Machine.execHostMacLoWrite who value s
  | .hostMacHiWrite who value => Sys2Proof.Machine.execHostMacHiWrite who value s
  | .hostCtrlWrite who value => Sys2Proof.Machine.execHostCtrlWrite who value s
  | .hostEgrCfgWrite who value => Sys2Proof.Machine.execHostEgrCfgWrite who value s
  | .hubStepNumWrite who value => Sys2Proof.Machine.execHubStepNumWrite who value s
  | .inlLrStepWrite k who value => Sys2Proof.Machine.execInlLrStepWrite k who value s
  | .logRingSet who value => Sys2Proof.Machine.execLogRingSet who value s
  | .hubLogTailWrite who value => Sys2Proof.Machine.execHubLogTailWrite who value s
  | .inlRlogTailWrite who value => Sys2Proof.Machine.execInlRlogTailWrite who value s
  | .hubPrvTailWrite who value => Sys2Proof.Machine.execHubPrvTailWrite who value s
  | .hubSrvFillWrite who value => Sys2Proof.Machine.execHubSrvFillWrite who value s
  | .hubSrvWaitWrite who value => Sys2Proof.Machine.execHubSrvWaitWrite who value s
  | .strandStart ra id => Sys2Proof.Machine.execStrandStart ra id s
  | .phaseBarrier ra phase => Sys2Proof.Machine.execPhaseBarrier ra phase s
  | .taskDescriptor ra id ramping => Sys2Proof.Machine.execTaskDescriptor ra id ramping s
  | .stopRamp facet => Sys2Proof.Machine.execStopRamp facet s
  | .kGroupRescale facet pidx row col event => Sys2Proof.Machine.execKGroupRescale facet pidx row col event s
  | .taskReplay part ramping => Sys2Proof.Machine.execTaskReplay part ramping s
  | .scaleLoad facet pidx => Sys2Proof.Machine.execScaleLoad facet pidx s
  | .drainRowRead facet pidx parity => Sys2Proof.Machine.execDrainRowRead facet pidx parity s
  | .taskComplete facet pidx => Sys2Proof.Machine.execTaskComplete facet pidx s
  | .modeChange facet => Sys2Proof.Machine.execModeChange facet s
  | .inclusionTask part fault => Sys2Proof.Machine.execInclusionTask part fault s
  | .fctSpareWrite facet who value => Sys2Proof.Machine.execFctSpareWrite facet who value s
  | .fctRowDlyWrite facet k who value => Sys2Proof.Machine.execFctRowDlyWrite facet k who value s
  | .pilotStart facet who value => Sys2Proof.Machine.execPilotStart facet who value s
  | .pilotDone facet firstBad badCount => Sys2Proof.Machine.execPilotDone facet firstBad badCount s
  | .fctEnableWrite facet who value => Sys2Proof.Machine.execFctEnableWrite facet who value s
  | .quant ra id fault => Sys2Proof.Machine.execQuant ra id fault s
  | .rmsApply ra id fault => Sys2Proof.Machine.execRmsApply ra id fault s
  | .rmsBwdApply ra id fault => Sys2Proof.Machine.execRmsBwdApply ra id fault s
  | .smxApply ra id fault => Sys2Proof.Machine.execSmxApply ra id fault s
  | .smxBwdApply ra id fault => Sys2Proof.Machine.execSmxBwdApply ra id fault s
  | .elemAdd ra id fault => Sys2Proof.Machine.execElemAdd ra id fault s
  | .elemMul ra id fault => Sys2Proof.Machine.execElemMul ra id fault s
  | .elemScale ra id fault => Sys2Proof.Machine.execElemScale ra id fault s
  | .elemRelu ra id fault => Sys2Proof.Machine.execElemRelu ra id fault s
  | .elemSilu ra id fault => Sys2Proof.Machine.execElemSilu ra id fault s
  | .nsIter ra id fault => Sys2Proof.Machine.execNsIter ra id fault s
  | .rmsStat facet pidx row fault => Sys2Proof.Machine.execRmsStat facet pidx row fault s
  | .smxStat facet pidx row fault causal pos0 z => Sys2Proof.Machine.execSmxStat facet pidx row fault causal pos0 z s
  | .smxDot facet pidx row fault fmt blk codes exps pitch => Sys2Proof.Machine.execSmxDot facet pidx row fault fmt blk codes exps pitch s
  | .rmsDot facet pidx row fault gamma x => Sys2Proof.Machine.execRmsDot facet pidx row fault gamma x s
  | .kernelComplete cluster => Sys2Proof.Machine.execKernelComplete cluster s
  | .amax => Sys2Proof.Machine.execAmax s
  | .loupeVerdict region parity => Sys2Proof.Machine.execLoupeVerdict region parity s
  | .verdictPoint ra layer bwd => Sys2Proof.Machine.execVerdictPoint ra layer bwd s
  | .report => Sys2Proof.Machine.execReport s
  | .decisionClear => Sys2Proof.Machine.execDecisionClear s
  | .decisionReplay => Sys2Proof.Machine.execDecisionReplay s
  | .decisionWiden => Sys2Proof.Machine.execDecisionWiden s
  | .decisionGlobal => Sys2Proof.Machine.execDecisionGlobal s
  | .decisionExhausted => Sys2Proof.Machine.execDecisionExhausted s
  | .stepOpen => Sys2Proof.Machine.execStepOpen s
  | .openAttempt => Sys2Proof.Machine.execOpenAttempt s
  | .policy => Sys2Proof.Machine.execPolicy s
  | .xmap => Sys2Proof.Machine.execXmap s
  | .programEnd => Sys2Proof.Machine.execProgramEnd s
  | .endCount => Sys2Proof.Machine.execEndCount s
  | .twinDigest => Sys2Proof.Machine.execTwinDigest s
  | .readyCount => Sys2Proof.Machine.execReadyCount s
  | .commit => Sys2Proof.Machine.execCommit s
  | .flipComplete => Sys2Proof.Machine.execFlipComplete s
  | .doneCount => Sys2Proof.Machine.execDoneCount s
  | .veto => Sys2Proof.Machine.execVeto s
  | .lvote layer => Sys2Proof.Machine.execLvote layer s
  | .gate => Sys2Proof.Machine.execGate s
  | .domainAbort => Sys2Proof.Machine.execDomainAbort s
  | .spill block => Sys2Proof.Machine.execSpill block s
  | .stashReturn block => Sys2Proof.Machine.execStashReturn block s
  | .gradientBlock die ue => Sys2Proof.Machine.execGradientBlock die ue s
  | .rowRecord die => Sys2Proof.Machine.execRowRecord die s
  | .preBlock die tensor unit => Sys2Proof.Machine.execPreBlock die tensor unit s
  | .statisticsPass id => Sys2Proof.Machine.execStatisticsPass id s
  | .statisticsResult die tensor rowSums colSums => Sys2Proof.Machine.execStatisticsResult die tensor rowSums colSums s
  | .rootRefresh id => Sys2Proof.Machine.execRootRefresh id s
  | .ratio => Sys2Proof.Machine.execRatio s
  | .tarnTransfer stack req addr count lines rivals x errs vtParity => Sys2Proof.Machine.execTarnTransfer stack req addr count lines rivals x errs vtParity s
  | .overstayCutoff stack chan cycles => Sys2Proof.Machine.execOverstayCutoff stack chan cycles s
  | .overstayBarEnd stack chan req => Sys2Proof.Machine.execOverstayBarEnd stack chan req s
  | .ceWriteback stack => Sys2Proof.Machine.execCeWriteback stack s
  | .scrubLine stack err => Sys2Proof.Machine.execScrubLine stack err s
  | .scrubPeriodEnd stack => Sys2Proof.Machine.execScrubPeriodEnd stack s
  | .trnRprDataWrite stack who value => Sys2Proof.Machine.execTrnRprDataWrite stack who value s
  | .trnHpwWrite stack k size who value => Sys2Proof.Machine.execTrnHpwWrite stack k size who value s
  | .programCopy ra id => Sys2Proof.Machine.execProgramCopy ra id s
  | .patternFill ra id => Sys2Proof.Machine.execPatternFill ra id s
  | .copyComplete ra id => Sys2Proof.Machine.execCopyComplete ra id s
  | .epochStart stack => Sys2Proof.Machine.execEpochStart stack s
  | .ckend => Sys2Proof.Machine.execCkend s
  | .epochHeld => Sys2Proof.Machine.execEpochHeld s
  | .peerPhyUp port => Sys2Proof.Machine.execPeerPhyUp port s
  | .peerPhyDown port => Sys2Proof.Machine.execPeerPhyDown port s
  | .initTimer port => Sys2Proof.Machine.execInitTimer port s
  | .initFrame port hdr twin rank domain => Sys2Proof.Machine.execInitFrame port hdr twin rank domain s
  | .initAck port hdr twin rank domain => Sys2Proof.Machine.execInitAck port hdr twin rank domain s
  | .dataFrame port hdr seq ack data => Sys2Proof.Machine.execDataFrame port hdr seq ack data s
  | .linkAck port hdr ack => Sys2Proof.Machine.execLinkAck port hdr ack s
  | .nak port hdr ack => Sys2Proof.Machine.execNak port hdr ack s
  | .keepalive port hdr ack => Sys2Proof.Machine.execKeepalive port hdr ack s
  | .ackTimer port mac => Sys2Proof.Machine.execAckTimer port mac s
  | .keepaliveTimer port mac => Sys2Proof.Machine.execKeepaliveTimer port mac s
  | .retryTimeout port mac => Sys2Proof.Machine.execRetryTimeout port mac s
  | .linkSilence port mac => Sys2Proof.Machine.execLinkSilence port mac s
  | .pfcFrame port priority quanta => Sys2Proof.Machine.execPfcFrame port priority quanta s
  | .pauseFrame port => Sys2Proof.Machine.execPauseFrame port s
  | .pauseExpiry port priority => Sys2Proof.Machine.execPauseExpiry port priority s
  | .pfcRepeatTimer port => Sys2Proof.Machine.execPfcRepeatTimer port s
  | .pfcWatchdog port => Sys2Proof.Machine.execPfcWatchdog port s
  | .ceLnkReconfig port mac hi who value => Sys2Proof.Machine.execCeLnkReconfig port mac hi who value s
  | .ceRtMacHiWrite who value => Sys2Proof.Machine.execCeRtMacHiWrite who value s
  | .copyWrite => Sys2Proof.Machine.execCopyWrite s
  | .readReq => Sys2Proof.Machine.execReadReq s
  | .readData => Sys2Proof.Machine.execReadData s
  | .copyAck => Sys2Proof.Machine.execCopyAck s
  | .hello => Sys2Proof.Machine.execHello s
  | .digest => Sys2Proof.Machine.execDigest s
  | .aborted => Sys2Proof.Machine.execAborted s
  | .halted => Sys2Proof.Machine.execHalted s
  | .progdig => Sys2Proof.Machine.execProgdig s
  | .restoreEnd => Sys2Proof.Machine.execRestoreEnd s
  | .allGather die => Sys2Proof.Machine.execAllGather die s
  | .broadcast die => Sys2Proof.Machine.execBroadcast die s
  | .reduceScatter die => Sys2Proof.Machine.execReduceScatter die s
  | .allReduce die => Sys2Proof.Machine.execAllReduce die s
  | .seg => Sys2Proof.Machine.execSeg s
  | .credit => Sys2Proof.Machine.execCredit s
  | .restart => Sys2Proof.Machine.execRestart s
  | .fin => Sys2Proof.Machine.execFin s
  | .finq => Sys2Proof.Machine.execFinq s
  | .collStall die dseq => Sys2Proof.Machine.execCollStall die dseq s
  | .partnerLossTimeout => Sys2Proof.Machine.execPartnerLossTimeout s
  | .memberSilenceTimeout rank => Sys2Proof.Machine.execMemberSilenceTimeout rank s
  | .beatTimer => Sys2Proof.Machine.execBeatTimer s
  | .beat => Sys2Proof.Machine.execBeat s
  | .join => Sys2Proof.Machine.execJoin s
  | .joinAck => Sys2Proof.Machine.execJoinAck s
  | .ranks => Sys2Proof.Machine.execRanks s
  | .lost => Sys2Proof.Machine.execLost s
  | .stateQ => Sys2Proof.Machine.execStateQ s
  | .state => Sys2Proof.Machine.execState s
  | .plannedHandover => Sys2Proof.Machine.execPlannedHandover s
  | .maxWaitExpiry => Sys2Proof.Machine.execMaxWaitExpiry s
  | .batchLaunch => Sys2Proof.Machine.execBatchLaunch s
  | .batchComplete => Sys2Proof.Machine.execBatchComplete s
  | .batchFault => Sys2Proof.Machine.execBatchFault s
  | .explainPassStart slot => Sys2Proof.Machine.execExplainPassStart slot s
  | .pathPoint => Sys2Proof.Machine.execPathPoint s
  | .inputOkChange millivolts => Sys2Proof.Machine.execInputOkChange millivolts s
  | .pllLockFailure => Sys2Proof.Machine.execPllLockFailure s
  | .tarnRefreshDoubling stack celsius => Sys2Proof.Machine.execTarnRefreshDoubling stack celsius s
  | .hostFrameDiscard frame => Sys2Proof.Machine.execHostFrameDiscard frame s
  | .peerFrameDiscard port hdr ver ftype kind => Sys2Proof.Machine.execPeerFrameDiscard port hdr ver ftype kind s

end Sys2Proof.Machine
end

