-- ==== Sys2Proof/Safety.lean ====
section
/-! DEFINITION. What counts as a safe state and a safe step of the block, and the terms that the statements use: the answer of a
command, and what raising an event may change. -/
namespace Sys2Proof.Machine

/-- Memory, the register words, the Tarn bases and the command queues are in canonical form: equal contents are equal data. -/
def State.canonical (s : State) : Bool :=
  Memory.wf s.mem && Bank.wf regReset s.regs && Bank.wf stackDefault s.tarns && Bank.wf queueDefault s.queues

/-- What is fixed at manufacture (R445) is the same in both states. -/
def samePart (s t : State) : Prop := t.part = s.part

/-- The commands that wait are the same in both states: a command's effect is on everything but the queue. -/
def sameQueue (s t : State) : Prop := t.pending = s.pending

/-- A step is safe: it ends in a next state. -/
def stepSafe (s : State) : Prop := ∃ t, step s = .next t

/-- A command answers a next state, and this is what that state holds. -/
def answers (c : Instr) (s : State) (p : State → Prop) : Prop := ∃ t, exec c s = .next t ∧ p t

/-- A register write that no check of R378 refuses: the requester runs, and the access status of the write is OK. -/
def State.accepts (s : State) (who : Requester) (a : Nat) (v : Word) : Prop :=
  s.reaches who = true ∧ (s.writeReg who a v).2 = .ok

/-- The set J of a layer after a decision: the copies it held and the copies in trouble (R181). -/
def joins (x : LayerState) (ts : List Trouble) (y : LayerState) : Prop :=
  ∀ e : Nat × Bool, e ∈ y.jit ↔ e ∈ x.jit ∨ ∃ t ∈ ts, (t.tensor, t.col) = e

/-- An address outside every window of every stack and outside every POND and SCRATCH region. -/
def State.apart (s : State) (k : Nat) : Prop :=
  (∀ i, i < 8 → ∀ j, j < 4 → k < (s.window i j).1 ∨ (s.window i j).2 ≤ k) ∧
  ∀ r ∈ s.regions, r.cls = .pond ∨ r.cls = .scratch → k < r.base ∨ r.base + r.size ≤ k

/-! ## Commands of the queues (R369 to R373) -/

/-- The command at the front of queue `i` carries opcode `op`; its packet is `p`, those behind it are `rest`, its payload is `l`, and
CPSTATE FAULTED does not refuse it. -/
def State.fronts (s : State) (i op : Nat) (p : Packet) (rest : List Packet) (l : List Byte) : Prop :=
  s.front i op = some (p, rest) ∧ content p = some l ∧ (i ≠ 16 → s.cp = .faulted → runsFaulted op = true)

/-- The queue without the command at its front. -/
def State.take (s : State) (i : Nat) (rest : List Packet) : State := s.setQueue i { s.queue i with accepted := rest }

/-- The command completes with this status, DETAIL and payload, sent from the addresses `via`, and its queue moves on. -/
def State.closes (t : State) (i : Nat) (p : Packet) (code detail : Nat) (payload : List Byte)
    (via : Mac × Ip := t.replyVia p.src) : State :=
  (t.reply i p code detail payload via).advance i

/-- The command of class Q is issued: its unit holds it, it completes later, and its queue moves on (R373). -/
def State.issues (t : State) (i : Nat) (p : Packet) : State :=
  (t.setQueue i { t.queue i with issued := (t.queue i).issued ++ [p] }).advance i

/-- The command of class S has started and completes later; nothing starts behind it (R373). -/
def State.waits (t : State) (i : Nat) (p : Packet) : State := t.setQueue i { t.queue i with busy := some p }

/-- The host port takes this frame as a command packet `p` whose header is sound and whose sender may be answered. -/
def State.hears (s : State) (fr : EthFrame) (p : Packet) : Prop :=
  ∃ src dst sp dp a b c l, fr.body = .udp src dst sp dp a b c l ∧ s.hostPortUp = true ∧ s.hostAccepts fr = true ∧
    headerFault l = none ∧ s.egressOk fr.srcMac (some (src, some sp)) = true ∧ frameFault l (s.cp == .boot) = none ∧
    p = parsePacket l ⟨fr.srcMac, src, sp, dst, fr.vid⟩ ∧ p.queue < 16

/-! ## Messages of the domain (R407) -/

/-- The DECISION messages of a kind: 0 CLEAR, 1 REPLAY, 2 WIDEN, 3 GLOBAL, 4 EXHAUSTED. -/
def isDecision (kind : Nat) (x : RxFrame) : Option DomFrame :=
  match x.data with
  | .dom f => if f.mtype = 7 ∧ f.down ∧ fld f 3 = kind then some f else none
  | _ => none

/-- The first downward message of a type waits: `t` is the state without it, once a module that is not the wellhead has passed it on to
its children. -/
def State.receives (s : State) (mtype : Nat) (f : DomFrame) (t : State) : Prop :=
  ∃ u, s.takeDown mtype = some (f, u) ∧ t = if u.isWellhead then u else u.passDown f

/-- The first DECISION of a kind waits, on any module, and is for the attempt `a`; no ABORT comes before it. `t` is the state without it,
once it is passed on. -/
def State.decides (s : State) (kind : Nat) (p : Program) (ra : Bool) (a : Attempt) (f : DomFrame) (t : State) : Prop :=
  (∃ x u, s.takeFrame (isDecision kind) = some (x, f, u) ∧ t = if u.isWellhead then u else u.passDown f) ∧ s.hasDown 0x11 = false ∧
    t.prog = some p ∧ t.attemptOf f.step = some (ra, a) ∧ fld f 0 = a.base

/-- A combined message of a type is complete at the wellhead and in turn: `g` is its sum, `t` the state without its parts. -/
def State.sumsIf (s : State) (mtype : Nat) (inTurn : DomFrame → Bool) (g : DomFrame) (t : State) : Prop :=
  ∃ f l, s.takeCombined mtype inTurn = some (f, l, t) ∧ t.isWellhead = true ∧ g = { f with payload := sumFields f l }

/-- A combined message of a type is complete on a module that is not the wellhead: `g` is its sum, `t` the state without its parts. -/
def State.sumsBelow (s : State) (mtype : Nat) (g : DomFrame) (t : State) : Prop :=
  ∃ f l, s.takeCombined mtype (fun _ => true) = some (f, l, t) ∧ t.isWellhead = false ∧ g = { f with payload := sumFields f l }

/-- The sum goes to the parent in the control tree. -/
def State.toParent (t : State) (g : DomFrame) : State := t.sendRank (t.parentOf t.dom.rank) 0 (.dom g)

/-- The same for a message that needs no turn. -/
def State.sums (s : State) (mtype : Nat) (g : DomFrame) (t : State) : Prop := s.sumsIf mtype (fun _ => true) g t

/-! ## Events (R190 to R192, R474, R480, R499) -/

/-- The registers that raising an event may change: a W1C register or a set count (R474, R475), the log ring's HEAD and LOST (R192),
and TRN_UE_CNT and TRN_ERR where the log writer meets an uncorrectable line (R499). -/
def isEventReg (a : Nat) : Bool :=
  let o := a % 0x1000
  o == 4 || o == 8 || o == 0xC || (o == 0x10 && decide (pageBase .fct ≤ a)) || a == regAddr .policy 0 0x4C ||
    a == regAddr .policy 0 0x54 || ((o == 0x94 || o == 0x30 || o == 0x34 || o == 0x38) && decide (pageBase .trn ≤ a ∧ a < pageBase .trn + 8 * 0x1000))

/-- The lines that the event ring touches. -/
def State.inEventRing (s : State) (a : Nat) : Bool :=
  decide (s.ringBase .policy 0x40 / 64 * 64 ≤ a ∧ a < (s.ringBase .policy 0x40 + 48 * s.logSize + 63) / 64 * 64)

/-- No line of Tarn is on a poison list (R269). -/
def cleanTarn (s : State) : Prop := ∀ i, (s.stack i).poison = []

/-- From `s` to `t` events were raised and nothing else happened: every part of the state is the same but the event registers, the log,
the bytes of the ring's lines, and, of the bases that hold them, the poison lists and whether TRN_ERR holds an uncorrectable error. -/
def eventOnly (s t : State) : Prop :=
  t = { s with regs := t.regs, mem := t.mem, undef := t.undef, tarns := t.tarns, log := t.log } ∧
  (∀ a, isEventReg a = false → t.regAt a = s.regAt a) ∧
  (s.canonical = true →
    t.canonical = true ∧ (∀ a, s.inEventRing a = false → t.byte a = s.byte a) ∧
      ∀ i, { t.stack i with poison := (s.stack i).poison, ueHeld := (s.stack i).ueHeld } = s.stack i)

/-- The event's flag is set in the block's W1C register of an instance. -/
def flagSet (t : State) (b : Block) (inst n : Nat) : Prop := bit (t.reg b inst (evReg b)) n = true

end Sys2Proof.Machine
end

