-- ==== Sys2Proof/Certificates/Slice0/Obligations.lean ====
section
/-! DEFINITION. The statements for the provers. `answers c s p` says that command `c` ends in a next state of which `p` holds; `eventOnly s t`
that `t` differs from `s` in what raised events change and in nothing else. -/
open Sys2Proof Sys2Proof.Machine

/-- The block takes the command at the front of its queue and carries it out with the rest of the queue; on an empty queue it idles (the
model's choice, log 2). -/
def Obligations.StepRunsTheFrontCommand : Prop :=
  (∀ (s : State) (c : Instr), step { s with pending := c :: s.pending } = exec c s) ∧
  (∀ (s : State) (c : Instr) (rest : List Instr), s.pending = c :: rest → step s = exec c { s with pending := rest }) ∧
  (∀ s : State, s.pending = [] → step s = .next s)

/-- Reset: standby and the rails are off, no key is derived, CPSTATE is BOOT, nothing waits anywhere, every register word holds the reset
value of its field table, and all tables are in canonical form. -/
def Obligations.ResetState : Prop :=
  State.reset.canonical = true ∧ State.reset.pending = [] ∧ State.reset.umc.standby = false ∧ State.reset.umc.phase = .off ∧
  State.reset.sec.keys = .none ∧ State.reset.cp = .boot ∧ State.reset.prog = none ∧ State.reset.serv.model = none ∧
  State.reset.step.att = none ∧ (∀ q, State.reset.queue q = {}) ∧ (∀ i, (State.reset.stack i).trained = false) ∧
  ∀ b i o, State.reset.reg b i o = regReset (regAddr b i o)

/-- STANDBY_POWER_UP and STANDBY_LOST (R449, R488). Standby power up samples the straps and records LAST_RESET 0; the rails start where
AUTO_ON was held and the input is in range, and stay off where it was not. The supercapacitor holds the clock as R490 has it, and where
that leaves it open as the row says (the model's choice, log 97). Standby lost removes the rails; the calendar and AUTO_ON survive it, and
the status outputs are low, TRIP_N released (R485); a released pin reads high and MG_PHY_RST_N follows standby power (the model's choice,
log 74). In both the hub's registers, the queues and the keys are gone. The rows that remove the main rails (R438, R449, R450, R487):
MAIN_INPUT_FAULT records LAST_RESET 5, THERM_TRIP 3 (4 with TAMPER set), a rail or PLL failure during the sequence records none, and
MAIN_OFF makes the next MAIN_ON a full reset. In each the hub and the keys are gone; Urhild's alarms, its calendar and what is fixed at
manufacture stay. A thermal trip holds TRIP_N low (R485; how the outputs read otherwise is the model's choice, log 74). That MAIN_OFF
makes the next power-up a full reset is the model's reading (log 14). -/
def Obligations.PowerComesAndGoes : Prop :=
  ((∀ (s : State) (siteB laneSel held : Bool) (us : Nat), s.umc.standby = false → (s.clockHeld held us && s.umc.autoOn) = false →
     answers (.standbyPowerUp siteB laneSel held us) s fun t =>
       t.umc.standby = true ∧ t.umc.siteB = siteB ∧ t.umc.laneSel = laneSel ∧ t.umc.lastReset = 0 ∧ t.umc.resetDue = true ∧
       t.umc.phase = .off ∧ t.umc.autoDue = false ∧ t.umc.calUs = (if s.clockHeld held us then s.umc.calUs + us else 0) ∧ t.umc.inputMv = s.umc.inputMv ∧
       t.cp = .boot ∧ t.sec.keys = .none ∧ t.prog = none ∧ t.queues = [] ∧ t.mem = [] ∧
       t.part = s.part ∧ t.pending = s.pending ∧ t.out = s.out ∧ t.us = s.us) ∧
   (∀ (s : State) (siteB laneSel : Bool) (us : Nat), s.umc.standby = false → s.umc.autoOn = true → s.umc.precharged = true →
     48000 ≤ s.umc.inputMv → s.umc.inputMv ≤ 54000 →
     answers (.standbyPowerUp siteB laneSel true us) s fun t =>
       t.umc.standby = true ∧ t.umc.siteB = siteB ∧ t.umc.laneSel = laneSel ∧ t.umc.lastReset = 0 ∧ t.umc.phase = .rails ∧ t.umc.autoDue = false ∧
       t.umc.calUs = s.umc.calUs + us ∧ t.cp = .boot ∧ t.sec.keys = .none ∧ t.part = s.part ∧ t.pending = s.pending) ∧
   (∀ s : State, s.umc.standby = true →
     answers .standbyLost s fun t =>
       t.umc.standby = false ∧ t.umc.phase = .off ∧ t.umc.calUs = s.umc.calUs ∧ t.umc.calValid = s.umc.calValid ∧
       t.umc.autoOn = s.umc.autoOn ∧ t.umc.inputMv = s.umc.inputMv ∧ t.umc.alarms = [] ∧ t.cp = .boot ∧ t.sec.keys = .none ∧
       t.statusPins = ⟨false, false, true, false, false⟩ ∧
       t.prog = none ∧ t.queues = [] ∧ t.regs = [] ∧ t.mem = [] ∧
       t.part = s.part ∧ t.pending = s.pending ∧ t.out = s.out ∧ t.us = s.us)) ∧
  (let gone (s t : State) : Prop :=
     t.umc.phase = .off ∧ t.cp = .boot ∧ t.sec.keys = .none ∧ t.prog = none ∧ t.mem = [] ∧ t.step.att = none ∧
     (∀ q, q < 16 → t.queue q = {}) ∧ t.umc.alarms = s.umc.alarms ∧ t.umc.calUs = s.umc.calUs ∧ t.umc.tamper = s.umc.tamper ∧
     t.umc.standby = s.umc.standby ∧ t.part = s.part ∧ t.pending = s.pending ∧ t.out = s.out ∧ t.us = s.us
   (∀ (s : State) (mv : Nat), s.mainOn = true → (mv < 44000 ∨ 57000 < mv) →
     answers (.mainInputFault mv) s fun t => gone s t ∧ t.umc.lastReset = 5 ∧ t.umc.inputMv = mv) ∧
   (∀ (s : State) (n : Nat), s.umc.phase = .rails → s.umc.warm = false →
     answers (.railPowerGoodTimeout n) s fun t => gone s t ∧ t.umc.lastReset = s.umc.lastReset) ∧
   (∀ s : State, s.mainOn = true → (∀ i, i < 8 → (s.stack i).trained = false) →
     answers .pllLockFailure s fun t => gone s t ∧ t.umc.lastReset = s.umc.lastReset) ∧
   (∀ s : State, s.umc.standby = true → s.mainOn = true →
     answers (.mainOff false) s fun t => gone s t ∧ t.umc.offByCommand = true) ∧
   (∀ (s : State) (x : TempSensor) (c : Int), s.mainOn = true → sensorOk x = true → (if isTarn x then 105 else 115) ≤ c →
     answers (.thermTrip x c) s fun t =>
       gone s t ∧ t.umc.trip = true ∧ t.umc.lastReset = (if s.umc.tamper then 4 else 3) ∧
       t.umc.tripSensor = some (sensorNo x, c.toNat) ∧ t.statusPins = ⟨s.umc.standby, false, false, false, s.umc.standby⟩))

/-- MAIN_INPUT_APPLIED and INPUT_OK_CHANGE (R487): the monitor holds the new voltage and precharge is complete, so that INPUT_OK reads 1
where standby power is there and the voltage lies from 48 V to 54 V, and 0 elsewhere. Nothing else changes, except where AUTO_ON is set
and still to be carried out since the standby power-up, the main rails are off and TAMPER is clear: there a voltage in range starts the
regulators (R449). A voltage above 60 V has no other effect (log 49), and a power-up that follows a UMC_POWER 0 counts as a full reset
(log 14): the model's choices. -/
def Obligations.MainInputIsWatched : Prop :=
  ((∀ (s : State) (mv : Nat) (c : Instr), c = .mainInputApplied mv ∨ c = .inputOkChange mv →
     answers c s fun t => t.umc.inputMv = mv ∧ t.umc.precharged = true ∧
       t.inputOk = (s.umc.standby && decide (48000 ≤ mv ∧ mv ≤ 54000)) ∧ t.umc.standby = s.umc.standby ∧ t.pending = s.pending) ∧
   (∀ (s : State) (mv : Nat), ¬ (s.umc.autoDue = true ∧ s.umc.autoOn = true ∧ s.mainOn = false ∧ s.umc.standby = true ∧ s.umc.tamper = false ∧
       48000 ≤ mv ∧ mv ≤ 54000) →
     exec (.mainInputApplied mv) s = .next { s with umc := { s.umc with inputMv := mv, precharged := true } } ∧
     exec (.inputOkChange mv) s = .next { s with umc := { s.umc with inputMv := mv, precharged := true } }) ∧
   (∀ (s : State) (mv : Nat), 48000 ≤ mv → mv ≤ 54000 → s.umc.autoDue = true → s.umc.autoOn = true → s.umc.standby = true → s.umc.tamper = false →
     s.mainOn = false →
     (answers (.mainInputApplied mv) s fun t => t.umc.phase = .rails ∧ t.umc.inputMv = mv ∧ t.umc.precharged = true ∧
       t.umc.trip = false ∧ t.umc.tamper = false ∧ t.part = s.part ∧ t.pending = s.pending ∧ t.queues = s.queues ∧
       t.prog = s.prog ∧
       t.sec = (if s.umc.offByCommand then { s.sec with level := 0 } else s.sec)) ∧
     (answers (.inputOkChange mv) s fun t => t.umc.phase = .rails ∧ t.umc.inputMv = mv ∧ t.umc.precharged = true ∧
       t.umc.trip = false ∧ t.umc.tamper = false ∧ t.part = s.part ∧ t.pending = s.pending ∧ t.queues = s.queues ∧
       t.prog = s.prog ∧
       t.sec = (if s.umc.offByCommand then { s.sec with level := 0 } else s.sec))))

/-- The power-up sequence (R450): MAIN_ON checks the input and starts the regulators, HUB_RESET_RELEASE brings CPSTATE to BOOT with the
derived MAC and keys (R454; the key store keeps its keys over a warm reset, and P-384 is as log 95 has it), DIE_RESET_RELEASE releases the
dies, TARN_TRAINING_DONE makes every byte of the base read zero. LAST_RESET 1 after a UMC_POWER 0, and the moments at which the port clock
is loaded and MODULE_RESET is raised, are the model's readings (logs 3 and 14); whether the PUF's key is recovered is an operand (log 8).
WARM_RESET and FULL_RESET (R449): both start the module afresh with Tarn contents undefined; a warm reset keeps the rails and the keys,
and the energy counter, of which R439 says that it is never reset with main power present while R444 lets nothing else survive (the
model's choice, log 92), and records 2; a full reset removes the rails, powers up again where it may, and records 1, with main power off
too (the model's choice, log 14). -/
def Obligations.PowerUpAndResets : Prop :=
  ((∀ s : State, s.umc.standby = true → s.umc.tamper = false → s.umc.precharged = true → 48000 ≤ s.umc.inputMv →
     s.umc.inputMv ≤ 54000 → s.mainOn = false →
     answers (.mainOn false) s fun t => t.umc.phase = .rails ∧ t.umc.trip = false ∧ t.umc.zeroised = false ∧
       t.umc.lastReset = (if s.umc.offByCommand then 1 else s.umc.lastReset) ∧ t.part = s.part ∧ t.pending = s.pending ∧
       t.sec = (if s.umc.offByCommand then { s.sec with level := 0 } else s.sec) ∧ t.queues = s.queues ∧ t.out = s.out) ∧
   (∀ s : State, s.umc.phase = .rails → s.umc.warm = false →
     answers (.hubResetRelease true) s fun t => t.umc.phase = .hub ∧ t.cp = .boot ∧
       t.sec.keys = (if s.umc.zeroised then .zeroised else .ready) ∧
       t.sec.pubKey = ecPublic (privateKey (Config.pufSeed s.part.pufHelper)) ∧ t.host.mac = macOfDigest t.keyHash ∧ t.host.lanes = s.umc.laneSel ∧
       t.host.clockNs = 1000000000 * (s.calSecs : Int) ∧ t.umc.resetDue = false ∧ t.part = s.part ∧ t.pending = s.pending ∧
       t.queues = s.queues ∧ t.prog = s.prog) ∧
   (∀ s : State, s.umc.phase = .rails → s.umc.warm = false →
     answers (.hubResetRelease false) s fun t => t.umc.phase = .hub ∧ t.sec.keys = .pufFailed ∧ t.umc.zeroised = true ∧
       t.host.mac = BitVec.ofNat 48 (0x0A5A * 2 ^ 32 + s.part.serial.toNat) ∧ t.part = s.part ∧ t.pending = s.pending) ∧
   (∀ s : State, s.umc.phase = .rails → s.umc.warm = true → s.sec.keys ≠ .none → ∀ puf : Bool,
     answers (.hubResetRelease puf) s fun t => t.umc.phase = .hub ∧ t.sec.keys = s.sec.keys ∧ t.part = s.part ∧
       t.pending = s.pending) ∧
   (∀ s : State, s.umc.phase = .hub →
     exec .dieResetRelease s = .next { s with umc := { s.umc with phase := .dies } }) ∧
   (∀ (s : State) (i : Nat), s.umc.phase = .dies → i < 8 → (s.stack i).trained = false → s.canonical = true →
     answers (.tarnTrainingDone i) s fun t =>
       (t.stack i).trained = true ∧ (t.stack i).poison = [] ∧
       (∀ a, i * 2 ^ 37 ≤ a → a < (i + 1) * 2 ^ 37 → t.byte a = 0) ∧
       (∀ a, a < i * 2 ^ 37 ∨ (i + 1) * 2 ^ 37 ≤ a → t.byte a = s.byte a) ∧
       t = { s with mem := t.mem, undef := t.undef, tarns := t.tarns } ∧ ∀ j, j ≠ i → t.stack j = s.stack j)) ∧
  ((∀ s : State, s.umc.standby = true → s.mainOn = true →
     answers (.warmReset false) s fun t => t.umc.phase = .rails ∧ t.umc.warm = true ∧ t.umc.lastReset = 2 ∧ t.umc.resetDue = true ∧
       t.sec.keys = s.sec.keys ∧ t.umc.zeroised = s.umc.zeroised ∧ t.cp = .boot ∧ t.prog = none ∧
       (s.canonical = true → t.reg .pwr 0 0x60 = s.reg .pwr 0 0x60 ∧ t.reg .pwr 0 0x64 = s.reg .pwr 0 0x64) ∧ t.pwr.energyUj = s.pwr.energyUj ∧
       (∀ i, (t.stack i).trained = false) ∧ (∀ q, q < 16 → t.queue q = {}) ∧ t.part = s.part ∧ t.pending = s.pending) ∧
   (∀ s : State, s.umc.standby = true → s.umc.tamper = false → s.umc.precharged = true → 48000 ≤ s.umc.inputMv →
     s.umc.inputMv ≤ 54000 →
     answers (.fullReset false) s fun t => t.umc.phase = .rails ∧ t.umc.lastReset = 1 ∧ t.umc.zeroised = false ∧ t.sec.level = 0 ∧
       t.umc.warm = false ∧ (s.mainOn = true → t.sec.keys = .none ∧ t.cp = .boot ∧ t.prog = none ∧
         ∀ i, (t.stack i).trained = false) ∧
       t.part = s.part ∧ t.pending = s.pending))

/-- The tamper sensors (R460, R461; LAST_RESET codes: R449). Each writes its alarm record, where a repeat within one second of the
calendar counts in COUNT and a level 3 alarm records LAST_RESET 4 with the rails off too (the model's choices, log 13), and levels 1 and 2
leave SEC_ALARM set while the hub is on; level 1 does no more; level 2 also zeroises the keys and leaves KEY_ZEROISED set; level 3 also
sets TAMPER and removes the rails, the hub with them, with LAST_RESET 4. REFCLK_LOSS marks the module faulted as well (R419). Whichever
sensor acts, an alarm log of at most 128 records keeps at most 128 (R462), and with them every sensor's level 3 record. -/
def Obligations.Alarms : Prop :=
  (let rec' (s : State) (code level : Nat) : List Alarm := logAlarm s.umc.alarms ⟨s.calSecs, s.calFrac, code, level, s.cpByte, 0⟩
   let erased (k : Keys) : Keys := if k = .ready then .zeroised else k
   let level1 (s t : State) (code : Nat) : Prop :=
     t.umc.alarms = rec' s code 1 ∧ t.umc.alevel = max s.umc.alevel 1 ∧ t.sec.keys = s.sec.keys ∧ t.umc.phase = s.umc.phase ∧
     t.umc.tamper = s.umc.tamper ∧ t.part = s.part ∧ t.pending = s.pending ∧ t.prog = s.prog ∧ t.queues = s.queues ∧ t.cp = s.cp ∧
     (s.mainOn = true → s.canonical = true → flagSet t .sec 0 0)
   let level2 (s t : State) (code : Nat) : Prop :=
     t.umc.alarms = rec' s code 2 ∧ t.umc.alevel = max s.umc.alevel 2 ∧ t.umc.zeroised = true ∧ t.sec.keys = erased s.sec.keys ∧
     t.umc.phase = s.umc.phase ∧ t.umc.tamper = s.umc.tamper ∧ t.part = s.part ∧ t.pending = s.pending ∧ t.prog = s.prog ∧
     t.queues = s.queues ∧ (s.mainOn = true → s.canonical = true → flagSet t .sec 0 0 ∧ flagSet t .sec 0 1)
   let level3 (s t : State) (code : Nat) : Prop :=
     t.umc.alarms = rec' s code 3 ∧ t.umc.zeroised = true ∧ t.umc.tamper = true ∧ t.umc.phase = .off ∧ t.umc.lastReset = 4 ∧
     t.sec.keys = .none ∧ t.prog = none ∧ t.part = s.part ∧ t.pending = s.pending
   (∀ s : State, s.umc.standby = true →
     (answers .mesh s fun t => level3 s t 1) ∧ (answers .cover s fun t => level3 s t 2) ∧
     (answers .vglitchStby s fun t => level2 s t 4 ∧ t.cp = s.cp) ∧ (answers .debugPort s fun t => level1 s t 8)) ∧
   (∀ s : State, s.mainOn = true →
     (answers .vglitchCore s fun t => level2 s t 3 ∧ t.cp = s.cp) ∧ (answers .refclkDrift s fun t => level1 s t 5) ∧
     (answers .refclkLoss s fun t => level2 s t 6 ∧ t.cp = .faulted)) ∧
   (∀ (s : State) (i : Nat) (c : Int), s.mainOn = true → i < 2 → c < -20 →
     answers (.tempLow i c) s fun t => level2 s t 7 ∧ t.cp = s.cp)) ∧
  (∀ (c : Instr) (s t : State),
     (c = .mesh ∨ c = .cover ∨ c = .vglitchCore ∨ c = .vglitchStby ∨ c = .refclkDrift ∨ c = .refclkLoss ∨ c = .debugPort ∨
       ∃ i k, c = .tempLow i k) →
     s.umc.alarms.length ≤ 128 → exec c s = .next t →
     t.umc.alarms.length ≤ 128 ∧ ∀ a ∈ s.umc.alarms, a.level = 3 → ∃ b ∈ t.umc.alarms, b.level = 3 ∧ b.code = a.code ∧ b.secs = a.secs)

/-- POWER_SAMPLE (R422, R439; the port clock and the calendar advance with the sample, logs 3 and 15): a sample enters the averages, a
microsecond passes on the calendar and on the port clock, and the energy counter takes the whole millijoules. The fast ceiling of 3,100 W
over 20 µs lowers D_FAST to 2 (R426). STEP_EVALUATION (R424, R420, R437): a step faster than CAP_STEP starts a switch to it; above LIM
over 100 µs, or throttled, the next slower step; ten quiet evaluations in a row the next faster one; otherwise the count restarts.
FREQ_SWITCH (R421, R428): the dies move one by one, and the step in force changes when the last has moved; a CAP_STEP slower than it then
has its own switch (R420; that it waits for the switch in progress is log 94). The duties (R425, R426). -/
def Obligations.PowerController : Prop :=
  ((∀ (s : State) (w : Nat), s.mainOn = true →
     answers (.powerSample w) s fun t =>
       t.us = s.us + 1 ∧ t.umc.calUs = s.umc.calUs + 1 ∧ t.host.clockNs = s.host.clockNs + 1000 ∧
       t.pwr.samples = (w :: s.pwr.samples).take 1000 ∧ t.pwr.energyUj = (s.pwr.energyUj + w) % 1000 ∧
       t.pwr.dSlow = s.pwr.dSlow ∧ t.pwr.step = s.pwr.step ∧ t.pending = s.pending ∧ t.part = s.part ∧ t.out = s.out ∧
       t.prog = s.prog ∧ t.units = s.units ∧ t.fab = s.fab ∧ t.queues = s.queues ∧ t.sec = s.sec ∧ t.cp = s.cp) ∧
   (∀ (s : State) (w : Nat), s.mainOn = true → 3100 * 20 < ((w :: s.pwr.samples).take 20).foldl (· + ·) 0 →
     answers (.powerSample w) s fun t => t.pwr.dFast = min s.pwr.dFast 2) ∧
   (∀ (s : State) (w : Nat), s.mainOn = true → ((w :: s.pwr.samples).take 20).foldl (· + ·) 0 ≤ 3100 * 20 →
     answers (.powerSample w) s fun t => t.pwr.dFast = s.pwr.dFast ∧ t.pwr.switching = s.pwr.switching)) ∧
  ((∀ s : State, s.mainOn = true → s.pwr.switching = none → s.pwr.step < s.capStep →
     exec .stepEvaluation s =
       .next { s with pwr := { s.pwr with up := 0, switching := some (s.capStep, .capStep, []) } }) ∧
   (∀ s : State, s.mainOn = true → s.pwr.switching = none → s.capStep ≤ s.pwr.step → s.pwr.step < 4 →
     s.lim * 100 < s.powerSum 100 →
     exec .stepEvaluation s =
       .next { s with pwr := { s.pwr with up := 0, switching := some (s.pwr.step + 1, .limit, []) } }) ∧
   (∀ s : State, s.mainOn = true → s.pwr.switching = none → s.capStep ≤ s.pwr.step → s.pwr.step < 4 →
     s.powerSum 100 ≤ s.lim * 100 → s.pwr.throttle = true →
     exec .stepEvaluation s =
       .next { s with pwr := { s.pwr with up := 0, switching := some (s.pwr.step + 1, .thermal, []) } }) ∧
   (∀ s : State, s.mainOn = true → s.pwr.switching = none → s.capStep < s.pwr.step → s.pwr.step ≤ 4 → s.pwr.throttle = false →
     s.powerSum 100 ≤ s.lim * 100 →
     s.powerSum 100 * stepFreq (s.pwr.step - 1) ≤ (s.lim - s.hyst) * 100 * stepFreq s.pwr.step →
     exec .stepEvaluation s =
       if s.pwr.up = 9 then .next { s with pwr := { s.pwr with up := 0, switching := some (s.pwr.step - 1, .up, []) } }
       else .next { s with pwr := { s.pwr with up := s.pwr.up + 1 } }) ∧
   (∀ s : State, s.mainOn = true → s.capStep ≤ s.pwr.step →
     ¬(s.pwr.step < 4 ∧ (s.lim * 100 < s.powerSum 100 ∨ s.pwr.throttle = true)) →
     ¬(s.capStep < s.pwr.step ∧ s.pwr.throttle = false ∧
       s.powerSum 100 * stepFreq (s.pwr.step - 1) ≤ (s.lim - s.hyst) * 100 * stepFreq s.pwr.step) →
     exec .stepEvaluation s = .next { s with pwr := { s.pwr with up := 0 } })) ∧
  ((∀ (s : State) (d q target : Nat) (c : SwitchCause) (done : List Nat), s.pwr.switching = some (target, c, done) → d < 4 →
     d ∉ done → s.pwr.droop = [] → 256 ≤ q → done.length < 3 →
     exec (.freqSwitch d q) s = .next { s with pwr := { s.pwr with switching := some (target, c, d :: done) } }) ∧
   (∀ (s : State) (d q target : Nat) (c : SwitchCause) (done : List Nat), s.pwr.switching = some (target, c, done) → d < 4 →
     d ∉ done → s.pwr.droop = [] → 256 ≤ q → done.length = 3 → s.pwr.fastPending = false →
     let next := if target < s.capStep then some (s.capStep, SwitchCause.capStep, []) else none
     answers (.freqSwitch d q) s fun t => t.pwr.step = target ∧ t.pwr.switching = next ∧
       eventOnly ({ s with pwr := { s.pwr with step := target, switching := next } }.bump .pwr 0 0x68 1) t)) ∧
  ((∀ s : State, s.mainOn = true → s.overLimit = true →
     answers .dSlowNarrow s fun t => t.pwr.dSlow = max 1 (s.pwr.dSlow - 1) ∧
       eventOnly { s with pwr := { s.pwr with dSlow := max 1 (s.pwr.dSlow - 1) } } t) ∧
   (∀ s : State, s.mainOn = true → s.pwr.dSlow < 8 → s.underLimit = true →
     answers .dSlowWiden s fun t => t.pwr.dSlow = s.pwr.dSlow + 1 ∧
       eventOnly { s with pwr := { s.pwr with dSlow := s.pwr.dSlow + 1 } } t) ∧
   (∀ s : State, s.mainOn = true → s.powerSum 20 ≤ 2900 * 20 →
     answers .dFastRecovery s fun t => t.pwr.dFast = min 8 (s.pwr.dFast + 1) ∧
       eventOnly { s with pwr := { s.pwr with dFast := min 8 (s.pwr.dFast + 1) } } t))

/-- Droop responses and margin trim (R427, R433 to R435). A response needs a reading below the die's set point less THRESH. That a trim
choice moves the rail at once, where R433 slews it, is the model's choice (log 21). The smallest slack reported is what PWR_AGE keeps
(R435), and a slack below the limit raises AGE_LOW (R441). Temperature rows (R437, R419): every reading is kept, the throttle is set and
cleared by the readings, a step up that no die has carried out is blocked as it begins (R440), Tarn bases above 85 °C refresh at double
rate, and a clock fault, or a die that stops answering on the crossbar (R20, log 91), marks the module faulted; CLK_FAULT is set for the
former. -/
def Obligations.DroopTrimAgeTemperature : Prop :=
  ((∀ (s : State) (x : DroopSense), s.umc.phase = .dies → x.region < 16 → x.region ∉ s.pwr.droop →
     s.drooped (x.region / 4) x.railMv = true →
     answers (.droopResponse x) s fun t => eventOnly { s with pwr := { s.pwr with droop := x.region :: s.pwr.droop } } t) ∧
   (∀ (s : State) (x : DroopSense), s.setPoint (x.region / 4) ≤ x.railMv + s.field .pwr 0 0x1C 0 8 →
     exec (.droopResponse x) s = .next s) ∧
   (∀ (s : State) (r n : Nat), r ∈ s.pwr.droop → s.field .pwr 0 0x1C 8 8 ≤ n →
     exec (.droopHoldEnd r n) s =
       .next ({ s with pwr := { s.pwr with droop := s.pwr.droop.filter (· != r) } }.bump .pwr 0 0x6C n)) ∧
   (∀ (s : State) (d m tag : Nat), s.umc.phase = .dies → d < 4 → (s.die d).aged = false → (s.die d).forced = false →
     bestTrim (s.covering d (max (s.die d).peak (s.dieActivity d))) = some (m, tag) →
     exec (.trimChoice d) s =
       .next (((s.setDie d { s.die d with cap := min 8 (tag + 1), railMv := 690 + m, rising := false }).recap d).restartPeak d)) ∧
   (∀ (s : State) (d : Nat), s.umc.phase = .dies → d < 4 → (s.die d).railMv < s.untrimmed → (s.die d).forced = false →
     (s.die d).cap < 8 →
     exec (.trimExit d) s = .next (s.setDie d { s.die d with rising := true })) ∧
   (∀ (s : State) (d : Nat), d < 4 → (s.die d).rising = true →
     exec (.railReached d) s = .next ((s.setDie d { s.die d with railMv := s.untrimmed, cap := 8, rising := false }).recap d)) ∧
   (∀ (s : State) (d r n : Nat), s.umc.phase = .dies → d < 4 → r / 4 = d → s.field .pwr 0 0x28 0 8 ≤ n →
     (s.die d).forced = false → s.untrimmed ≤ (s.die d).railMv →
     exec (.ageReport d r n) s =
       .next { s with pwr := { s.pwr with age := Bank.put (fun _ => 0xFF) s.pwr.age d (min (s.ageOf d) (min n 0xFF)) } })) ∧
  (∀ (s : State) (d r n : Nat), s.umc.phase = .dies → d < 4 → r / 4 = d → Bank.wf (fun _ => 0xFF) s.pwr.age = true →
     answers (.ageReport d r n) s fun t => t.ageOf d = min (s.ageOf d) (min n 0xFF) ∧ (∀ e, e ≠ d → t.ageOf e = s.ageOf e) ∧
       (n < s.field .pwr 0 0x28 0 8 → s.canonical = true → flagSet t .pwr 0 6) ∧
       t.pending = s.pending ∧ t.units = s.units ∧ t.prog = s.prog) ∧
  ((∀ (s : State) (x : TempSensor) (c : Int), s.umc.phase = .dies → sensorOk x = true → s.pwr.throttle = false →
     (s.setTemp x c).tooHot = true →
     answers (.thermThrottle x c) s fun t => t.pwr.throttle = true ∧
       eventOnly ({ s.setTemp x c with pwr := { (s.setTemp x c).pwr with throttle := true } } : State).blockUp t) ∧
   (∀ (s : State) (x : TempSensor) (c : Int), s.umc.phase = .dies → sensorOk x = true →
     (s.pwr.throttle = false → (s.setTemp x c).tooHot = false) → (s.pwr.throttle = true → (s.setTemp x c).cool = false) →
     exec (.thermThrottle x c) s = .next (s.setTemp x c)) ∧
   (∀ (s : State) (g : Nat), s.pwr.switching = some (g, .up, []) → s.pwr.fastPending = false →
     s.blockUp = { s with pwr := { s.pwr with switching := none, fastPending := false } }) ∧
   (∀ (s : State) (rs : List (TempSensor × Int)), s.umc.phase = .dies → s.pwr.throttle = true → (∀ r ∈ rs, sensorOk r.1 = true) →
     (rs.foldl (fun u r => u.setTemp r.1 r.2) s).cool = true →
     answers (.throttleClear rs) s fun t => t.pwr.throttle = false ∧
       t.pwr.temps = (rs.foldl (fun u r => u.setTemp r.1 r.2) s).pwr.temps ∧
       t = { s with pwr := { s.pwr with throttle := false, temps := t.pwr.temps } }) ∧
   (∀ (s : State) (i : Nat) (c : Int), s.umc.phase = .dies → i < 8 →
     answers (.tarnRefreshDoubling i c) s fun t => (i ∈ t.pwr.refresh2 ↔ 85 < c) ∧
       (∀ j, j ≠ i → (j ∈ t.pwr.refresh2 ↔ j ∈ s.pwr.refresh2)) ∧ t.pwr.temps = (s.setTemp (.tarn i) c).pwr.temps ∧
       t.pending = s.pending ∧ t.units = s.units ∧ t.prog = s.prog) ∧
   (∀ (s : State) (c : ClkCause) (n : Nat), s.hubUp = true →
     answers (.clkFault c n) s fun t => t.cp = .faulted ∧ (c ≠ .silent → s.canonical = true → flagSet t .pwr 0 7) ∧
       (∀ a, s.step.att = some a → t.step.causes = s.step.causes ++ [⟨0x14, 0xFFFF, .outside, a.step, true⟩]) ∧
       (s.step.att = none → t.step = s.step) ∧ t.units = s.units ∧ t.prog = s.prog ∧ t.pending = s.pending ∧ t.umc = s.umc ∧
       t.queues = s.queues))

/-- The access status of a register write (R12, R35, R378, R447, R471 to R476), for every requester, register and value: a write of an
address that is no multiple of 4 is BAD_FIELD, off every page UNMAPPED, to the hub while it is down BAD_STATE, a host write to a register
of Urhild's OWNED, one to a read-only register OK without effect, one to a locked register LOCKED, one outside a field's range BAD_FIELD.
A refused write writes no register. The order of these reasons where several hold is the model's reading (log 11). -/
def Obligations.RegisterWriteStatus : Prop :=
  (∀ (s : State) (who : Requester) (a : Nat) (v : Word), s.reaches who = true → a % 4 ≠ 0 →
    exec (.plainRegisterWrite who a v) s = .next { s with access := .badField }) ∧
  (∀ (s : State) (who : Requester) (a : Nat) (v : Word), s.reaches who = true → a % 4 = 0 → pageOf a = none →
    exec (.plainRegisterWrite who a v) s = .next { s with access := .unmapped }) ∧
  (∀ (s : State) (who : Requester) (a : Nat) (v : Word) (b : Block) (i o : Nat), s.reaches who = true → a % 4 = 0 →
    pageOf a = some (b, i, o) → b ≠ .umc → s.hubUp = false →
    exec (.plainRegisterWrite who a v) s = .next { s with access := .badState }) ∧
  (∀ (s : State) (a : Nat) (v : Word) (b : Block) (i o : Nat) (r : RegDesc), s.hubUp = true → a % 4 = 0 →
    pageOf a = some (b, i, o) → regDesc b o = some r → absent s.part b i o = false → r.urhild = true →
    answers (.plainRegisterWrite .host a v) s fun t => t.access = .owned ∧
      (b ≠ .trn → t = { s with access := .owned }) ∧ (b = .trn → eventOnly { s with access := .owned } t)) ∧
  (∀ (s : State) (who : Requester) (a : Nat) (v : Word) (b : Block) (i o : Nat) (r : RegDesc), s.hubUp = true →
    s.reaches who = true → a % 4 = 0 → pageOf a = some (b, i, o) → regDesc b o = some r → absent s.part b i o = false →
    r.urhild = false → (r.kind = .ro ∨ r.kind = .rc) → (b = .trn → (s.stack i).trained = true) →
    exec (.plainRegisterWrite who a v) s = .next { s with access := .ok }) ∧
  (∀ (s : State) (who : Requester) (a : Nat) (v : Word) (b : Block) (i o : Nat) (r : RegDesc), s.hubUp = true →
    s.reaches who = true → a % 4 = 0 → pageOf a = some (b, i, o) → regDesc b o = some r → absent s.part b i o = false →
    r.urhild = false → (r.kind = .rw ∨ r.kind = .wo) → (b = .trn → (s.stack i).trained = true) → s.locked b i r = true →
    exec (.plainRegisterWrite who a v) s = .next { s with access := .locked }) ∧
  (∀ (s : State) (who : Requester) (a : Nat) (v : Word) (b : Block) (i o : Nat) (r : RegDesc), s.hubUp = true →
    s.reaches who = true → a % 4 = 0 → pageOf a = some (b, i, o) → regDesc b o = some r → absent s.part b i o = false →
    r.urhild = false → r.kind = .rw → b ≠ .trn → b ≠ .fct → s.locked b i r = false → inRanges v r.ranges = false →
    answers (.plainRegisterWrite who a v) s fun t => t.access = .badField ∧ t.regs = s.regs ∧ t.mem = s.mem ∧ t.umc = s.umc ∧
      t = { s with access := .badField, host := t.host })

/-- An accepted write of a plain register (Cutter, Loupe, Twin) stores its writable bits, changes no other register word and nothing else,
and a read of the address then answers the bits written (R12, R378, R471). W1C_CLEAR (R12, R474): each bit written 1 is cleared with its
set count, each bit written 0 stays, and nothing else changes. -/
def Obligations.RegisterReadsAndWrites : Prop :=
  (∀ (s : State) (who : Requester) (a : Nat) (v : Word) (b : Block) (i o : Nat) (r : RegDesc), a % 4 = 0 →
     pageOf a = some (b, i, o) → (b = .cut ∨ b = .lpe ∨ b = .twn) → regDesc b o = some r → r.kind = .rw →
     absent s.part b i o = false → s.accepts who a v →
     answers (.plainRegisterWrite who a v) s fun t =>
       t.access = .ok ∧ t = { s with regs := t.regs, access := .ok } ∧
       (s.canonical = true → t.reg b i o = v &&& BitVec.ofNat 32 r.mask ∧
         (t.readReg who a).2 = (.ok, v &&& BitVec.ofNat 32 r.mask)) ∧
       ∀ x, x ≠ regAddr b i o → t.regAt x = s.regAt x) ∧
  (∀ (s : State) (who : Requester) (b : Block) (i : Nat) (r : RegDesc) (v : Word), b ≠ .umc → i < instances b →
     regDesc b (evReg b) = some r → r.kind = .w1c → absent s.part b i (evReg b) = false → s.hubUp = true → s.reaches who = true →
     (b = .trn → (s.stack i).trained = true) →
     s.canonical = true →
     answers (.w1cClear who (regAddr b i (evReg b)) v) s fun t =>
       t.access = .ok ∧ t.reg b i (evReg b) = s.reg b i (evReg b) &&& ~~~(v &&& BitVec.ofNat 32 r.mask) ∧
       (∀ n, n < 8 → bit (v &&& BitVec.ofNat 32 r.mask) n = true → t.setCount b i n = 0) ∧
       (∀ n, n < 8 → bit (v &&& BitVec.ofNat 32 r.mask) n = false → t.setCount b i n = s.setCount b i n) ∧
       t = { s with regs := t.regs, access := .ok })

/-- The reads with an effect (R473, R476): PAIR_LO_READ answers the low half and latches the high half for its requester alone;
HUB_LOG_LOST_READ, HUB_POND_HWM_READ and PWR_AGE_READ answer the value before they clear it. That each requester has a latch of its own is
the model's reading (log 67). The host port's registers (R360, R363, R388). A write of HOST_MAC_LO holds the low half; one of HOST_MAC_HI
commits the address, and refuses zero and group addresses as BAD_FIELD and drops the held half; HOST_CTRL takes the link down where LANES
changes; HOST_EGR_CFG commits the egress entry at INDEX and advances INDEX. That a refused address drops the low half held, and that a
change of LANES takes the link down, are the model's choices (log 11). -/
def Obligations.HostRegistersAndReads : Prop :=
  ((∀ (s : State) (who : Requester) (b : Block) (i o : Nat), pairLo b = some o → i < instances b → s.hubUp = true →
     s.reaches who = true →
     exec (.pairLoRead who (regAddr b i o)) s =
       .next { s with latches := Bank.put latchDefault s.latches (latchKey who (regAddr b i o)) (s.regView b i (o + 4))
                      access := .ok, readValue := s.regView b i o }) ∧
   (∀ (s : State) (who : Requester), s.hubUp = true → s.reaches who = true →
     exec (.hubLogLostRead who) s =
       .next { s.setReg .policy 0 0x54 0 with access := .ok, readValue := s.regView .policy 0 0x54 }) ∧
   (∀ (s : State) (who : Requester), s.hubUp = true → s.reaches who = true →
     exec (.hubPondHwmRead who) s =
       .next { s with stash := { s.stash with hwm := s.stash.bytesUsed }
                      access := .ok, readValue := s.regView .step 0 0x38 }) ∧
   (∀ (s : State) (who : Requester), s.hubUp = true → s.reaches who = true →
     exec (.pwrAgeRead who) s =
       .next { s with pwr := { s.pwr with age := [] }, access := .ok, readValue := s.regView .pwr 0 0x44 })) ∧
  ((∀ (s : State) (v : Word), s.hubUp = true →
     exec (.hostMacLoWrite .host v) s = .next { s with host := { s.host with macLo := some v }, access := .ok }) ∧
   (∀ (s : State) (v : Word), s.hubUp = true → s.newMac v ≠ 0 → (s.newMac v).getLsbD 40 = false → v.toNat < 0x10000 →
     exec (.hostMacHiWrite .host v) s =
       .next { s with host := { s.host with mac := s.newMac v, macLo := none, macSet := true }, access := .ok }) ∧
   (∀ (s : State) (v : Word), s.hubUp = true → (s.newMac v = 0 ∨ (s.newMac v).getLsbD 40 = true) →
     exec (.hostMacHiWrite .host v) s = .next { s with host := { s.host with macLo := none }, access := .badField }) ∧
   (∀ (s : State) (v : Word), s.hubUp = true → 1 ≤ bits v 12 12 → bits v 12 12 ≤ 0xFFE → bit v 30 = s.ctrlBit 30 →
     exec (.hostCtrlWrite .host v) s = .next { s.setReg .host 0 0x10 (v &&& 0xFFFFF000) with access := .ok }) ∧
   (∀ (s : State) (v : Word), s.hubUp = true → 1 ≤ bits v 12 12 → bits v 12 12 ≤ 0xFFE → s.host.link = true →
     bit v 30 ≠ s.ctrlBit 30 →
     answers (.hostCtrlWrite .host v) s fun t => t.host.link = false ∧
       eventOnly { s.setReg .host 0 0x10 (v &&& 0xFFFFF000) with host := { s.host with link := false }, access := .ok } t) ∧
   (∀ (s : State) (v : Word), s.hubUp = true → s.umc.standby = true → s.accepts .urhild (regAddr .host 0 0x78) v →
     exec (.hostEgrCfgWrite .urhild v) s =
       .next { s.setReg .host 0 0x60 (BitVec.ofNat 32 ((s.field .host 0 0x60 0 6 + 1) % 64)) with
                 host := { s.host with egress := Bank.put egressDefault s.host.egress (s.field .host 0 0x60 0 6)
                                                   { s.host.egrNew with cfg := v &&& 0xE00000FF } }
                 access := .ok }))

/-- The ring registers (R192, R197, R256, R262, R348, R459): LOG_RING_SET puts the ring in force and empties the boot buffer; a TAIL
within the ring is stored, and records that waited may then be written; an advance of HUB_PRV_TAIL clears the ring's full flag; a TAIL
beyond the ring is BAD_FIELD and changes nothing. HUB_STEP_NUM_WRITE opens the next step at ATTEMPT 0 and is LOCKED while a step is open
(R29); INL_LR_STEP arms its slot, or disarms it with 0xFFFFFFFF, and is LOCKED while the slot is latched (R252, R254); HUB_SRV_FILL and
HUB_SRV_WAIT set the batch rule (R342). -/
def Obligations.RingStepServingRegisters : Prop :=
  ((∀ (s : State) (v : Word), s.hubUp = true → s.prog = none → s.log.set = false → s.log.boot = [] → s.log.held = [] →
     exec (.logRingSet .host v) s =
       .next { s.setReg .policy 0 0x44 (v &&& 0xFFFF) with log := { s.log with set := true }, access := .ok }) ∧
   (∀ (s : State) (v : Word), s.hubUp = true → s.prog = none →
     answers (.logRingSet .host v) s fun t => t.access = .ok ∧ t.log.set = true ∧ t.log.boot = (if s.log.set then s.log.boot else []) ∧
       eventOnly { s.setReg .policy 0 0x44 (v &&& 0xFFFF) with access := .ok } t) ∧
   (∀ (s : State) (v : Word), s.hubUp = true → (s.reg .policy 0 0x4C - v).toNat ≤ s.logSize →
     answers (.hubLogTailWrite .host v) s fun t => t.access = .ok ∧
       eventOnly { s.setReg .policy 0 0x50 v with access := .ok } t) ∧
   (∀ (s : State) (v : Word), s.hubUp = true → (s.reg .inl 0 0x4C - v).toNat ≤ 2 ^ s.field .inl 0 0x48 0 5 → s.dom.ratioHeld = [] →
     exec (.inlRlogTailWrite .host v) s = .next { s.setReg .inl 0 0x50 v with access := .ok }) ∧
   (∀ (s : State) (v : Word), s.hubUp = true → (s.reg .serv 0 0x2C - v).toNat ≤ s.prvSize →
     (v ≠ s.reg .serv 0 0x30 → exec (.hubPrvTailWrite .host v) s =
       .next { s.setReg .serv 0 0x30 v with serv := { s.serv with prvFull := false }, access := .ok }) ∧
     (v = s.reg .serv 0 0x30 → exec (.hubPrvTailWrite .host v) s = .next { s.setReg .serv 0 0x30 v with access := .ok })) ∧
   (∀ (s : State) (v : Word), s.hubUp = true →
     (s.logSize < (s.reg .policy 0 0x4C - v).toNat →
       exec (.hubLogTailWrite .host v) s = .next { s with access := .badField }) ∧
     (2 ^ s.field .inl 0 0x48 0 5 < (s.reg .inl 0 0x4C - v).toNat →
       exec (.inlRlogTailWrite .host v) s = .next { s with access := .badField }) ∧
     (s.prvSize < (s.reg .serv 0 0x2C - v).toNat →
       exec (.hubPrvTailWrite .host v) s = .next { s with access := .badField }))) ∧
  ((∀ (s : State) (v : Word), s.hubUp = true → s.stepNumOpen = true →
     exec (.hubStepNumWrite .host v) s =
       .next { s.setReg .step 0 0x18 v with step := { s.step with nextAttempt := 0, retries := 0 }, access := .ok }) ∧
   (∀ (s : State) (v : Word), s.hubUp = true → (s.stepHere = true ∨ s.stepOpen = true) →
     exec (.hubStepNumWrite .host v) s = .next { s with access := .locked }) ∧
   (∀ (s : State) (k : Nat) (v : Word), s.hubUp = true → k < 2 → s.slotLatched k = false →
     exec (.inlLrStepWrite k .host v) s =
       .next { s.setReg .inl 0 (0x24 + 8 * k) v with
                 inl := { s.inl with armed := if v = 0xFFFFFFFF then s.inl.armed.filter (· != k)
                                              else k :: s.inl.armed.filter (· != k) }
                 access := .ok }) ∧
   (∀ (s : State) (k : Nat) (v : Word), s.hubUp = true → k < 2 → s.slotLatched k = true →
     exec (.inlLrStepWrite k .host v) s = .next { s with access := .locked }) ∧
   (∀ (s : State) (v : Word), s.hubUp = true → 1 ≤ bits v 0 12 → bits v 0 12 ≤ 0x800 →
     exec (.hubSrvFillWrite .host v) s = .next { s.setReg .serv 0 0x10 (v &&& 0xFFF) with access := .ok }) ∧
   (∀ (s : State) (v : Word), s.hubUp = true → v ≠ 0 →
     exec (.hubSrvWaitWrite .host v) s =
       .next { s.setReg .serv 0 0x14 v with
                 serv := { s.serv with due := (s.setReg .serv 0 0x14 v).waitDue }, access := .ok }))

/-- A Facet's registers and its pilot test (R106, R108): before CONFIG_END a new map or delay clears DONE and PASS and spoils a test that
runs; PILOT_START begins a test of the map and delays in force; PILOT_DONE without wrong columns sets DONE and PASS unless the test was
spoiled; EN cannot be set without PASS (BAD_STATE). That a second START leaves DONE and PASS until its test ends is the model's choice
(log 11). -/
def Obligations.FacetRegistersAndPilot : Prop :=
  (∀ (s : State) (f : Nat) (v : Word), s.hubUp = true → f < 640 → s.sec.cfgFormed = false → absent s.part .fct f 0x20 = false →
    ((s.facet f).pilot = none →
      exec (.fctSpareWrite f .host v) s =
        .next { (s.setReg .fct f 0x20 (v &&& 0x7F7F)).setReg .fct f 0x44 (s.reg .fct f 0x44 &&& 0x3FFFFFFF) with access := .ok }) ∧
    (∀ (m : Word) (d : List Word) (z : Bool), (s.facet f).pilot = some (m, d, z) →
      exec (.fctSpareWrite f .host v) s =
        .next { ((s.setReg .fct f 0x20 (v &&& 0x7F7F)).setReg .fct f 0x44 (s.reg .fct f 0x44 &&& 0x3FFFFFFF)).setFacet f
                  { s.facet f with pilot := some (m, d, true) } with access := .ok })) ∧
  (∀ (s : State) (f k : Nat) (v : Word), s.hubUp = true → f < 640 → k < 4 → s.sec.cfgFormed = false →
    absent s.part .fct f (0x24 + 4 * k) = false →
    ((s.facet f).pilot = none →
      exec (.fctRowDlyWrite f k .host v) s =
        .next { (s.setReg .fct f (0x24 + 4 * k) v).setReg .fct f 0x44 (s.reg .fct f 0x44 &&& 0x3FFFFFFF) with access := .ok }) ∧
    (∀ (m : Word) (d : List Word) (z : Bool), (s.facet f).pilot = some (m, d, z) →
      exec (.fctRowDlyWrite f k .host v) s =
        .next { ((s.setReg .fct f (0x24 + 4 * k) v).setReg .fct f 0x44 (s.reg .fct f 0x44 &&& 0x3FFFFFFF)).setFacet f
                  { s.facet f with pilot := some (m, d, true) } with access := .ok })) ∧
  (∀ (s : State) (f : Nat) (v : Word), s.hubUp = true → f < 640 → s.sec.cfgFormed = false → absent s.part .fct f 0x40 = false →
    s.usable f = false → (s.facet f).pilot = none → bit v 0 = true →
    exec (.pilotStart f .host v) s =
      .next { s.setFacet f { s.facet f with pilot := some (s.reg .fct f 0x20, s.delays f, false) } with access := .ok }) ∧
  (∀ (s : State) (f : Nat) (m : Word) (d : List Word) (z : Bool), (s.facet f).pilot = some (m, d, z) →
    mapValid m = true → misaligned m d = [] →
    exec (.pilotDone f 0x7F 0) s =
      .next ((s.setFacet f { s.facet f with pilot := none }).setReg .fct f 0x44 (if z then 0x807F0000 else 0xC07F0000))) ∧
  (∀ (s : State) (f n : Nat) (m : Word) (d : List Word) (z : Bool), (s.facet f).pilot = some (m, d, z) →
    mapValid m = true → misaligned m d = [] → f < 640 → n < 64 → 0 < n →
    answers (.pilotDone f 3 n) s fun t =>
      eventOnly ((s.setFacet f { s.facet f with pilot := none }).setReg .fct f 0x44 (BitVec.ofNat 32 (0x80030000 + n))) t) ∧
  (∀ (s : State) (f : Nat) (v : Word), s.hubUp = true → f < 640 → s.sec.cfgFormed = false → absent s.part .fct f 0 = false →
    ((bit v 0 = true → s.passHolds f = true) →
      exec (.fctEnableWrite f .host v) s = .next { s.setReg .fct f 0 (v &&& 1) with access := .ok }) ∧
    (bit v 0 = true → s.passHolds f = false →
      exec (.fctEnableWrite f .host v) s = .next { s with access := .badState }))

/-- The indexed registers of the Tarns and the routes, the window registers, and the link registers (R273, R285, R330, R333): TRN_RPR_DATA
stores the entry at its index and the index advances; a window register is Urhild's, and a host's write is OWNED; a new link setting takes
the links of its port down; CE_RT_MAC_HI commits the route at its index and the index advances. That the link registers lock with a
program loaded, and that the route registers read what was last written to them, are the model's readings (logs 98 and 11). The power
registers and the calendar (R420, R431, R435, R436, R470): CAP_STEP starts a switch where the step in force is faster; PWR_TRIM_DATA
stores the word at INDEX and advances INDEX; PWR_CAL keeps EN once set and restarts PEAK; UMC_TIME_HI sets the clock. PEAK starts at the
activity that the die has at the write (the model's reading, log 94). -/
def Obligations.TarnLinkPowerRegisters : Prop :=
  ((∀ (s : State) (i : Nat) (v : Word), s.hubUp = true → i < 8 → s.sec.cfgFormed = false → (s.stack i).trained = true →
     absent s.part .trn i 0x24 = false →
     s.canonical = true →
     answers (.trnRprDataWrite i .host v) s fun t => t.access = .ok ∧
       (t.stack i).rpr = Bank.put repairDefault (s.stack i).rpr (s.field .trn i 0x20 0 13) (v &&& 0x8003FFFF) ∧
       (t.reg .trn i 0x20).toNat = (s.field .trn i 0x20 0 13 + 1) % 2 ^ 13) ∧
   (∀ (s : State) (i k : Nat) (size : Bool) (v : Word), s.hubUp = true → s.umc.standby = true → i < 8 → k < 4 →
     s.accepts .urhild (regAddr .trn i (0x40 + 8 * k + 4 * b2n size)) v → absent s.part .trn i (0x40 + 8 * k + 4 * b2n size) = false →
     s.canonical = true →
     answers (.trnHpwWrite i k size .urhild v) s fun t => t.access = .ok ∧
       t.reg .trn i (0x40 + 8 * k + 4 * b2n size) = v &&& 0xFFFF) ∧
   (∀ (s : State) (i k : Nat) (size : Bool) (v : Word), s.hubUp = true → i < 8 → k < 4 →
     absent s.part .trn i (0x40 + 8 * k + 4 * b2n size) = false →
     answers (.trnHpwWrite i k size .host v) s fun t => t.access = .owned ∧ eventOnly { s with access := .owned } t) ∧
   (∀ (s : State) (n : Nat) (v : Word), s.hubUp = true → n < 12 → absent s.part .cePort n 0x14 = false → s.prog = none →
     (∀ l ∈ s.fab.links, l.port = n → l.up = false) → s.canonical = true → (s.port n).ctl = [] →
     exec (.ceLnkReconfig n true false .host v) s = .next { s.setReg .cePort n 0x14 v with access := .ok }) ∧
   (∀ (s : State) (n : Nat) (v : Word), s.hubUp = true → n < 12 → absent s.part .cePort n 0x14 = false → s.prog = none →
     (s.fab.links.map fun l => (l.port, l.mac)).Nodup →
     answers (.ceLnkReconfig n true false .host v) s fun t => t.access = .ok ∧ (∀ l ∈ t.fab.links, l.port = n → l.up = false) ∧
       t.pending = s.pending ∧ t.prog = s.prog) ∧
   (∀ (s : State) (v : Word), s.hubUp = true → s.prog = none →
     let n := s.field .ceEng 0 0x28 0 10
     let l := s.reg .ceEng 0 0x2C
     let ports := (List.range (bits l 16 3)).map fun k => bits l (4 * k) 4
     exec (.ceRtMacHiWrite .host v) s =
       .next { (s.setReg .ceEng 0 0x28 (BitVec.ofNat 32 ((n + 1) % 1024))).setReg .ceEng 0 0x34 (v &&& 0x8000FFFF) with
                 fab := { s.fab with
                   routes := Bank.put routeDefault s.fab.routes n
                           (if bit v 31 then some ⟨BitVec.ofNat 48 (bits v 0 16 * 2 ^ 32 + (s.reg .ceEng 0 0x30).toNat), ports⟩
                            else none) }
                 access := .ok })) ∧
  ((∀ (s : State) (who : Requester) (v : Word), s.hubUp = true → s.reaches who = true → bits v 16 3 ≤ 4 → 0xA ≤ bits v 0 8 →
     s.canonical = true →
     (bits v 16 3 ≤ s.pwr.step →
       exec (.capStepWrite who v) s = .next { s.setReg .pwr 0 0x18 (v &&& 0x700FF) with access := .ok }) ∧
     (s.pwr.step < bits v 16 3 → s.pwr.switching = none →
       exec (.capStepWrite who v) s =
         .next { s.setReg .pwr 0 0x18 (v &&& 0x700FF) with
                   pwr := { s.pwr with switching := some (bits v 16 3, .capStep, []) }, access := .ok })) ∧
   (∀ (s : State) (who : Requester) (v : Word), s.hubUp = true → s.accepts who (regAddr .pwr 0 0x34) v →
     exec (.pwrTrimDataWrite who v) s =
       .next { s.setReg .pwr 0 0x30 (BitVec.ofNat 32 ((s.field .pwr 0 0x30 0 5 + 1) % 32)) with
                 pwr := { s.pwr with
                   trims := Bank.put (fun _ => 0x803C) s.pwr.trims (s.field .pwr 0 0x30 0 5) (v &&& 0x8000F03F) }
                 access := .ok }) ∧
   (∀ (s : State) (who : Requester) (v : Word), s.hubUp = true → s.reaches who = true → 0x14 ≤ bits v 16 6 → bits v 16 6 ≤ 0x3C →
     (∀ d, d < 4 → (s.die d).forced = false) →
     let en := s.calEn || (bit v 31 && s.configOpen)
     let w := (v &&& 0x703F0000) ||| BitVec.ofNat 32 (b2n en * 2 ^ 31)
     exec (.pwrCalWrite who v) s =
       .next { s.setReg .pwr 0 0x38 w with
                 pwr := { s.pwr with
                   calPeak := s.dieActivity (bits v 28 2)
                   dies := if en && bit v 30 then
                                         Bank.put dieDefault s.pwr.dies (bits v 28 2)
                                           { s.die (bits v 28 2) with forced := true, railMv := 690 + bits v 16 6, rising := false }
                                       else s.pwr.dies }
                 access := .ok }) ∧
   (∀ (s : State) (v : Word), s.umc.standby = true →
     exec (.umcTimeHiWrite .urhild v) s =
       .next { s with umc := { s.umc with calUs := 1000000 * (bits v 0 16 * 2 ^ 32 + s.umc.timeLo.toNat), calValid := true }
                      access := .ok }))

/-- UMC_ALARM_READ, UMC_ALARM_CLEAR and UMC_TIME on the management queue (R447): the records held from FIRST on; FLAGS bit 0 empties the
log and bit 1 clears TAMPER while ZEROISED stays; the calendar clock is set. A reserved byte other than zero is BAD_FIELD. The SMBus rows
(R446, R448): a transaction that names another slave address, or whose PEC fails, changes nothing; an address write is held for the block
accesses, which read and write one register with Urhild's rights; SMB_POWER acts as UMC_POWER, and an ACTION above 3 names none; the
status read answers bits 31:24 of UMC_STATUS. -/
def Obligations.ManagementAndSmbus : Prop :=
  ((∀ (s : State) (p : Packet) (rest : List Packet) (l : List Byte), s.fronts 16 0x0602 p rest l → l.length = 4 → leAt 2 2 l = 0 →
     exec .umcAlarmRead s = .next ((s.take 16 rest).closes 16 p stOk 0
       (leBytes 4 (s.umc.alarms.drop (leAt 0 2 l)).length ++ (s.umc.alarms.drop (leAt 0 2 l)).flatMap alarmBytes))) ∧
   (∀ (s : State) (p : Packet) (rest : List Packet) (l : List Byte), s.fronts 16 0x0603 p rest l → l.length = 4 → leAt 1 3 l = 0 →
     exec .umcAlarmClear s = .next (State.closes
       { s.take 16 rest with umc := { s.umc with alarms := if leAt 0 1 l % 2 = 1 then [] else s.umc.alarms
                                                 alevel := if leAt 0 1 l % 2 = 1 then 0 else s.umc.alevel
                                                 tamper := s.umc.tamper && decide (leAt 0 1 l / 2 % 2 = 0) } } 16 p stOk 0 [])) ∧
   (∀ (s : State) (p : Packet) (rest : List Packet) (l : List Byte), s.fronts 16 0x0604 p rest l → l.length = 8 → leAt 6 2 l = 0 →
     exec .umcTime s = .next (State.closes
       { s.take 16 rest with umc := { s.umc with calUs := 1000000 * leAt 0 6 l, calValid := true } } 16 p stOk 0 [])) ∧
   (∀ (s : State) (p : Packet) (rest : List Packet) (l : List Byte),
     (s.fronts 16 0x0602 p rest l → l.length = 4 → leAt 2 2 l ≠ 0 →
       exec .umcAlarmRead s = .next ((s.take 16 rest).closes 16 p stBadField 2 [])) ∧
     (s.fronts 16 0x0603 p rest l → l.length = 4 → leAt 1 3 l ≠ 0 →
       exec .umcAlarmClear s = .next ((s.take 16 rest).closes 16 p stBadField 1 [])) ∧
     (s.fronts 16 0x0604 p rest l → l.length = 8 → leAt 6 2 l ≠ 0 →
       exec .umcTime s = .next ((s.take 16 rest).closes 16 p stBadField 6 [])))) ∧
  (let mine (s : State) (f : SmbFrame) : Prop := f.slave = 0x68 + (if s.umc.siteB then 1 else 0) ∧ f.pecOk = true ∧ s.umc.standby = true
   (∀ (s : State) (f : SmbFrame) (data : List Byte) (x : Byte),
     (f.slave ≠ 0x68 + (if s.umc.siteB then 1 else 0) ∨ f.pecOk = false) →
     exec (.smbAddressWrite f data) s = .next s ∧ exec (.smbBlockRead f) s = .next s ∧
     exec (.smbBlockWrite f data) s = .next s ∧ exec (.smbPower f x) s = .next s ∧
     exec (.smbStatusRead f) s = .next s ∧ exec (.smbAlarmClear f x) s = .next s) ∧
   (∀ (s : State) (f : SmbFrame) (data : List Byte), mine s f → data.length = 6 →
     exec (.smbAddressWrite f data) s = .next { s with umc := { s.umc with smbAddr := leNat data } }) ∧
   (∀ (s : State) (f : SmbFrame), mine s f →
     answers (.smbBlockRead f) s fun t =>
       t.readValue = (s.readReg .urhild s.umc.smbAddr).2.2 ∧ t.access = (s.readReg .urhild s.umc.smbAddr).2.1 ∧
       t.out = s.out ++ [.smbus (leBytes 4 t.readValue.toNat ++ leBytes 1 (accessCode t.access))] ∧
       t.regs = (s.readReg .urhild s.umc.smbAddr).1.regs ∧ t.umc = s.umc ∧ t.mem = s.mem ∧ t.queues = s.queues) ∧
   (∀ (s : State) (f : SmbFrame) (data : List Byte), mine s f → data.length = 4 →
     let v := BitVec.ofNat 32 (leNat data)
     answers (.smbBlockWrite f data) s fun t => t.access = (s.writeReg .urhild s.umc.smbAddr v).2 ∧
       t = { (s.writeReg .urhild s.umc.smbAddr v).1 with access := t.access } ∧
       (∀ (b : Block) (i o : Nat) (r : RegDesc), s.umc.smbAddr % 4 = 0 → pageOf s.umc.smbAddr = some (b, i, o) →
         (b = .cut ∨ b = .lpe ∨ b = .twn) → regDesc b o = some r → r.kind = .rw → absent s.part b i o = false →
         s.accepts .urhild s.umc.smbAddr v → s.canonical = true →
         t.access = .ok ∧ t = { s with regs := t.regs, access := .ok } ∧ t.reg b i o = v &&& BitVec.ofNat 32 r.mask ∧
           ∀ x, x ≠ regAddr b i o → t.regAt x = s.regAt x)) ∧
   (∀ (s : State) (f : SmbFrame), mine s f → s.mainOn = true →
     (answers (.smbPower f 0) s fun t => t.umc.phase = .off ∧ t.umc.offByCommand = true ∧ t.cp = .boot ∧ t.sec.keys = .none ∧
       t.part = s.part ∧ t.pending = s.pending) ∧
     (answers (.smbPower f 2) s fun t => t.umc.phase = .rails ∧ t.umc.warm = true ∧ t.umc.lastReset = 2 ∧
       t.sec.keys = s.sec.keys ∧ t.cp = .boot ∧ t.part = s.part ∧ t.pending = s.pending)) ∧
   (∀ (s : State) (f : SmbFrame), mine s f → s.umc.tamper = false → s.umc.precharged = true → 48000 ≤ s.umc.inputMv →
     s.umc.inputMv ≤ 54000 →
     (s.mainOn = false → answers (.smbPower f 1) s fun t => t.umc.phase = .rails ∧ t.umc.trip = false ∧ t.umc.zeroised = false ∧
       t.umc.lastReset = (if s.umc.offByCommand then 1 else s.umc.lastReset) ∧ t.part = s.part ∧ t.pending = s.pending) ∧
     (answers (.smbPower f 3) s fun t => t.umc.phase = .rails ∧ t.umc.lastReset = 1 ∧ t.umc.warm = false ∧ t.umc.zeroised = false ∧
       t.part = s.part ∧ t.pending = s.pending)) ∧
   (∀ (s : State) (f : SmbFrame) (x : Byte), 3 < x.toNat → exec (.smbPower f x) s = .next s) ∧
   (∀ (s : State) (f : SmbFrame), mine s f →
     exec (.smbStatusRead f) s =
       .next { s with out := s.out ++ [.smbus (leBytes 1 (bits (s.regView .umc 0 0) 24 8))] }) ∧
   (∀ (s : State) (f : SmbFrame) (flags : Byte), mine s f →
     exec (.smbAlarmClear f flags) s =
       .next { s with umc := { s.umc with alarms := if flags.getLsbD 0 then [] else s.umc.alarms
                                          alevel := if flags.getLsbD 0 then 0 else s.umc.alevel
                                          tamper := s.umc.tamper && !flags.getLsbD 1 } }))

/-- MGMT_PACKET (R446): with standby power a frame for the management port is answered at once where hardware answers it, and a command is
accepted in queue 16, in order of SEQ. A frame it does not accept changes nothing. That a frame of more than 1,518 bytes is not accepted
is presumed (log 20). Frames that the host port answers itself, and those it discards (R358, R359, R362, R363, R365, R388): an ARP reply,
an advertisement or an allowed echo reply leaves within the NONREPLY limit, is dropped and counted beyond it, and a frame that fails R359
counts in HOST_RX_DISC and does nothing else; HOST_LINK sets the link and, as it comes up, the lanes in use. -/
def Obligations.ManagementPortAndHostFrames : Prop :=
  ((∀ (s : State) (fr : EthFrame), (s.umc.standby = false ∨ s.mgmtAccepts fr = false) → exec (.mgmtPacket fr) s = .next s) ∧
   (∀ (s : State) (fr : EthFrame), s.umc.standby = true → s.mgmtAccepts fr = true →
     (∀ ip, fr.body = .arpRequest ip →
       exec (.mgmtPacket fr) s = .next { s with out := s.out ++ [.arpReply (s.mgmtHdr fr.srcMac) ip] }) ∧
     (∀ ip opt, fr.body = .neighborSolicitation ip opt false →
       exec (.mgmtPacket fr) s = .next { s with out := s.out ++ [.advert (s.mgmtHdr fr.srcMac) ip] })) ∧
   (∀ (s : State) (fr : EthFrame) (src dst : Ip) (opt : Bool) (data : List Byte), s.umc.standby = true → s.mgmtAccepts fr = true →
     fr.body = .echoRequest src dst opt false data →
     exec (.mgmtPacket fr) s = .next { s with out := s.out ++ [.echoReply (s.mgmtHdr fr.srcMac) dst src data] }) ∧
   (∀ (s : State) (fr : EthFrame) (src dst : Ip) (sp dp : Nat) (a b c : Bool) (l : List Byte), s.umc.standby = true →
     s.mgmtAccepts fr = true → fr.body = .udp src dst sp dp a b c l → headerFault l ≠ none → exec (.mgmtPacket fr) s = .next s) ∧
   (∀ (s : State) (fr : EthFrame) (src dst : Ip) (sp dp : Nat) (a b c : Bool) (l : List Byte) (code detail : Nat),
     s.umc.standby = true → s.mgmtAccepts fr = true → fr.body = .udp src dst sp dp a b c l → headerFault l = none →
     frameFault l true = some (code, detail) →
     exec (.mgmtPacket fr) s = .next { s with out := s.out ++
       [.reply (s.mgmtHdr fr.srcMac) dst src 0x5A55 sp (replyData (parsePacket l ⟨fr.srcMac, src, sp, dst, none⟩) 0 code detail [])] }) ∧
   (∀ (s : State) (fr : EthFrame) (src dst : Ip) (sp dp : Nat) (a b c : Bool) (l : List Byte), s.umc.standby = true →
     s.mgmtAccepts fr = true → fr.body = .udp src dst sp dp a b c l → headerFault l = none → frameFault l true = none →
     let p := parsePacket l ⟨fr.srcMac, src, sp, dst, none⟩
     let q := s.queue 16
     p.sync = false → q.syncWait = none → q.held = [] → BitVec.ofNat 32 p.seq = q.next → s.canonical = true →
     knownOpcode 16 (q.accepted.headD p).opcode = true →
     answers (.mgmtPacket fr) s fun t =>
       t = s.setQueue 16 { q with next := q.next + 1, accepted := q.accepted ++ [p]
                                  cache := trimCache (q.next + 1) 8 (q.cache ++ [⟨p.seq, p.tag, p.opcode, none⟩]) })) ∧
  (let sent (s : State) (x : Sent) : State :=
     let u := (s.bump .host 0 0xA0 1).bump .host 0 0xA4 1
     { u with host := { s.host with nonReply := s.nonReplies + 1, nonReplyMs := s.us / 1000 }, out := s.out ++ [x] }
   (∀ (s : State) (fr : EthFrame), s.hostPortUp = true → s.hostAccepts fr = true → s.nonReplies < s.field .host 0 0x80 0 16 →
     (∀ ip, fr.body = .arpRequest ip → exec (.arpRequest fr) s = .next (sent s (.arpReply (s.hostHdr s.host.mac fr.srcMac fr.vid) ip))) ∧
     (∀ ip, fr.body = .neighborSolicitation ip false false →
       exec (.neighborSolicitation fr) s = .next (sent s (.advert (s.hostHdr s.host.mac fr.srcMac fr.vid) ip)))) ∧
   (∀ (s : State) (fr : EthFrame) (src dst : Ip) (data : List Byte), s.hostPortUp = true → s.hostAccepts fr = true →
     fr.body = .echoRequest src dst false false data →
     (s.egressOk fr.srcMac (some (src, none)) = true → s.nonReplies < s.field .host 0 0x80 0 16 →
       exec (.echoRequest fr) s = .next (sent s (.echoReply (s.hostHdr s.host.mac fr.srcMac fr.vid) dst src data))) ∧
     (s.egressOk fr.srcMac (some (src, none)) = false →
       answers (.echoRequest fr) s fun t => t.out = s.out ∧ eventOnly ((s.bump .host 0 0xA0 1).bump .host 0 0xB4 1) t)) ∧
   (∀ (s : State) (fr : EthFrame) (ip : BitVec 32), s.hostPortUp = true → s.hostAccepts fr = true → fr.body = .arpRequest ip →
     s.field .host 0 0x80 0 16 ≤ s.nonReplies →
     answers (.arpRequest fr) s fun t => t.out = s.out ∧ eventOnly ((s.bump .host 0 0xA0 1).bump .host 0 0xB4 1) t) ∧
   (∀ (s : State) (fr : EthFrame), s.hostPortUp = true → s.hostAccepts fr = false →
     exec (.hostFrameDiscard fr) s = .next (s.bump .host 0 0xA8 1) ∧
     (∀ ip, fr.body = .arpRequest ip → exec (.arpRequest fr) s = .next (s.bump .host 0 0xA8 1)) ∧
     (∀ a b o g l, fr.body = .echoRequest a b o g l → exec (.echoRequest fr) s = .next (s.bump .host 0 0xA8 1))) ∧
   (∀ (s : State) (up : Bool), s.hubUp = true → s.host.link = !up → (up = true → s.ctrlBit 31 = true) →
     answers (.hostLink up) s fun t => t.host.link = up ∧ (up = true → t.host.lanes = s.ctrlBit 30) ∧
       eventOnly { s with host := t.host } t ∧ t.host = { s.host with link := up, lanes := t.host.lanes }))

/-- Precision time (R366, R367). Announce selects a master where none is held; Follow_Up of the held two-step Sync, by its sequenceId, and
a one-step Sync measure the offset; a Delay_Resp to this port's last Delay_Req sets the path delay, and another changes nothing; the
sixteenth offset in a row below 100 ns sets SYNCED and one above 1 µs clears it; with no Sync for 3 s SYNCED is cleared and, as the model
has it (log 16), the master is given up. A measurement corrects the clock by the whole offset (the model's choice, log 16). -/
def Obligations.PrecisionTime : Prop :=
  (∀ (s : State) (fr : EthFrame) (tr : PtpTransport) (d : Nat) (m o g : Bool) (ds : PtpDataset), s.hostPortUp = true →
    s.hostAccepts fr = true → fr.body = .ptp tr d m o g (.announce ds) → s.host.master = none →
    exec (.ptpMessage fr) s =
      .next { s.bump .host 0 0xA0 1 with host := { s.host with master := some ds, syncOrigin := none, syncSeq := none } }) ∧
  (∀ (s : State) (fr : EthFrame) (tr : PtpTransport) (d n : Nat) (m o g : Bool) (ds : PtpDataset) (t1 rx : Int), s.hostPortUp = true →
    s.hostAccepts fr = true → fr.body = .ptp tr d m o g (.sync ds.identity n t1 rx true) → s.host.master = some ds →
    exec (.ptpMessage fr) s =
      .next { s.bump .host 0 0xA0 1 with host := { s.host with syncOrigin := none, syncRx := rx, syncSeq := some n } }) ∧
  (∀ (s : State) (fr : EthFrame) (tr : PtpTransport) (d n : Nat) (m o g mine : Bool) (ds : PtpDataset) (t1 t4 : Int),
    s.hostPortUp = true → s.hostAccepts fr = true → fr.body = .ptp tr d m o g (.delayResp ds.identity n mine t4) →
    s.host.master = some ds → s.host.syncOrigin = some t1 →
    exec (.ptpMessage fr) s =
      .next { s.bump .host 0 0xA0 1 with
                host := { s.host with pathDelay :=
                  if mine = true ∧ n = s.host.delaySeq then ((s.host.syncRx - t1) + (t4 - s.host.delayTx)) / 2
                  else s.host.pathDelay } }) ∧
  (∀ (s : State) (fr : EthFrame) (tr : PtpTransport) (d n : Nat) (m o g : Bool) (ds : PtpDataset) (t1 : Int), s.hostPortUp = true →
    s.hostAccepts fr = true → fr.body = .ptp tr d m o g (.followUp ds.identity n t1) → s.host.syncSeq ≠ some n →
    exec (.ptpMessage fr) s = .next (s.bump .host 0 0xA0 1)) ∧
  (∀ (s : State) (fr : EthFrame) (tr : PtpTransport) (d n : Nat) (m o g : Bool) (ds : PtpDataset) (t1 rx : Int), s.hostPortUp = true →
    s.hostAccepts fr = true → s.host.master = some ds →
    fr.body = .ptp tr d m o g (.sync ds.identity n t1 rx false) ∨
      fr.body = .ptp tr d m o g (.followUp ds.identity n t1) ∧ s.host.syncSeq = some n ∧ s.host.syncRx = rx →
    answers (.ptpMessage fr) s fun t =>
      t.host.offsetNs = rx - t1 - s.host.pathDelay ∧ t.host.syncOrigin = some t1 ∧
      t.host.syncRx = rx - (rx - t1 - s.host.pathDelay) ∧ t.host.delaySeq = (s.host.delaySeq + 1) % 2 ^ 16 ∧
      t.host.clockNs = s.host.clockNs - (rx - t1 - s.host.pathDelay) ∧
      (15 ≤ s.host.goodOffsets → (rx - t1 - s.host.pathDelay).natAbs < 100 → t.host.synced = true) ∧
      (1000 < (rx - t1 - s.host.pathDelay).natAbs → t.host.synced = false) ∧
      (100 ≤ (rx - t1 - s.host.pathDelay).natAbs → (rx - t1 - s.host.pathDelay).natAbs ≤ 1000 →
        t.host.synced = s.host.synced ∧ t.host.goodOffsets = 0) ∧
      t.queues = s.queues ∧ t.umc = s.umc ∧ t.prog = s.prog) ∧
  (∀ s : State, s.hubUp = true → s.host.synced = true →
    answers .ptpSyncTimeout s fun t =>
      t.host = { s.host with synced := false, goodOffsets := 0, master := none, syncOrigin := none, syncSeq := none } ∧
      eventOnly { s with host := t.host } t)

/-- COMMAND_PACKET (R363, R364, R369, R371): a bad header is counted in HOST_DROP_HDR; a sender that may not be answered in HOST_DROP_SRC;
bad framing is answered with SEQ 0 and queues nothing; SEQ = NEXT is accepted; a later one within RB is held; one already accepted is
answered from the cache and never run again; any other is dropped and counted. The DETAIL 0 of bad framing is the model's choice (log 20).
QUEUE_SYNC (R372): a SYNC that waits for running commands changes nothing while they run; once they are complete NEXT takes its SEQ and
goes one past it, the reorder buffer and the reply cache are emptied, and the SYNC's own command is accepted. -/
def Obligations.CommandPackets : Prop :=
  ((∀ (s : State) (fr : EthFrame) (src dst : Ip) (sp dp : Nat) (a b c : Bool) (l : List Byte) (why : Nat), s.hostPortUp = true →
     s.hostAccepts fr = true → fr.body = .udp src dst sp dp a b c l → headerFault l = some why →
     answers (.commandPacket fr) s fun t => eventOnly ((s.bump .host 0 0xA0 1).bump .host 0 0xAC 1) t) ∧
   (∀ (s : State) (fr : EthFrame) (src dst : Ip) (sp dp : Nat) (a b c : Bool) (l : List Byte), s.hostPortUp = true →
     s.hostAccepts fr = true → fr.body = .udp src dst sp dp a b c l → headerFault l = none →
     s.egressOk fr.srcMac (some (src, some sp)) = false →
     answers (.commandPacket fr) s fun t => eventOnly ((s.bump .host 0 0xA0 1).bump .host 0 0xB0 1) t) ∧
   (∀ (s : State) (fr : EthFrame) (src dst : Ip) (sp dp : Nat) (a b c : Bool) (l : List Byte) (code detail : Nat),
     s.hostPortUp = true → s.hostAccepts fr = true → fr.body = .udp src dst sp dp a b c l → headerFault l = none →
     s.egressOk fr.srcMac (some (src, some sp)) = true → frameFault l (s.cp == .boot) = some (code, detail) →
     let who : Sender := ⟨fr.srcMac, src, sp, dst, fr.vid⟩
     exec (.commandPacket fr) s =
       .next { (s.bump .host 0 0xA0 1).bump .host 0 0xA4 1 with
                 out := s.out ++ [.reply (s.hostHdr s.host.mac fr.srcMac fr.vid) dst src s.udpPort sp (replyData (parsePacket l who) 0 code detail [])] }) ∧
   (∀ (s : State) (fr : EthFrame) (p : Packet), s.hears fr p → s.canonical = true → p.sync = false → (s.queue p.queue).syncWait = none →
     (s.queue p.queue).held = [] → BitVec.ofNat 32 p.seq = (s.queue p.queue).next →
     knownOpcode p.queue ((s.queue p.queue).accepted.headD p).opcode = true →
     exec (.commandPacket fr) s = .next ((s.bump .host 0 0xA0 1).setQueue p.queue
       { s.queue p.queue with
           next := (s.queue p.queue).next + 1, accepted := (s.queue p.queue).accepted ++ [p]
           cache := trimCache ((s.queue p.queue).next + 1) (s.rc .host) ((s.queue p.queue).cache ++ [⟨p.seq, p.tag, p.opcode, none⟩]) })) ∧
   (∀ (s : State) (fr : EthFrame) (p : Packet), s.hears fr p → p.sync = false → (s.queue p.queue).syncWait = none →
     let d := (BitVec.ofNat 32 p.seq - (s.queue p.queue).next).toNat
     (0 < d → d ≤ s.rb .host → (∀ x ∈ (s.queue p.queue).held, x.seq ≠ p.seq) →
       exec (.commandPacket fr) s = .next ((s.bump .host 0 0xA0 1).setQueue p.queue
         { s.queue p.queue with held := (s.queue p.queue).held ++ [p] })) ∧
     (s.rb .host < d → d < 2 ^ 32 - s.rc .host →
       exec (.commandPacket fr) s = .next ((s.bump .host 0 0xA0 1).bump .host 0 0xA8 1)) ∧
     (s.rb .host < d → 2 ^ 32 - s.rc .host ≤ d → (∀ e ∈ (s.queue p.queue).cache, e.seq ≠ p.seq ∨ e.reply = none) →
       exec (.commandPacket fr) s = .next ((s.bump .host 0 0xA0 1).bump .host 0 0xB8 1)) ∧
     (∀ data, s.rb .host < d → 2 ^ 32 - s.rc .host ≤ d →
       ((s.queue p.queue).cache.find? fun e => e.seq == p.seq).bind (·.reply) = some data →
       exec (.commandPacket fr) s =
         .next { ((s.bump .host 0 0xA0 1).bump .host 0 0xB8 1).bump .host 0 0xA4 1 with
                   out := s.out ++ [.reply (s.hostHdr s.host.mac p.src.mac p.src.vid) p.src.ipTo p.src.ip s.udpPort p.src.port data] }))) ∧
  ((∀ (s : State) (port : CmdPort) (q : Nat), (s.queue (queueIdx port q)).running ≠ 0 → exec (.queueSync port q) s = .next s) ∧
   (∀ (s : State) (port : CmdPort) (q : Nat) (p : Packet), let i := queueIdx port q
     (port = .host → q < 16) → (s.queue i).syncWait = some p → (s.queue i).running = 0 → (s.queue i).apart = [] →
     knownOpcode i p.opcode = true → s.canonical = true →
     answers (.queueSync port q) s fun t =>
       t.queue i = { s.queue i with
         next := BitVec.ofNat 32 p.seq + 1, held := [], apart := [], syncWait := none, accepted := [p]
         lastSync := some (p.seq, p.tag, p.opcode), cache := [⟨p.seq, p.tag, p.opcode, none⟩] } ∧
       (∀ k, k ≠ i → t.queue k = s.queue k) ∧ eventOnly { s with queues := t.queues } t))

/-- The checks that come before a command's own (R369, R376, R382): a wrong PCRC is BAD_PAYLOAD, a wrong length BAD_LENGTH, a command that
FAULTED does not allow FAULTED, one in the wrong CPSTATE BAD_STATE with CPSTATE as DETAIL. The command completes with that status and has
no other effect. NOP, FENCE, REG_WRITE and MEM_WRITE on a queue whose front holds no such command, or whose class S command still runs, do
nothing (R373). -/
def Obligations.OpcodeChecks : Prop :=
  (∀ (s : State) (q : Nat) (a b : Bool) (d : CollDesc) (pr : Program) (p : Packet) (rest : List Packet), q < 16 →
     ∀ row ∈ ([(.sizeTable q, 0x0003, 0, [.ready, .loaded]), (.fwStart q a b, 0x0102, 4, [.boot]),
         (.configEnd q, 0x0103, 0, [.config]), (.attest q, 0x0104, 48, [.config, .ready, .loaded]),
         (.progLoad q pr, 0x0301, 64, [.ready]), (.twinMode q, 0x0401, 4, [.config, .ready]),
         (.wellheadTake q, 0x0402, 12, [.ready, .loaded]), (.collLaunch q d, 0x0410, 104, [.loaded])] :
         List (Instr × Nat × Nat × List CpState)),
       s.front q row.2.1 = some (p, rest) →
       (content p = none → exec row.1 s = .next ((s.take q rest).closes q p stBadPayload 0 [])) ∧
       ∀ l, content p = some l →
         (l.length ≠ row.2.2.1 → exec row.1 s = .next ((s.take q rest).closes q p stBadLength 0 [])) ∧
         (l.length = row.2.2.1 → s.cp = .faulted → exec row.1 s = .next ((s.take q rest).closes q p stFaulted 0 [])) ∧
         (l.length = row.2.2.1 → s.cp ≠ .faulted → s.cp ∉ row.2.2.2 →
           exec row.1 s = .next ((s.take q rest).closes q p stBadState (cpCode s.cp) []))) ∧
  (∀ (s : State) (q : Nat), s.front q 0x0001 = none → s.front q 0x0005 = none → s.front q 0x0202 = none → s.front q 0x0211 = none →
     q < 16 → exec (.nop .host q) s = .next s ∧ exec (.fence q) s = .next s ∧ exec (.regWrite .host q) s = .next s ∧
       exec (.memWrite q) s = .next s)

/-- NOP, IDENT, SIZE_TABLE, STATUS and FENCE (R16, R17, R373, R377): each answers OK with the payload of its reply and changes nothing
else; FENCE waits while a command of its queue is issued, and FENCE_COMPLETE completes it. IDENT answers a zero hash where no key is
derived (the model's choice, log 96). REG_READ and REG_WRITE (R378, R382): the entries are carried out in order, each with its access
status in the reply; the command's status is that of the first entry that is not OK, its DETAIL the byte offset of that entry's bad field,
CPSTATE for BAD_STATE, else 0. The reply leaves from the addresses in use before the command (R385). -/
def Obligations.QueryAndRegisterCommands : Prop :=
  ((∀ (s : State) (port : CmdPort) (q : Nat) (p : Packet) (rest : List Packet) (l : List Byte),
     s.fronts (queueIdx port q) 0x0001 p rest l → l = [] →
     exec (.nop port q) s = .next ((s.take (queueIdx port q) rest).closes (queueIdx port q) p stOk 0 [])) ∧
   (∀ (s : State) (port : CmdPort) (q : Nat) (p : Packet) (rest : List Packet) (l : List Byte),
     s.fronts (queueIdx port q) 0x0002 p rest l → l = [] →
     exec (.ident port q) s = .next ((s.take (queueIdx port q) rest).closes (queueIdx port q) p stOk 0
       (leBytes 4 (sysCaps s.part).toNat ++ leBytes 1 s.cpByte ++ leBytes 3 0 ++ beBytes 6 s.host.mac.toNat ++ leBytes 2 0 ++
         digestBytes s.keyHash ++ digestBytes (if s.cp = .boot then 0 else s.sec.fwDigest)))) ∧
   (∀ (s : State) (q : Nat) (p : Packet) (rest : List Packet) (l : List Byte), q < 16 → s.fronts q 0x0003 p rest l → l = [] →
     (s.cp = .ready ∨ s.cp = .loaded) →
     exec (.sizeTable q) s = .next ((s.take q rest).closes q p stOk 0
       (s.sizeTable.zipIdx.flatMap fun e => leBytes 4 e.2 ++ leBytes 4 e.1))) ∧
   (∀ (s : State) (q : Nat) (p : Packet) (rest : List Packet) (l : List Byte), q < 16 → s.fronts q 0x0004 p rest l → l = [] →
     let t := s.take q rest
     exec (.status q) s = .next (t.closes q p stOk 0 (valueBytes ([t.regView .host 0 0, t.regView .step 0 0, t.regView .step 0 0x18,
       t.regView .serv 0 0] ++ (List.range 16).map fun i => (t.queue i).next)))) ∧
   (∀ (s : State) (q : Nat) (p : Packet) (rest : List Packet) (l : List Byte), q < 16 → s.canonical = true →
     s.fronts q 0x0005 p rest l → l = [] →
     ((s.queue q).issued = [] → exec (.fence q) s = .next ((s.take q rest).closes q p stOk 0 [])) ∧
     ((s.queue q).issued ≠ [] → exec (.fence q) s = .next ((s.take q rest).waits q p))) ∧
   (∀ (s : State) (q : Nat) (p : Packet), q < 16 → (s.queue q).issued = [] → (s.queue q).busy = some p → p.opcode = 0x0005 →
     exec (.fenceComplete q) s = .next ((s.setQueue q { s.queue q with busy := none }).closes q p stOk 0 []))) ∧
  ((∀ (s : State) (port : CmdPort) (q : Nat) (p : Packet) (rest : List Packet) (l : List Byte),
     s.fronts (queueIdx port q) 0x0201 p rest l → 8 ≤ l.length → l.length ≤ 8152 → l.length % 8 = 0 →
     let r := State.readEntries (requesterOf port) (entriesOf 8 l) (s.take (queueIdx port q) rest)
     exec (.regRead port q) s = .next (r.1.closes (queueIdx port q) p (firstBadAccess (r.2.map (·.1)))
       (r.1.firstBadDetail 8 readField ((entriesOf 8 l).zip (r.2.map (·.1))))
       (r.2.flatMap fun x => leBytes 4 x.2.toNat ++ leBytes 4 (accessCode x.1)) (s.replyVia p.src))) ∧
   (∀ (s : State) (port : CmdPort) (q : Nat) (p : Packet) (rest : List Packet) (l : List Byte),
     s.fronts (queueIdx port q) 0x0202 p rest l → 12 ≤ l.length → l.length ≤ 8160 → l.length % 12 = 0 →
     let r := State.writeEntries (requesterOf port) (entriesOf 12 l) (s.take (queueIdx port q) rest)
     exec (.regWrite port q) s = .next (r.1.closes (queueIdx port q) p (firstBadAccess r.2)
       (r.1.firstBadDetail 12 writeField ((entriesOf 12 l).zip r.2))
       (r.2.flatMap fun x => leBytes 4 (accessCode x)) (s.replyVia p.src))) ∧
   (∀ (s : State) (port : CmdPort) (q : Nat) (p : Packet) (rest : List Packet) (l : List Byte),
     s.fronts (queueIdx port q) 0x0202 p rest l → l.length = 12 → leAt 6 2 l = 0 →
     let r := (s.take (queueIdx port q) rest).writeReg (requesterOf port) (leAt 0 6 l) (BitVec.ofNat 32 (leAt 8 4 l))
     exec (.regWrite port q) s =
       .next (r.1.closes (queueIdx port q) p (accessCode r.2)
         (match r.2 with
           | .badField => if leAt 0 6 l % 4 ≠ 0 then 0 else 8
           | .badState => cpCode r.1.cp
           | _ => 0) (leBytes 4 (accessCode r.2)) (s.replyVia p.src))))

/-- Firmware, the end of configuration load, and attestation (R376, R377, R451 to R453, R456 to R458). FW_LOAD writes bytes of the image;
FW_START starts a firmware that passes every check of R452, with its SVN and digest and every queue of the host port afresh, and otherwise
discards the image and stays in BOOT; CONFIG_END forms the configuration digest; ATTEST answers the signed report and counts it, or
ZEROISED without the key. The verdicts of the two signature algorithms are those of the published standards, a row that carries others is
no event (logs 8 and 95), and what an image byte that no FW_LOAD wrote reads is the model's choice (log 47). -/
def Obligations.FirmwareConfigurationAttestation : Prop :=
  (∀ (s : State) (q : Nat) (p : Packet) (rest : List Packet) (l : List Byte), q < 16 → s.fronts q 0x0101 p rest l → s.cp = .boot →
    5 ≤ l.length → leAt 0 4 l + (l.length - 4) ≤ 0x400000 →
    exec (.fwLoad q) s = .next (State.closes
      { s.take q rest with
          sec := { s.sec with image := Bank.putRange imageDefault s.sec.image (leAt 0 4 l) (l.drop 4) } } q p stOk 0 [])) ∧
  (∀ (s : State) (q : Nat) (p : Packet) (rest : List Packet) (l : List Byte), q < 16 → s.fronts q 0x0102 p rest l → s.cp = .boot →
    l.length = 4 →
    let started : State :=
      { s.take q rest with
          cp := .config
          sec := { s.sec with fw := true, svn := s.imageNat 5 1, fwDigest := sha384 (s.image 0 512) }
          queues := Bank.drop (fun i => i != 16) (s.take q rest).queues }
    exec (.fwStart q s.rsaVerdict s.slhVerdict) s = .next
      (match s.startFault (leAt 0 4 l) s.rsaVerdict s.slhVerdict with
       | none => started.closes q p stOk 0 []
       | some (code, detail) => ((s.take q rest).fwReject code detail).closes q p code detail [] (s.replyVia p.src))) ∧
  (∀ (s : State) (q : Nat) (p : Packet) (l : List Byte) (a b : Bool) (code detail : Nat), q < 16 →
    s.fronts q 0x0102 p [] l → s.cp = .boot → l.length = 4 → a = s.rsaVerdict → b = s.slhVerdict →
    s.startFault (leAt 0 4 l) a b = some (code, detail) →
    answers (.fwStart q a b) s fun t => t.cp = .boot ∧ t.sec.fw = s.sec.fw ∧ t.sec.svn = s.sec.svn ∧ t.sec.image = [] ∧
      t.prog = s.prog ∧ t.part = s.part ∧ t.pending = s.pending) ∧
  (∀ (s : State) (q : Nat) (a b : Bool), a ≠ s.rsaVerdict ∨ b ≠ s.slhVerdict → exec (.fwStart q a b) s = .next s) ∧
  (∀ (s : State) (q : Nat) (p : Packet) (rest : List Packet) (l : List Byte), q < 16 → s.fronts q 0x0103 p rest l → s.cp = .config →
    l = [] →
    exec (.configEnd q) s = .next (State.closes
      { s.take q rest with
          cp := .ready
          sec := { s.sec with cfgFormed := true, cfgDigest := (s.take q rest).configDigest } } q p stOk 0 [])) ∧
  (∀ (s : State) (q : Nat) (p : Packet) (rest : List Packet) (l : List Byte), q < 16 → s.fronts q 0x0104 p rest l →
    (s.cp = .config ∨ s.cp = .ready ∨ s.cp = .loaded) → l.length = 48 →
    (s.canSign = true → exec (.attest q) s =
      .next (((s.take q rest).bump .sec 0 0xB0 1).closes q p stOk 0 ((s.take q rest).report l) (s.replyVia p.src))) ∧
    (s.canSign = false → exec (.attest q) s = .next ((s.take q rest).closes q p stZeroised 0 [])))

/-- The bulk engine's commands (R268, R270, R373, R379, R380): MEM_READ answers the committed bytes, MEM_WRITE stores its data, MEM_FILL
repeats its pattern, MEM_DIGEST answers SHA-384 of the bytes; an address the host may not reach refuses the whole command; each is issued
and completes with BULK_COMPLETE in issue order. That the data moves as the row runs, and that the lowest byte refused gives the status,
are the model's choices (log 66). RESTORE (R212, R381): it squashes a run-ahead, which may have read what is rewritten (R142); an empty
list of pages changes no page and completes OK; a page that reads is written to the committed frame of its V page; a completed RESTORE
ends the bar on RESUME (R185). A member reports a completed RESTORE by STATE (the model's choice, log 41). -/
def Obligations.MemoryAndRestoreCommands : Prop :=
  (let job (q : Nat) (p : Packet) (code detail : Nat) (l : List Byte) : BulkJob := ⟨q, p, code, detail, l⟩
   (∀ (s : State) (q : Nat) (p : Packet) (rest : List Packet) (l : List Byte), q < 16 → s.fronts q 0x0210 p rest l → l.length = 16 →
     0 < leAt 8 4 l → leAt 8 4 l ≤ memMax p → leAt 12 4 l = 0 →
     let t := s.take q rest
     (t.rangeStatus false (leAt 0 8 l) (leAt 8 4 l) = stOk → t.firstBad (leAt 0 8 l) (leAt 8 4 l) = none →
       exec (.memRead q) s = .next (State.issues
         { t with bulk := s.bulk ++ [job q p stOk 0 (t.loadCommitted (leAt 0 8 l) (leAt 8 4 l))] } q p)) ∧
     (t.rangeStatus false (leAt 0 8 l) (leAt 8 4 l) ≠ stOk →
       exec (.memRead q) s = .next (t.closes q p (t.rangeStatus false (leAt 0 8 l) (leAt 8 4 l)) 0 []))) ∧
   (∀ (s : State) (q : Nat) (p : Packet) (rest : List Packet) (l : List Byte), q < 16 → s.fronts q 0x0211 p rest l →
     9 ≤ l.length → l.length ≤ 8160 →
     let t := s.take q rest
     let a := leAt 0 8 l
     (t.rangeStatus true a (l.length - 8) = stOk →
       (∀ j ∈ partialLines a (l.length - 8), t.lineBad (a / 64 * 64 + 64 * j) = false) →
       exec (.memWrite q) s = .next (State.issues
         { t.putBytes a (l.drop 8) with bulk := s.bulk ++ [job q p stOk 0 []] } q p)) ∧
     (t.rangeStatus true a (l.length - 8) ≠ stOk →
       exec (.memWrite q) s = .next (t.closes q p (t.rangeStatus true a (l.length - 8)) 0 []))) ∧
   (∀ (s : State) (q : Nat) (p : Packet) (rest : List Packet) (l : List Byte), q < 16 → s.fronts q 0x0212 p rest l → l.length = 24 →
     let t := s.take q rest
     let a := leAt 0 8 l
     let n := leAt 8 8 l
     a % 64 = 0 → n % 64 = 0 → n ≤ 2 ^ 40 → t.rangeStatus true a n = stOk →
     exec (.memFill q) s = .next (State.issues
       { t.putBytes a ((List.range (n / 8)).flatMap fun _ => slice 16 8 l) with bulk := s.bulk ++ [job q p stOk 0 []] } q p)) ∧
   (∀ (s : State) (q : Nat) (p : Packet) (rest : List Packet) (l : List Byte), q < 16 → s.fronts q 0x0213 p rest l → l.length = 16 →
     let t := s.take q rest
     let a := leAt 0 8 l
     let n := leAt 8 8 l
     a % 64 = 0 → n % 64 = 0 → n ≤ 2 ^ 40 → t.rangeStatus false a n = stOk → t.firstBad a n = none →
     exec (.memDigest q) s = .next (State.issues
       { t with bulk := s.bulk ++ [job q p stOk 0 (digestBytes (sha384 (t.loadCommitted a n)))] } q p)) ∧
   (∀ (s : State) (j : BulkJob) (rest : List BulkJob), s.bulk = j :: rest → j.packet.opcode ≠ 0x0307 →
     j.packet ∈ (s.queue j.queue).issued →
     exec .bulkComplete s = .next (State.reply
       (State.setQueue { s with bulk := rest } j.queue
         { s.queue j.queue with issued := (s.queue j.queue).issued.erase j.packet }) j.queue j.packet j.code j.detail j.payload))) ∧
  ((∀ (s : State) (q : Nat) (p : Packet) (rest : List Packet) (l : List Byte), q < 16 → s.fronts q 0x0307 p rest l → s.cp = .loaded →
     (s.step.halted ≠ none ∨ (s.step.att = none ∧ s.step.committing = false ∧ s.hasDown 4 = false)) → l.length = 24 → leAt 20 4 l = 0 →
     let t := (s.take q rest).squash
     let dst := leAt 0 8 l
     let src := leAt 8 8 l
     t.restoreField dst src (leAt 16 4 l) = none →
     (leAt 16 4 l = 0 →
       exec (.restore q) s = .next (State.issues { t with bulk := t.bulk ++ [⟨q, p, stOk, 0, []⟩] } q p)) ∧
     (leAt 16 4 l = 1 → t.firstBad src 4096 = none → t.ckptSend (stackOf dst) = false →
       exec (.restore q) s = .next (State.issues
         { t.putBytes (t.committedAddr dst) (t.loadCommitted src 4096) with bulk := t.bulk ++ [⟨q, p, stOk, 0, []⟩] } q p))) ∧
   (∀ (s : State) (j : BulkJob) (rest : List BulkJob), s.bulk = j :: rest → j.packet.opcode = 0x0307 → j.code = stOk →
     s.dom.rankValid = false →
     answers .bulkComplete s fun t => t.step = { s.step with exhausted := false } ∧ t.bulk = rest ∧ t.prog = s.prog))

/-- The frame of MEM_WRITE and MEM_FILL (R268, R379): where no command waits behind it, every byte outside the range reads as before, and
a byte of the range in a trained Tarn or an SRAM reads as what was written. Nothing else of the machine changes but the queue and the bulk
engine's list; poison and undefined runs of the range end. -/
def Obligations.BulkWritesStoreWhereTheySay : Prop :=
  (∀ (s : State) (q : Nat) (p : Packet) (l : List Byte), s.canonical = true → q < 16 → s.fronts q 0x0211 p [] l →
    9 ≤ l.length → l.length ≤ 8160 →
    let a := leAt 0 8 l
    (s.take q []).rangeStatus true a (l.length - 8) = stOk → partialLines a (l.length - 8) = [] →
    answers (.memWrite q) s fun t =>
      (∀ b, (b < a ∨ a + (l.length - 8) ≤ b) → t.byte b = s.byte b) ∧
      (∀ k x, (l.drop 8)[k]? = some x → (tarnTop ≤ a + k ∨ (s.stack (stackOf (a + k))).trained = true) → t.byte (a + k) = x) ∧
      t = { s with mem := t.mem, undef := t.undef, tarns := t.tarns, queues := t.queues, bulk := t.bulk }) ∧
  (∀ (s : State) (q : Nat) (p : Packet) (l : List Byte), s.canonical = true → q < 16 → s.fronts q 0x0212 p [] l → l.length = 24 →
    let a := leAt 0 8 l
    let n := leAt 8 8 l
    a % 64 = 0 → n % 64 = 0 → n ≤ 2 ^ 40 → (s.take q []).rangeStatus true a n = stOk →
    answers (.memFill q) s fun t =>
      (∀ b, (b < a ∨ a + n ≤ b) → t.byte b = s.byte b) ∧
      t = { s with mem := t.mem, undef := t.undef, tarns := t.tarns, queues := t.queues, bulk := t.bulk })

/-- PROG_LOAD, PROG_UNLOAD and SETTLE_COMPLETE (R306, R377): a program whose image reads, whose digests, features and tables pass and
which the usable Facets can hold is loaded, the next step is 0, CPSTATE becomes LOADED, and the reply is its numerics digest; a failed
check answers its status and loads nothing. PROG_UNLOAD waits for SETTLE_COMPLETE, which leaves no program and CPSTATE READY. The row
carries what its image decodes to (log 7), the checks run in the order of log 43, and a member reports its load by STATE (log 41): the
model's choices. -/
def Obligations.ProgramLoadAndUnload : Prop :=
  (∀ (s : State) (q : Nat) (g : Program) (p : Packet) (l : List Byte) (bound : List Nat), q < 16 → s.fronts q 0x0301 p [] l →
    s.cp = .ready → l.length = 64 → leAt 8 8 l ≠ 0 →
    let t := s.take q []
    t.inOneWindow (leAt 0 8 l) (leAt 0 8 l + leAt 8 8 l) = true → t.firstBad (leAt 0 8 l) (leAt 8 8 l) = none →
    t.loadFault g (slice 16 48 l) = none → t.twin.mode ≠ 2 → t.binding g = some bound →
    answers (.progLoad q g) s fun u =>
      u = (t.load' g bound).closes q p stOk 0 (digestBytes g.numericsDigest) (s.replyVia p.src) ∧
      u.prog = some g ∧ u.bound = bound ∧ u.cp = .loaded ∧ u.step.att = none ∧ u.sec = s.sec ∧ u.part = s.part ∧
      u.pending = s.pending) ∧
  (∀ (s : State) (q : Nat) (g : Program) (p : Packet) (rest : List Packet) (l : List Byte) (code detail : Nat), q < 16 →
    s.fronts q 0x0301 p rest l → s.cp = .ready → l.length = 64 →
    let t := s.take q rest
    ((leAt 8 8 l = 0 ∨ t.inOneWindow (leAt 0 8 l) (leAt 0 8 l + leAt 8 8 l) = false) →
      exec (.progLoad q g) s = .next (t.closes q p stBadField 0 [])) ∧
    (leAt 8 8 l ≠ 0 → t.inOneWindow (leAt 0 8 l) (leAt 0 8 l + leAt 8 8 l) = true →
      t.firstBad (leAt 0 8 l) (leAt 8 8 l) = none → t.loadFault g (slice 16 48 l) = some (code, detail) →
      exec (.progLoad q g) s = .next (t.closes q p code detail []))) ∧
  (∀ (s : State) (q : Nat) (p : Packet) (rest : List Packet) (l : List Byte), q < 16 → s.fronts q 0x0302 p rest l → s.cp = .loaded →
    l = [] → s.step.halted = none → s.step.att = none → s.step.committing = false → s.serv.model = none →
    exec (.progUnload q) s = .next ((s.take q rest).waits q p)) ∧
  (∀ s : State, s.busyWith 0x0302 ≠ none → s.quiet = true → s.bulk = [] → cleanTarn s → (∀ i, i < 8 → s.epochRuns i = false) →
    s.cp = .loaded →
    answers .settleComplete s fun u => u.prog = none ∧ u.bound = [] ∧ u.cp = .ready ∧ u.step.att = none ∧ u.sec = s.sec ∧
      u.part = s.part ∧ u.pending = s.pending)

/-- RUN, STOP, ABORT and RESUME at the wellhead (R185, R187, R401): RUN lets steps open, up to N of them; STOP waits for the open step;
ABORT waits for the halt of every module (the model's choice, log 55, in how a module's halt is told); RESUME leaves the halt unless the
retries are exhausted or a rank is not joined. At a member they answer NOT_WELLHEAD. -/
def Obligations.DomainRunCommands : Prop :=
  let training (s : State) : Prop := s.cp = .loaded ∧ ∃ g, s.prog = some g ∧ g.serving = false
  (∀ (s : State) (q : Nat) (p : Packet) (rest : List Packet) (l : List Byte), q < 16 → s.fronts q 0x0303 p rest l → training s →
    s.isWellhead = true → l.length = 4 →
    (s.step.halted = none → s.allLoaded = true →
      exec (.run q) s = .next (State.closes
        { s.take q rest with
            dom := { s.dom with running := true, stopping := false
                                limit := if leAt 0 4 l = 0 then none else some (leAt 0 4 l) } } q p stOk 0 [])) ∧
    (s.step.halted ≠ none ∨ s.allLoaded = false →
      exec (.run q) s = .next ((s.take q rest).closes q p stBadState (cpCode s.cp) []))) ∧
  (∀ (s : State) (q : Nat) (p : Packet) (rest : List Packet) (l : List Byte), q < 16 → s.fronts q 0x0304 p rest l → training s →
    s.isWellhead = true → l = [] →
    (s.step.halted = none → s.stepOpen = true →
      exec (.stop q) s = .next (State.waits { s.take q rest with dom := { s.dom with stopping := true } } q p)) ∧
    (s.step.halted ≠ none ∨ s.stepOpen = false →
      exec (.stop q) s = .next (State.closes { s.take q rest with dom := { s.dom with running := false } } q p stOk 0 []))) ∧
  (∀ (s : State) (q : Nat) (p : Packet) (rest : List Packet) (l : List Byte), q < 16 → s.fronts q 0x0305 p rest l → training s →
    s.isWellhead = true → l = [] →
    (s.step.halted ≠ none → s.dom.halting = [] → exec (.abort q) s = .next ((s.take q rest).closes q p stOk 0 [])) ∧
    (s.step.halted = none ∨ s.dom.halting ≠ [] → exec (.abort q) s = .next ((s.take q rest).waits q p))) ∧
  (∀ (s : State) (q : Nat) (p : Packet) (rest : List Packet) (l : List Byte), q < 16 → s.fronts q 0x0306 p rest l → training s →
    s.isWellhead = true → l = [] →
    (s.step.halted ≠ none → s.step.exhausted = false → s.allJoined = true →
      exec (.resume q) s = .next (State.closes
        { s.take q rest with
            step := { s.step with halted := none, retries := 0, resumed := true }
            dom := { s.dom with running := true, stopping := false } } q p stOk 0 [])) ∧
    (s.step.halted = none ∨ s.step.exhausted = true ∨ s.allJoined = false →
      exec (.resume q) s = .next ((s.take q rest).closes q p stBadState (cpCode s.cp) []))) ∧
  (∀ (s : State) (q : Nat) (p : Packet) (rest : List Packet) (l : List Byte), q < 16 → training s → s.isWellhead = false →
    (s.fronts q 0x0303 p rest l → l.length = 4 → exec (.run q) s = .next ((s.take q rest).closes q p stNotWellhead 0 [])) ∧
    (s.fronts q 0x0304 p rest l → l = [] → exec (.stop q) s = .next ((s.take q rest).closes q p stNotWellhead 0 [])) ∧
    (s.fronts q 0x0305 p rest l → l = [] → exec (.abort q) s = .next ((s.take q rest).closes q p stNotWellhead 0 [])) ∧
    (s.fronts q 0x0306 p rest l → l = [] → exec (.resume q) s = .next ((s.take q rest).closes q p stNotWellhead 0 [])))

/-- The set-up commands of the twin and the domain and a hosted launch (R313, R324, R389, R396 to R399): TWIN_MODE stores the mode; the
first WELLHEAD_TAKE makes this module the wellhead of generation 1; RANK_JOIN names the rank to the wellhead and waits for its answer;
TWIN_RESTORE names stacks and an epoch that are held; COLL_LAUNCH enqueues the collective on its engine, or is refused with COLL_DESC. The
descriptor of a launch is an operand (the model's choice, log 42). -/
def Obligations.TwinDomainAndHostedLaunch : Prop :=
  (∀ (s : State) (q : Nat) (p : Packet) (rest : List Packet) (l : List Byte), q < 16 → s.fronts q 0x0401 p rest l →
    (s.cp = .config ∨ s.cp = .ready) → l.length = 4 → leAt 0 1 l ≤ 2 → leAt 1 3 l = 0 → s.fab.links = [] → s.twin.hello = none →
    exec (.twinMode q) s = .next (State.closes
      { s.take q rest with twin := { s.twin with mode := leAt 0 1 l, paired := false } } q p stOk 0 [])) ∧
  (∀ (s : State) (q : Nat) (p : Packet) (rest : List Packet) (l : List Byte), q < 16 → s.fronts q 0x0402 p rest l →
    (s.cp = .ready ∨ s.cp = .loaded) → l.length = 12 → leAt 0 4 l = s.ceDomain → leAt 8 1 l ≤ 1 → leAt 9 3 l = 0 →
    s.dom.rankValid = false → leAt 4 2 l < leAt 6 2 l → leAt 6 2 l ≤ s.domainMax →
    exec (.wellheadTake q) s = .next (State.closes
      { s.take q rest with
          dom := { size := leAt 6 2 l, wgen := 1, wh := leAt 4 2 l, rank := leAt 4 2 l, rankValid := true
                   ranks := Bank.put rankDefault [] (leAt 4 2 l) ⟨1, s.loadedDigest, s.keyHash⟩ } } q p stOk 0 [])) ∧
  (∀ (s : State) (q : Nat) (p : Packet) (rest : List Packet) (l : List Byte), q < 16 → s.fronts q 0x0403 p rest l → s.cp = .ready →
    l.length = 8 → leAt 4 2 l ≤ 1023 → leAt 6 2 l ≤ 1023 →
    answers (.rankJoin q) s fun t =>
      (s.canonical = true → (t.queue q).busy = some p ∧ (t.queue q).accepted = rest) ∧
      t.dom = s.dom ∧ t.prog = s.prog ∧ t.cp = s.cp ∧ t.sec = s.sec) ∧
  (∀ (s : State) (q : Nat) (p : Packet) (rest : List Packet) (l : List Byte), q < 16 → s.fronts q 0x0404 p rest l → s.cp = .loaded →
    s.quiet = true → s.partnerPresent = true → s.twin.sending = none → l.length = 8 → cleanTarn s →
    (leAt 0 1 l = 0 → exec (.twinRestore q) s = .next ((s.take q rest).closes q p stBadField 0 [])) ∧
    (leAt 0 1 l ≠ 0 → leAt 1 3 l = 0 →
      (∀ i, i < 8 → (leAt 0 1 l).testBit i = true → (s.take q rest).heldEpoch i = some (leAt 4 4 l)) →
      answers (.twinRestore q) s fun t => t.twin.sending.map (·.mask) = some (leAt 0 1 l) ∧ t.step = s.step ∧ t.prog = s.prog)) ∧
  (∀ (s : State) (q : Nat) (d : CollDesc) (p : Packet) (rest : List Packet) (l : List Byte) (c : Coll), q < 16 →
    s.fronts q 0x0410 p rest l → s.cp = .loaded → l.length = 104 → (parseLaunch l).badField = none →
    (s.take q rest).launchFault (parseLaunch l) d = none → (s.take q rest).hostedColl (parseLaunch l) d q p = some c →
    exec (.collLaunch q d) s = .next (State.issues
      ((s.take q rest).setEngine c.die { s.engine c.die with waiting := (s.engine c.die).waiting ++ [c] }) q p)) ∧
  (∀ (s : State) (q : Nat) (d : CollDesc) (p : Packet) (l : List Byte) (why : Nat), q < 16 →
    s.fronts q 0x0410 p [] l → s.cp = .loaded → l.length = 104 → (parseLaunch l).badField = none →
    (s.take q []).launchFault (parseLaunch l) d = some why →
    answers (.collLaunch q d) s fun t => t.fab = s.fab ∧ t.step = s.step ∧ t.strands = s.strands)

/-- The serving commands (R338 to R345, R349, R356): MODEL_LOAD narrows the weight copies, binds the commit digest of the bytes it reads,
and ends where a line of a copy is uncorrectable, with no copy written; SCORES outside 1 to 4 refuses it (the status is the model's
choice, log 85); MODEL_UNLOAD waits for the batch or pass that runs, else drops the model; SCORE queues its request on its slot in order
of POS; SLOT_RESET empties an idle slot and waits behind a busy one; EXPLAIN queues a pass. Without a model they answer NO_MODEL. -/
def Obligations.ServingCommands : Prop :=
  (∀ (s : State) (q : Nat) (cal : Calib) (p : Packet) (rest : List Packet) (l : List Byte) (g : Program) (u : State)
    (bytes : List Byte), q < 16 → s.fronts q 0x0501 p rest l → s.cp = .loaded → s.prog = some g → g.serving = true →
    s.serv.model = none → 64 ≤ l.length → l.length = 64 + 16 * leAt 12 4 l →
    let t := s.take q rest
    let es := modelEntries (leAt 12 4 l) l
    let ranges := modelRanges s.servInfo (leAt 0 8 l) (leAt 8 4 l) es
    modelLoadFault s.servInfo (leAt 0 8 l) (leAt 8 4 l) (leAt 12 4 l) es = none → t.ringIn .serv 0x20 (256 * t.prvSize) = true →
    t.bulkReadAll ranges [] = (u, .ok bytes) → digestBytes (sha384 bytes) = slice 16 48 l →
    (∀ i, calibFault g cal = some i →
      exec (.modelLoad q cal) s = .next (u.closes q p stLoadRefused i [] (s.replyVia p.src))) ∧
    (∀ v a j, calibFault g cal = none → State.narrowWeights s.servInfo es cal.weights u = (v, some (a, j)) →
      exec (.modelLoad q cal) s = .next ((u.bulkUE a j).closes q p stUncorrectable (lineDetail j) [] (s.replyVia p.src))) ∧
    (∀ v, calibFault g cal = none → State.narrowWeights s.servInfo es cal.weights u = (v, none) →
      exec (.modelLoad q cal) s = .next (State.closes
        { v with serv := { model := some { commit := sha384 bytes, ranges := ranges, calib := cal } } } q p stOk 0 []
        (s.replyVia p.src)))) ∧
  (∀ (s : State) (q : Nat) (p : Packet) (rest : List Packet) (l : List Byte), q < 16 → s.fronts q 0x0502 p rest l → l = [] →
    (s.serv.model = none → exec (.modelUnload q) s = .next ((s.take q rest).closes q p stNoModel 0 [])) ∧
    (s.serv.model ≠ none → s.servRuns = true → exec (.modelUnload q) s = .next ((s.take q rest).waits q p)) ∧
    (s.serv.model ≠ none → s.servRuns = false →
      answers (.modelUnload q) s fun t => t.serv.model = none ∧ t.serv.passes = [] ∧ t.prog = s.prog ∧ t.cp = s.cp)) ∧
  (∀ (s : State) (q : Nat) (p : Packet) (rest : List Packet) (l : List Byte), q < 16 → s.fronts q 0x0503 p rest l → 16 ≤ l.length →
    let slot := leAt 0 2 l
    let count := leAt 2 2 l
    (s.serv.model = none → exec (.score q) s = .next ((s.take q rest).closes q p stNoModel 0 [])) ∧
    (s.serv.model ≠ none → slot < 2048 → 0 < count → count ≤ 32 → leAt 8 8 l = 0 → l.length = 16 + count * inBytes s.servInfo →
      (s.borrowed slot = true → exec (.score q) s = .next ((s.take q rest).closes q p stSlotBusy 0 [])) ∧
      (s.borrowed slot = false → leAt 4 4 l ≠ s.nextPos slot →
        exec (.score q) s = .next ((s.take q rest).closes q p stPosition 0 [])) ∧
      (s.borrowed slot = false → leAt 4 4 l = s.nextPos slot → leAt 4 4 l + count ≤ s.servInfo.ctxMax → s.heldRequests < 8192 →
        exec (.score q) s = .next (State.issues
          ((s.take q rest).setSlot slot { s.slot slot with
            queue := (s.slot slot).queue ++
              [{ queue := q, packet := p, slot := slot, count := count, pos := leAt 4 4 l, data := l.drop 16, at' := s.us }] })
          q p)))) ∧
  (∀ (s : State) (q : Nat) (p : Packet) (rest : List Packet) (l : List Byte), q < 16 → s.fronts q 0x0504 p rest l → l.length = 4 →
    (s.serv.model = none → exec (.slotReset q) s = .next ((s.take q rest).closes q p stNoModel 0 [])) ∧
    (s.serv.model ≠ none → leAt 0 2 l < 2048 → leAt 2 2 l = 0 → s.borrowed (leAt 0 2 l) = false → s.slotIdle (leAt 0 2 l) = true → exec (.slotReset q) s = .next (State.closes
      ((s.take q rest).setSlot (leAt 0 2 l) { s.slot (leAt 0 2 l) with len := 0, chain := none }) q p stOk 0 [])) ∧
    (s.serv.model ≠ none → leAt 0 2 l < 2048 → leAt 2 2 l = 0 → s.borrowed (leAt 0 2 l) = false → s.slotIdle (leAt 0 2 l) = false →
      exec (.slotReset q) s = .next ((s.take q rest).waits q p))) ∧
  (∀ (s : State) (q : Nat) (p : Packet) (rest : List Packet) (l : List Byte), q < 16 → s.fronts q 0x0505 p rest l → l.length = 272 →
    s.serv.model = none → exec (.explain q) s = .next ((s.take q rest).closes q p stNoModel 0 [])) ∧
  (∀ (s : State) (q : Nat) (p : Packet) (rest : List Packet) (l : List Byte) (m : Model) (g : Program), q < 16 →
    s.fronts q 0x0505 p rest l → l.length = 272 → s.serv.model = some m → s.prog = some g →
    (slice 0 48 l ≠ digestBytes m.commit → exec (.explain q) s = .next ((s.take q rest).closes q p stDigest 2 [])) ∧
    (slice 0 48 l = digestBytes m.commit → slice 48 48 l ≠ digestBytes g.programDigest →
      exec (.explain q) s = .next ((s.take q rest).closes q p stDigest 0 [])) ∧
    (slice 0 48 l = digestBytes m.commit → slice 48 48 l = digestBytes g.programDigest →
      (s.take q rest).explainFault s.servInfo l = none → s.serv.passes.length < 64 →
      ∃ x : Explain, x.queue = q ∧ x.packet = p ∧ x.recSlot = leAt 192 2 l ∧ x.pos = leAt 196 4 l ∧ x.n = leAt 256 2 l ∧
        x.target = leAt 258 1 l ∧ x.events = leAt 240 8 l ∧ x.out = leAt 248 8 l ∧
        exec (.explain q) s = .next (State.issues
          { s.take q rest with serv := { s.serv with passes := s.serv.passes ++ [x] } } q p)))

/-- The batcher and the explanation unit (R342, R343, R347, R348, R350, R351, R353, R354). A batch takes the head request of every pending
slot where the provenance ring has room, else it waits with PRV_FULL; it completes with one RSEQ for each event it scored, and fails for
good only when it fails a second time; a pass borrows a free slot only while no batch is ready; its points run one after another. A result
on an uncorrectable line is a strand's read of it (R270; log 45). BATCH and RSEQ of a record, and what a failed batch leaves, are the
model's choices (log 45). -/
def Obligations.BatchesAndPasses : Prop :=
  (∀ s : State, s.waitDue = true → exec .maxWaitExpiry s = .next { s with serv := { s.serv with due := true } }) ∧
  (∀ s : State, s.batchReady = true → s.servRuns = false → s.busyWith 0x0502 = none →
    let reqs := s.pendingSlots.filterMap fun e => e.2.queue.head?
    (s.prvRoom (countEvents reqs) = true →
      answers .batchLaunch s fun t => t.serv.batch = some ⟨reqs, false⟩ ∧ t.serv.prvFull = false ∧ t.step.att ≠ none ∧
        t.serv.model = s.serv.model ∧ t.queues = s.queues ∧ t.prog = s.prog) ∧
    (s.prvRoom (countEvents reqs) = false →
      answers .batchLaunch s fun t => t.serv = { s.serv with prvFull := true, prvOut := t.serv.prvOut } ∧ eventOnly { s with serv := t.serv } t)) ∧
  (∀ (s : State) (g : Program) (m : Model) (b : Batch), s.canonical = true → s.prog = some g → s.serv.model = some m →
    s.serv.batch = some b → s.servDone = true → s.prvOutside (countEvents b.reqs) = [] → s.busyWith 0x0502 = none →
    s.badLines (s.resultLines s.servInfo (List.range (countEvents b.reqs))) = [] →
    answers .batchComplete s fun t => t.serv.batch = none ∧ t.step.att = none ∧ t.serv.model = some m ∧
      t.serv.rseq = s.serv.rseq + countEvents b.reqs) ∧
  (∀ (s : State) (a : Attempt) (cause : Nat) (b : Batch), s.step.att = some a → s.servCause = some cause → s.serv.batch = some b →
    (b.retried = false → answers .batchFault s fun t => t.serv.batch = some { b with retried := true } ∧ t.step.causes = [] ∧
      t.serv.slots = s.serv.slots) ∧
    (b.retried = true → answers .batchFault s fun t => t.serv.batch = none ∧ t.step.att = none)) ∧
  (∀ (s : State) (slot : Nat) (m : Model) (x : Explain) (rest : List Explain), s.serv.model = some m → s.serv.passes = x :: rest →
    (s.batchReady = true → exec (.explainPassStart slot) s = .next s) ∧
    (s.batchReady = false → s.serv.pass = none → s.serv.batch = none → s.busyWith 0x0502 = none → slot < 2048 →
      (s.slot slot).len = 0 → s.slotIdle slot = true →
      answers (.explainPassStart slot) s fun t => t.serv.passes = rest ∧
        ∀ p, t.serv.pass = some p → p.ex = x ∧ p.slot = slot ∧ p.point = 0 ∧ p.running = true)) ∧
  (∀ (s : State) (p : Pass), s.serv.pass = some p →
    (p.running = false → s.serv.batch = none → s.batchReady = false → s.busyWith 0x0502 = none →
      answers .pathPoint s fun t => t.serv.pass = some { p with running := true } ∧ t.step.att ≠ none) ∧
    (p.running = true → 0 < p.point → p.point < p.ex.n → s.servDone = true → s.canonical = true → s.busyWith 0x0502 = none →
      s.badLines (s.pointLines p) = [] →
      answers .pathPoint s fun t =>
        ∃ sum, t.serv.pass = some { p with running := false, retried := false, sum := sum, point := p.point + 1 }) ∧
    (p.running = true → s.servDone = false → exec .pathPoint s = .next s))

/-- STRAND_START and PHASE_BARRIER (R26, R215): a strand whose conditions hold starts, a kernel at the end of its Cutter's queue (R126); a
loss strand is checked for finiteness and is done at once, with a loss veto where a word is not finite; an uncorrectable line that it has
to read stops it (R270); a phase all of whose strands are done is closed, in a run-ahead only once those behind the loss are done too
(R223). A strand that the wellhead stops while it holds a cause (R216; log 77), or whose conditions do not hold, changes nothing. That
PHASE_BARRIER looks at this module's strands, that a loss strand is done as it starts, and that a row out of its condition changes
nothing, are the model's choices (logs 28, 73 and 2). -/
def Obligations.StrandsStartInOrder : Prop :=
  let ready (s : State) (ra : Bool) (g : Program) (a : Attempt) (t : Strand) : Prop :=
    s.prog = some g ∧ s.attempt ra = some a ∧ s.strand? t.id = some t ∧ (issuable ra g.strands).any (·.id == t.id) = true ∧
    active a t = true ∧ t.id ∉ a.started ∧ depsDone a (issuable ra g.strands) t = true ∧ phasesDone a (issuable ra g.strands) t = true ∧
    s.inOrder a (issuable ra g.strands) t = true ∧ s.clearFor g a (issuable ra g.strands) t = true ∧ s.waitsForReturn ra g t = false ∧
    s.firstBlocks g t.id = [] ∧ (ra = true → s.windowsFinal = true) ∧ (ra = false → s.heldBack g a t = false)
  (∀ (s : State) (ra : Bool) (g : Program) (a : Attempt) (t : Strand), ready s ra g a t → (∀ x n, t.kind ≠ .loss x n) →
    exec (.strandStart ra t.id) s = .next ((s.setAttempt ra { a with started := a.started ++ [t.id] }).queueKernel ra t)) ∧
  (∀ (s : State) (g : Program) (a : Attempt) (t : Strand) (x n : Nat), ready s false g a t → t.kind = .loss x n → t.id ∉ a.done →
    (s.badLines (s.strandLines x (4 * n)) = [] →
     ((s.loadWords x n).any notFinite = false →
      answers (.strandStart false t.id) s fun u =>
        u.step.att = some { a with started := a.started ++ [t.id], done := a.done ++ [t.id] } ∧ u.step.causes = s.step.causes) ∧
    ((s.loadWords x n).any notFinite = true →
      answers (.strandStart false t.id) s fun u =>
        u.step.att = some { a with started := a.started ++ [t.id], done := a.done ++ [t.id], vetoes := a.vetoes ++ [0xFFFF] } ∧
        u.step.causes = s.step.causes ++ [⟨1, 0xFFFF, .beforeAll, a.step, false⟩])) ∧
    (s.badLines (s.strandLines x (4 * n)) ≠ [] →
      exec (.strandStart false t.id) s = .next ((s.badLines (s.strandLines x (4 * n))).foldl (fun u l => u.lineUEFor false l 0 false)
        (s.setAttempt false { a with started := a.started ++ [t.id] })))) ∧
  (∀ (s : State) (g : Program) (a : Attempt) (id : Nat) (t : Strand), s.prog = some g → s.step.att = some a → s.strand? id = some t →
    s.heldBack g a t = true → exec (.strandStart false id) s = .next s) ∧
  (∀ (s : State) (g : Program) (a : Attempt) (t : Strand) (c : Cause), s.dom.held = [c] → troubleClear a g.strands = true →
    (∀ d, t.kind ≠ .coll d ∧ t.kind ≠ .hosted d) → (∀ x n, t.kind ≠ .statsPass x n) → (∀ d, t.kind ≠ .nsIter d) →
    s.heldBack g a t = true) ∧
  (∀ (s : State) (ra : Bool) (g : Program) (a : Attempt) (id : Nat) (t : Strand), s.prog = some g → s.attempt ra = some a →
    s.strand? id = some t →
    (id ∈ a.started ∨ depsDone a (issuable ra g.strands) t = false ∨ phasesDone a (issuable ra g.strands) t = false) →
    exec (.strandStart ra id) s = .next s) ∧
  (∀ (s : State) (ra : Bool) (g : Program) (a : Attempt) (ph : Nat), s.prog = some g → s.attempt ra = some a → ph ∉ a.phases →
    (∃ t ∈ g.strands, t.phase = ph ∧ active a t = true) →
    ((∀ t ∈ g.strands, t.phase = ph → active a t = true → t.id ∈ a.done) →
      exec (.phaseBarrier ra ph) s = .next (s.setAttempt ra { a with phases := a.phases ++ [ph] })) ∧
    ((∃ t ∈ g.strands, t.phase = ph ∧ active a t = true ∧ t.id ∉ a.done) →
      exec (.phaseBarrier ra ph) s = .next s))

/-- A Facet takes a task (R83, R92, R103, R109, R110, R115, R151): MODE_CHANGE and TASK_DESCRIPTOR issue the next descriptor in its mode,
SCALE_LOAD loads its 128 scales, INCLUSION_TASK writes the sums of the cluster's next task in issue order once its operands are in place,
STOP_RAMP ends its issuing where no slice is left or the issue gate ends its part of the window (R425). A change of mode starts at bank 0,
each partition has its own scale sets, a held slice resumes as the row says, inclusions run one after another, and the places of a tile's
sums are the model's choices (logs 79, 81, 80, 46 and 30). -/
def Obligations.FacetTakesTasks : Prop :=
  (∀ (s : State) (f : Nat) (r : Bool) (a : Attempt) (t : Strand) (d : TileDesc), s.nextTask f = some (r, a, t, d) →
    (s.facet f).tasks = [] → s.usable f = true →
    exec (.modeChange f) s = .next (s.setFacet f { s.facet f with mode := d.mode, banks := [] })) ∧
  (∀ (s : State) (g : Program) (ra ramping : Bool) (a : Attempt) (t : Strand) (d : TileDesc), s.prog = some g →
    s.strand? t.id = some t → t.kind = .tile d → s.nextTask (s.physFacet d) = some (ra, a, t, d) →
    s.usable (s.physFacet d) = true → (s.facet (s.physFacet d)).mode = d.mode → s.sameFormat (s.physFacet d) d = true →
    s.stopped ra t = false → s.sampled g a d (s.physFacet d) = false →
    answers (.taskDescriptor ra t.id ramping) s fun u =>
      let f := s.physFacet d
      let n := Bank.get (fun _ => 0) (s.facet f).banks d.pidx
      u.units = (s.setFacet f { s.facet f with
        tasks := (s.facet f).tasks ++ [{ id := t.id, ra := ra, pidx := d.pidx, bank := n, turn := s.nextTurn (facetCluster f) }]
        banks := Bank.put (fun _ => 0) (s.facet f).banks d.pidx ((n + 1) % 2)
        issuing := true }).units ∧
      u.mem = s.mem ∧ u.step = s.step ∧ u.prog = s.prog ∧ u.queues = s.queues ∧
      ∀ x, x ≠ regAddr .fct f 0x70 → u.regAt x = s.regAt x) ∧
  (∀ (s : State) (f : Nat), (s.facet f).issuing = true →
    (s.hasSlice f = false ∨ s.duty < 8) →
    answers (.stopRamp f) s fun u => u.units = (s.setFacet f { s.facet f with issuing := false }).units ∧ u.regs = s.regs ∧
      u.mem = s.mem ∧ u.step = s.step) ∧
  (∀ (s : State) (f pidx : Nat) (t : FTask) (ts : List FTask) (d : TileDesc),
    ((s.facet f).tasks.filter fun t => t.pidx == pidx) = t :: ts → t.scales = none → s.tileOf t = some d →
    exec (.scaleLoad f pidx) s = .next (s.setFacet f ((s.facet f).putTask
      { t with scales := some (s.words (poolAddr (facetCluster f) d.scales) 128) }))) ∧
  (∀ (s : State) (f pidx : Nat) (fault : CutFault),
    (s.inclNext f pidx = none ∨ ∃ t d n, s.inclNext f pidx = some (t, d, n) ∧ s.inclWaits (facetCluster f) t n = true) →
    exec (.inclusionTask ⟨f, pidx⟩ fault) s = .next s) ∧
  (∀ (s : State) (f pidx : Nat) (t : FTask) (d : TileDesc) (n : InclDesc),
    s.inclNext f pidx = some (t, d, n) ↔ s.inclHead (facetCluster f) = some (f % 4, t, d) ∧ t.pidx = pidx ∧ d.incl = some n) ∧
  (∀ (s : State) (f pidx : Nat) (t : FTask) (d : TileDesc) (n : InclDesc) (a : Attempt), s.canonical = true →
    s.inclNext f pidx = some (t, d, n) → s.attempt t.ra = some a → s.inclWaits (facetCluster f) t n = false →
    let c := facetCluster f
    answers (.inclusionTask ⟨f, pidx⟩ .none) s fun u =>
      u.mem = ((List.range (partRows d.mode)).foldl (fun v r =>
        v.putWords (poolAddr c n.result + 4 * (64 * (d.row0 + r) + d.col0))
          ((List.range (partCols d.mode)).map fun k => s.inclSum c n (d.row0 + r) (d.col0 + k))) s).mem ∧
      u.units = (s.setFacet f ((s.facet f).putTask { t with incl := true })).units ∧ u.step = s.step ∧
      (u.reg .inc (facetCluster f) 0x10).toNat = ((s.reg .inc (facetCluster f) 0x10).toNat + 1) % 2 ^ 32 ∧
      ∀ b, (b < poolAddr (facetCluster f) n.result + 4 * (64 * d.row0 + d.col0) ∨
          poolAddr (facetCluster f) n.result + 4 * (64 * (d.row0 + partRows d.mode) + d.col0 + partCols d.mode) ≤ b) →
        u.byte b = s.byte b)

/-- K_GROUP_RESCALE and DRAIN_ROW_READ (R72, R86 to R92, R95, R109, R110): a cell folds its next K-group into its accumulator, and a SKEW
discards the task; the drain reads a row once every cell of it is folded, scales it and delivers it to the row's place in DEST, where no
other byte changes, or to the fused drain kernel of its task. The place of a drained row is the model's reading (log 30). TASK_REPLAY and
TASK_COMPLETE (R94 to R97): a faulted task is issued again once in an attempt, discarded, in its bank, and reads of operands that do not
fit in the halves what it has read before, whatever the halves hold then (R96; that the copies that bring them again are not rows of their
own is the model's choice, log 40); a task whose last row has been delivered leaves its Facet and its strand is done. How far FCT_ACTIVE
advances is free (log 70). -/
def Obligations.FacetFoldsDrainsCompletes : Prop :=
  ((∀ (s : State) (f pidx r c : Nat) (ramping : Bool) (g : Program) (t : FTask) (d : TileDesc) (a : Attempt), s.prog = some g →
     s.foldTask f pidx r c = some (t, d) → s.attempt t.ra = some a → r < partRows d.mode → c < partCols d.mode →
     let k := (t.cell r c).1
     let u := if (s.facet f).issuing then s else s.beginIssue f ramping d.format
     let oa := u.operand f t d false (partRow0 d.mode d.pidx + r) k
     let ob := u.operand f t d true (partCol0 d.mode d.pidx + c) k
     (d.format = .f16 ∨ (u.tagsOk f t d k = true ∧ u.illegalBlocks f t d k r c = u ∧ u.inLoupe f t = false)) →
     exec (.kGroupRescale f pidx r c ⟨.none, ramping⟩) s = .next (u.setFacet f ((u.facet f).putTask
       { t with
           cells := Bank.put cellDefault t.cells (64 * r + c)
             (k + 1, foldGroup d oa ob (t.cell r c).2 (u.drawFor g a.step f d k (d.row0 + r) (d.col0 + c)))
           fetched := if operandsFit d then t.fetched
             else Bank.put operandDefault
               (Bank.put operandDefault t.fetched (operandKey false (partRow0 d.mode d.pidx + r) k) oa)
               (operandKey true (partCol0 d.mode d.pidx + c) k) ob }))) ∧
   (∀ (s : State) (f : Nat) (ramping : Bool) (fmt : PFmt), (s.facet f).issuing = false → s.canonical = true → fmt ≠ .cnm →
     ((s.beginIssue f ramping fmt).reg .fct f 0x70).toNat =
       if ramping then (s.reg .fct f 0x70).toNat else ((s.reg .fct f 0x70).toNat + 1) % 2 ^ 32) ∧
   (∀ (s : State) (f pidx r c : Nat) (g : Program) (t : FTask) (d : TileDesc) (a : Attempt), s.prog = some g →
     s.foldTask f pidx r c = some (t, d) → s.attempt t.ra = some a → t.ra = false → r < partRows d.mode → c < partCols d.mode →
     ∃ v, eventOnly (s.setFacet f ((s.facet f).putTask { t.discard with faulted := true })) v ∧
       ((v.facet f).replayed.contains (t.id, t.ra) = false → ∀ b, exec (.kGroupRescale f pidx r c ⟨.skew, b⟩) s = .next v)) ∧
   (∀ (s : State) (f pidx : Nat) (t : FTask) (ts : List FTask) (d : TileDesc) (a : Attempt) (v : List Word), s.canonical = true →
     (s.facet f).live pidx = t :: ts → s.tileOf t = some d → t.next < partRows d.mode → s.attempt t.ra = some a →
     t.scales = some v → rowFolded t d t.next = true → d.incl = none → s.inLoupe f t = false →
     (s.drainRow f t d v).any notFinite = false → d.fused = 0 →
     answers (.drainRowRead f pidx false) s fun u =>
       u.mem = (s.putWords (s.destOf f d t.next) (s.drainRow f t d v)).mem ∧
       u.units = (s.setFacet f ((s.facet f).putTask
         { t with next := t.next + 1, cells := Bank.drop (fun k => k / 64 == t.next) t.cells })).units ∧
       u.regs = s.regs ∧ u.step = s.step ∧ u.log = s.log ∧
       (∀ b, (b < s.destOf f d t.next ∨ s.destOf f d t.next + 4 * partCols d.mode ≤ b) → u.byte b = s.byte b)) ∧
   (∀ (s : State) (f pidx : Nat) (t : FTask) (ts : List FTask) (d : TileDesc) (a : Attempt) (v : List Word),
     (s.facet f).live pidx = t :: ts → s.tileOf t = some d → t.next < partRows d.mode → s.attempt t.ra = some a →
     t.scales = some v → rowFolded t d t.next = true → d.incl = none → s.inLoupe f t = false →
     (s.drainRow f t d v).any notFinite = false → d.fused ≠ 0 →
     exec (.drainRowRead f pidx false) s = .next (s.setFacet f ((s.facet f).putTask
       { t with next := t.next + 1, cells := Bank.drop (fun k => k / 64 == t.next) t.cells
                chunks := t.chunks ++ [(t.next, s.drainRow f t d v)] }))) ∧
   (∀ (s : State) (f pidx : Nat) (parity : Bool) (t : FTask) (ts : List FTask) (d : TileDesc),
     (s.facet f).live pidx = t :: ts → s.tileOf t = some d → t.next < partRows d.mode → rowFolded t d t.next = false →
     exec (.drainRowRead f pidx parity) s = .next s)) ∧
  ((∀ (s : State) (f pidx : Nat) (ramping : Bool) (t : FTask) (d : TileDesc), (s.facet f).tasks = [t] → t.pidx = pidx →
     t.faulted = true → (s.facet f).replayed.contains (t.id, t.ra) = false → s.tileOf t = some d →
     let u := (s.setFacet f { s.facet f with
       tasks := [{ t.discard with faulted := false }]
       banks := Bank.put (fun _ => 0) (s.facet f).banks pidx ((t.bank + 1) % 2)
       replayed := (s.facet f).replayed ++ [(t.id, t.ra)] }).bump .fct f 0x6C 1
     exec (.taskReplay ⟨f, pidx⟩ ramping) s = .next (u.beginIssue f ramping d.format)) ∧
   (∀ (s : State) (f i k : Nat) (half : Bool) (t : FTask) (d : TileDesc) (o : Operand), o.codes ≠ [] →
     Bank.get operandDefault t.fetched (operandKey half i k) = o → s.operand f t.discard d half i k = o) ∧
   (∀ (s : State) (f pidx : Nat) (ramping : Bool), (∀ t ∈ (s.facet f).tasks, t.faulted = false ∨ (s.facet f).replayed.contains (t.id, t.ra) = true) →
     exec (.taskReplay ⟨f, pidx⟩ ramping) s = .next s) ∧
   (∀ (s : State) (f pidx : Nat) (g : Program) (t : FTask) (ts : List FTask) (d : TileDesc) (a : Attempt), s.prog = some g →
     (s.facet f).live pidx = t :: ts → s.tileOf t = some d → partRows d.mode ≤ t.next → d.fused = 0 → s.attempt t.ra = some a →
     answers (.taskComplete f pidx) s fun u =>
       u.units.facets = (s.setFacet f { s.facet f with
         tasks := (s.facet f).tasks.filter fun q => !(q.id == t.id && q.ra == t.ra) }).units.facets ∧
       (∃ b, u.attempt t.ra = some b ∧ t.id ∈ b.done) ∧ u.mem = s.mem ∧ u.prog = s.prog ∧ u.queues = s.queues))

/-- The fused drain kernels (R156 to R160): each reduces one row that the drain delivered to it and stores its chunk statistic at place
(row, c) of the statistics area that DEST names (its layout is the model's choice, log 31): the sum of squares, the maximum and the sum of
exponentials over the elements the mask leaves (an excluded element is +0; a chunk all of -inf leaves NaN, R158), and the two dot
products; SMX_STAT also stores the scores. A CUT_FAULT or an uncorrectable pool error takes the place of all of it; without such a row, or
with operands that are not those of the task's descriptor, nothing happens. A NaN score makes the maximum a NaN (log 32). The element
kernels without a quantised output (R126 to R128, R131): ADD and MUL of two panels, SCALE, RELU and SILU of one, element by element into
the destination; KERNEL_COMPLETE then counts the kernel and its strand is done. -/
def Obligations.FusedAndElementKernels : Prop :=
  (let at' (s : State) (f pidx n row : Nat) (t : FTask) (d : TileDesc) (z : List Word) (a : Attempt) (x : Strand) : Prop :=
     s.fusedTask f pidx n row = some (t, d, z) ∧ s.attempt t.ra = some a ∧ s.strand? t.id = some x ∧
     (s.cutter (facetCluster f)).halted = false
   let done (u : State) (f row : Nat) (t : FTask) (d : TileDesc) (x : Strand) (v : List Word) : State :=
     let w := u.putWords (statAddr (facetCluster f) d row v.length) v
     (w.setFacet f ((w.facet f).putTask
       { t with chunks := t.chunks.filter fun e => e.1 != row, stats := t.stats ++ [row] })).backwardVeto t.ra x (v.any notFinite)
   (∀ (s : State) (f pidx row : Nat) (t : FTask) (d : TileDesc) (z : List Word) (a : Attempt) (x : Strand),
     at' s f pidx 1 row t d z a x →
     exec (.rmsStat f pidx row .none) s = .next (done s f row t d x [sum64 (z.map fun v => fMul v v)])) ∧
   (∀ (s : State) (f pidx row : Nat) (t : FTask) (d : TileDesc) (z : List Word) (a : Attempt) (x : Strand),
     at' s f pidx 2 row t d z a x →
     let keep (i : Nat) : Bool := !excluded d.fk.causal (s.rowPos d.fk.pos0 (d.row0 + row)) (64 * d.fk.c + d.col0 + i)
     let m := (z.zipIdx.filter fun e => keep e.2).foldl (fun b e => smxMax b e.1) ninf32
     exec (.smxStat f pidx row .none d.fk.causal d.fk.pos0 d.fk.z) s = .next
       (done (s.putWords (rowAddr (facetCluster f) d.fk.z d row 0) z) f row t d x
         [m, sum64 (z.zipIdx.map fun e => if !keep e.2 then 0 else fExp (fSub e.1 m))])) ∧
   (∀ (s : State) (f pidx row : Nat) (t : FTask) (d : TileDesc) (z : List Word) (a : Attempt) (x : Strand),
     at' s f pidx 3 row t d z a x →
     let p (i : Nat) : Word × Bool := s.fusedP (facetCluster f) d row i
     (∀ i, i < z.length → (p i).2 = false) →
     exec (.smxDot f pidx row .none d.fk.pFmt d.fk.pBlk d.fk.pCodes d.fk.pExps d.fk.pitch) s = .next
       (done s f row t d x [sum64 (z.zipIdx.map fun e => fMul e.1 (p e.2).1)])) ∧
   (∀ (s : State) (f pidx row : Nat) (t : FTask) (d : TileDesc) (z : List Word) (a : Attempt) (x : Strand),
     at' s f pidx 4 row t d z a x →
     exec (.rmsDot f pidx row .none d.fk.gamma d.fk.x) s = .next (done s f row t d x [sum64 (z.zipIdx.map fun e =>
       fMul (fMul (s.word (poolAddr (facetCluster f) d.fk.gamma + 4 * (d.fk.col + d.col0 + e.2))) e.1)
         (s.word (rowAddr (facetCluster f) d.fk.x d row e.2)))])) ∧
   (∀ (s : State) (f pidx n row : Nat) (fault : CutFault) (t : FTask) (d : TileDesc) (z : List Word) (a : Attempt) (x : Strand)
     (cmd : Instr), at' s f pidx n row t d z a x → fatalFault fault = true →
     (n = 1 ∧ cmd = .rmsStat f pidx row fault ∨ n = 2 ∧ cmd = .smxStat f pidx row fault d.fk.causal d.fk.pos0 d.fk.z ∨
       n = 3 ∧ cmd = .smxDot f pidx row fault d.fk.pFmt d.fk.pBlk d.fk.pCodes d.fk.pExps d.fk.pitch ∨
       n = 4 ∧ cmd = .rmsDot f pidx row fault d.fk.gamma d.fk.x) →
     exec cmd s = .next (s.cutFaulted t.ra a x (facetCluster f) fault)) ∧
   (∀ (s : State) (f pidx row : Nat) (fault : CutFault) (causal : Bool) (fmt : Option Fmt) (i j k l : Nat),
     (∀ n, s.fusedTask f pidx n row = none) →
     exec (.rmsStat f pidx row fault) s = .next s ∧ exec (.smxStat f pidx row fault causal i j) s = .next s ∧
     exec (.smxDot f pidx row fault fmt i j k l) s = .next s ∧ exec (.rmsDot f pidx row fault i j) s = .next s) ∧
   (∀ (s : State) (f pidx n row : Nat) (fault : CutFault) (t : FTask) (d : TileDesc) (z : List Word) (a : Attempt) (x : Strand)
     (causal : Bool) (fmt : Option Fmt) (i j k l : Nat), at' s f pidx n row t d z a x →
     (n = 2 → ¬(d.fk.causal = causal ∧ d.fk.pos0 = i ∧ d.fk.z = j) → exec (.smxStat f pidx row fault causal i j) s = .next s) ∧
     (n = 3 → ¬(d.fk.pFmt = fmt ∧ d.fk.pBlk = i ∧ d.fk.pCodes = j ∧ d.fk.pExps = k ∧ d.fk.pitch = l) →
       exec (.smxDot f pidx row fault fmt i j k l) s = .next s) ∧
     (n = 4 → ¬(d.fk.gamma = i ∧ d.fk.x = j) → exec (.rmsDot f pidx row fault i j) s = .next s))) ∧
  (let head (s : State) (ra : Bool) (g : Program) (a : Attempt) (t : Strand) (c : Nat) : Prop :=
     s.prog = some g ∧ s.attempt ra = some a ∧ s.strand? t.id = some t ∧ s.headKernel c = some (ra, t) ∧
     (s.cutter c).kernel = none ∧ (s.cutter c).halted = false ∧ s.stopped ra t = false ∧ (ra = true → s.holdRoom g a t = true)
   (∀ (s : State) (ra : Bool) (g : Program) (a : Attempt) (t : Strand) (d : ElemDesc),
     let c := s.physCluster d.cluster
     let x (i : Nat) : Word := s.word (poolAddr c d.a + 4 * i)
     let y (i : Nat) : Word := s.word (poolAddr c d.b + 4 * i)
     let put (v : Nat → Word) : State :=
       let l := (List.range d.n).map v
       let u := (s.putWords (poolAddr c d.dst) l).backwardVeto ra t (l.any notFinite)
       u.setCutter c { u.cutter c with kernel := some (t.id, ra, true), waiting := false }
     head s ra g a t c → t.kind = .elem d → d.quant = none →
     (d.op = .add → exec (.elemAdd ra t.id .none) s = .next (put fun i => fAdd (x i) (y i))) ∧
     (d.op = .mul → exec (.elemMul ra t.id .none) s = .next (put fun i => fMul (x i) (y i))) ∧
     (d.op = .scale → exec (.elemScale ra t.id .none) s = .next (put fun i => fMul (x i) d.scale)) ∧
     (d.op = .relu → exec (.elemRelu ra t.id .none) s = .next (put fun i => match fl32 (x i) with
       | .nan => nan32
       | v => if v.isNeg ∨ v.isZero then 0 else x i)) ∧
     (d.op = .silu → exec (.elemSilu ra t.id .none) s = .next (put fun i =>
       fMul (x i) (fDiv fOne (fAdd fOne (fExp (fSub 0 (x i)))))))) ∧
   (∀ (s : State) (c id : Nat) (ra : Bool) (g : Program) (a : Attempt), s.prog = some g → s.attempt ra = some a →
     (s.cutter c).kernel = some (id, ra, true) → (s.cutter c).halted = false →
     answers (.kernelComplete c) s fun u =>
       u.units.cutters = (s.setCutter c { s.cutter c with
         queue := (s.cutter c).queue.filter fun k => k != (id, ra), kernel := none, waiting := false }).units.cutters ∧
       (∃ b, u.attempt ra = some b ∧ id ∈ b.done) ∧ u.regs = (s.bump .cut c 0x40 1).regs ∧ u.mem = s.mem))

/-- The quantising kernels (R130 to R147, R157 to R160, R163, R166): a first pass whose group amaxes are known writes its copies unless a
history line is uncorrectable (R270), an apply kernel also its panel and its side results; one that waits for an amax writes nothing and
stays at the head. A CUT_FAULT or an uncorrectable pool error halts the Cutter and reports a cause for an abort. The tally's JIT bit,
counts of CUT_JIT and COLD_START (log 82), the counts of poisoned blocks (log 60), the order of a leaf (log 62) and the descriptor's
fields (log 31) are the model's choices. -/
def Obligations.QuantisingKernels : Prop :=
  let head (s : State) (ra : Bool) (g : Program) (a : Attempt) (t : Strand) (c : Nat) : Prop :=
    s.prog = some g ∧ s.attempt ra = some a ∧ s.strand? t.id = some t ∧ s.headKernel c = some (ra, t) ∧
    (s.cutter c).kernel = none ∧ (s.cutter c).halted = false ∧ s.stopped ra t = false ∧ (ra = true → s.holdRoom g a t = true)
  (∀ (s u : State) (ra : Bool) (g : Program) (a : Attempt) (t : Strand) (q : QuantDesc) (w : Bool) (bad : Nat),
    let c := s.physCluster q.cluster
    head s ra g a t c → t.kind = .quant q →
    (s.badLines (s.historyLines g t) = [] → s.quantPath g ra t c q (s.quantPanel c q) true = (u, w, bad) →
      let v := u.backwardVeto ra t (decide (0 < bad))
      exec (.quant ra t.id .none) s = .next (v.setCutter c { v.cutter c with kernel := some (t.id, ra, w), waiting := !w })) ∧
    (s.badLines (s.historyLines g t) ≠ [] → exec (.quant ra t.id .none) s =
      .next ((s.badLines (s.historyLines g t)).foldl (fun v l => v.lineUEFor ra l 0 false) s))) ∧
  (∀ (s u : State) (ra : Bool) (g : Program) (a : Attempt) (t : Strand) (d : ApplyDesc) (bad : Nat) (cmd : Instr),
    let c := s.physCluster d.cluster
    head s ra g a t c → t.kind = .apply d → s.badLines (s.historyLines g t) = [] →
    (cmd = .rmsApply ra t.id .none ∧ d.kind = .rmsApply ∨ cmd = .rmsBwdApply ra t.id .none ∧ d.kind = .rmsBwdApply ∨
      cmd = .smxApply ra t.id .none ∧ d.kind = .smxApply ∨ cmd = .smxBwdApply ra t.id .none ∧ d.kind = .smxBwdApply) →
    let panel := (List.range d.rows).map (s.applyRow c d)
    (s.quantPath g ra t c d.quant panel true = (u, false, bad) →
      exec cmd s = .next (u.setCutter c { u.cutter c with kernel := some (t.id, ra, false), waiting := true })) ∧
    (s.quantPath g ra t c d.quant panel true = (u, true, bad) →
      let x := (u.putWords (poolAddr c d.dst) (panel.flatMap id)).applySide ra a t c d
      let v := x.backwardVeto ra t (decide (0 < bad) || (panel.any fun l => l.any notFinite) || x.sideBad c d)
      exec cmd s = .next (v.setCutter c { v.cutter c with kernel := some (t.id, ra, true), waiting := false }))) ∧
  (∀ (s u : State) (ra : Bool) (g : Program) (a : Attempt) (t : Strand) (d : ElemDesc) (q : QuantDesc) (w : Bool) (bad : Nat)
    (cmd : Instr),
    let c := s.physCluster d.cluster
    head s ra g a t c → t.kind = .elem d → d.quant = some q → s.badLines (s.historyLines g t) = [] →
    (cmd = .elemAdd ra t.id .none ∧ d.op = .add ∨ cmd = .elemMul ra t.id .none ∧ d.op = .mul ∨
      cmd = .elemScale ra t.id .none ∧ d.op = .scale ∨ cmd = .elemRelu ra t.id .none ∧ d.op = .relu ∨
      cmd = .elemSilu ra t.id .none ∧ d.op = .silu) →
    let panel := runsOf q.pc (s.elemOut c d)
    (s.putWords (poolAddr c d.dst) (s.elemOut c d)).quantPath g ra t c q panel true = (u, w, bad) →
    let v := if w then u.backwardVeto ra t (decide (0 < bad) || panel.any fun l => l.any notFinite) else u
    exec cmd s = .next (v.setCutter c { v.cutter c with kernel := some (t.id, ra, w), waiting := !w })) ∧
  (∀ (s : State) (ra : Bool) (g : Program) (a : Attempt) (t : Strand) (q : QuantDesc) (fault : CutFault),
    let c := s.physCluster q.cluster
    head s ra g a t c → t.kind = .quant q → fatalFault fault = true →
    exec (.quant ra t.id fault) s = .next (s.cutFaulted ra a t c fault) ∧
    (ra = false → (s.cutFaulted ra a t c fault).step = { s.step with
      causes := s.step.causes ++ [⟨0x10, 0xFFFF, .outside, a.step, false⟩] })) ∧
  (∀ (s : State) (g : Program) (a : Attempt) (t : Strand) (q : QuantDesc),
    let c := s.physCluster q.cluster
    head s false g a t c → t.kind = .quant q →
    answers (.quant false t.id .cutFault) s fun u =>
      u.units = (s.setCutter c { s.cutter c with halted := true, waiting := false, kernel := some (t.id, false, false) }).units ∧
      u.step = { s.step with causes := s.step.causes ++ [⟨0x10, 0xFFFF, .outside, a.step, false⟩] } ∧
      eventOnly { s with units := u.units, step := u.step } u)

/-- The decision of R181 on the copies in trouble: none is CLEAR; domain or spill trouble, trouble of copies all in J already, or a full
replay count widens by exactly one rung, with the count at 0, as GLOBAL where the share of widened layers exceeds its limit; at F16 it is
EXHAUSTED; anything else is a REPLAY that adds the copies to J and one to the count. -/
def Obligations.JudgeFollowsTheTable : Prop :=
  ∀ (s : State) (g : Program) (a : Attempt) (l : Nat) (ts : List Trouble),
    let v := s.judge g a l ts
    let x := a.layer l
    let worse : Prop := ts.any (·.now) = true ∨ ts.all (inJ g x) = true ∨ x.c = s.field .policy 0 0x10 0 4
    (ts = [] → v.decision = .clear ∧ v.layer = x ∧ v.w = a.w) ∧
    (ts ≠ [] → worse → x.rung = .f16 → v.decision = .exhausted ∧ v.layer = x ∧ v.w = a.w) ∧
    (ts ≠ [] → worse → x.rung ≠ .f16 →
      v.layer.rung = Rung.up x.rung ∧ v.layer.c = 0 ∧ v.layer.widened = true ∧ v.w = (if x.widened then a.w else a.w + 1) ∧
      (v.decision = .global ↔
        a.wide = false ∧ a.rerun = false ∧ s.field .policy 0 0x10 8 8 * g.layers.length < 64 * v.w) ∧
      (v.decision = .widen ∨ v.decision = .global) ∧ joins x ts v.layer) ∧
    (ts ≠ [] → ¬worse → v.decision = .replay ∧ v.layer.rung = x.rung ∧ v.layer.c = x.c + 1 ∧ v.layer.widened = x.widened ∧
      v.w = a.w ∧ joins x ts v.layer) ∧
    (∀ t : Trouble, inJ g x t = true ↔
      (t.tensor, t.col) ∈ x.jit ∨ ∃ c ∈ g.copies, c.tensor = t.tensor ∧ c.col = t.col ∧ c.loc = true)

/-- VERDICT_POINT and REPORT (R169, R181, R186, R188, R189): a module reports a segment once every strand of it is done; a report that is
complete goes to the parent, and at the wellhead, in program order of the segments, it is decided on the copies in trouble (CLEAR in a CNM
program) and the DECISION is sent; a GLOBAL gives way to a complete report that is EXHAUSTED. The reports that meet in one decision round
are those complete at the wellhead as a GLOBAL is decided (the model's choice, log 89). The five decisions on any module (R182 to R185,
R188): CLEAR marks the segment at the rung it ran at; REPLAY and WIDEN put the layer in its new state and discard the segment's pass, with
the phase barriers of its strands, counted in HUB_REPLAYS or HUB_WIDENS; GLOBAL abandons the attempt for a whole-step rerun under the same
number, counted in HUB_GLOBALS; EXHAUSTED aborts at the wellhead, and goes before the ABORT that it brings on a member (R185; any other
ABORT goes before every decision, log 89). What is discarded with a segment: the strands of its pass from it on that are not CLEAR, but a
collective whose sources none of them wrote (R183). A run-ahead meets GLOBAL and EXHAUSTED by being squashed. Each decision but CLEAR
raises its flag. (That squash is the model's reading, log 27.) -/
def Obligations.ReportsAndDecisions : Prop :=
  ((∀ (s : State) (ra : Bool) (g : Program) (a : Attempt) (l : Nat) (b : Bool), s.prog = some g → s.attempt ra = some a →
     g.serving = false → segStrands a g.strands l b ≠ [] → (a.seg l b).clear = false → (a.seg l b).reported = false →
     s.loupesDone ra l b = true →
     ((∀ t ∈ segStrands a g.strands l b, t.id ∈ a.done) →
       exec (.verdictPoint ra l b) s = .next ((s.setAttempt ra (a.setSeg l b { a.seg l b with reported := true })).addOwn
         (s.domFrame 6 false a.step a.number (reportArg l b (a.seg l b).tries) (encN (s.reportFields g a l b))))) ∧
     ((∃ t ∈ segStrands a g.strands l b, t.id ∉ a.done) → exec (.verdictPoint ra l b) s = .next s)) ∧
   (∀ (s t : State) (g : Program) (ra : Bool) (a : Attempt) (f : DomFrame),
     s.sumsIf 6 (fun h => !s.isWellhead || s.reportInTurn h) f t → s.hasDown 7 = false → s.hasDown 0x11 = false → t.prog = some g →
     t.attemptOf f.step = some (ra, a) → fld f 0 = a.base →
     let l := f.arg % 2 ^ 11 / 2
     let b := f.arg % 2 ^ 11 % 2 == 1
     f.arg / 2 ^ 11 = (a.seg l b).tries →
     let ts := t.troubles g f l b
     let v := t.judge g a l (if isCnm g then [] else ts)
     (v.decision ≠ .global ∨ t.exhaustedBeside = none →
       exec .report s = .next (t.sendDown (t.domFrame 7 true a.step a.number f.arg (encN (decisionFields a.base l b v ts))))) ∧
     (∀ f2 u, v.decision = .global → t.exhaustedBeside = some (f2, u) → exec .report s = .next (u.decideReport f2))) ∧
   (∀ (s t : State) (f : DomFrame), s.sumsBelow 6 f t → exec .report s = .next (t.toParent f)) ∧
   (∀ s : State, s.takeCombined 6 (fun h => !s.isWellhead || s.reportInTurn h) = none → exec .report s = .next s)) ∧
  ((∀ (s t : State) (g : Program) (a : Attempt) (f : DomFrame), s.decides 0 g false a f t →
     answers .decisionClear s fun u => u.step.att =
       some (a.setSeg (fld f 1) (fld f 2 == 1)
         { a.seg (fld f 1) (fld f 2 == 1) with clear := true, rung := a.rungAt (fld f 1) }) ∧ u.prog = s.prog) ∧
   (∀ (s t : State) (g : Program) (a : Attempt) (f : DomFrame), s.decides 0 g true a f t →
     let b := a.setSeg (fld f 1) (fld f 2 == 1) { a.seg (fld f 1) (fld f 2 == 1) with clear := true, rung := a.rungAt (fld f 1) }
     (answers .decisionClear s fun u => u.step.att = s.step.att ∧ ∃ c, u.step.ra = some c ∧ c = { b with records := c.records }) ∧
     (decisionTroubles f = [] → exec .decisionClear s = .next (t.setAttempt true b))) ∧
   (∀ (s t : State) (g : Program) (a : Attempt) (f : DomFrame) (cmd : Instr) (kind : Nat) (w : Bool),
     (cmd = .decisionReplay ∧ kind = 1 ∧ w = false ∨ cmd = .decisionWiden ∧ kind = 2 ∧ w = true) →
     s.decides kind g false a f t →
     let l := fld f 1
     let segs := rolledBack a g.strands l (fld f 2 == 1)
     let ids := t.discarded g a segs
     let b : Attempt := { a.setLayer l (decidedLayer a l f w (!w)) with w := fld f 6 }
     let o := if w then 0x64 else 0x60
     answers cmd s fun u =>
       u.step.att = some (b.rollback segs ids (tensorsOf g.strands ids) ((g.strands.filter fun x => ids.contains x.id).map (·.phase))) ∧
       u.step.ra = s.step.ra ∧ u.prog = s.prog ∧ (∀ i ∈ ids, ∀ c, u.step.att = some c → i ∉ c.started ∧ i ∉ c.done) ∧
       u.reg .policy 0 o = s.reg .policy 0 o + 1 ∧ (s.mainOn = true → s.canonical = true → flagSet u .policy 0 (if w then 4 else 3))) ∧
   (∀ (s t : State) (g : Program) (a : Attempt) (f : DomFrame), s.decides 3 g false a f t →
     answers .decisionGlobal s fun u => u.step.att = none ∧ u.step.ra = none ∧ u.step.rerunNext = true ∧
       u.step.nextAttempt = a.number ∧ u.step.retries = s.step.retries ∧ u.prog = s.prog ∧
       u.reg .policy 0 0x68 = s.reg .policy 0 0x68 + 1 ∧ (s.mainOn = true → s.canonical = true → flagSet u .policy 0 5)) ∧
   (∀ (s t : State) (g : Program) (a : Attempt) (f : DomFrame), s.decides 4 g false a f t →
     answers .decisionExhausted s fun u => (s.isWellhead = true → u.hasDown 0x11 = true) ∧ u.step.att = some a ∧
       (s.mainOn = true → s.canonical = true → flagSet u .policy 0 7)) ∧
   (∀ (s u : State) (x : RxFrame) (g : Program) (a : Attempt) (f : DomFrame), s.takeFrame (isDecision 4) = some (x, f, u) →
     u.isWellhead = false → s.exhaustAbort = true → (u.passDown f).prog = some g → (u.passDown f).attemptOf f.step = some (false, a) →
     fld f 0 = a.base →
     answers .decisionExhausted s fun v => v.step.att = some a ∧ (s.mainOn = true → s.canonical = true → flagSet v .policy 0 7)) ∧
   (∀ s : State, s.hasDown 0x11 = true →
     exec .decisionClear s = .next s ∧ exec .decisionReplay s = .next s ∧ exec .decisionWiden s = .next s ∧
     exec .decisionGlobal s = .next s ∧ (s.exhaustAbort = false → exec .decisionExhausted s = .next s)) ∧
   (∀ (s t : State) (g : Program) (a : Attempt) (f : DomFrame),
     (s.decides 3 g true a f t → answers .decisionGlobal s fun u => u.step.ra = none ∧ u.step.att = s.step.att ∧
       (s.mainOn = true → s.canonical = true → flagSet u .policy 0 5)) ∧
     (s.decides 4 g true a f t → answers .decisionExhausted s fun u => u.step.ra = none ∧ u.step.att = s.step.att ∧
       (s.mainOn = true → s.canonical = true → flagSet u .policy 0 7))))

/-- STEP_OPEN and OPEN (R29, R222, R223, R253, R409): the wellhead latches the step size and sends OPEN; a step without an armed size
blocks with one LR_MISSING; OPEN starts an attempt with nothing done under the number, base and step of the message, or makes the
run-ahead of that step and base the attempt, and ends the halt; it waits for a restore that is in progress (R385) and, where it writes V
pages, for an epoch (R287). The flag by which an OPEN ends a halt is the model's choice (log 29). -/
def Obligations.StepsOpen : Prop :=
  (∀ s : State, s.mayOpen = false → exec .stepOpen s = .next s) ∧
  (∀ (s : State) (g : Program), s.prog = some g → g.serving = false → s.mayOpen = true → s.latchFor s.stepNum ≠ none →
    answers .stepOpen s fun u => u.hasDown 4 = true ∧ u.inl.latched = some s.stepNum ∧ u.step = s.step ∧ u.prog = s.prog ∧
      u.cp = s.cp) ∧
  (∀ (s : State) (g : Program), s.prog = some g → g.serving = false → s.mayOpen = true → s.latchFor s.stepNum = none →
    (s.dom.blocked ≠ some s.stepNum → answers .stepOpen s fun u => u.dom = { s.dom with blocked := some s.stepNum } ∧
      eventOnly { s with dom := u.dom } u ∧ (s.mainOn = true → s.canonical = true → flagSet u .inl 0 0)) ∧
    (s.dom.blocked = some s.stepNum → exec .stepOpen s = .next s)) ∧
  (∀ (s t : State) (g : Program) (f : DomFrame), s.step.att = none → s.step.committing = false → s.hasDown 0x11 = false →
    s.receives 4 f t → t.prog = some g → (s.step.halted = none ∨ fld f 4 = 1) → s.canonical = true → cleanTarn s →
    s.restoring = false → s.openWaits f.step = false →
    (s.step.ra = none → answers .openAttempt s fun u =>
      u.step.att = some { step := f.step, number := f.attempt, base := f.arg, lr := some (BitVec.ofNat 32 (fld f 0))
                          wide := fld f 1 == 1, rerun := fld f 2 == 1, skip := s.step.skipNext
                          layers := openLayers g (fld f 1 == 1) (s.committedPol g) } ∧
      u.step.halted = none ∧ u.step.exhausted = false ∧ u.step.causes = [] ∧
      u.stepNum = f.step % 2 ^ 32 ∧ u.reg .twn 0 0x18 = BitVec.ofNat 32 f.arg ∧ (g.updates = [] → u.mem = s.mem)) ∧
    (∀ a, s.step.ra = some a → a.step = f.step → a.base = f.arg → fld f 2 ≠ 1 → answers .openAttempt s fun u =>
      u.step.att = some { a with lr := some (BitVec.ofNat 32 (fld f 0)), heldCauses := [], hold := [], records := [] } ∧
      u.step.ra = none ∧ u.step.halted = none ∧ u.step.exhausted = false ∧ u.step.causes = a.heldCauses ∧
      u.stepNum = f.step % 2 ^ 32 ∧ u.reg .twn 0 0x18 = BitVec.ofNat 32 f.arg)) ∧
  (∀ s : State, (s.step.att ≠ none ∨ s.restoring = true ∨ ∃ f t, s.takeDown 4 = some (f, t) ∧ s.openWaits f.step = true) →
    exec .openAttempt s = .next s)

/-- POLICY, XMAP, LVOTE and GATE on any module (R155, R214, R223): POLICY marks the attempt and starts the run-ahead of the next step
where it says so, but waits behind an ABORT and while its pages wait for an epoch; the XMAP bitmaps combine; a layer's vote goes up when
its updates are done; no gate is issued past a gated layer whose own updates have not finished and cleared; a GATE releases its layer.
That a gated layer votes twice, and that no POLICY is sent while a cause is held, are the model's readings (logs 56 and 58). VETO and
DOMAIN_ABORT (R216, R220, R222, R381): a host's ABORT that waits is sent at once; a wellhead with nothing reported does nothing; on any
module an abort discards the attempt and every shadow page, counts it in STEP_ABORTS with its flag, and makes the next attempt a retry, a
skip, or a halt; it waits behind a GATE, a COMMIT and a flip, and behind the EXHAUSTED that brought it (R185). A halted wellhead answers
ABORT once every module has reported that it halted (R381; the report is the model's choice, log 55). -/
def Obligations.PolicyVotesGatesAborts : Prop :=
  ((∀ s : State, s.hasDown 0x11 = true → exec .policy s = .next s) ∧
   (∀ s : State, s.hasDown 9 = true → s.policyWaits = true → exec .policy s = .next s) ∧
   (∀ (s t : State) (g : Program) (a : Attempt) (f : DomFrame), s.hasDown 0x11 = false → s.policyWaits = false →
     s.receives 9 f t → s.hasDown 9 = true → t.prog = some g → t.step.att = some a → a.step = f.step →
     a.base = fld f 0 → cleanTarn s →
     answers .policy s fun u => u.step.att = some { a with policy := true } ∧
       (fld f 1 ≠ 1 → u.step.ra = s.step.ra) ∧
       (fld f 1 = 1 → ∃ r, u.step.ra = some r ∧ r.step = a.step + 1 ∧ r.base = fld f 2 ∧ r.number = 0 ∧ r.started = [] ∧
         r.wide = (fld f 3 == 1) ∧ r.lr = none)) ∧
   (∀ (s t : State) (f : DomFrame) (l : List DomFrame) (a : Attempt), s.takeCombined 8 (fun _ => true) = some (f, l, t) → t.isWellhead = true →
     t.step.att = some a → a.step = f.step →
     answers .xmap s fun u => u.prog = s.prog ∧ u.step.ra = s.step.ra ∧
       ∃ b, u.step.att = some b ∧ b.started = a.started ∧ b.done = a.done ∧ b.segs = a.segs ∧
         (a.base = fld f 0 → b.xmapAll ≠ none)) ∧
   (∀ s : State, s.takeCombined 8 (fun _ => true) = none → exec .xmap s = .next s) ∧
   (∀ (s : State) (g : Program) (a : Attempt) (l : Nat), s.prog = some g → s.step.att = some a → l ∈ g.updateOrder →
     a.skip = false → a.mayVote g l = true → s.updatesDone g a l = true → s.dom.own = [] → s.dom.rankValid = true →
     s.children ≠ [] → s.fab.inbox = [] →
     exec (.lvote l) s = .next ((s.setAttempt false { a with lvoted := a.lvoted ++ [l] }).addOwn
       (s.domFrame 0xB false a.step a.number l (encN [a.base, b2n (!a.vetoes.contains l)])))) ∧
   (∀ (s : State) (g : Program) (a : Attempt) (l : Nat), s.prog = some g → s.step.att = some a → l ∈ g.updateOrder →
     a.skip = false → a.mayVote g l = true → s.updatesDone g a l = true → s.dom.own = [] → s.isWellhead = true → s.children = [] →
     s.dom.size = 1 → a.vetoes.contains l = false → a.base < 2 ^ 64 →
     answers (.lvote l) s fun u => u.dom.lvotes = s.dom.lvotes ++ [l] ∧
       u.step.att = some { a with lvoted := a.lvoted ++ [l] }) ∧
   (∀ (s : State) (g : Program) (a : Attempt) (l stop i : Nat) (r : List Nat), s.gateIssued a l = true → s.layerClear g l = false →
     State.issueGates g a stop (l :: r) i s = s) ∧
   (∀ (s t : State) (f : DomFrame) (a : Attempt), s.receives 0xC f t → t.step.att = some a →
     a.step = f.step → a.base = fld f 0 →
     exec .gate s = .next { t with step := { t.step with att := some { a with gates := a.gates ++ [f.arg] }
                                                         lastGate := some f.arg } })) ∧
  ((∀ s : State, s.hostAbortWaits = true → s.step.committing = false → s.hasDown 0xF = false → s.hasDown 0x11 = false →
     s.hasDown 4 = false → answers .veto s fun u => u.hasDown 0x11 = true ∧ u.step = { s.step with mismatchedAt := none } ∧
       u.prog = s.prog) ∧
   (∀ s : State, s.hostAbortWaits = false → s.step.causes = [] → s.isWellhead = false → exec .veto s = .next s) ∧
   (∀ (s t : State) (g : Program) (a : Attempt) (f : DomFrame), s.canonical = true → s.prog = some g →
     s.hasDown 0xC = false → s.hasDown 0xF = false → s.step.committing = false → (s.exhaustAbort && s.exhaustWaits) = false →
     s.receives 0x11 f t → t.step.att = some a →
     a.step = f.step → a.base = fld f 0 →
     answers .domainAbort s fun u => u.step.att = none ∧ u.step.ra = none ∧ u.step.causes = [] ∧ u.step.nextAttempt = a.number + 1 ∧
       u.reg .step 0 0x54 = s.reg .step 0 0x54 + 1 ∧ (s.mainOn = true → flagSet u .step 0 5) ∧
       (∀ i, i < 8 → (u.stack i).vt = Bank.mapK vtDefault (fun j e => if s.areaPage i j then e else { e with t := false }) (s.stack i).vt) ∧
       (fld f 4 = 1 → u.step.halted ≠ none ∧ u.step.skipNext = false) ∧
       (fld f 4 ≠ 1 → u.step.halted = s.step.halted ∧ u.step.skipNext = decide (fld f 1 = 1 ∨ fld f 1 = 2) ∧
         u.step.retries = if fld f 1 = 1 ∨ fld f 1 = 2 then s.step.retries else s.step.retries + 1)) ∧
   (∀ s : State, s.step.committing = true ∨ s.hasDown 0xC = true ∨ s.hasDown 0xF = true ∨ (s.exhaustAbort = true ∧ s.exhaustWaits = true) →
     exec .domainAbort s = .next s) ∧
   (∀ s : State, s.step.halted = none ∨ s.dom.halting ≠ [] → s.haltSettled = s))

/-- The commit sequence (R217, R218, R226, R284, R409): PROGRAM_END sends END and READY once everything of the step is done, and waits
while a record of class 0x01 waits for room in the log (R192); END, READY and DONE are summed up the tree, END and READY behind the update
ratios that wait; with every END and no veto the finite vote is clear; with every READY and nothing against it the wellhead sends COMMIT;
COMMIT flips every shadow page, once no transfer to a V page is in flight (that of a forced handover, R411, names no base); FLIP_COMPLETE
ends the attempt, writes the run-ahead's records and sends DONE, and waits too while a record of class 0x01 waits for room (STEP_SKIPPED
is raised at COMMIT); with every DONE n advances by one. That the wait for the log is held before END is the model's reading (log 58).
TWIN_DIGEST (R395): nothing is due while the twin does not run in lockstep, the END has not gone out, or the digest was sent. (A row out
of its condition changes nothing: the model's choice, log 2.) -/
def Obligations.CommitSequence : Prop :=
  ((∀ (s : State) (g : Program) (a : Attempt), s.prog = some g → g.serving = false → s.step.att = some a → a.endSent = false →
     (a.policy = true ∨ a.skip = true) → (∀ t ∈ g.strands, active a t = true → t.id ∈ a.done) → s.inl.posts = [] → s.inl.seen = [] →
     s.inl.parts = [] → s.inl.passed = [] → a.amax = [] → s.twin.mode ≠ 2 → a.vetoes = [] →
     s.log.held.any (·.numerics) = false →
     exec .programEnd s = .next ({ s with
       step := { s.step with att := some { a with endSent := true, readySent := true } }
       dom := { s.dom with own := s.dom.own ++ [s.domFrame 0xD false a.step a.number 0 (encN [a.base, 1, 0]),
         s.domFrame 0xE false a.step a.number 0 (encN [a.base, 1, 0])] } } : State)) ∧
   (∀ s : State, s.log.held.any (·.numerics) = true → exec .programEnd s = .next s) ∧
   (∀ s : State, s.hasUp 0x12 = true → exec .endCount s = .next s ∧ exec .readyCount s = .next s) ∧
   (∀ (s t : State) (f : DomFrame),
     (s.sumsBelow 0xD f t → s.hasUp 0x12 = false → exec .endCount s = .next (t.toParent f)) ∧
     (s.sumsBelow 0xE f t → s.hasUp 0x12 = false → exec .readyCount s = .next (t.toParent f)) ∧
     (s.sumsBelow 0x10 f t → exec .doneCount s = .next (t.toParent f))) ∧
   (∀ (s t : State) (g : Program) (a : Attempt) (f : DomFrame), s.hasUp 0x12 = false → s.sums 0xD f t → t.prog = some g → t.step.att = some a →
     a.step = f.step → a.base = fld f 0 → fld f 1 = t.dom.size → troubleClear a g.strands = true →
     (fld f 2 = 0 → exec .endCount s = .next { t with dom := { t.dom with finiteClear := true } }) ∧
     (fld f 2 ≠ 0 → exec .endCount s = .next t)) ∧
   (∀ (s t : State) (a : Attempt) (f : DomFrame), s.hasUp 0x12 = false → s.sums 0xE f t → t.step.att = some a → a.step = f.step → a.base = fld f 0 →
     fld f 1 = t.dom.size → s.mayCommit = true →
     answers .readyCount s fun u => u.hasDown 0xF = true ∧ u.dom.doneIn = false ∧ u.dom.finiteClear = false ∧ u.step = s.step) ∧
   (∀ s : State, s.isWellhead = true → s.mayCommit = false → exec .readyCount s = .next s) ∧
   (∀ (s t : State) (g : Program) (a : Attempt) (f : DomFrame), s.canonical = true →
     s.step.committing = false → s.hasDown 9 = false → s.vInFlight = false → s.receives 0xF f t → t.prog = some g →
     t.step.att = some a → a.step = f.step → (a.base = fld f 0 ∨ fld f 0 = 2 ^ 41) →
     answers .commit s fun u => u.step.committing = true ∧ u.step.att = some { a with gotCommit := true } ∧
       ∀ i, i < 8 → (u.stack i).vt = if a.skip then (s.stack i).vt else
         Bank.mapK vtDefault (fun j e => if s.areaPage i j then e else if e.t then
           { vb := !e.vb, t := false, c := e.c || s.ckptSend i } else e) (s.stack i).vt) ∧
   (∀ s : State, s.vInFlight = true → exec .commit s = .next s) ∧
   (∀ s : State, s.log.held.any (·.numerics) = true → exec .flipComplete s = .next s) ∧
   (∀ (s : State) (a r : Attempt), s.step.att = some a → s.step.committing = true → s.step.ra = some r →
     s.log.held.any (·.numerics) = false →
     answers .flipComplete s fun u => u.step.att = none ∧ u.step.committing = false ∧
       ∃ q, u.step.ra = some q ∧ q = { r with records := [], heldCauses := q.heldCauses }) ∧
   (∀ (s : State) (a : Attempt), s.step.att = some a → s.step.committing = true → s.step.ra = none → s.isWellhead = true →
     s.dom.doneIn = false → s.log.held.any (·.numerics) = false →
     answers .flipComplete s fun u => u.step.att = none ∧ u.step.committing = false ∧ u.stepNum = s.stepNum ∧
       u.regs = (s.bump .step 0 0x50 1).regs ∧
       u.dom.own = s.dom.own ++ [s.domFrame 0x10 false a.step a.number 0 (encN [a.base, 1])]) ∧
   (∀ (s t : State) (f : DomFrame), s.canonical = true → s.sums 0x10 f t → s.busyWith 0x0304 = none →
     answers .doneCount s fun u => u.stepNum = (f.step + 1) % 2 ^ 32 ∧ u.dom.doneIn = true ∧ u.step.nextAttempt = 0 ∧
       u.step.retries = 0 ∧ u.dom.limit = s.dom.limit.map (· - 1) ∧ u.inl.latched = none ∧
       u.dom.running = (s.dom.running && !s.dom.stopping))) ∧
  ((∀ (s : State) (a : Attempt), s.step.att = some a →
     (s.twin.mode ≠ 2 ∨ s.twin.paired = false ∨ a.endSent = false ∨ a.readySent = true) → exec .twinDigest s = .next s) ∧
   (∀ s : State, s.step.att = none → exec .twinDigest s = .next s) ∧
   (∀ (s : State) (a : Attempt), s.canonical = true → s.step.att = some a → s.twin.mode = 2 → s.twin.paired = true →
     a.endSent = true → a.readySent = false → a.vetoes = [] → s.step.causes = [] → s.twin.mine = none → s.twin.theirs = none →
     s.badLines ((List.range 8).flatMap fun i => (s.touchedPages i).flatMap fun p =>
       (List.range 64).map fun j => s.shadowAddr (4096 * p + 64 * j) / 64) = [] →
     answers .twinDigest s fun u => u.twin.mine = some (a.step, a.number, s.twinDigest a.step) ∧ u.step.att = some a ∧
       u.reg .twn 0 0x30 = BitVec.ofNat 32 a.step ∧ u.mem = s.mem))

/-- SPILL and STASH_RETURN (R206 to R209): a class 2 block whose writers are complete is copied out page by page, with a CRC-32C of each
page, where the Spillway area has room, and stays where it has none; a spilled block comes back to the first fit once its RETURN_AT strand
has been issued and its copy has landed, lower identifiers first, though their copies have not; where nothing fits and its die has nothing
else to issue, STASH_FULL (when that is so is the model's reading, log 24). ADDR of a Spillway frame is the offset in the area (the
model's reading, log 23), and which strands write and read a block is too (logs 24 and 25). -/
def Obligations.StashSpillsAndReturns : Prop :=
  (∀ (s : State) (id shard : Nat) (g : Program) (b : Block4), s.prog = some g →
    s.stash.resident.find? (s.spillReady g id shard) = some b →
    (s.stash.spillPlace b.size = none →
      answers (.spill ⟨id, shard⟩) s fun t => t.stash.spilled = s.stash.spilled ∧ t.fab = s.fab ∧ t.out = s.out ∧ t.regs = s.regs ∧
        t.stash.resident = s.stash.resident.map fun x => if x.isBlock id shard b.ra then { x with spillable := false } else x) ∧
    (∀ off, s.stash.spillPlace b.size = some off →
      answers (.spill ⟨id, shard⟩) s fun t => t.stash.resident = s.stash.resident ∧ t.mem = s.mem ∧ t.step = s.step ∧ t.prog = s.prog ∧
        ∃ sp : Spilled, t.stash.spilled = s.stash.spilled ++ [sp] ∧ sp.isBlock id shard b.ra = true ∧ sp.offset = off ∧
          sp.size = b.size ∧ sp.returning = none ∧ sp.unacked = List.range (b.size / 4096) ∧
          sp.crcs = (List.range (b.size / 4096)).map fun i => crc32c (s.bytes (b.addr + 4096 * i) 4096))) ∧
  (∀ (s : State) (id shard : Nat) (g : Program), s.prog = some g →
    s.stash.resident.find? (s.spillReady g id shard) = none → exec (.spill ⟨id, shard⟩) s = .next s) ∧
  (∀ (s : State) (id shard : Nat) (g : Program) (a : Attempt) (e : StashEntry) (b : Spilled), s.prog = some g →
    (s.stash.spilled.find? fun b => b.id == id && b.shard == shard) = some b → stashEntry g id shard = some e →
    s.attempt b.ra = some a →
    (e.returnAt ∉ a.started ∨ b.unacked ≠ [] ∨
      (∃ q ∈ s.stash.spilled, q.ra = b.ra ∧ q.id < id ∧ s.returnDue g q = true ∧
        ∃ x, stashEntry g q.id q.shard = some x ∧ x.die = e.die) →
      exec (.stashReturn ⟨id, shard⟩) s = .next s) ∧
    (e.returnAt ∈ a.started → b.returning = none → b.unacked = [] →
      (∀ q ∈ s.stash.spilled, q.ra = b.ra → q.id < id → s.returnDue g q = true →
        ∀ x, stashEntry g q.id q.shard = some x → x.die ≠ e.die) →
      (∀ addr, firstFit (pondRegions g e.die) s.stash.used b.size = some addr →
        answers (.stashReturn ⟨id, shard⟩) s fun t => t.stash.resident = s.stash.resident ∧ t.mem = s.mem ∧ t.step = s.step ∧
          t.stash.spilled = s.stash.spilled.map fun q =>
            if q.isBlock id shard b.ra then { q with returning := some (addr, []) } else q) ∧
      (firstFit (pondRegions g e.die) s.stash.used b.size = none → s.stuck g b.ra a e.die = false →
        exec (.stashReturn ⟨id, shard⟩) s = .next s) ∧
      (∀ t, firstFit (pondRegions g e.die) s.stash.used b.size = none → s.stuck g b.ra a e.die = true →
        s.strand? e.returnAt = some t →
        answers (.stashReturn ⟨id, shard⟩) s fun u => u.stash = s.stash ∧ u.step.att = s.step.att ∧
          u.step.causes = s.step.causes ++ [⟨3, e.layer, strandCut t, a.step, false⟩] ∧
          (s.mainOn = true → s.canonical = true → flagSet u .step 0 3))))

/-- GRADIENT_BLOCK and ROW_RECORD (R214, R239, R240, R251, R255, R259): an uncorrectable block buffer error makes the module FAULTED; a
post for a frozen tensor is dropped and counted; one whose applied bit is set is ignored and counted; any other is taken: at the first
pages it writes it is marked applied, it stays while its U pages wait for the gate, and a block whose weights are written gives the
update-ratio partials of its two runs. The places of the bitmaps and partials in SCR are the model's choice (log 63). -/
def Obligations.InletTakesPosts : Prop :=
  let post (s : State) (die : Nat) (sparse : Bool) (g : Program) (a : Attempt) (q : InlPost) (e : UpdateEntry) (k : Pages) : Prop :=
    s.prog = some g ∧ s.step.att = some a ∧ (s.nextPost g a die fun e => e.sparse == sparse) = some (q, e, k) ∧
    s.entryWaits e = false ∧ a.lr ≠ none ∧ s.step.committing = false
  let cmd (sparse : Bool) (die : Nat) : Instr := if sparse then .rowRecord die else .gradientBlock die none
  (∀ (s : State) (die w : Nat), s.hubUp = true →
    answers (.gradientBlock die (some w)) s fun t => t.cp = .faulted ∧ t.inl = s.inl ∧ t.mainOn = s.mainOn ∧
      eventOnly { s with cp := .faulted, step := t.step } t) ∧
  (∀ (s : State) (die : Nat) (sparse : Bool) (g : Program) (a : Attempt) (q : InlPost) (e : UpdateEntry) (k : Pages),
    post s die sparse g a q e k →
    (e.frozen = true →
      answers (cmd sparse die) s fun t => t.inl.posts = s.inl.posts.erase q ∧ t.inl.seen = s.inl.seen ∧
        t.step = (if bit (s.reg .inl q.die 0x14) 0 then
          { s.step with causes := s.step.causes ++ [⟨5, e.layer, .at e.layer, a.step, false⟩] } else s.step) ∧
        eventOnly ({ s with inl := t.inl, step := t.step }.bump .inl q.die 0x6C 1) t) ∧
    (e.frozen = false → q.vDone = false → (q.tensor, q.index) ∈ a.applied →
      exec (cmd sparse die) s =
        .next (State.bump { s with inl := { s.inl with posts := s.inl.posts.erase q } } .inl q.die 0x70 1)) ∧
    (e.frozen = false → q.vDone = true ∨ (q.tensor, q.index) ∉ a.applied → cleanTarn s →
      let k := if sparse = false ∧ e.rule = .pre then .all else k
      answers (cmd sparse die) s fun t => t.prog = s.prog ∧ t.fab = s.fab ∧
        t.inl.posts = (if k = .v then replaceFirst q { q with vDone := true } s.inl.posts
          else s.inl.posts.erase q) ∧
        t.inl.seen = (if k = .u then s.inl.seen else s.inl.seen ++ [q]) ∧
        (∃ b, t.step.att = some b ∧ b.applied = if k = .u then a.applied else a.applied ++ [(q.tensor, q.index)]) ∧
        (sparse = false → e.rule = .pre → t.inl.parts = s.inl.parts ∧ t.inl.counts = s.inl.counts) ∧
        (sparse = false → e.rule ≠ .pre →
          k.writes g (tarnAddr e.wh + 2 * ((blockPos e q.index).1 * e.cols + (blockPos e q.index).2)) = true →
          ∃ x y : RatioPart, t.inl.parts = s.inl.parts ++ [x, y] ∧ x.tensor = e.tensor ∧ y.tensor = e.tensor) ∧
        (sparse = true → k = .all → t.inl.parts.length = s.inl.parts.length + 2 * (e.cols / 128))))

/-- PRE_BLOCK, STATISTICS_PASS and STATISTICS_RESULT (R214, R247, R248): a unit whose gradient blocks have all arrived is updated once,
its V pages before the gate of a gated layer and its U pages after it; a pass over a tensor whose blocks are all applied stores its
partials and completes its strand; the delivered sums, in the stacks of the tensor's die (R235), update the tensor's statistics once. What
the cut of a cause that the wellhead holds has stopped waits (R216; log 77). The layout of the partials (log 35) and the pair of blocks
that one row updates where PB is 64 (log 34) are the model's choices. ROOT_REFRESH and NS_ITER (R214, R249): in a refresh step, after the
statistics updates of the tensor on its die, one side is staged once, and not where its trace is zero; the kernel at the head of its
Cutter iterates on what is staged and stores an accepted root, keeps the old root otherwise, does nothing in a step without a refresh, and
waits where its root or header waits for a gate. -/
def Obligations.InletStatisticsAndRoots : Prop :=
  ((∀ (s : State) (die tensor unit : Nat) (g : Program) (a : Attempt) (y : UpdateEntry) (m : List (List Word)) (k : Pages),
     let e := forDie y die
     s.prog = some g → s.step.att = some a → updateOf g tensor = some y → s.preGrad e die unit = some m →
     phaseOf g a e (s.inl.preV.contains (tensor, unit)) = some k →
     ((tensor, unit) ∈ s.inl.pre → exec (.preBlock die tensor unit) s = .next s) ∧
     (e.rule = .pre → e.frozen = false → (tensor, unit) ∉ s.inl.pre → s.stops g a (some e.layer) = false → s.entryWaits e = false → a.lr ≠ none →
       s.step.committing = false → m ≠ [] → cleanTarn s →
       answers (.preBlock die tensor unit) s fun t =>
         t.inl.preV = (if k = .v then s.inl.preV ++ [(e.tensor, unit)] else s.inl.preV) ∧
         t.inl.pre = (if k = .v then s.inl.pre else s.inl.pre ++ [(e.tensor, unit)]) ∧ t.inl.posts = s.inl.posts ∧
         t.inl.seen = s.inl.seen ∧ t.prog = s.prog ∧ t.fab = s.fab)) ∧
   (∀ (s : State) (id die tensor : Nat) (g : Program) (a : Attempt) (y : UpdateEntry) (t : Strand), let e := forDie y die
     s.prog = some g →
     s.step.att = some a → s.strand? id = some t → t.kind = .statsPass die tensor → updateOf g tensor = some y →
     cleanTarn s → id ∈ a.started → id ∉ a.done → s.stops g a (some e.layer) = false → e.rule = .fac → e.sparse = false → gateShut g a e.layer = false →
     (e.frozen = true ∨ (∀ k ∈ s.ownedPieces e die, ∀ b ∈ pieceBlocks e k, (tensor, b) ∈ a.applied) ∧
       ∀ q ∈ s.inl.posts, q.die = die → q.tensor ≠ tensor) →
     answers (.statisticsPass id) s fun u => u.inl = { s.inl with passed := s.inl.passed ++ [(die, tensor)] } ∧
       u.mem = (s.putPartials e die (s.ownedPieces e die)).mem ∧
       u.step.att = some { a with done := a.done ++ [id] } ∧ u.regs = s.regs ∧ u.prog = s.prog ∧ u.fab = s.fab) ∧
   (∀ (s : State) (die tensor rowSums colSums : Nat) (g : Program) (a : Attempt) (y : UpdateEntry), let e := forDie y die
     s.prog = some g → s.step.att = some a → updateOf g tensor = some y →
     ((die, tensor) ∈ s.inl.stats ∨ (die, tensor) ∉ s.inl.passed →
       exec (.statisticsResult die tensor rowSums colSums) s = .next s) ∧
     ((die, tensor) ∈ s.inl.passed → (die, tensor) ∉ s.inl.stats → s.entryWaits e = false → e.frozen = false →
       s.step.committing = false → a.skip = false → s.stops g a (some e.layer) = false → onDie die (tarnAddr rowSums) (4 * e.rows) = true →
       onDie die (tarnAddr colSums) (4 * e.cols) = true → cleanTarn s →
       answers (.statisticsResult die tensor rowSums colSums) s fun u =>
         u.inl.stats = s.inl.stats ++ [(die, tensor)] ∧ u.inl.passed = s.inl.passed ∧ u.prog = s.prog ∧ u.fab = s.fab))) ∧
  ((∀ (s : State) (id : Nat) (g : Program) (a : Attempt) (t : Strand) (d : NsDesc) (y : UpdateEntry), let e := forDie y d.die
     s.prog = some g →
     s.step.att = some a → s.strand? id = some t → t.kind = .nsIter d → updateOf g d.tensor = some y →
     (s.refreshStep d.die a.step = false ∨ s.preDone e d.die = false → exec (.rootRefresh id) s = .next s) ∧
     (s.refreshStep d.die a.step = true → s.preDone e d.die = true → s.stops g a (some e.layer) = false → cleanTarn s → (∀ x ∈ s.inl.staged, x.1 ≠ id) →
       answers (.rootRefresh id) s fun u => u.units = s.units ∧ u.step = s.step ∧ u.regs = s.regs ∧
         ∃ z, u.inl = { s.inl with staged := s.inl.staged ++ [(id, z)] } ∧ (z = true → u.mem = s.mem))) ∧
   (∀ (s : State) (ra : Bool) (g : Program) (a : Attempt) (t : Strand) (d : NsDesc),
     let c := s.physCluster d.cluster
     let done (u : State) : State := u.setCutter c { u.cutter c with kernel := some (t.id, ra, true), waiting := false }
     s.prog = some g → s.attempt ra = some a → s.strand? t.id = some t → t.kind = .nsIter d → s.headKernel c = some (ra, t) →
     (s.cutter c).kernel = none → (s.cutter c).halted = false → s.stopped ra t = false → (ra = true → s.holdRoom g a t = true) →
     let waits := s.spanWaits (tarnAddr d.root) (4 * (64 * 2 ^ d.pb) ^ 2) || s.writeWaits (tarnAddr d.hdr)
     (waits = true ∨ s.rootShut d = true → exec (.nsIter ra t.id .none) s = .next s) ∧
     (waits = false → s.rootShut d = false →
       (s.refreshStep d.die a.step = false → exec (.nsIter ra t.id .none) s = .next (done s)) ∧
       (s.refreshStep d.die a.step = true → (s.inl.staged.find? fun x => x.1 == t.id) = none →
         exec (.nsIter ra t.id .none) s = .next s) ∧
       (s.refreshStep d.die a.step = true → cleanTarn s → (s.inl.staged.find? fun x => x.1 == t.id) = some (t.id, true) →
         exec (.nsIter ra t.id .none) s = .next (done ((s.keepRoot d).rootHeader d a.step))) ∧
       (s.refreshStep d.die a.step = true → cleanTarn s → (s.inl.staged.find? fun x => x.1 == t.id) = some (t.id, false) →
         let n := 64 * 2 ^ d.pb
         match nsLoop (s.preTol d.die) (s.preIters d.die) (s.poolRows c (d.stage + 4 * n * n) n n)
             (runsOf n (s.words (poolAddr c d.stage + 8 * n * n) (n * n))) with
         | some x => exec (.nsIter ra t.id .none) s =
             .next (done ((s.storeWords (tarnAddr d.root) (x.flatMap fun r => r)).rootHeader d a.step))
         | none => answers (.nsIter ra t.id .none) s fun u =>
             eventOnly (done (((s.keepRoot d).rootHeader d a.step).bump .inl d.die 0x74 1)) u))))

/-- RATIO, AMAX and LOUPE_VERDICT (R138, R140, R173 to R177, R255): a complete unit's folded pair is recorded at the wellhead, or goes to
the parent; a group amax that no other module shares is known at once, and one that is shared goes up; a sample that is void is counted, a
parity error halts the Loupe and reports a cause, a verdict counts the sample, and a failing one is counted and noted in its segment; a
sample of an attempt that is over is discarded. A replicated tensor's amax goes by AMAX (the model's reading, log 61). -/
def Obligations.RatiosAmaxesVerdicts : Prop :=
  (∀ (s : State) (g : Program) (a : Attempt) (i unit : Nat) (e : UpdateEntry), s.prog = some g → s.step.att = some a →
    s.wholeUnit g a = some (i, e, unit) → s.hasUp 0x12 = false →
    let mine (x : RatioPart) : Bool := x.tensor == e.tensor && x.unit == unit
    let z := foldUnit (s.inl.parts.filter mine)
    let t : State := { s with inl := { s.inl with parts := s.inl.parts.filter fun x => !mine x } }
    (s.isWellhead = true → exec .ratio s = .next (t.addRatio i unit z.1 z.2)) ∧
    (s.isWellhead = false → s.parentOf s.dom.rank ≠ s.dom.rank → exec .ratio s = .next (t.toParent
      (t.domFrame 0x12 false a.step a.number 0 (encN [a.base, i, unit, z.1.toNat, z.2.toNat]))))) ∧
  (∀ (s : State) (g : Program) (a : Attempt) (x : AmaxPart), s.prog = some g → s.step.ra = none → s.dom.own = [] →
    s.hasDown 5 = false → s.amaxReady false = some (a, x) →
    let mark (v : Option Word) : Attempt := { a with
      amax := a.amax.map fun y =>
        if y.tensor = x.tensor ∧ y.col = x.col ∧ y.hist = x.hist then { y with back := v <|> y.back, sent := true } else y }
    (x.shared = false → g.serving = false → s.badLines (s.mergeLines (x.hist + 8 * (a.step % 64)) 8) = [] →
      exec .amax s = .next ((s.setAttempt false (mark (some x.value))).store (x.hist + 8 * (a.step % 64))
        (leBytes 4 a.step ++ leBytes 4 x.value.toNat))) ∧
    (x.shared = true → s.children ≠ [] → s.fab.inbox = [] →
      exec .amax s = .next ((s.setAttempt false (mark none)).addOwn
        (s.domFrame 5 false a.step a.number x.arg (encN [a.base, x.tensor, b2n x.col, x.group, x.value.toNat]))))) ∧
  (∀ s : State, s.prog = none → exec .amax s = .next s) ∧
  (∀ (s : State) (region : Nat) (ra : Bool) (g : Program) (a : Attempt) (q : LoupeTask) (t : Strand) (d : TileDesc)
    (pe : LoupeSide × LoupeSide),
    let x := s.loupe region
    let rest := s.setLoupe region { x with queue := x.queue.erase q }
    let judged := s.judgeSample region a.step (s.physFacet d) (facetCluster (s.physFacet d)) d pe q
    let seen := rest.sampleIllegal region ra a t d q
    s.prog = some g → x.queue.find? (·.ready) = some q → q.ra = ra → s.attempt ra = some a → s.strand? q.id = some t →
    t.kind = .tile d → x.halted = false →
    (answers (.loupeVerdict region true) s fun u => u.units = (s.setLoupe region { x with halted := true }).units ∧
      u.step.att = s.step.att ∧ u.step.causes = s.step.causes ++ [⟨0x10, 0xFFFF, .outside, a.step, false⟩] ∧
      eventOnly { s with units := u.units, step := u.step } u) ∧
    (((g.products.find? fun e => e.tensor == d.tensor).bind (·.loupe)) = some pe → a.base = q.base →
      (t.seg.all fun z => (a.seg z.1 z.2).tries == q.tries) = true → s.badLines (s.sampleLines a.step d pe) = [] →
      (judged = none → exec (.loupeVerdict region false) s = .next (seen.bump .lpe region 0x28 1)) ∧
      (∀ l, judged = some l → l.any (·.fails) = false →
        exec (.loupeVerdict region false) s = .next (seen.bump .lpe region 0x20 1)) ∧
      (∀ l n w, judged = some l → l.any (·.fails) = true → t.seg = some (n, w) →
        answers (.loupeVerdict region false) s fun u => u.units = rest.units ∧
          u.reg .lpe region 0x20 = s.reg .lpe region 0x20 + 1 ∧ u.reg .lpe region 0x24 = s.reg .lpe region 0x24 + 1 ∧
          ∃ b, u.attempt ra = some b ∧ b = { a.setSeg n w { a.seg n w with
            failed := if (a.seg n w).failed.contains d.tensor then (a.seg n w).failed else (a.seg n w).failed ++ [d.tensor] } with
            records := b.records })) ∧
    (a.base ≠ q.base → exec (.loupeVerdict region false) s = .next rest))

/-- The links of a peer port (R290, R300 to R302, R390, R391): the PHY, INIT and INIT_ACK, LNK_UP, a twin INIT discarded on a port that is
no Oxbow port, and how a link goes down: its replay queue is discarded, what is taken in stays, and LNK_DOWN is raised. An INIT on a link
that is up is answered and changes nothing else, but on a twin link (the model's choice, log 54). -/
def Obligations.LinksComeUpAndGoDown : Prop :=
  let down (s : State) (l : Link) (t : State) : Prop :=
    t.link? l.port l.mac = some { port := l.port, mac := l.mac, twin := l.twin } ∧
      t.fab.inbox = s.fab.inbox ∧ t.fab.routes = s.fab.routes ∧ t.step = s.step ∧ t.prog = s.prog ∧ t.queues = s.queues ∧
      (s.mainOn = true → s.canonical = true → flagSet t .cePort l.port 1)
  let up (s : State) (n : Nat) (m : Mac) (twin : Bool) (t : State) : Prop :=
    t.step = s.step ∧ t.fab.inbox = s.fab.inbox ∧ (s.mainOn = true → s.canonical = true → flagSet t .cePort n 0) ∧
    ∃ x, t.link? n m = some x ∧ x.up = true ∧ x.twin = twin ∧ x.rxNext = 0 ∧
      (twin = false → x = { port := n, mac := m, twin := false, up := true })
  (∀ (s : State) (n : Nat), s.umc.phase = .dies → portEnabled s.part n = true →
    exec (.peerPhyUp n) s = .next (s.setPort n { s.port n with phy := true })) ∧
  (∀ (s : State) (n : Nat), portEnabled s.part n = false → exec (.peerPhyUp n) s = .next s) ∧
  (∀ (s : State) (n : Nat), (s.port n).phy = true → (∀ l ∈ s.fab.links, l.port ≠ n ∨ l.up = false) →
    exec (.peerPhyDown n) s = .next (s.setPort n { s.port n with phy := false, ctl := [], pfcSent := false })) ∧
  (∀ (s : State) (n : Nat) (l : Link), (s.port n).phy = true → (s.fab.links.filter fun x => x.port == n && x.up) = [l] →
    s.link? n l.mac = some l →
    answers (.peerPhyDown n) s fun t => down s l t ∧ (t.port n).phy = false) ∧
  (∀ (s : State) (n : Nat), s.portUp n = true → (s.port n).held = false → oxbow n = true →
    (s.fab.links.all fun l => !(l.port == n && l.twin && l.up)) = true →
    exec (.initTimer n) s = .next (s.txCtl n (s.initFrame n broadcastMac false true))) ∧
  (∀ (s : State) (n r : Nat) (e : Route), s.portUp n = true → (s.port n).held = false → oxbow n = false →
    s.fab.routes = [(r, some e)] → n ∈ e.ports → s.linkIsUp n e.mac = false →
    exec (.initTimer n) s = .next (s.txCtl n (s.initFrame n e.mac false false))) ∧
  (∀ (s : State) (n : Nat) (h : PeerHdr) (rank domain : Nat), s.portUp n = true → s.peerAccepts n h true = true → oxbow n = false →
    exec (.initFrame n h true rank domain) s =
      .next ((s.bump .cePort n 0x38 1).raiseEv 0x0404 n (leBytes 4 domain ++ leBytes 2 rank))) ∧
  (∀ (s : State) (n : Nat) (h : PeerHdr) (twin : Bool) (rank domain : Nat), s.portUp n = true → s.peerAccepts n h twin = true →
    twin = false ∨ oxbow n = true →
    (s.initOk n h.srcMac twin rank domain = false →
      exec (.initFrame n h twin rank domain) s =
        .next ((s.bump .cePort n 0x34 1).raiseEv 0x0404 n (leBytes 4 domain ++ leBytes 2 rank))) ∧
    (s.initOk n h.srcMac twin rank domain = true →
      let t := (s.bump .cePort n 0x34 1).txCtl n (s.initFrame n h.srcMac true twin)
      ((s.port n).held = true ∨ s.linkRoom n h.srcMac = false →
        exec (.initFrame n h twin rank domain) s = .next (s.bump .cePort n 0x34 1)) ∧
      ((s.port n).held = false → s.linkRoom n h.srcMac = true → s.linkIsUp n h.srcMac = true →
        exec (.initFrame n h twin rank domain) s = .next (if twin then t.dieCkptLost (n / 3) 2 else t)) ∧
      ((s.port n).held = false → s.linkRoom n h.srcMac = true → s.linkIsUp n h.srcMac = false →
        answers (.initFrame n h twin rank domain) s fun u => up s n h.srcMac twin u))) ∧
  (∀ (s : State) (n : Nat) (h : PeerHdr) (twin : Bool) (rank domain : Nat), s.portUp n = true → s.peerAccepts n h false = true →
    (s.linkIsUp n h.srcMac = true → exec (.initAck n h twin rank domain) s = .next (s.bump .cePort n 0x34 1)) ∧
    ((s.port n).held = false → s.linkIsUp n h.srcMac = false → s.linkRoom n h.srcMac = true →
      (if twin then oxbow n else s.fab.routes.any fun e => e.2.any fun r => r.mac == h.srcMac && r.ports.contains n) = true →
      answers (.initAck n h twin rank domain) s fun u => up s n h.srcMac twin u)) ∧
  (∀ (s : State) (n : Nat) (m : Mac) (l : Link), s.link? n m = some l → l.up = true →
    answers (.linkSilence n m) s fun t => down s l t)

/-- DATA, ACK, NAK, KEEPALIVE and the timers of a link (R302, R331): a frame in order is accepted and the next one expected; a gap draws
one NAK in each RTO; a frame already accepted draws an ACK; a domain message whose frame holds 8,192 bytes goes on in the next (the
model's choice, log 22); an ACK covers frames of the replay queue; a timeout resends the oldest frame that is outstanding and all after
it, and after RETRY_MAX of them the link goes down. A frame that is not accepted is discarded and counted. Priority flow control and
discards (R295, R296, R303, R304, R331): a PFC frame pauses its priority or, with a zero time, releases it, as the end of the pause time
does; a port below its headroom repeats its frame while EN is 1; a PAUSE frame is counted and ignored; the watchdog holds a port's links
down; a frame whose header is bad is discarded and counted, with LNK_FCS where its FCS is. (A row out of its condition changes nothing:
the model's choice, log 2.) -/
def Obligations.LinkSequencingAndFlowControl : Prop :=
  (let on (s : State) (n : Nat) (h : PeerHdr) (l : Link) : Prop :=
     s.portUp n = true ∧ s.peerAccepts n h false = true ∧ s.link? n h.srcMac = some l ∧ l.up = true
   let ahead (seq : Nat) (l : Link) : Nat := (BitVec.ofNat 32 seq - BitVec.ofNat 32 l.rxNext).toNat
   let idle (l : Link) : Prop := l.waiting = [] ∧ ∀ f ∈ l.replay, f.sent = true
   let sends (s : State) (n : Nat) (m : Mac) (ftype ack : Nat) (t : State) : Prop :=
     (s.port n).paused.contains (s.pcpCtrl n) = false → ∃ o, t.out = o ++ [s.ctlFrame n m ftype ack]
   (∀ (s : State) (n : Nat) (h : PeerHdr) (seq ack : Nat) (d : LinkData) (l : Link),
     on s n { h with len := max h.len (frameBytes d) } l → (∀ x, d ≠ .bad x) →
     (ahead seq l = 0 → s.domStale d = false → (∀ f, d = .dom f → l.part = [] ∧ f.payload.length ≠ 8192) →
       answers (.dataFrame n h seq ack d) s fun t =>
         t.fab.inbox = s.fab.inbox ++ [⟨n, h.srcMac, (s.rankOfMac h.srcMac).getD 0xFFFF, d⟩] ∧ t.step = s.step ∧ t.mem = s.mem ∧
           ∃ x, t.link? n h.srcMac = some x ∧ x.rxNext = (l.rxNext + 1) % 2 ^ 32 ∧ x.nakAt = none ∧
             (idle l → x.replay = (l.acked ack).replay ∧ x.unacked = if l.unacked + 1 = 16 then 0 else l.unacked + 1)) ∧
     (∀ f, d = .dom f → ahead seq l = 0 →
       answers (.dataFrame n h seq ack d) s fun t => ∃ x, t.link? n h.srcMac = some x ∧ x.rxNext = (l.rxNext + 1) % 2 ^ 32 ∧
         (f.payload.length = 8192 → t.fab.inbox = s.fab.inbox ∧ x.part = l.part ++ f.payload) ∧
         (f.payload.length ≠ 8192 → x.part = [] ∧
           let whole : LinkData := .dom { f with payload := l.part ++ f.payload }
           t.fab.inbox = if s.domStale whole then s.fab.inbox
             else s.fab.inbox ++ [⟨n, h.srcMac, (s.rankOfMac h.srcMac).getD 0xFFFF, whole⟩])) ∧
     (0 < ahead seq l → ahead seq l < 2 ^ 31 →
       answers (.dataFrame n h seq ack d) s fun t => t.fab.inbox = s.fab.inbox ∧
         (∃ x, t.link? n h.srcMac = some x ∧ x.rxNext = l.rxNext ∧ x.nakAt = (if s.nakDue l then some s.us else l.nakAt) ∧
           (idle l → x = { l.acked ack with nakAt := x.nakAt })) ∧
         (s.nakDue l = true → sends s n h.srcMac 2 l.rxNext t)) ∧
     (2 ^ 31 ≤ ahead seq l →
       answers (.dataFrame n h seq ack d) s fun t => t.fab.inbox = s.fab.inbox ∧ sends s n h.srcMac 1 l.rxNext t ∧
         ∃ x, t.link? n h.srcMac = some x ∧ x.rxNext = l.rxNext ∧ x.unacked = 0 ∧ (idle l → x = { l.acked ack with unacked := 0 }))) ∧
   (∀ (s : State) (n : Nat) (h : PeerHdr) (seq ack : Nat) (d : LinkData), s.portUp n = true → h.fcsOk = true →
     (s.peerAccepts n { h with len := max h.len (frameBytes d) } false = false ∨ ∃ x, d = .bad x) →
     exec (.dataFrame n h seq ack d) s = .next (s.bump .cePort n 0x38 1)) ∧
   (∀ (l : Link) (ack : Nat) (f : TxFrame), f ∈ (l.acked ack).replay ↔
     f ∈ l.replay ∧ 2 ^ 31 ≤ (BitVec.ofNat 32 ack - BitVec.ofNat 32 f.seq - 1).toNat) ∧
   (∀ (s : State) (n : Nat) (h : PeerHdr) (ack : Nat) (l : Link), on s n h l →
     exec (.linkAck n h ack) s = .next ((s.bump .cePort n 0x34 1).ackLink l ack) ∧
     exec (.keepalive n h ack) s = .next ((s.bump .cePort n 0x34 1).ackLink l ack) ∧
     exec (.nak n h ack) s = .next ((s.bump .cePort n 0x34 1).resend (l.acked ack) ack)) ∧
   (∀ (s : State) (n : Nat) (m : Mac) (l : Link), s.link? n m = some l → l.up = true →
     (l.unacked = 0 → exec (.ackTimer n m) s = .next s) ∧
     (l.unacked ≠ 0 → exec (.ackTimer n m) s =
       .next ((s.setLink { l with unacked := 0 }).txCtl n (s.ctlFrame n m 1 l.rxNext))) ∧
     exec (.keepaliveTimer n m) s = .next ((s.setLink { l with unacked := 0 }).txCtl n (s.ctlFrame n m 5 l.rxNext)) ∧
     (l.replay = [] → exec (.retryTimeout n m) s = .next s) ∧
     (∀ f rest, l.replay = f :: rest → l.retries < s.field .cePort n 0x1C 8 4 → (s.port n).paused.contains (s.pcpData n) = false →
       answers (.retryTimeout n m) s fun t => t.fab.inbox = s.fab.inbox ∧ t.reg .cePort n 0x3C = s.reg .cePort n 0x3C + 1 ∧
         (l.waiting = [] → t.link? n m = some { l with
           retries := l.retries + 1, unacked := 0, replay := l.replay.map fun g => { g with sent := true } }) ∧
         ∃ sent, t.out = s.out ++ sent ∧
           ∀ g ∈ l.replay, (BitVec.ofNat 32 g.seq - BitVec.ofNat 32 f.seq).toNat < 2 ^ 31 → s.dataFrame l g ∈ sent) ∧
     (l.replay ≠ [] → s.field .cePort n 0x1C 8 4 ≤ l.retries →
       answers (.retryTimeout n m) s fun t => t.link? n m = some { port := n, mac := m, twin := l.twin } ∧
         t.fab.inbox = s.fab.inbox)) ∧
   (∀ (s : State) (n : Nat) (m : Mac), s.link? n m = none → exec (.ackTimer n m) s = .next s ∧
     exec (.keepaliveTimer n m) s = .next s ∧ exec (.retryTimeout n m) s = .next s ∧ exec (.linkSilence n m) s = .next s)) ∧
  ((∀ (s : State) (n pr q : Nat), s.portUp n = true → pr < 8 →
     (q ≠ 0 → pr ∉ (s.port n).paused →
       exec (.pfcFrame n pr q) s =
         .next ((s.bump .cePort n 0x34 1).setPort n { s.port n with paused := (s.port n).paused ++ [pr] })) ∧
     (q ≠ 0 → pr ∈ (s.port n).paused → exec (.pfcFrame n pr q) s = .next (s.bump .cePort n 0x34 1)) ∧
     (q = 0 → answers (.pfcFrame n pr q) s fun t => pr ∉ (t.port n).paused ∧ (pr = s.pcpData n → (t.port n).held = false) ∧
       (pr = s.pcpCtrl n → (t.port n).ctl = []) ∧ t.fab.inbox = s.fab.inbox ∧ t.step = s.step)) ∧
   (∀ (s : State) (n pr : Nat), pr ∈ (s.port n).paused →
     answers (.pauseExpiry n pr) s fun t => pr ∉ (t.port n).paused ∧ (∀ x ∈ (s.port n).paused, x ≠ pr → x ∈ (t.port n).paused) ∧
       (pr = s.pcpData n → (t.port n).held = false) ∧ (pr = s.pcpCtrl n → ∃ l, t.out = s.out ++ (s.port n).ctl ++ l)) ∧
   (∀ (s : State) (n : Nat), s.portUp n = true →
     exec (.pauseFrame n) s = .next (s.bump .cePort n 0x38 1) ∧
     ((s.port n).pfcSent = true → bit (s.lnk n 0x20) 31 = true →
       exec (.pfcRepeatTimer n) s = .next (State.bump { s with out := s.out ++ [.pfc n (s.pcpData n) true] } .cePort n 0x30 1)) ∧
     ((s.port n).pfcSent = false ∨ bit (s.lnk n 0x20) 31 = false → exec (.pfcRepeatTimer n) s = .next s) ∧
     ((s.port n).paused.contains (s.pcpData n) = true → (s.port n).held = false → s.field .cePort n 0x20 16 8 ≠ 0 →
       answers (.pfcWatchdog n) s fun t => (t.port n).held = true ∧ (t.port n).paused = (s.port n).paused ∧
         (∀ l ∈ s.fab.links, l.port = n → l.up = true → t.linkIsUp n l.mac = false) ∧ t.fab.inbox = s.fab.inbox) ∧
     (s.field .cePort n 0x20 16 8 = 0 → exec (.pfcWatchdog n) s = .next s)) ∧
   (∀ (s : State) (n : Nat) (h : PeerHdr) (ver ft kind : Nat), s.portUp n = true →
     (s.peerAccepts n h false = false ∨ ver ≠ 1 ∨ (ft = 0 ∧ 2 < kind) →
       (h.fcsOk = true → exec (.peerFrameDiscard n h ver ft kind) s = .next (s.bump .cePort n 0x38 1)) ∧
       (h.fcsOk = false → answers (.peerFrameDiscard n h ver ft kind) s fun t =>
         t.reg .cePort n 0x38 = s.reg .cePort n 0x38 + 1 ∧ t.fab = s.fab ∧
           (s.mainOn = true → s.canonical = true → flagSet t .cePort n 4))) ∧
     (s.peerAccepts n h false = true → ver = 1 → ft ≠ 0 → exec (.peerFrameDiscard n h ver ft kind) s = .next s)))

/-- TARN_TRANSFER (R275, R277, R280 to R282, R285): a read of a line delivers it, a write of a line outside the versioned pages stores it
and nothing else, a channel held by another static requester makes the request wait, and an access that the base refuses stores nothing,
reads as zeros and, for a strand, makes the module FAULTED. The rivals and the errors of the lines are operands (the model's choice, log
69). -/
def Obligations.TarnTransfers : Prop :=
  let legal (s : State) (i req addr count : Nat) : Prop :=
    (s.stack i).trained = true ∧ stackOf addr = i ∧ i < 8 ∧ 1 ≤ count ∧ count ≤ 64 ∧ knownReq req = true ∧
      s.barredAt i (chanOf addr) req = false ∧ chanLine addr + count ≤ 2 ^ 26
  let line (i addr j : Nat) : Nat := chanAddr i (chanOf addr) (chanLine addr + j)
  (∀ (s : State) (i req addr : Nat), legal s i req addr 1 → s.accessFault req (line i addr 0) = none → s.step.committing = false →
    s.hasDown 0xF = false → s.grantOf i (chanOf addr) = none → s.progressOf i (chanOf addr) ⟨req, lineOf addr, 1, 0, false⟩ = 0 →
    s.decodeLine (s.physLine req (line i addr 0)) noError = .good →
    answers (.tarnTransfer i req addr 1 1 [] .read [] false) s fun t =>
      (t.stack i).delivered = s.bytes (64 * s.physLine req (line i addr 0)) 64 ∧ t.grantOf i (chanOf addr) = none ∧
        t.mem = s.mem ∧ t.regs = s.regs ∧ t.undef = s.undef ∧ (t.stack i).vt = (s.stack i).vt ∧ (t.stack i).poison = (s.stack i).poison) ∧
  (∀ (s : State) (i addr : Nat) (d : List Byte), s.canonical = true → legal s i 11 addr 1 → s.accessFault 11 (line i addr 0) = none →
    s.vRegion (line i addr 0) = none → s.grantOf i (chanOf addr) = none → addr % 64 = 0 → d.length = 64 →
    s.progressOf i (chanOf addr) ⟨11, lineOf addr, 1, 0, true⟩ = 0 →
    answers (.tarnTransfer i 11 addr 1 1 [] (.write d) [] false) s fun t =>
      t.bytes (line i addr 0) 64 = d ∧ (∀ b, (b < line i addr 0 ∨ line i addr 0 + 64 ≤ b) → t.byte b = s.byte b) ∧
        t.regs = s.regs ∧ t.step = s.step) ∧
  (∀ (s : State) (i req addr count lines : Nat) (g : Grant) (rivals : List Nat) (errs : List LineError) (vt : Bool),
    s.grantOf i (chanOf addr) = some g → g.req ≠ req → staticReq g.req = true →
    (∀ j < count, s.accessFault req (line i addr j) = none) →
    exec (.tarnTransfer i req addr count lines rivals .read errs vt) s = .next s) ∧
  (∀ (s : State) (i req addr lines why : Nat) (rivals : List Nat) (errs : List LineError) (vt : Bool), s.canonical = true →
    legal s i req addr 1 → 1 ≤ lines → s.accessFault req (line i addr 0) = some why →
    answers (.tarnTransfer i req addr 1 lines rivals .read errs vt) s fun t =>
      (t.stack i).delivered = List.replicate 64 0 ∧ (t.stack i).grants = (s.stack i).grants ∧
        (req ≤ 5 → t.cp = .faulted) ∧ (5 < req → t.cp = s.cp ∧ t.step = s.step))

/-- The Tarn base on its own (R271, R272, R283): a grant over its limit is cut off and counted, its progress kept and its requester barred
until OVERSTAY_BAR_END; a corrected line is written back once its channel is free, and not while it is on the poison list; the scrubber
reads line after line, and a pass that a period's end finds unfinished is late. A miscorrected line holds free bytes (the model's reading,
log 37). The copy engine (R279): a program copy or a pattern fill whose rows read good lines stores them row by row and waits for its last
acknowledgement; COPY_COMPLETE completes the strand. In a serving program the rows may follow the events of the batch or the point that
runs (R340, R343; how a descriptor says so is the model's choice, log 44). -/
def Obligations.TarnHousekeepingAndCopies : Prop :=
  ((∀ (s : State) (i c cycles : Nat) (g : Grant), s.canonical = true → s.grantOf i c = some g →
     (s.grantLimit i g.req < cycles →
       answers (.overstayCutoff i c cycles) s fun t => t.grantOf i c = none ∧ t.barredAt i c g.req = true ∧
         t.progressOf i c g = g.done ∧ t.reg .trn i 0x9C = s.reg .trn i 0x9C + 1 ∧ t.step = s.step ∧ t.cp = s.cp) ∧
     (cycles ≤ s.grantLimit i g.req → exec (.overstayCutoff i c cycles) s = .next s)) ∧
   (∀ (s : State) (i c req : Nat), s.barredAt i c req = true →
     exec (.overstayBarEnd i c req) s =
       .next (s.setStack i { s.stack i with barred := (s.stack i).barred.filter fun x => x != 16 * c + req })) ∧
   (∀ (s : State) (i l : Nat) (rest : List Nat), (s.stack i).wb = l :: rest → s.channelFree i (64 * l) = true →
     ((s.stack i).poison.contains l = true → exec (.ceWriteback i) s = .next (s.setStack i { s.stack i with wb := rest })) ∧
     ((s.stack i).poison.contains l = false →
       exec (.ceWriteback i) s =
         .next ((s.setStack i { s.stack i with wb := rest }).putBytes (64 * l) (s.bytes (64 * l) 64)))) ∧
   (∀ (s : State) (i : Nat) (e : LineError), s.canonical = true → i < 8 → s.scrubbing i = true →
     let n := (s.stack i).scrubNext
     let l := i * 2 ^ 31 + n
     s.channelFree i (64 * l) = true →
     (s.decodeLine l e = .good → n + 1 < 2 ^ 31 →
       exec (.scrubLine i e) s = .next (s.setStack i { s.stack i with scrubNext := n + 1 })) ∧
     (s.decodeLine l e = .good → n + 1 = 2 ^ 31 →
       exec (.scrubLine i e) s =
         .next ((s.setStack i { s.stack i with scrubNext := 0, scrubLate := false }).bump .trn i 0xA0 1)) ∧
     (∀ k d, s.decodeLine l e = .corrected k d →
       answers (.scrubLine i e) s fun t => (t.stack i).wb = (s.stack i).wb ∧ t.step = s.step ∧ t.cp = s.cp)) ∧
   (∀ (s : State) (i : Nat), i < 8 → s.scrubbing i = true →
     exec (.scrubPeriodEnd i) s = .next (s.setStack i { s.stack i with scrubLate := true }))) ∧
  (let cmd (fill : Bool) (ra : Bool) (id : Nat) : Instr := if fill then .patternFill ra id else .programCopy ra id
   (∀ (s u : State) (ra ok : Bool) (a : Attempt) (t : Strand) (d : CopyStrand), s.running ra t.id = some (a, t) → t.kind = .copy d →
     (t.id, ra) ∉ s.units.copied → (∀ r ∈ s.copyPlan d, s.spanWaits r.2 d.len = false) → s.step.committing = false →
     (State.copyRows ra d (s.copyPlan d) s = (u, ok) →
       exec (cmd d.fill ra t.id) s =
         .next (if ok then { u with units := { u.units with copied := u.units.copied ++ [(t.id, ra)] } } else u)) ∧
     (d.srcRows = .fixed → d.dstRows = .fixed → d.rows = 1 → s.badLines (s.strandLines d.src (copyReadLen d) ++ s.mergeLines d.dst d.len) = [] →
       answers (cmd d.fill ra t.id) s fun v => v.units = { s.units with copied := s.units.copied ++ [(t.id, ra)] } ∧
         v.mem = (s.store d.dst (if d.fill then (List.replicate (d.len / 64) (s.load d.src 64)).flatten else s.load d.src d.len)).mem ∧
         v.step = s.step ∧ v.regs = s.regs)) ∧
   (∀ (s : State) (ra : Bool) (a : Attempt) (t : Strand), s.running ra t.id = some (a, t) →
     ((t.id, ra) ∈ s.units.copied →
       answers (.copyComplete ra t.id) s fun u => (t.id, ra) ∉ u.units.copied ∧ (∃ b, u.attempt ra = some b ∧ t.id ∈ b.done) ∧
         u.mem = s.mem ∧ u.regs = s.regs) ∧
     ((t.id, ra) ∉ s.units.copied → exec (.copyComplete ra t.id) s = .next s)))

/-- Checkpoint epochs (R270, R278, R286, R288, R290): EPOCH_START sends the pages and the header, or loses the epoch with no twin link up;
CKEND flips the receiving area and reports it held, or refuses an epoch that failed; EPOCH_HELD ends the epoch. The codes of these marks
are the model's choice (log 38). -/
def Obligations.CheckpointEpochs : Prop :=
  (∀ (s : State) (i n : Nat) (g : Program), s.canonical = true → s.prog = some g → (s.stack i).due = some n → i < 8 → s.ckptSend i = true →
    (s.stack i).epoch = none → s.step.committing = false →
    (s.partnerPresent = true → cleanTarn s →
      answers (.epochStart i) s fun t => (t.stack i).due = none ∧ t.mem = s.mem ∧ t.step = s.step ∧
        ∃ e : Epoch, (t.stack i).epoch = some e ∧ e.step = n ∧ 0 ∈ e.unacked ∧
          ∀ k p, (s.vPages i)[k]? = some p → ((s.stack i).fullNext = true ∨ (Bank.get vtDefault (s.stack i).vt p).c = true) →
            k + 1 ∈ e.unacked) ∧
    (s.partnerPresent = false →
      answers (.epochStart i) s fun t => (t.stack i).epoch = none ∧ (t.stack i).due = none ∧ (t.stack i).fullNext = true ∧
        (∀ p ∈ s.vPages i, (t.vtOf (4096 * p)).c = true) ∧ t.step = s.step ∧ t.fab = s.fab)) ∧
  (∀ (s t : State) (i n : Nat), s.takeCkptMark markCkend = some (i, n, t) → i < 8 → t.ckptArea i ≠ none →
    let u := t.setStack i { t.stack i with receiving := false, recvFailed := false }
    ((t.stack i).recvFailed = true → exec .ckend s = .next (u.ckptRefuse i 1)) ∧
    ((t.stack i).recvFailed = false →
      exec .ckend s = .next (((u.ckFlip i).setReg .trn i 0x7C (BitVec.ofNat 32 n)).sendTwinOn (oxbowOf i) (ckptMark markHeld i n)))) ∧
  (∀ (s t : State) (i n : Nat) (e : Epoch), s.takeCkptMark markHeld = some (i, n, t) → (t.stack i).epoch = some e →
    (e.step = n → e.unacked = [] →
      exec .epochHeld s =
        .next ((t.setReg .trn i 0x78 (BitVec.ofNat 32 n)).setStack i { t.stack i with epoch := none, fullNext := false })) ∧
    (e.step ≠ n → exec .epochHeld s = .next t)) ∧
  (∀ s : State, s.takeCkptMark markCkend = none → exec .ckend s = .next s) ∧
  (∀ s : State, s.takeCkptMark markHeld = none → exec .epochHeld s = .next s)

/-- Copy frames at the receiver (R206 to R208, R270, R288, R297, R305, R394, R400): a WRITE lands in the area opened for its use and its
sender and is acknowledged, else it is refused, as is one of a USE above 2; a MARK closes a stack of a restore that has failed; READ_REQ
answers the bytes asked for, a page a frame, or is refused where a line of them is uncorrectable. What a refusal's reason and the stacks
of a restore are carried in is the model's choice (log 38), as is one READ_DATA for each page under the TAG of its request (log 90). Copy
frames at the sender (R206 to R208, R270, R286, R290, R400): a returned page is checked and put in the Pond, the last one makes the block
resident; an ACK completes a spill's page, clears the C of a checkpoint page, or counts off a restore's; a refusal loses the block or the
epoch, or ends the restore, for the reason that its MARK names (the model's choice, log 38). RESTORE_END answers TWIN_RESTORE. -/
def Obligations.CopyFrames : Prop :=
  (let mine (f : CopyFrame) : Bool := f.cop == .write || closesStack f
   let write (s : State) (x : RxFrame) (f : CopyFrame) (t : State) : Prop := s.takeCopy mine = some (x, f, t) ∧ f.cop = .write
   (∀ (s t : State) (x : RxFrame) (f : CopyFrame), s.takeCopy mine = some (x, f, t) → f.cop = .mark →
     exec .copyWrite s = .next { t with twin := { t.twin with
       receiving := t.twin.receiving.filter fun r => r.1 != f.mark / 2 ^ 8 } }) ∧
   (∀ (s t : State) (x : RxFrame) (f : CopyFrame), write s x f t → 3 ≤ f.use → exec .copyWrite s = .next (t.refuseCopy x f 0)) ∧
   (∀ (s t : State) (x : RxFrame) (f : CopyFrame), write s x f t → f.use = 0 →
     (t.spillwayOpen x f f.data.length = true → t.badLines (t.mergeLines (t.spillwayArea.1 + f.addr) f.data.length) = [] →
       exec .copyWrite s = .next ((t.putBytes (t.spillwayArea.1 + f.addr) f.data).answer x (ackOf f))) ∧
     (t.spillwayOpen x f f.data.length = false → exec .copyWrite s = .next (t.refuseCopy x f 0))) ∧
   (∀ (s t : State) (x : RxFrame) (f : CopyFrame), write s x f t → f.use = 1 →
     (t.areaOpen x f = false → exec .copyWrite s = .next (t.refuseCopy x f 3)) ∧
     (t.areaOpen x f = true →
       ∃ v : State, exec .copyWrite s = .next (v.answer x (ackOf f)) ∧ (v.stack (stackOf f.addr)).receiving = true ∧ v.step = s.step ∧
         (t.canonical = true → v.bytes (t.shadowAddr f.addr) 4096 = f.data ∧
           ∀ b, (b < t.shadowAddr f.addr ∨ t.shadowAddr f.addr + 4096 ≤ b) → v.byte b = t.byte b))) ∧
   (∀ (s t : State) (x : RxFrame) (f : CopyFrame), write s x f t → f.use = 2 →
     let i := tagStack f.tag
     (t.fromTwin x = false → exec .copyWrite s = .next (t.refuseCopy x f 3)) ∧
     (t.fromTwin x = true → tagPage f.tag = 0 →
       (∀ why, t.restoreFault f.data = some why → exec .copyWrite s = .next (t.refuseCopy x f why)) ∧
       (∀ named u, t.restoreFault f.data = none → t.squash.takeStacks = (named, u) →
         exec .copyWrite s = .next (State.restoreDone (State.answer { u with twin := { u.twin with
           receiving := u.twin.receiving.filter (fun r => r.1 != i) ++ [(i, (u.vPages i).length)], wanted := named } } x (ackOf f))
           f.step))) ∧
     (t.fromTwin x = true → tagPage f.tag ≠ 0 →
       ((t.twin.receiving.any fun r => r.1 == i) = false ∨ t.step.att ≠ none → exec .copyWrite s = .next (t.refuseCopy x f 3)) ∧
       (∀ r, (t.twin.receiving.any fun r => r.1 == i) = true → t.step.att = none → stackOf f.addr = i → f.addr % 4096 = 0 → f.data.length = 4096 →
         t.vRegion f.addr = some (r, false) →
         ∃ v : State, exec .copyWrite s = .next ((v.answer x (ackOf f)).restoreDone f.step) ∧
           v.mem = (t.putBytes (t.committedAddr f.addr) f.data).mem ∧ (v.vtOf f.addr).c = true ∧
           v.twin.receiving = t.twin.receiving.map fun r => if r.1 = i then (i, r.2 - 1) else r))) ∧
   (∀ (s t : State) (x : RxFrame) (f : CopyFrame), s.takeCopy (fun f => f.cop == .readReq) = some (x, f, t) →
     let a := t.spillwayArea.1 + f.addr
     (f.use = 0 → t.spillwayOpen x f f.len = true →
       (t.poisoned a (a + f.len) = [] →
         exec .readReq s = .next ((pages f.len).foldl (fun u k =>
           let data := u.bytes (a + 4096 * k) (min 4096 (f.len - 4096 * k))
           u.answer x ⟨.readData, 0, f.tag, f.addr + 4096 * k, data.length, f.step, (crc32c data).toNat, 0, data⟩) t)) ∧
       (t.poisoned a (a + f.len) ≠ [] → exec .readReq s =
         .next (State.refuseCopy ((t.poisoned a (a + f.len)).foldl (fun u l => u.lineUE l 8 false) t) x f 1))) ∧
     (f.use ≠ 0 ∨ t.spillwayOpen x f f.len = false → exec .readReq s = .next (t.refuseCopy x f 0))) ∧
   (∀ s : State, s.takeCopy mine = none → exec .copyWrite s = .next s) ∧
   (∀ s : State, s.takeCopy (fun f => f.cop == .readReq) = none → exec .readReq s = .next s)) ∧
  (let lost (s t : State) (a : Attempt) (u : State) : Prop := u.stash = t.stash ∧ u.step.att = s.step.att ∧
     u.step.causes = s.step.causes ++ [⟨0x12, 0xFFFF, .outside, a.step, false⟩] ∧
     (s.mainOn = true → s.canonical = true → flagSet u .step 0 4)
   (∀ (s t : State) (x : RxFrame) (f : CopyFrame) (b : Spilled) (j addr : Nat) (pages : List Nat),
     s.takeCopy (fun f => f.cop == .readData) = some (x, f, t) → t.stash.blockOf f.tag = some (b, j) → b.returning = some (addr, pages) →
     (b.crcs[j]? = some (crc32c f.data) →
       (j ∉ pages → pages.length + 1 = b.size / 4096 →
         answers .readData s fun u => u.mem = (t.putBytes (addr + 4096 * j) f.data).mem ∧ u.step = s.step ∧
           u.stash.resident = t.stash.resident ++ [⟨b.id, b.shard, b.ra, addr, b.size, false⟩] ∧
           u.stash.spilled = t.stash.spilled.filter fun q => !q.isBlock b.id b.shard b.ra) ∧
       (j ∉ pages → pages.length + 1 ≠ b.size / 4096 →
         answers .readData s fun u => u.mem = (t.putBytes (addr + 4096 * j) f.data).mem ∧ u.step = s.step ∧
           u.stash.resident = t.stash.resident ∧ u.stash.spilled = t.stash.spilled.map fun q =>
             if q.isBlock b.id b.shard b.ra then { b with returning := some (addr, pages ++ [j]) } else q)) ∧
     (∀ a, s.attempt b.ra = some a → b.crcs[j]? ≠ some (crc32c f.data) → answers .readData s fun u => lost s t a u)) ∧
   (∀ (s t : State) (x : RxFrame) (f : CopyFrame), s.takeCopy (fun f => f.cop == .ack) = some (x, f, t) →
     let i := tagStack f.tag
     (∀ b j, f.use = 0 → f.tag < 2 ^ 31 → t.stash.blockOf f.tag = some (b, j) →
       (b.unacked.filter (· != j) = [] → answers .copyAck s fun u => u.step = s.step ∧
         u.stash.resident = t.stash.resident.filter fun r => !r.isBlock b.id b.shard b.ra) ∧
       (b.unacked.filter (· != j) ≠ [] → answers .copyAck s fun u => u.step = s.step ∧ u.stash.resident = t.stash.resident)) ∧
     (∀ b j a, f.use = 0 → 2 ^ 31 ≤ f.tag → t.stash.blockOf (f.tag - 2 ^ 31) = some (b, j) → s.attempt b.ra = some a →
       answers .copyAck s fun u => lost s t a u) ∧
     (f.use = 1 → f.tag < 2 ^ 31 → i < 8 → ∀ e, t.canonical = true → (t.stack i).epoch = some e →
       let u := t.setStack i { t.stack i with epoch := some { e with unacked := e.unacked.filter (· != tagPage f.tag) } }
       (tagPage f.tag = 0 → exec .copyAck s = .next u) ∧
       (∀ j p, tagPage f.tag = j + 1 → (t.vPages i)[j]? = some p →
         exec .copyAck s = .next (u.setVt (4096 * p) { u.vtOf (4096 * p) with c := false }))) ∧
     (∀ why u, f.use = 1 → 2 ^ 31 ≤ f.tag → i < 8 → t.takeWhy 1 i 3 = (why, u) →
       exec .copyAck s = .next (u.ckptLost i why)) ∧
     (∀ r, 2 ≤ f.use → t.twin.sending = some r →
       (∀ why u, 2 ^ 31 ≤ f.tag → t.takeWhy 2 i 3 = (why, u) →
         exec .copyAck s = .next (if why = 1 then u.endRestore r stDigest 0 else if why = 2 then u.endRestore r stDigest 1
           else u.endRestore r stBadState (cpCode u.cp))) ∧
       (f.tag < 2 ^ 31 → tagPage f.tag ≠ 0 →
         exec .copyAck s = .next (t.setSending (some { r with pages := r.pages.filter (· != f.tag) })))) ∧
     (2 ≤ f.use → t.twin.sending = none → exec .copyAck s = .next t)) ∧
   (∀ (s t : State) (f : CopyFrame) (r : RestoreTx), s.takeMark 6 = some (f, t) → t.twin.sending = some r →
     (leAt 0 1 f.data = r.mask → exec .restoreEnd s = .next (t.endRestore r stOk 0)) ∧
     (leAt 0 1 f.data ≠ r.mask → exec .restoreEnd s = .next t)))

/-- The twin pair's marks (R391, R392, R395 to R397): HELLO pairs two modules that agree and unpairs them where they do not; equal digests
give READY, unequal ones cause 0x14, which halts where an attempt of the step has mismatched before; ABORTED and HALTED carry that cause
over, an ABORTED for an attempt that has not opened here yet once it has; PROGDIG is kept for the load that asks for it. Where a MARK
carries its step, attempt and cause is the model's choice (log 57). Losing the partner (R390, R397 to R399): the module is unpaired and
the HELLO forgotten; a step that waits for the partner's digest goes on unpaired. Nothing happens while a twin link is up. (A row out of
its condition changes nothing: the model's choice, log 2.) -/
def Obligations.TwinMarksAndPartnerLoss : Prop :=
  ((∀ (s t : State) (f : CopyFrame), s.takeMark 1 = some (f, t) →
     (t.agrees (helloOf f.data) = true → answers .hello s fun u => u.twin.paired = true ∧ u.twin.hello = some (helloOf f.data) ∧
       u.twin.mode = t.twin.mode ∧ u.step = s.step ∧ (t.twin.paired = false → u.twin.unpaired = false)) ∧
     (t.agrees (helloOf f.data) = false →
       exec .hello s = .next { t with twin := { t.twin with hello := some (helloOf f.data), paired := false } })) ∧
   (∀ (s t : State) (f : CopyFrame) (a : Attempt) (d : List Byte), s.takeMark 2 = some (f, t) → s.step.att = some a →
     s.twin.mine = some (a.step, a.number, d) → f.step = a.step → min 255 (f.mark / 2 ^ 8) = min 255 a.number →
     (f.data.take 16 = d → answers .digest s fun u => u.twin.mine = none ∧ u.twin.theirs = none ∧
       u.step.att = some { a with readySent := true } ∧ u.step.causes = s.step.causes ∧ u.mem = s.mem) ∧
     (f.data.take 16 ≠ d → answers .digest s fun u => u.twin.mine = none ∧ u.twin.theirs = none ∧ u.step.att = some a ∧
       u.step.causes = s.step.causes ++ [⟨0x14, mismatchLayer, .outside, a.step, false⟩])) ∧
   (∀ (s t : State) (f : CopyFrame) (a : Attempt), s.takeMark 3 = some (f, t) → s.step.att = some a →
     (a.step = f.step → a.number % 2 ^ 24 = f.mark / 2 ^ 8 →
       exec .aborted s = .next (t.addCause ⟨0x14, 0xFFFF, .outside, a.step, false⟩)) ∧
     (a.step ≠ f.step → f.step ≠ a.step + 1 → exec .aborted s = .next t) ∧
     (f.step = a.step + 1 ∨ a.step = f.step ∧ a.number < f.mark / 2 ^ 8 → exec .aborted s = .next s)) ∧
   (∀ (s t : State) (f : CopyFrame), s.takeMark 4 = some (f, t) →
     (t.step.halted ≠ none → exec .halted s = .next t) ∧
     (t.step.halted = none → exec .halted s =
       .next (t.addCause ⟨0x14, 0xFFFF, .outside, (t.step.att.map (·.step)).getD t.stepNum, true⟩))) ∧
   (∀ (s t : State) (f : CopyFrame), s.takeMark 5 = some (f, t) → t.twin.loadWait = none →
     exec .progdig s = .next { t with twin := { t.twin with progdig := some (BitVec.ofNat 384 (beNat (f.data.take 48))) } })) ∧
  ((∀ s : State, s.partnerPresent = true → exec .partnerLossTimeout s = .next s) ∧
   (∀ s : State, s.umc.phase = .dies → s.partnerPresent = false → s.twin.lost = false →
     answers .partnerLossTimeout s fun t => t.twin.lost = true ∧ t.twin.unpaired = true ∧ t.twin.paired = false ∧
       t.twin.hello = none ∧ t.twin.receiving = [] ∧ t.twin.mode = s.twin.mode ∧ t.twin.sending = none ∧ t.twin.loadWait = none ∧
       t.prog = s.prog ∧
       ((∀ a, s.step.att = some a → s.twin.mode = 2 → a.endSent = true → a.readySent = false → a.vetoes = [] →
         t.step.att = some { a with readySent := true }))))

/-- Joining a domain (R404, R405, R407): the wellhead accepts a joiner that fits, enters it in the rank table and sends the table out, or
refuses it with the reason; an accepted joiner takes the table and its rank; RANKS of a newer claim is adopted. Who counts as another live
module, and the fields of the payloads, are the model's readings (logs 93 and 22). Silence and loss (R407, R408): BEAT goes to the tree
neighbours and is taken; a neighbour silent with no link up is reported, or marked LOST where this module is the wellhead, where an open
attempt aborts with the halt flag; nothing happens while a link to it is up. (A row out of its condition changes nothing: the model's
choice, log 2.) -/
def Obligations.RanksJoinAndAreLost : Prop :=
  ((∀ (s t : State) (x : RxFrame) (f : DomFrame), s.takeUp 1 = some (x, f, t) →
     (t.isWellhead = false → exec .join s = .next t) ∧
     (t.isWellhead = true → t.joinFault f = 0 → answers .join s fun u => u.rankEntry f.origin = ⟨1, fldDigest f 7, fldDigest f 1⟩ ∧
       (∀ r, r ≠ f.origin → u.rankEntry r = s.rankEntry r) ∧ u.dom.size = s.dom.size ∧ u.step = s.step) ∧
     (t.isWellhead = true → t.joinFault f ≠ 0 → answers .join s fun u => u.dom = s.dom ∧ u.step = s.step)) ∧
   (∀ (s t : State) (f : DomFrame), s.takeDown 2 = some (f, t) →
     (fld f 0 = 0 → answers .joinAck s fun u => u.dom.rank = f.origin ∧ u.dom.rankValid = true ∧ u.dom.size = fld f 1 ∧
       u.dom.wgen = fld f 2 ∧ u.dom.wh = fld f 3 ∧ u.step = s.step) ∧
     (fld f 0 ≠ 0 → answers .joinAck s fun u => u.dom = s.dom ∧ u.step = s.step)) ∧
   (∀ (s t : State) (f : DomFrame), s.takeDown 3 = some (f, t) → t.dom.rankValid = true →
     (t.claimWins (fld f 1) (fld f 2) = false → exec .ranks s = .next t) ∧
     (t.claimWins (fld f 1) (fld f 2) = true → answers .ranks s fun u => u.dom.size = fld f 0 ∧ u.dom.wgen = fld f 1 ∧
       u.dom.wh = fld f 2 ∧ u.dom.rank = s.dom.rank ∧ (s.stash.spilled = [] → u.step = s.step)))) ∧
  ((∀ (s : State) (r : Nat), s.dom.rankValid = true → 1 < s.dom.size → s.neighbours = [r] →
     exec .beatTimer s = .next (s.sendRank r 0 (.dom (s.domFrame 0x13 false s.stepNum 0 0 [])))) ∧
   (∀ s : State, s.dom.rankValid = false → exec .beatTimer s = .next s) ∧
   (∀ (s t : State) (x : RxFrame) (f : DomFrame), s.takeUp 0x13 = some (x, f, t) → exec .beat s = .next t) ∧
   (∀ s : State, s.takeUp 0x13 = none → exec .beat s = .next s) ∧
   (∀ (s : State) (r : Nat), s.dom.takeover = none →
     (s.rankLinkUp r = true → exec (.memberSilenceTimeout r) s = .next s) ∧
     (s.rankLinkUp r = false → s.dom.rankValid = true → r < s.dom.size → r ≠ s.dom.rank → s.isLost r = false →
       s.neighbours.contains r = true →
       (r = s.dom.wh → s.canonical = true → (∀ b ∈ s.stash.spilled, b.toTwin = true ∨ b.peer ≠ r) → answers (.memberSilenceTimeout r) s fun t => t.isLost r = true ∧ t.step = s.step ∧ t.fab = s.fab) ∧
       (r ≠ s.dom.wh → s.isWellhead = false → exec (.memberSilenceTimeout r) s = .next (s.sendLost r)) ∧
       (r ≠ s.dom.wh → s.isWellhead = true → exec (.memberSilenceTimeout r) s = .next (s.markLost r)))) ∧
   (∀ (s t : State) (x : RxFrame) (f : DomFrame), s.cp ≠ .faulted → s.takeUp 0x14 = some (x, f, t) →
     (t.isWellhead = false ∨ t.isLost (fld f 0) = true → exec .lost s = .next t) ∧
     (t.isWellhead = true → fld f 0 < t.dom.size → t.isLost (fld f 0) = false →
       answers .lost s fun u => u.isLost (fld f 0) = true ∧ u.dom.size = t.dom.size ∧ u.dom.wh = t.dom.wh ∧ u.prog = t.prog)) ∧
   (∀ s : State, s.cp ≠ .faulted → s.takeUp 0x14 = none → exec .lost s = .next s))

/-- Handover (R410 to R412): the old wellhead passes its state where no step is open; the new one takes over everything it carries and
raises the generation; of two requests the lower rank wins, and one turned down replies BAD_STATE (R412; the message is the model's
choice, log 39); STATE_Q of a newer claim is answered; STATE answers are collected until the takeover ends, and ARG 5 reports a halt
carried out (log 55). The messages of a planned handover are the model's choice (log 39). -/
def Obligations.WellheadHandover : Prop :=
  let handed (x : RxFrame) : Option DomFrame :=
    match x.data with
    | .dom f => if f.mtype = 0x15 ∧ f.down ∧ f.arg = 2 then some f else none
    | _ => none
  let request (x : RxFrame) : Option DomFrame :=
    match x.data with
    | .dom f => if f.mtype = 0x15 ∧ !f.down ∧ f.arg = 1 then some f else none
    | _ => none
  let refused (x : RxFrame) : Option DomFrame :=
    match x.data with
    | .dom f => if f.mtype = 0x15 ∧ f.down ∧ f.arg = 4 then some f else none
    | _ => none
  let question (x : RxFrame) : Option DomFrame :=
    match x.data with
    | .dom f => if f.mtype = 0x15 ∧ f.down ∧ f.arg = 0 then some f else none
    | _ => none
  let answer (x : RxFrame) : Option DomFrame :=
    match x.data with
    | .dom f => if f.mtype = 0x15 ∧ !f.down ∧ (f.arg = 0 ∨ f.arg = 3 ∨ f.arg = 5) then some f else none
    | _ => none
  (∀ (s t : State) (x : RxFrame) (f : DomFrame), s.takeFrame handed = some (x, f, t) →
    answers .plannedHandover s fun u => u.dom.wh = s.dom.rank ∧ u.dom.wgen = fld f 11 + 1 ∧ u.dom.size = fld f 10 ∧
      u.step.nextAttempt = fld f 2 ∧ u.step.retries = fld f 3 ∧ u.step.halted = optOf (fld f 4) ∧ u.dom.limit = optOf (fld f 6) ∧
      (u.dom.running = true ↔ fld f 7 = 1)) ∧
  (∀ (s t : State) (x : RxFrame) (f : DomFrame), s.takeFrame handed = none → s.takeFrame request = some (x, f, t) →
    (t.isWellhead = false → t.dom.handover = none → exec .plannedHandover s = .next (t.refuseHandover f.origin)) ∧
    (t.isWellhead = true → t.mayHandOver = false →
      (t.dom.handover = none → exec .plannedHandover s = .next { t with dom := { t.dom with handover := some f.origin } }) ∧
      (∀ r, t.dom.handover = some r → r ≠ t.dom.rank → f.origin ≠ t.dom.rank →
        answers .plannedHandover s fun u => u.dom.handover = some (min r f.origin) ∧ u.step = s.step))) ∧
  (∀ (s t : State) (x : RxFrame) (f : DomFrame), s.takeFrame handed = none → s.takeFrame request = none →
    s.takeFrame refused = some (x, f, t) → t.dom.handover = none →
    exec .plannedHandover s = .next (t.finishOp 0x0402 stBadState (cpCode t.cp) [])) ∧
  (∀ s : State, s.takeFrame handed = none → s.takeFrame request = none → s.takeFrame refused = none →
    (s.dom.handover = none → exec .plannedHandover s = .next s) ∧
    (∀ r, s.dom.handover = some r → s.isWellhead = true → s.mayHandOver = true →
      answers .plannedHandover s fun u => u.dom = { s.dom with handover := none, wh := r, running := false, limit := none } ∧
        u.step = s.step) ∧
    (∀ r, s.dom.handover = some r → s.mayHandOver = false → exec .plannedHandover s = .next s)) ∧
  (∀ (s t : State) (x : RxFrame) (f : DomFrame), s.takeFrame question = some (x, f, t) → t.dom.rankValid = true →
    (t.claimWins (fld f 0) f.origin = false → exec .stateQ s = .next t) ∧
    (t.claimWins (fld f 0) f.origin = true → answers .stateQ s fun u => u.dom.wgen = fld f 0 ∧ u.dom.wh = f.origin ∧
      u.dom.rank = s.dom.rank ∧ u.step = s.step)) ∧
  (∀ (s t : State) (x : RxFrame) (f : DomFrame), s.takeFrame answer = some (x, f, t) →
    (t.isWellhead = false ∨ t.isLost f.origin = true → exec .state s = .next t) ∧
    (t.isWellhead = true → t.isLost f.origin = false →
      (f.arg = 5 → exec .state s =
        .next ({ t with dom := { t.dom with halting := t.dom.halting.filter (· != f.origin) } } : State).haltSettled) ∧
      (f.arg = 3 → exec .state s = .next { t with step := { t.step with exhausted := false } }) ∧
      (f.arg = 0 → t.dom.takeover = none → answers .state s fun u =>
        u.dom.ranks = Bank.put rankDefault t.dom.ranks f.origin { t.rankEntry f.origin with digest := fldDigest f 4 } ∧
        u.step = s.step) ∧
      (∀ k, f.arg = 0 → t.dom.takeover = some k → (∃ r < t.dom.size, t.isLost r = false ∧ r ≠ f.origin ∧ ∀ a ∈ k.answers, a.1 ≠ r) →
        answers .state s fun u => u.step = s.step ∧ ∃ j, u.dom.takeover = some j ∧
          (f.origin, ⟨fld f 0, fld f 1, fld f 2 == 1, fld f 3 == 1, fldDigest f 4⟩) ∈ j.answers ∧
          ∀ a ∈ k.answers, a.1 ≠ f.origin → a ∈ j.answers)))

/-- The collective rows (R310, R312 to R315, R325): the engine of a die issues the lowest ready collective of the row's operation, in
group order, and CE_LAST_DSEQ takes its number; with nothing ready and nothing active of the operation nothing happens. A DSEQ that does
not lie above the last one issued is not issued: it is a cause for an abort. The order between dies is the model's reading (log 53). -/
def Obligations.CollectivesAreIssued : Prop :=
  let row (op : CollOp) (die : Nat) : Instr :=
    match op with
    | .ag => .allGather die
    | .bc => .broadcast die
    | .rs => .reduceScatter die
    | .ar => .allReduce die
  let ready (s : State) (ra : Bool) (die : Nat) : List Coll := (s.readyColls ra).filter fun c => c.die == die
  let above (s : State) (c : Coll) : Bool :=
    let gap := (c.dseq + 2 ^ 32 - (s.reg .ceEng c.die 0x18).toNat) % 2 ^ 32
    decide (0 < gap ∧ gap < 2 ^ 31)
  (∀ (s : State) (op : CollOp) (die : Nat) (c : Coll), die < 4 → s.canonical = true →
    lowestColl (ready s false die) = some c ∨ ready s false die = [] ∧ lowestColl (ready s true die) = some c →
    (c.desc.op = op → (s.engine die).active.length < 16 → s.groupOrder c = true →
      ((s.engine die).issuedAny = false ∨ above s c = true →
        answers (row op die) s fun t => (t.engine die).issuedAny = true ∧ t.reg .ceEng die 0x18 = BitVec.ofNat 32 c.dseq) ∧
      ((s.engine die).issuedAny = true → above s c = false → (∀ x ∈ (s.engine die).active, x.desc.op ≠ op) →
        answers (row op die) s fun t => t.fab = s.fab ∧ t.step.att = s.step.att ∧ t.step.causes = s.step.causes ++
          [⟨6, c.desc.layer.getD 0xFFFF, (c.desc.layer.map Cut.at).getD .beforeAll, c.step, false⟩] ∧
          eventOnly { s with step := t.step } t)) ∧
    (c.desc.op ≠ op ∨ 16 ≤ (s.engine die).active.length ∨ s.groupOrder c = false →
      (∀ x ∈ (s.engine die).active, x.desc.op ≠ op) → exec (row op die) s = .next s)) ∧
  (∀ (s : State) (op : CollOp) (die : Nat), die < 4 → ready s false die = [] → ready s true die = [] →
    (∀ x ∈ (s.engine die).active, x.desc.op ≠ op) → exec (row op die) s = .next s)

/-- Collective frames and stalls (R312 to R314, R321, R322, R326 to R328): a frame of an active collective and of its RGEN is taken and
the part goes on; an older one, and one of a collective that is over, is dropped and counted; one for a collective not yet issued is held
early and counted; a completed one answers FINQ; RESTART of a higher RGEN restarts the part, up to RESTART_MAX, and one of an equal RGEN
is ignored; a stall restarts, or queries once a FIN has been sent. When credit is granted, and that FIN goes without it, are the model's
choices (log 52). -/
def Obligations.CollectiveFrames : Prop :=
  let kind (ct : CollType) (x : RxFrame) : Option CollFrame :=
    match x.data with
    | .coll f => if f.ctype = ct then some f else none
    | _ => none
  let row (ct : CollType) : Instr :=
    match ct with
    | .seg => .seg
    | .credit => .credit
    | .restart => .restart
    | .fin => .fin
    | .finq => .finq
  let taken (s : State) (ct : CollType) (f : CollFrame) (t : State) : Prop := ∃ x, s.takeFrame (kind ct) = some (x, f, t)
  let carried (t : State) (f : CollFrame) (c : Coll) : Prop :=
    (t.allColls.find? fun c => c.dseq == f.dseq) = some c ∧ t.coll? (t.engineOf f.dseq) f.dseq = some c
  (∀ (s t : State) (ct : CollType) (f : CollFrame) (c : Coll), taken s ct f t → carried t f c →
    let d := t.engineOf f.dseq
    (t.beforeBase f.dseq = true → exec (row ct) s = .next (t.bump .ceEng d 0x48 1)) ∧
    (t.beforeBase f.dseq = false → f.rgen < c.rgen → exec (row ct) s = .next (t.bump .ceEng d 0x48 1)) ∧
    (t.beforeBase f.dseq = false → f.rgen = c.rgen →
      (ct = .seg → exec .seg s = .next (State.pump ((t.updColl d f.dseq fun x => x.addSegment (t.segmentsOf c) f).consume
        d f.dseq f.srcMember) d f.dseq)) ∧
      (ct = .credit → exec .credit s = .next (State.pump (t.updColl d f.dseq fun x =>
        { x with credit := putN x.credit f.srcMember ((lookupN x.credit f.srcMember).getD 0 + f.credit) }) d f.dseq)) ∧
      (ct = .fin → exec .fin s = .next (State.pump (t.updColl d f.dseq fun x =>
        let k := if x.aligned then f.level else f.srcMember
        { x with fins := if x.fins.contains k then x.fins else x.fins ++ [k] }) d f.dseq)) ∧
      (ct = .finq → c.finsTo.contains (if c.aligned then f.level else f.srcMember) = true →
        exec .finq s = .next (State.pump (t.sendRank (c.rankOf f.srcMember) f.level (.coll (c.frame .fin f.level))) d f.dseq)) ∧
      (ct = .restart → exec .restart s = .next t)) ∧
    (t.beforeBase f.dseq = false → c.rgen < f.rgen →
      (ct = .restart → t.collSpent c = false → exec .restart s = .next (t.restartColl d f.dseq f.rgen)) ∧
      (ct = .restart → t.collSpent c = true →
        answers .restart s fun u => u.fab = t.fab ∧ u.step.att = s.step.att ∧
          u.step.causes = s.step.causes ++ [⟨0x13, 0xFFFF, .outside, c.step, false⟩]) ∧
      (ct ≠ .restart → exec (row ct) s = .next (t.holdEarly d f)))) ∧
  (∀ (s t : State) (ct : CollType) (f : CollFrame), taken s ct f t → (t.allColls.find? fun c => c.dseq == f.dseq) = none →
    let d := t.engineOf f.dseq
    (∀ x, ((t.engine d).finished.find? fun x => x.dseq == f.dseq) = some x →
      (ct = .finq → exec .finq s = .next (t.answerDone x f)) ∧
      (ct ≠ .finq → exec (row ct) s = .next (t.bump .ceEng d 0x48 1))) ∧
    (((t.engine d).finished.find? fun x => x.dseq == f.dseq) = none → t.beforeBase f.dseq = true ∨ t.collOver f.dseq = true →
      exec (row ct) s = .next (t.bump .ceEng d 0x48 1)) ∧
    (((t.engine d).finished.find? fun x => x.dseq == f.dseq) = none → t.beforeBase f.dseq = false → t.collOver f.dseq = false →
      (ct = .restart → exec .restart s = .next (t.recordRestart d f)) ∧
      (ct ≠ .restart → exec (row ct) s =
        .next ((t.setEngine d { t.engine d with early := (t.engine d).early ++ [f] }).bump .ceEng d 0x4C 1)))) ∧
  (∀ (s : State) (die dseq : Nat) (c : Coll), s.coll? die dseq = some c →
    let ctx : EvCtx := { step := some c.step, attempt := c.attempt, layer := c.desc.layer.getD 0xFFFF, ra := c.ra }
    (s.collSpent c = true → answers (.collStall die dseq) s fun t => t.fab = s.fab ∧ t.step.att = s.step.att ∧
      t.step.causes = s.step.causes ++ [⟨0x13, 0xFFFF, .outside, c.step, false⟩]) ∧
    (s.collSpent c = false → c.finsTo = [] →
      exec (.collStall die dseq) s = .next (State.restartColl ((s.bump .ceEng die 0x44 1).raiseCtx 0x0411 die 6 ctx
        (leBytes 4 dseq ++ leBytes 2 c.desc.grp ++ leBytes 1 (c.rgen + 1) ++ leBytes 1 0)) die dseq (c.rgen + 1))) ∧
    (s.collSpent c = false → c.finsTo ≠ [] →
      answers (.collStall die dseq) s fun t => t.coll? die dseq = some { c with count := c.count + 1 } ∧
        t.step.att = s.step.att ∧ t.fab.links.length = s.fab.links.length)) ∧
  (∀ (s : State) (die dseq : Nat), s.coll? die dseq = none → exec (.collStall die dseq) s = .next s)

/-- INVARIANT. Every command keeps the tables in canonical form (equal contents are equal data), the parts fixed at manufacture (R445),
and the commands that wait behind it: a step takes exactly one command off the queue. -/
def Obligations.EveryStepKeepsTheInvariant : Prop :=
  ∀ s t : State, s.canonical = true → step s = .next t →
    t.canonical = true ∧ samePart s t ∧ t.pending = s.pending.tail

/-- INVARIANT. CPSTATE FAULTED is left only by a reset (R376, R449): from FAULTED a command leads to FAULTED, or it is one of the reset
and power rows and leads to BOOT; with the release of a reset that has already begun apart, no program, no link and no trained Tarn base
is left then. -/
def Obligations.FaultedIsLeftOnlyByReset : Prop :=
  let resets (c : Instr) : Prop :=
    (∃ m, c = .mainOff m ∨ c = .mainOn m ∨ c = .warmReset m ∨ c = .fullReset m) ∨ (∃ f a, c = .smbPower f a) ∨
    c = .mesh ∨ c = .cover ∨ (∃ n x, c = .thermTrip n x) ∨ (∃ v, c = .mainInputFault v ∨ c = .mainInputApplied v ∨ c = .inputOkChange v) ∨
    (∃ a b h u, c = .standbyPowerUp a b h u) ∨ c = .standbyLost ∨ (∃ r, c = .railPowerGoodTimeout r) ∨ c = .pllLockFailure
  ∀ (c : Instr) (s t : State), s.cp = .faulted → exec c s = .next t →
    t.cp = .faulted ∨
    (t.cp = .boot ∧ ((∃ b, c = .hubResetRelease b) ∨
      resets c ∧ t.prog = none ∧ t.fab.links = [] ∧ ∀ i, (t.stack i).trained = false))

/-- The shadow pages (R211, R277): a strand's write within one page of a V region lands in the shadow frame and marks the page touched;
the committed copy of every byte of the page stays, and a strand reads back what was written and elsewhere what it read before. -/
def Obligations.VersionedPagesKeepTheCommittedCopy : Prop :=
  ∀ (s : State) (a z : Nat) (g : Bool) (l : List Byte), s.canonical = true → l ≠ [] → a % 4096 + l.length ≤ 4096 → 4096 ≤ z → z % 4096 = 0 →
    (∀ b, b / 4096 = a / 4096 → s.vRegion b = some (z, g)) →
    (∀ b, (b / 4096 = a / 4096 ∨ (a + z) / 4096 = b / 4096) → b < tarnTop → (s.stack (stackOf b)).trained = true) →
    let t := s.store a l
    (t.vtOf a).t = true ∧ (t.vtOf a).vb = (s.vtOf a).vb ∧
    (∀ b, b / 4096 = a / 4096 → t.byte (t.committedAddr b) = s.byte (s.committedAddr b)) ∧
    t.load a l.length = l ∧
    (∀ b, b / 4096 = a / 4096 → (b < a ∨ a + l.length ≤ b) → t.byte (t.strandAddr b) = s.byte (s.strandAddr b))

/-- Aborts and V regions (R228): after a DOMAIN_ABORT, whatever its cause, the committed copy of every byte of a V region is the one
before it, at the same place, and where the open attempt was discarded it is what a strand reads. (The byte lies in no window and in no
POND or SCRATCH region: the log ring lies in a window, and those regions are undefined after an abort, R213.) -/
def Obligations.AbortsKeepVersionedRegions : Prop :=
  (∀ (s t : State) (b z : Nat), s.canonical = true → exec .domainAbort s = .next t → b < tarnTop → s.vRegion b = some (z, false) →
    s.apart (s.committedAddr b) →
    t.committedAddr b = s.committedAddr b ∧ t.byte (t.committedAddr b) = s.byte (s.committedAddr b)) ∧
  (∀ (s u : State) (g : Program) (a : Attempt) (f : DomFrame), s.canonical = true → s.prog = some g →
    s.hasDown 0xC = false → s.hasDown 0xF = false → s.step.committing = false → (s.exhaustAbort && s.exhaustWaits) = false →
      s.takeDown 0x11 = some (f, u) → s.step.att = some a →
    a.step = f.step → a.base = fld f 0 →
    answers .domainAbort s fun t => ∀ b z, b < tarnTop → s.vRegion b = some (z, false) → s.areaPage (stackOf b) (b / 4096) = false →
      s.apart (s.committedAddr b) →
      t.strandAddr b = t.committedAddr b ∧ t.byte (t.strandAddr b) = s.byte (s.committedAddr b))

/-- Zero codes and zero blocks (R43, R50), and rounding (R44, R45, R47, R52, R65, R67). In L4, L6, L8 and L8G the code with only the sign
bit set reads as zero and is never written, and a negative value that narrows to zero has the positive zero code. A narrowed block that is
not poisoned has E8 0x00 exactly when all its codes are zero; all codes are zero exactly when E8 is 0x00 or 0xFF, in nodes of the
canonical tree too; and the codes of a block with E8 0x00 or 0xFF are ignored. Every NaN the arithmetic makes is the canonical one; sums
and products do not depend on the order of their two operands; and narrowing a decoded log value under its own exponent gives its code
back, so a copy that is widened and narrowed again is the same; a code taken to a finer format and back is the same. -/
def Obligations.NumbersAreCanonical : Prop :=
  (∀ f : LogFmt, f = logL4 ∨ f = logL6 ∨ f = logL8 →
    (∀ e, 0 < e → e ≤ f.maxE → ∃ d, decodeDy f e (f.top + 1) = some d ∧ d.m = 0) ∧
    (∀ x e, (narrowDy f x e).1 ≠ f.top + 1) ∧
    (∀ (x : Dy) (e : Nat), (narrowDy f x e).1 % (f.top + 1) = 0 → (narrowDy f x e).1 = 0) ∧
    (∀ (xs : List Word) (e : Nat), 0 < e → e ≤ f.maxE →
      ((narrowBlock f xs e).poisoned = false → ((narrowBlock f xs e).e8 = 0 ↔ ∀ c ∈ (narrowBlock f xs e).codes, c = 0)) ∧
      ((∀ c ∈ (narrowBlock f xs e).codes, c = 0) ↔ (narrowBlock f xs e).e8 = 0 ∨ (narrowBlock f xs e).e8 = 0xFF)) ∧
    (∀ c d, decodeDy f 0 c = decodeDy f 0 d ∧ decodeDy f 0xFF c = decodeDy f 0xFF d)) ∧
  ((l8gValue 512).m = 0 ∧ (∀ v e, toL8g v e ≠ 512) ∧ (∀ c, (l8gToL8 c).1 ≠ 128) ∧
    ∀ (root ga gb : Bool) (a b : Nat × List Nat),
      (∀ c ∈ (sumBlock root ga gb a b).1.2, c = 0) ↔ (sumBlock root ga gb a b).1.1 = 0 ∨ (sumBlock root ga gb a b).1.1 = 0xFF) ∧
  (∀ a b c : Word, (fl32 (fAdd a b) = .nan → fAdd a b = nan32) ∧ (fl32 (fMul a b) = .nan → fMul a b = nan32) ∧
    (fl32 (fMa a b c) = .nan → fMa a b c = nan32) ∧ (fl32 (fDiv a b) = .nan → fDiv a b = nan32) ∧
    (fl32 (fSqrt a) = .nan → fSqrt a = nan32)) ∧
  (∀ a b c : Word, fAdd a b = fAdd b a ∧ fMul a b = fMul b a ∧ fMa a b c = fMa b a c) ∧
  (∀ (f : LogFmt) (e c : Nat) (x : Dy), f = logL4 ∨ f = logL6 ∨ f = logL8 → 0 < e → e ≤ f.maxE → c < 2 ^ f.width →
    0 < (codeParts f c).2 → decodeDy f e c = some x → (narrowDy f x e).1 = c) ∧
  (∀ f ∈ [logL4, logL6, logL8], ∀ g ∈ [logL4, logL6, logL8], ∀ c, (logToLog f g c).1 ≠ g.top + 1 ∧
    (f.q ≤ g.q → c < 2 ^ f.width → c % (f.top + 1) ≠ 0 → logToLog g f (logToLog f g c).1 = (c, false)))

/-- The control tree (R407): the children of a relative index are those of which it is the parent, and there are at most 10 of them. -/
def Obligations.ControlTree : Prop :=
  ∀ n i : Nat, n ≤ 1024 → i < n →
    (∀ j, j ∈ treeChildren n i ↔ 0 < j ∧ j < n ∧ treeParent j = i) ∧ (treeChildren n i).length ≤ 10

/-- Flags and set counts (R474): an occurrence sets its bit and counts, saturating at 0xFF; every other bit and count of the block, and
every other register, stays. -/
def Obligations.FlagsAreCounted : Prop :=
  ∀ (s : State) (b : Block) (i n : Nat), s.canonical = true → n < 8 →
    let t := s.raiseFlag b i n
    t.reg b i (evReg b) = s.reg b i (evReg b) ||| BitVec.ofNat 32 (2 ^ n) ∧
    t.setCount b i n = min 0xFF (s.setCount b i n + 1) ∧
    (∀ m, m < 8 → m ≠ n → t.setCount b i m = s.setCount b i m) ∧
    (∀ a, a ≠ regAddr b i (evReg b) → a ≠ regAddr b i (cntReg b n) → t.regAt a = s.regAt a) ∧
    t = { s with regs := t.regs }
end

