-- ==== Sys2Proof/Laws/Access.lean ====
section
/-! SUPPORT. Where a register's address leads, and what one accepted or refused write does. -/
namespace Sys2Proof.Machine

theorem pages_apart (b x : Block) (h : x ≠ b) :
    pageBase b + 0x1000 * instances b ≤ pageBase x ∨ pageBase x + 0x1000 * instances x ≤ pageBase b := by
  cases b <;> cases x <;> first | (exact absurd rfl h) | (exact Or.inl (by decide)) | (exact Or.inr (by decide))

theorem pages_positive (b : Block) : 0 < instances b := by cases b <;> decide

/-- The address of a register lies on its own page. -/
theorem pageOf_regAddr (b : Block) (i o : Nat) (hi : i < instances b) (ho : o < 0x1000) :
    pageOf (regAddr b i o) = some (b, i, o) := by
  have e : (fun x => decide (pageBase x ≤ regAddr b i o ∧ regAddr b i o < pageBase x + 0x1000 * instances x)) =
      fun x => decide (x = b) := by
    funext x
    refine decide_eq_decide.2 ⟨fun h => ?_, fun h => ?_⟩
    · refine Decidable.byContradiction fun hx => ?_
      have := pages_apart b x hx
      simp only [regAddr] at h
      omega
    · subst h
      simp only [regAddr]
      omega
  have e2 : allBlocks.find? (fun x => decide (x = b)) = some b := by cases b <;> decide
  have h1 : (regAddr b i o - pageBase b) / 0x1000 = i := by unfold regAddr; omega
  have h2 : (regAddr b i o - pageBase b) % 0x1000 = o := by unfold regAddr; omega
  unfold pageOf
  rw [e, e2]
  simp [h1, h2]

theorem pageBase_aligned (b : Block) : pageBase b % 4 = 0 := by cases b <;> decide

theorem regAddr_aligned (b : Block) (i o : Nat) (h : o % 4 = 0) : regAddr b i o % 4 = 0 := by
  have := pageBase_aligned b
  unfold regAddr
  omega

/-- A write to a register that exists comes down to the checks and the effect of that register. -/
theorem accessWrite_regAddr (s : State) (who : Requester) (b : Block) (i o : Nat) (r : RegDesc) (v : Word) (hi : i < instances b)
    (ho : o < 0x1000) (h4 : o % 4 = 0) (hr : s.reaches who = true) (hu : (hubSide b && !s.hubUp) = false)
    (hd : regDesc b o = some r) (ha : absent s.part b i o = false) :
    s.accessWrite who (regAddr b i o) v =
      .next { (s.writeAt who b i o r v).1 with access := (s.writeAt who b i o r v).2 } := by
  simp [State.accessWrite, State.writeReg, regAddr_aligned b i o h4, pageOf_regAddr b i o hi ho, hr, hu, hd, ha, guarded]

/-- A write that passes every check has the effect of its register. -/
theorem writeAt_ok (s : State) (who : Requester) (b : Block) (i o : Nat) (r : RegDesc) (v : Word)
    (h : s.writeStatus who b i r v = .ok) (hk : r.kind = .rw ∨ r.kind = .wo) :
    s.writeAt who b i o r v = (s.storeReg b i o (v &&& BitVec.ofNat 32 r.mask), .ok) := by
  rcases hk with hk | hk <;> simp [State.writeAt, h, hk]

theorem writeAt_refused (s : State) (who : Requester) (b : Block) (i o : Nat) (r : RegDesc) (v : Word) (a : Access)
    (h : s.writeStatus who b i r v = a) (ha : a ≠ .ok) : s.writeAt who b i o r v = (s.refusedWrite b i o a, a) := by
  unfold State.writeAt
  rw [h]
  cases a <;> first | exact absurd rfl ha | rfl

/-- A write to a register whose checks pass ends in the effect of that register. -/
theorem accessWrite_of_status (s : State) (who : Requester) (b : Block) (i o : Nat) (r : RegDesc) (v : Word) (hi : i < instances b)
    (ho : o < 0x1000) (h4 : o % 4 = 0) (hr : s.reaches who = true) (hu : (hubSide b && !s.hubUp) = false)
    (hd : regDesc b o = some r) (ha : absent s.part b i o = false) (h : s.writeStatus who b i r v = .ok)
    (hk : r.kind = .rw ∨ r.kind = .wo) :
    s.accessWrite who (regAddr b i o) v =
      .next { s.storeReg b i o (v &&& BitVec.ofNat 32 r.mask) with access := .ok } := by
  rw [accessWrite_regAddr s who b i o r v hi ho h4 hr hu hd ha, writeAt_ok _ _ _ _ _ _ _ h hk]

/-- The same for a write that `accepts` takes. -/
theorem accessWrite_of_accepts (s : State) (who : Requester) (b : Block) (i o : Nat) (r : RegDesc) (v : Word) (hi : i < instances b)
    (ho : o < 0x1000) (h4 : o % 4 = 0) (hu : (hubSide b && !s.hubUp) = false) (hd : regDesc b o = some r)
    (ha : absent s.part b i o = false) (h : s.accepts who (regAddr b i o) v) (hk : r.kind = .rw ∨ r.kind = .wo) :
    s.accessWrite who (regAddr b i o) v =
      .next { s.storeReg b i o (v &&& BitVec.ofNat 32 r.mask) with access := .ok } := by
  obtain ⟨h1, h2⟩ := h
  refine accessWrite_of_status s who b i o r v hi ho h4 h1 hu hd ha ?_ hk
  simp only [State.writeReg, regAddr_aligned b i o h4, pageOf_regAddr b i o hi ho, hu, hd, ha] at h2
  simp only [ne_eq, not_true_eq_false, if_false, Bool.false_eq_true] at h2
  unfold State.writeAt at h2
  split at h2
  · assumption
  · exact h2

/-- A refused write leaves what `refusedWrite` says and the access status. -/
theorem accessWrite_refused (s : State) (who : Requester) (b : Block) (i o : Nat) (r : RegDesc) (v : Word) (a : Access)
    (hi : i < instances b) (ho : o < 0x1000) (h4 : o % 4 = 0) (hr : s.reaches who = true) (hu : (hubSide b && !s.hubUp) = false)
    (hd : regDesc b o = some r) (ha : absent s.part b i o = false) (h : s.writeStatus who b i r v = a) (hk : a ≠ .ok) :
    s.accessWrite who (regAddr b i o) v = .next { s.refusedWrite b i o a with access := a } := by
  rw [accessWrite_regAddr s who b i o r v hi ho h4 hr hu hd ha, writeAt_refused _ _ _ _ _ _ _ _ h hk]

/-- A full mask keeps the word. -/
theorem and_full (v : Word) : v &&& 4294967295#32 = v := by
  apply BitVec.eq_of_toNat_eq
  rw [BitVec.toNat_and]
  exact Nat.and_two_pow_sub_one_of_lt_two_pow (n := 32) v.isLt

end Sys2Proof.Machine
end

