-- ==== Sys2Proof/Laws/Bank.lean ====
section
/-! SUPPORT. The laws of sparse tables: read after write, other keys untouched, and the canonical form is kept. -/
namespace Sys2Proof.Machine

variable {α : Type}

theorem Bank.get_of_above (d : Nat → α) (b : Bank α) (k : Nat) (h : Bank.above k b = true) :
    Bank.get d b k = d k := by
  induction b with
  | nil => rfl
  | cons e t ih =>
    obtain ⟨j, v⟩ := e
    simp only [Bank.above, Bool.and_eq_true, decide_eq_true_eq] at h
    have hne : k ≠ j := by omega
    simp [Bank.get, hne, ih h.2]

theorem Bank.above_mono {lo hi : Nat} (b : Bank α) (hl : lo ≤ hi) (h : Bank.above hi b = true) :
    Bank.above lo b = true := by
  induction b with
  | nil => rfl
  | cons e t ih =>
    obtain ⟨j, v⟩ := e
    simp only [Bank.above, Bool.and_eq_true, decide_eq_true_eq] at h ⊢
    exact ⟨by omega, ih h.2⟩

theorem Bank.above_put [DecidableEq α] (d : Nat → α) (b : Bank α) (lo k : Nat) (v : α)
    (hk : lo < k) (h : Bank.above lo b = true) : Bank.above lo (Bank.put d b k v) = true := by
  induction b with
  | nil => by_cases hv : v = d k <;> simp [Bank.put, Bank.above, hv, hk]
  | cons e t ih =>
    obtain ⟨j, w⟩ := e
    simp only [Bank.above, Bool.and_eq_true, decide_eq_true_eq] at h
    unfold Bank.put
    repeat' split
    all_goals simp_all [Bank.above]

/-- Writing keeps the canonical form. -/
theorem Bank.put_wf [DecidableEq α] (d : Nat → α) (b : Bank α) (k : Nat) (v : α)
    (h : Bank.wf d b = true) : Bank.wf d (Bank.put d b k v) = true := by
  induction b with
  | nil => by_cases hv : v = d k <;> simp [Bank.put, Bank.wf, Bank.above, hv]
  | cons e t ih =>
    obtain ⟨j, w⟩ := e
    simp only [Bank.wf, Bool.and_eq_true, decide_eq_true_eq] at h
    obtain ⟨⟨ha, hd⟩, hw⟩ := h
    unfold Bank.put
    split
    · rename_i hkj
      split
      · simp [Bank.wf, ha, hd, hw]
      · simp [Bank.wf, Bank.above, hkj, ha, hd, hw, Bank.above_mono t (Nat.le_of_lt hkj) ha, *]
    · split
      · subst_vars
        split
        · exact hw
        · simp [Bank.wf, ha, hw, *]
      · have hjk : j < k := by omega
        simp [Bank.wf, Bank.above_put d t j k v hjk ha, hd, ih hw]

/-- A read after a write to the same key gives the value written. -/
theorem Bank.get_put_same [DecidableEq α] (d : Nat → α) (b : Bank α) (k : Nat) (v : α)
    (h : Bank.wf d b = true) : Bank.get d (Bank.put d b k v) k = v := by
  induction b with
  | nil => by_cases hv : v = d k <;> simp [Bank.put, Bank.get, hv]
  | cons e t ih =>
    obtain ⟨j, w⟩ := e
    simp only [Bank.wf, Bool.and_eq_true, decide_eq_true_eq] at h
    obtain ⟨⟨ha, hd⟩, hw⟩ := h
    unfold Bank.put
    split
    · rename_i hkj
      split
      · rename_i hv
        have hne : k ≠ j := by omega
        simp [Bank.get, hne, hv, Bank.get_of_above d t k (Bank.above_mono t (Nat.le_of_lt hkj) ha)]
      · simp [Bank.get]
    · split
      · subst_vars
        split
        · rename_i hv
          rw [Bank.get_of_above d t _ ha, hv]
        · simp [Bank.get]
      · rename_i hne
        simp [Bank.get, hne, ih hw]

/-- A write leaves every other key alone. -/
theorem Bank.get_put_other [DecidableEq α] (d : Nat → α) (b : Bank α) (k a : Nat) (v : α)
    (hak : a ≠ k) : Bank.get d (Bank.put d b k v) a = Bank.get d b a := by
  induction b with
  | nil => by_cases hv : v = d k <;> simp [Bank.put, Bank.get, hv, hak]
  | cons e t ih =>
    obtain ⟨j, w⟩ := e
    unfold Bank.put
    repeat' split
    all_goals simp_all [Bank.get]

theorem Bank.above_drop (p : Nat → Bool) (b : Bank α) (lo : Nat) (h : Bank.above lo b = true) :
    Bank.above lo (Bank.drop p b) = true := by
  induction b with
  | nil => rfl
  | cons e t ih =>
    obtain ⟨j, v⟩ := e
    simp only [Bank.above, Bool.and_eq_true, decide_eq_true_eq] at h
    unfold Bank.drop
    split
    · exact ih h.2
    · simp [Bank.above, h.1, ih h.2]

/-- Dropping entries keeps the canonical form. -/
theorem Bank.drop_wf [DecidableEq α] (d : Nat → α) (p : Nat → Bool) (b : Bank α)
    (h : Bank.wf d b = true) : Bank.wf d (Bank.drop p b) = true := by
  induction b with
  | nil => rfl
  | cons e t ih =>
    obtain ⟨j, v⟩ := e
    simp only [Bank.wf, Bool.and_eq_true, decide_eq_true_eq] at h
    unfold Bank.drop
    split
    · exact ih h.2
    · simp [Bank.wf, Bank.above_drop p t j h.1.1, h.1.2, ih h.2]

/-- A dropped key reads as the default, every other key as before. -/
theorem Bank.get_drop (d : Nat → α) (p : Nat → Bool) (b : Bank α) (a : Nat) :
    Bank.get d (Bank.drop p b) a = if p a then d a else Bank.get d b a := by
  induction b with
  | nil => simp [Bank.drop, Bank.get]
  | cons e t ih =>
    obtain ⟨j, v⟩ := e
    unfold Bank.drop
    by_cases hp : p j = true
    · simp only [hp, if_true]
      by_cases ha : a = j
      · subst ha; simp [ih, hp]
      · simp [ih, Bank.get, ha]
    · simp only [hp, Bool.false_eq_true, if_false]
      by_cases ha : a = j
      · subst ha; simp [Bank.get, hp]
      · simp [ih, Bank.get, ha]

theorem Bank.putRange_wf [DecidableEq α] (d : Nat → α) (l : List α) (b : Bank α) (k : Nat)
    (h : Bank.wf d b = true) : Bank.wf d (Bank.putRange d b k l) = true := by
  induction l generalizing b k with
  | nil => exact h
  | cons v t ih => exact ih _ _ (Bank.put_wf d b k v h)

/-- A range write leaves every key outside the range alone. -/
theorem Bank.get_putRange_other [DecidableEq α] (d : Nat → α) (l : List α) (b : Bank α) (k a : Nat)
    (ha : a < k ∨ k + l.length ≤ a) : Bank.get d (Bank.putRange d b k l) a = Bank.get d b a := by
  induction l generalizing b k with
  | nil => rfl
  | cons v t ih =>
    simp only [List.length_cons] at ha
    simp only [Bank.putRange]
    rw [ih _ _ (by omega), Bank.get_put_other d b k a v (by omega)]

end Sys2Proof.Machine
end

