-- ==== Sys2Proof/Laws/State.lean ====
section
/-! SUPPORT. What each shared operation leaves as it was: one equation for each field of the state that it does not change. -/
namespace Sys2Proof.Machine

variable {β : Type}

@[simp] theorem State.foldl_pending (g : State → β → State) (l : List β) (s : State) (h : ∀ t x, (g t x).pending = t.pending) :
    (l.foldl g s).pending = s.pending := by
  induction l generalizing s with
  | nil => rfl
  | cons x r ih => exact (ih _).trans (h s x)

@[simp] theorem State.ite_pending (c : Prop) [Decidable c] (s t : State) :
    (if c then s else t).pending = if c then s.pending else t.pending := apply_ite _ _ _ _

@[simp] theorem State.foldl_free (g : State → β → State) (l : List β) (s : State) (h : ∀ t x, (g t x).free = t.free) :
    (l.foldl g s).free = s.free := by
  induction l generalizing s with
  | nil => rfl
  | cons x r ih => exact (ih _).trans (h s x)

@[simp] theorem State.ite_free (c : Prop) [Decidable c] (s t : State) :
    (if c then s else t).free = if c then s.free else t.free := apply_ite _ _ _ _

@[simp] theorem State.foldl_us (g : State → β → State) (l : List β) (s : State) (h : ∀ t x, (g t x).us = t.us) :
    (l.foldl g s).us = s.us := by
  induction l generalizing s with
  | nil => rfl
  | cons x r ih => exact (ih _).trans (h s x)

@[simp] theorem State.ite_us (c : Prop) [Decidable c] (s t : State) :
    (if c then s else t).us = if c then s.us else t.us := apply_ite _ _ _ _

@[simp] theorem State.foldl_part (g : State → β → State) (l : List β) (s : State) (h : ∀ t x, (g t x).part = t.part) :
    (l.foldl g s).part = s.part := by
  induction l generalizing s with
  | nil => rfl
  | cons x r ih => exact (ih _).trans (h s x)

@[simp] theorem State.ite_part (c : Prop) [Decidable c] (s t : State) :
    (if c then s else t).part = if c then s.part else t.part := apply_ite _ _ _ _

@[simp] theorem State.foldl_regs (g : State → β → State) (l : List β) (s : State) (h : ∀ t x, (g t x).regs = t.regs) :
    (l.foldl g s).regs = s.regs := by
  induction l generalizing s with
  | nil => rfl
  | cons x r ih => exact (ih _).trans (h s x)

@[simp] theorem State.ite_regs (c : Prop) [Decidable c] (s t : State) :
    (if c then s else t).regs = if c then s.regs else t.regs := apply_ite _ _ _ _

@[simp] theorem State.foldl_latches (g : State → β → State) (l : List β) (s : State) (h : ∀ t x, (g t x).latches = t.latches) :
    (l.foldl g s).latches = s.latches := by
  induction l generalizing s with
  | nil => rfl
  | cons x r ih => exact (ih _).trans (h s x)

@[simp] theorem State.ite_latches (c : Prop) [Decidable c] (s t : State) :
    (if c then s else t).latches = if c then s.latches else t.latches := apply_ite _ _ _ _

@[simp] theorem State.foldl_access (g : State → β → State) (l : List β) (s : State) (h : ∀ t x, (g t x).access = t.access) :
    (l.foldl g s).access = s.access := by
  induction l generalizing s with
  | nil => rfl
  | cons x r ih => exact (ih _).trans (h s x)

@[simp] theorem State.ite_access (c : Prop) [Decidable c] (s t : State) :
    (if c then s else t).access = if c then s.access else t.access := apply_ite _ _ _ _

@[simp] theorem State.foldl_readValue (g : State → β → State) (l : List β) (s : State) (h : ∀ t x, (g t x).readValue = t.readValue) :
    (l.foldl g s).readValue = s.readValue := by
  induction l generalizing s with
  | nil => rfl
  | cons x r ih => exact (ih _).trans (h s x)

@[simp] theorem State.ite_readValue (c : Prop) [Decidable c] (s t : State) :
    (if c then s else t).readValue = if c then s.readValue else t.readValue := apply_ite _ _ _ _

@[simp] theorem State.foldl_mem (g : State → β → State) (l : List β) (s : State) (h : ∀ t x, (g t x).mem = t.mem) :
    (l.foldl g s).mem = s.mem := by
  induction l generalizing s with
  | nil => rfl
  | cons x r ih => exact (ih _).trans (h s x)

@[simp] theorem State.ite_mem (c : Prop) [Decidable c] (s t : State) :
    (if c then s else t).mem = if c then s.mem else t.mem := apply_ite _ _ _ _

@[simp] theorem State.foldl_undef (g : State → β → State) (l : List β) (s : State) (h : ∀ t x, (g t x).undef = t.undef) :
    (l.foldl g s).undef = s.undef := by
  induction l generalizing s with
  | nil => rfl
  | cons x r ih => exact (ih _).trans (h s x)

@[simp] theorem State.ite_undef (c : Prop) [Decidable c] (s t : State) :
    (if c then s else t).undef = if c then s.undef else t.undef := apply_ite _ _ _ _

@[simp] theorem State.foldl_tarns (g : State → β → State) (l : List β) (s : State) (h : ∀ t x, (g t x).tarns = t.tarns) :
    (l.foldl g s).tarns = s.tarns := by
  induction l generalizing s with
  | nil => rfl
  | cons x r ih => exact (ih _).trans (h s x)

@[simp] theorem State.ite_tarns (c : Prop) [Decidable c] (s t : State) :
    (if c then s else t).tarns = if c then s.tarns else t.tarns := apply_ite _ _ _ _

@[simp] theorem State.foldl_prog (g : State → β → State) (l : List β) (s : State) (h : ∀ t x, (g t x).prog = t.prog) :
    (l.foldl g s).prog = s.prog := by
  induction l generalizing s with
  | nil => rfl
  | cons x r ih => exact (ih _).trans (h s x)

@[simp] theorem State.ite_prog (c : Prop) [Decidable c] (s t : State) :
    (if c then s else t).prog = if c then s.prog else t.prog := apply_ite _ _ _ _

@[simp] theorem State.foldl_bound (g : State → β → State) (l : List β) (s : State) (h : ∀ t x, (g t x).bound = t.bound) :
    (l.foldl g s).bound = s.bound := by
  induction l generalizing s with
  | nil => rfl
  | cons x r ih => exact (ih _).trans (h s x)

@[simp] theorem State.ite_bound (c : Prop) [Decidable c] (s t : State) :
    (if c then s else t).bound = if c then s.bound else t.bound := apply_ite _ _ _ _

@[simp] theorem State.foldl_units (g : State → β → State) (l : List β) (s : State) (h : ∀ t x, (g t x).units = t.units) :
    (l.foldl g s).units = s.units := by
  induction l generalizing s with
  | nil => rfl
  | cons x r ih => exact (ih _).trans (h s x)

@[simp] theorem State.ite_units (c : Prop) [Decidable c] (s t : State) :
    (if c then s else t).units = if c then s.units else t.units := apply_ite _ _ _ _

@[simp] theorem State.foldl_step (g : State → β → State) (l : List β) (s : State) (h : ∀ t x, (g t x).step = t.step) :
    (l.foldl g s).step = s.step := by
  induction l generalizing s with
  | nil => rfl
  | cons x r ih => exact (ih _).trans (h s x)

@[simp] theorem State.ite_step (c : Prop) [Decidable c] (s t : State) :
    (if c then s else t).step = if c then s.step else t.step := apply_ite _ _ _ _

@[simp] theorem State.foldl_stash (g : State → β → State) (l : List β) (s : State) (h : ∀ t x, (g t x).stash = t.stash) :
    (l.foldl g s).stash = s.stash := by
  induction l generalizing s with
  | nil => rfl
  | cons x r ih => exact (ih _).trans (h s x)

@[simp] theorem State.ite_stash (c : Prop) [Decidable c] (s t : State) :
    (if c then s else t).stash = if c then s.stash else t.stash := apply_ite _ _ _ _

@[simp] theorem State.foldl_dom (g : State → β → State) (l : List β) (s : State) (h : ∀ t x, (g t x).dom = t.dom) :
    (l.foldl g s).dom = s.dom := by
  induction l generalizing s with
  | nil => rfl
  | cons x r ih => exact (ih _).trans (h s x)

@[simp] theorem State.ite_dom (c : Prop) [Decidable c] (s t : State) :
    (if c then s else t).dom = if c then s.dom else t.dom := apply_ite _ _ _ _

@[simp] theorem State.foldl_twin (g : State → β → State) (l : List β) (s : State) (h : ∀ t x, (g t x).twin = t.twin) :
    (l.foldl g s).twin = s.twin := by
  induction l generalizing s with
  | nil => rfl
  | cons x r ih => exact (ih _).trans (h s x)

@[simp] theorem State.ite_twin (c : Prop) [Decidable c] (s t : State) :
    (if c then s else t).twin = if c then s.twin else t.twin := apply_ite _ _ _ _

@[simp] theorem State.foldl_fab (g : State → β → State) (l : List β) (s : State) (h : ∀ t x, (g t x).fab = t.fab) :
    (l.foldl g s).fab = s.fab := by
  induction l generalizing s with
  | nil => rfl
  | cons x r ih => exact (ih _).trans (h s x)

@[simp] theorem State.ite_fab (c : Prop) [Decidable c] (s t : State) :
    (if c then s else t).fab = if c then s.fab else t.fab := apply_ite _ _ _ _

@[simp] theorem State.foldl_inl (g : State → β → State) (l : List β) (s : State) (h : ∀ t x, (g t x).inl = t.inl) :
    (l.foldl g s).inl = s.inl := by
  induction l generalizing s with
  | nil => rfl
  | cons x r ih => exact (ih _).trans (h s x)

@[simp] theorem State.ite_inl (c : Prop) [Decidable c] (s t : State) :
    (if c then s else t).inl = if c then s.inl else t.inl := apply_ite _ _ _ _

@[simp] theorem State.foldl_umc (g : State → β → State) (l : List β) (s : State) (h : ∀ t x, (g t x).umc = t.umc) :
    (l.foldl g s).umc = s.umc := by
  induction l generalizing s with
  | nil => rfl
  | cons x r ih => exact (ih _).trans (h s x)

@[simp] theorem State.ite_umc (c : Prop) [Decidable c] (s t : State) :
    (if c then s else t).umc = if c then s.umc else t.umc := apply_ite _ _ _ _

@[simp] theorem State.foldl_sec (g : State → β → State) (l : List β) (s : State) (h : ∀ t x, (g t x).sec = t.sec) :
    (l.foldl g s).sec = s.sec := by
  induction l generalizing s with
  | nil => rfl
  | cons x r ih => exact (ih _).trans (h s x)

@[simp] theorem State.ite_sec (c : Prop) [Decidable c] (s t : State) :
    (if c then s else t).sec = if c then s.sec else t.sec := apply_ite _ _ _ _

@[simp] theorem State.foldl_pwr (g : State → β → State) (l : List β) (s : State) (h : ∀ t x, (g t x).pwr = t.pwr) :
    (l.foldl g s).pwr = s.pwr := by
  induction l generalizing s with
  | nil => rfl
  | cons x r ih => exact (ih _).trans (h s x)

@[simp] theorem State.ite_pwr (c : Prop) [Decidable c] (s t : State) :
    (if c then s else t).pwr = if c then s.pwr else t.pwr := apply_ite _ _ _ _

@[simp] theorem State.foldl_host (g : State → β → State) (l : List β) (s : State) (h : ∀ t x, (g t x).host = t.host) :
    (l.foldl g s).host = s.host := by
  induction l generalizing s with
  | nil => rfl
  | cons x r ih => exact (ih _).trans (h s x)

@[simp] theorem State.ite_host (c : Prop) [Decidable c] (s t : State) :
    (if c then s else t).host = if c then s.host else t.host := apply_ite _ _ _ _

@[simp] theorem State.foldl_cp (g : State → β → State) (l : List β) (s : State) (h : ∀ t x, (g t x).cp = t.cp) :
    (l.foldl g s).cp = s.cp := by
  induction l generalizing s with
  | nil => rfl
  | cons x r ih => exact (ih _).trans (h s x)

@[simp] theorem State.ite_cp (c : Prop) [Decidable c] (s t : State) :
    (if c then s else t).cp = if c then s.cp else t.cp := apply_ite _ _ _ _

@[simp] theorem State.foldl_queues (g : State → β → State) (l : List β) (s : State) (h : ∀ t x, (g t x).queues = t.queues) :
    (l.foldl g s).queues = s.queues := by
  induction l generalizing s with
  | nil => rfl
  | cons x r ih => exact (ih _).trans (h s x)

@[simp] theorem State.ite_queues (c : Prop) [Decidable c] (s t : State) :
    (if c then s else t).queues = if c then s.queues else t.queues := apply_ite _ _ _ _

@[simp] theorem State.foldl_log (g : State → β → State) (l : List β) (s : State) (h : ∀ t x, (g t x).log = t.log) :
    (l.foldl g s).log = s.log := by
  induction l generalizing s with
  | nil => rfl
  | cons x r ih => exact (ih _).trans (h s x)

@[simp] theorem State.ite_log (c : Prop) [Decidable c] (s t : State) :
    (if c then s else t).log = if c then s.log else t.log := apply_ite _ _ _ _

@[simp] theorem State.foldl_bulk (g : State → β → State) (l : List β) (s : State) (h : ∀ t x, (g t x).bulk = t.bulk) :
    (l.foldl g s).bulk = s.bulk := by
  induction l generalizing s with
  | nil => rfl
  | cons x r ih => exact (ih _).trans (h s x)

@[simp] theorem State.ite_bulk (c : Prop) [Decidable c] (s t : State) :
    (if c then s else t).bulk = if c then s.bulk else t.bulk := apply_ite _ _ _ _

@[simp] theorem State.foldl_serv (g : State → β → State) (l : List β) (s : State) (h : ∀ t x, (g t x).serv = t.serv) :
    (l.foldl g s).serv = s.serv := by
  induction l generalizing s with
  | nil => rfl
  | cons x r ih => exact (ih _).trans (h s x)

@[simp] theorem State.ite_serv (c : Prop) [Decidable c] (s t : State) :
    (if c then s else t).serv = if c then s.serv else t.serv := apply_ite _ _ _ _

@[simp] theorem State.foldl_out (g : State → β → State) (l : List β) (s : State) (h : ∀ t x, (g t x).out = t.out) :
    (l.foldl g s).out = s.out := by
  induction l generalizing s with
  | nil => rfl
  | cons x r ih => exact (ih _).trans (h s x)

@[simp] theorem State.ite_out (c : Prop) [Decidable c] (s t : State) :
    (if c then s else t).out = if c then s.out else t.out := apply_ite _ _ _ _

@[simp] theorem State.setRegAt_pending (s : State) (a : Nat) (v : Word) :
    (State.setRegAt s a v).pending = s.pending := rfl

@[simp] theorem State.setRegAt_free (s : State) (a : Nat) (v : Word) :
    (State.setRegAt s a v).free = s.free := rfl

@[simp] theorem State.setRegAt_us (s : State) (a : Nat) (v : Word) :
    (State.setRegAt s a v).us = s.us := rfl

@[simp] theorem State.setRegAt_part (s : State) (a : Nat) (v : Word) :
    (State.setRegAt s a v).part = s.part := rfl

@[simp] theorem State.setRegAt_latches (s : State) (a : Nat) (v : Word) :
    (State.setRegAt s a v).latches = s.latches := rfl

@[simp] theorem State.setRegAt_access (s : State) (a : Nat) (v : Word) :
    (State.setRegAt s a v).access = s.access := rfl

@[simp] theorem State.setRegAt_readValue (s : State) (a : Nat) (v : Word) :
    (State.setRegAt s a v).readValue = s.readValue := rfl

@[simp] theorem State.setRegAt_mem (s : State) (a : Nat) (v : Word) :
    (State.setRegAt s a v).mem = s.mem := rfl

@[simp] theorem State.setRegAt_undef (s : State) (a : Nat) (v : Word) :
    (State.setRegAt s a v).undef = s.undef := rfl

@[simp] theorem State.setRegAt_tarns (s : State) (a : Nat) (v : Word) :
    (State.setRegAt s a v).tarns = s.tarns := rfl

@[simp] theorem State.setRegAt_prog (s : State) (a : Nat) (v : Word) :
    (State.setRegAt s a v).prog = s.prog := rfl

@[simp] theorem State.setRegAt_bound (s : State) (a : Nat) (v : Word) :
    (State.setRegAt s a v).bound = s.bound := rfl

@[simp] theorem State.setRegAt_units (s : State) (a : Nat) (v : Word) :
    (State.setRegAt s a v).units = s.units := rfl

@[simp] theorem State.setRegAt_step (s : State) (a : Nat) (v : Word) :
    (State.setRegAt s a v).step = s.step := rfl

@[simp] theorem State.setRegAt_stash (s : State) (a : Nat) (v : Word) :
    (State.setRegAt s a v).stash = s.stash := rfl

@[simp] theorem State.setRegAt_dom (s : State) (a : Nat) (v : Word) :
    (State.setRegAt s a v).dom = s.dom := rfl

@[simp] theorem State.setRegAt_twin (s : State) (a : Nat) (v : Word) :
    (State.setRegAt s a v).twin = s.twin := rfl

@[simp] theorem State.setRegAt_fab (s : State) (a : Nat) (v : Word) :
    (State.setRegAt s a v).fab = s.fab := rfl

@[simp] theorem State.setRegAt_inl (s : State) (a : Nat) (v : Word) :
    (State.setRegAt s a v).inl = s.inl := rfl

@[simp] theorem State.setRegAt_umc (s : State) (a : Nat) (v : Word) :
    (State.setRegAt s a v).umc = s.umc := rfl

@[simp] theorem State.setRegAt_sec (s : State) (a : Nat) (v : Word) :
    (State.setRegAt s a v).sec = s.sec := rfl

@[simp] theorem State.setRegAt_pwr (s : State) (a : Nat) (v : Word) :
    (State.setRegAt s a v).pwr = s.pwr := rfl

@[simp] theorem State.setRegAt_host (s : State) (a : Nat) (v : Word) :
    (State.setRegAt s a v).host = s.host := rfl

@[simp] theorem State.setRegAt_cp (s : State) (a : Nat) (v : Word) :
    (State.setRegAt s a v).cp = s.cp := rfl

@[simp] theorem State.setRegAt_queues (s : State) (a : Nat) (v : Word) :
    (State.setRegAt s a v).queues = s.queues := rfl

@[simp] theorem State.setRegAt_log (s : State) (a : Nat) (v : Word) :
    (State.setRegAt s a v).log = s.log := rfl

@[simp] theorem State.setRegAt_bulk (s : State) (a : Nat) (v : Word) :
    (State.setRegAt s a v).bulk = s.bulk := rfl

@[simp] theorem State.setRegAt_serv (s : State) (a : Nat) (v : Word) :
    (State.setRegAt s a v).serv = s.serv := rfl

@[simp] theorem State.setRegAt_out (s : State) (a : Nat) (v : Word) :
    (State.setRegAt s a v).out = s.out := rfl

@[simp] theorem State.setReg_pending (s : State) (b : Block) (i o : Nat) (v : Word) :
    (State.setReg s b i o v).pending = s.pending := rfl

@[simp] theorem State.setReg_free (s : State) (b : Block) (i o : Nat) (v : Word) :
    (State.setReg s b i o v).free = s.free := rfl

@[simp] theorem State.setReg_us (s : State) (b : Block) (i o : Nat) (v : Word) :
    (State.setReg s b i o v).us = s.us := rfl

@[simp] theorem State.setReg_part (s : State) (b : Block) (i o : Nat) (v : Word) :
    (State.setReg s b i o v).part = s.part := rfl

@[simp] theorem State.setReg_latches (s : State) (b : Block) (i o : Nat) (v : Word) :
    (State.setReg s b i o v).latches = s.latches := rfl

@[simp] theorem State.setReg_access (s : State) (b : Block) (i o : Nat) (v : Word) :
    (State.setReg s b i o v).access = s.access := rfl

@[simp] theorem State.setReg_readValue (s : State) (b : Block) (i o : Nat) (v : Word) :
    (State.setReg s b i o v).readValue = s.readValue := rfl

@[simp] theorem State.setReg_mem (s : State) (b : Block) (i o : Nat) (v : Word) :
    (State.setReg s b i o v).mem = s.mem := rfl

@[simp] theorem State.setReg_undef (s : State) (b : Block) (i o : Nat) (v : Word) :
    (State.setReg s b i o v).undef = s.undef := rfl

@[simp] theorem State.setReg_tarns (s : State) (b : Block) (i o : Nat) (v : Word) :
    (State.setReg s b i o v).tarns = s.tarns := rfl

@[simp] theorem State.setReg_prog (s : State) (b : Block) (i o : Nat) (v : Word) :
    (State.setReg s b i o v).prog = s.prog := rfl

@[simp] theorem State.setReg_bound (s : State) (b : Block) (i o : Nat) (v : Word) :
    (State.setReg s b i o v).bound = s.bound := rfl

@[simp] theorem State.setReg_units (s : State) (b : Block) (i o : Nat) (v : Word) :
    (State.setReg s b i o v).units = s.units := rfl

@[simp] theorem State.setReg_step (s : State) (b : Block) (i o : Nat) (v : Word) :
    (State.setReg s b i o v).step = s.step := rfl

@[simp] theorem State.setReg_stash (s : State) (b : Block) (i o : Nat) (v : Word) :
    (State.setReg s b i o v).stash = s.stash := rfl

@[simp] theorem State.setReg_dom (s : State) (b : Block) (i o : Nat) (v : Word) :
    (State.setReg s b i o v).dom = s.dom := rfl

@[simp] theorem State.setReg_twin (s : State) (b : Block) (i o : Nat) (v : Word) :
    (State.setReg s b i o v).twin = s.twin := rfl

@[simp] theorem State.setReg_fab (s : State) (b : Block) (i o : Nat) (v : Word) :
    (State.setReg s b i o v).fab = s.fab := rfl

@[simp] theorem State.setReg_inl (s : State) (b : Block) (i o : Nat) (v : Word) :
    (State.setReg s b i o v).inl = s.inl := rfl

@[simp] theorem State.setReg_umc (s : State) (b : Block) (i o : Nat) (v : Word) :
    (State.setReg s b i o v).umc = s.umc := rfl

@[simp] theorem State.setReg_sec (s : State) (b : Block) (i o : Nat) (v : Word) :
    (State.setReg s b i o v).sec = s.sec := rfl

@[simp] theorem State.setReg_pwr (s : State) (b : Block) (i o : Nat) (v : Word) :
    (State.setReg s b i o v).pwr = s.pwr := rfl

@[simp] theorem State.setReg_host (s : State) (b : Block) (i o : Nat) (v : Word) :
    (State.setReg s b i o v).host = s.host := rfl

@[simp] theorem State.setReg_cp (s : State) (b : Block) (i o : Nat) (v : Word) :
    (State.setReg s b i o v).cp = s.cp := rfl

@[simp] theorem State.setReg_queues (s : State) (b : Block) (i o : Nat) (v : Word) :
    (State.setReg s b i o v).queues = s.queues := rfl

@[simp] theorem State.setReg_log (s : State) (b : Block) (i o : Nat) (v : Word) :
    (State.setReg s b i o v).log = s.log := rfl

@[simp] theorem State.setReg_bulk (s : State) (b : Block) (i o : Nat) (v : Word) :
    (State.setReg s b i o v).bulk = s.bulk := rfl

@[simp] theorem State.setReg_serv (s : State) (b : Block) (i o : Nat) (v : Word) :
    (State.setReg s b i o v).serv = s.serv := rfl

@[simp] theorem State.setReg_out (s : State) (b : Block) (i o : Nat) (v : Word) :
    (State.setReg s b i o v).out = s.out := rfl

@[simp] theorem State.bump_pending (s : State) (b : Block) (i o n : Nat) :
    (State.bump s b i o n).pending = s.pending := rfl

@[simp] theorem State.bump_free (s : State) (b : Block) (i o n : Nat) :
    (State.bump s b i o n).free = s.free := rfl

@[simp] theorem State.bump_us (s : State) (b : Block) (i o n : Nat) :
    (State.bump s b i o n).us = s.us := rfl

@[simp] theorem State.bump_part (s : State) (b : Block) (i o n : Nat) :
    (State.bump s b i o n).part = s.part := rfl

@[simp] theorem State.bump_latches (s : State) (b : Block) (i o n : Nat) :
    (State.bump s b i o n).latches = s.latches := rfl

@[simp] theorem State.bump_access (s : State) (b : Block) (i o n : Nat) :
    (State.bump s b i o n).access = s.access := rfl

@[simp] theorem State.bump_readValue (s : State) (b : Block) (i o n : Nat) :
    (State.bump s b i o n).readValue = s.readValue := rfl

@[simp] theorem State.bump_mem (s : State) (b : Block) (i o n : Nat) :
    (State.bump s b i o n).mem = s.mem := rfl

@[simp] theorem State.bump_undef (s : State) (b : Block) (i o n : Nat) :
    (State.bump s b i o n).undef = s.undef := rfl

@[simp] theorem State.bump_tarns (s : State) (b : Block) (i o n : Nat) :
    (State.bump s b i o n).tarns = s.tarns := rfl

@[simp] theorem State.bump_prog (s : State) (b : Block) (i o n : Nat) :
    (State.bump s b i o n).prog = s.prog := rfl

@[simp] theorem State.bump_bound (s : State) (b : Block) (i o n : Nat) :
    (State.bump s b i o n).bound = s.bound := rfl

@[simp] theorem State.bump_units (s : State) (b : Block) (i o n : Nat) :
    (State.bump s b i o n).units = s.units := rfl

@[simp] theorem State.bump_step (s : State) (b : Block) (i o n : Nat) :
    (State.bump s b i o n).step = s.step := rfl

@[simp] theorem State.bump_stash (s : State) (b : Block) (i o n : Nat) :
    (State.bump s b i o n).stash = s.stash := rfl

@[simp] theorem State.bump_dom (s : State) (b : Block) (i o n : Nat) :
    (State.bump s b i o n).dom = s.dom := rfl

@[simp] theorem State.bump_twin (s : State) (b : Block) (i o n : Nat) :
    (State.bump s b i o n).twin = s.twin := rfl

@[simp] theorem State.bump_fab (s : State) (b : Block) (i o n : Nat) :
    (State.bump s b i o n).fab = s.fab := rfl

@[simp] theorem State.bump_inl (s : State) (b : Block) (i o n : Nat) :
    (State.bump s b i o n).inl = s.inl := rfl

@[simp] theorem State.bump_umc (s : State) (b : Block) (i o n : Nat) :
    (State.bump s b i o n).umc = s.umc := rfl

@[simp] theorem State.bump_sec (s : State) (b : Block) (i o n : Nat) :
    (State.bump s b i o n).sec = s.sec := rfl

@[simp] theorem State.bump_pwr (s : State) (b : Block) (i o n : Nat) :
    (State.bump s b i o n).pwr = s.pwr := rfl

@[simp] theorem State.bump_host (s : State) (b : Block) (i o n : Nat) :
    (State.bump s b i o n).host = s.host := rfl

@[simp] theorem State.bump_cp (s : State) (b : Block) (i o n : Nat) :
    (State.bump s b i o n).cp = s.cp := rfl

@[simp] theorem State.bump_queues (s : State) (b : Block) (i o n : Nat) :
    (State.bump s b i o n).queues = s.queues := rfl

@[simp] theorem State.bump_log (s : State) (b : Block) (i o n : Nat) :
    (State.bump s b i o n).log = s.log := rfl

@[simp] theorem State.bump_bulk (s : State) (b : Block) (i o n : Nat) :
    (State.bump s b i o n).bulk = s.bulk := rfl

@[simp] theorem State.bump_serv (s : State) (b : Block) (i o n : Nat) :
    (State.bump s b i o n).serv = s.serv := rfl

@[simp] theorem State.bump_out (s : State) (b : Block) (i o n : Nat) :
    (State.bump s b i o n).out = s.out := rfl

@[simp] theorem State.bump64_pending (s : State) (b : Block) (i o n : Nat) :
    (State.bump64 s b i o n).pending = s.pending := rfl

@[simp] theorem State.bump64_free (s : State) (b : Block) (i o n : Nat) :
    (State.bump64 s b i o n).free = s.free := rfl

@[simp] theorem State.bump64_us (s : State) (b : Block) (i o n : Nat) :
    (State.bump64 s b i o n).us = s.us := rfl

@[simp] theorem State.bump64_part (s : State) (b : Block) (i o n : Nat) :
    (State.bump64 s b i o n).part = s.part := rfl

@[simp] theorem State.bump64_latches (s : State) (b : Block) (i o n : Nat) :
    (State.bump64 s b i o n).latches = s.latches := rfl

@[simp] theorem State.bump64_access (s : State) (b : Block) (i o n : Nat) :
    (State.bump64 s b i o n).access = s.access := rfl

@[simp] theorem State.bump64_readValue (s : State) (b : Block) (i o n : Nat) :
    (State.bump64 s b i o n).readValue = s.readValue := rfl

@[simp] theorem State.bump64_mem (s : State) (b : Block) (i o n : Nat) :
    (State.bump64 s b i o n).mem = s.mem := rfl

@[simp] theorem State.bump64_undef (s : State) (b : Block) (i o n : Nat) :
    (State.bump64 s b i o n).undef = s.undef := rfl

@[simp] theorem State.bump64_tarns (s : State) (b : Block) (i o n : Nat) :
    (State.bump64 s b i o n).tarns = s.tarns := rfl

@[simp] theorem State.bump64_prog (s : State) (b : Block) (i o n : Nat) :
    (State.bump64 s b i o n).prog = s.prog := rfl

@[simp] theorem State.bump64_bound (s : State) (b : Block) (i o n : Nat) :
    (State.bump64 s b i o n).bound = s.bound := rfl

@[simp] theorem State.bump64_units (s : State) (b : Block) (i o n : Nat) :
    (State.bump64 s b i o n).units = s.units := rfl

@[simp] theorem State.bump64_step (s : State) (b : Block) (i o n : Nat) :
    (State.bump64 s b i o n).step = s.step := rfl

@[simp] theorem State.bump64_stash (s : State) (b : Block) (i o n : Nat) :
    (State.bump64 s b i o n).stash = s.stash := rfl

@[simp] theorem State.bump64_dom (s : State) (b : Block) (i o n : Nat) :
    (State.bump64 s b i o n).dom = s.dom := rfl

@[simp] theorem State.bump64_twin (s : State) (b : Block) (i o n : Nat) :
    (State.bump64 s b i o n).twin = s.twin := rfl

@[simp] theorem State.bump64_fab (s : State) (b : Block) (i o n : Nat) :
    (State.bump64 s b i o n).fab = s.fab := rfl

@[simp] theorem State.bump64_inl (s : State) (b : Block) (i o n : Nat) :
    (State.bump64 s b i o n).inl = s.inl := rfl

@[simp] theorem State.bump64_umc (s : State) (b : Block) (i o n : Nat) :
    (State.bump64 s b i o n).umc = s.umc := rfl

@[simp] theorem State.bump64_sec (s : State) (b : Block) (i o n : Nat) :
    (State.bump64 s b i o n).sec = s.sec := rfl

@[simp] theorem State.bump64_pwr (s : State) (b : Block) (i o n : Nat) :
    (State.bump64 s b i o n).pwr = s.pwr := rfl

@[simp] theorem State.bump64_host (s : State) (b : Block) (i o n : Nat) :
    (State.bump64 s b i o n).host = s.host := rfl

@[simp] theorem State.bump64_cp (s : State) (b : Block) (i o n : Nat) :
    (State.bump64 s b i o n).cp = s.cp := rfl

@[simp] theorem State.bump64_queues (s : State) (b : Block) (i o n : Nat) :
    (State.bump64 s b i o n).queues = s.queues := rfl

@[simp] theorem State.bump64_log (s : State) (b : Block) (i o n : Nat) :
    (State.bump64 s b i o n).log = s.log := rfl

@[simp] theorem State.bump64_bulk (s : State) (b : Block) (i o n : Nat) :
    (State.bump64 s b i o n).bulk = s.bulk := rfl

@[simp] theorem State.bump64_serv (s : State) (b : Block) (i o n : Nat) :
    (State.bump64 s b i o n).serv = s.serv := rfl

@[simp] theorem State.bump64_out (s : State) (b : Block) (i o n : Nat) :
    (State.bump64 s b i o n).out = s.out := rfl

@[simp] theorem State.setStack_pending (s : State) (i : Nat) (x : Stack) :
    (State.setStack s i x).pending = s.pending := rfl

@[simp] theorem State.setStack_free (s : State) (i : Nat) (x : Stack) :
    (State.setStack s i x).free = s.free := rfl

@[simp] theorem State.setStack_us (s : State) (i : Nat) (x : Stack) :
    (State.setStack s i x).us = s.us := rfl

@[simp] theorem State.setStack_part (s : State) (i : Nat) (x : Stack) :
    (State.setStack s i x).part = s.part := rfl

@[simp] theorem State.setStack_regs (s : State) (i : Nat) (x : Stack) :
    (State.setStack s i x).regs = s.regs := rfl

@[simp] theorem State.setStack_latches (s : State) (i : Nat) (x : Stack) :
    (State.setStack s i x).latches = s.latches := rfl

@[simp] theorem State.setStack_access (s : State) (i : Nat) (x : Stack) :
    (State.setStack s i x).access = s.access := rfl

@[simp] theorem State.setStack_readValue (s : State) (i : Nat) (x : Stack) :
    (State.setStack s i x).readValue = s.readValue := rfl

@[simp] theorem State.setStack_mem (s : State) (i : Nat) (x : Stack) :
    (State.setStack s i x).mem = s.mem := rfl

@[simp] theorem State.setStack_undef (s : State) (i : Nat) (x : Stack) :
    (State.setStack s i x).undef = s.undef := rfl

@[simp] theorem State.setStack_prog (s : State) (i : Nat) (x : Stack) :
    (State.setStack s i x).prog = s.prog := rfl

@[simp] theorem State.setStack_bound (s : State) (i : Nat) (x : Stack) :
    (State.setStack s i x).bound = s.bound := rfl

@[simp] theorem State.setStack_units (s : State) (i : Nat) (x : Stack) :
    (State.setStack s i x).units = s.units := rfl

@[simp] theorem State.setStack_step (s : State) (i : Nat) (x : Stack) :
    (State.setStack s i x).step = s.step := rfl

@[simp] theorem State.setStack_stash (s : State) (i : Nat) (x : Stack) :
    (State.setStack s i x).stash = s.stash := rfl

@[simp] theorem State.setStack_dom (s : State) (i : Nat) (x : Stack) :
    (State.setStack s i x).dom = s.dom := rfl

@[simp] theorem State.setStack_twin (s : State) (i : Nat) (x : Stack) :
    (State.setStack s i x).twin = s.twin := rfl

@[simp] theorem State.setStack_fab (s : State) (i : Nat) (x : Stack) :
    (State.setStack s i x).fab = s.fab := rfl

@[simp] theorem State.setStack_inl (s : State) (i : Nat) (x : Stack) :
    (State.setStack s i x).inl = s.inl := rfl

@[simp] theorem State.setStack_umc (s : State) (i : Nat) (x : Stack) :
    (State.setStack s i x).umc = s.umc := rfl

@[simp] theorem State.setStack_sec (s : State) (i : Nat) (x : Stack) :
    (State.setStack s i x).sec = s.sec := rfl

@[simp] theorem State.setStack_pwr (s : State) (i : Nat) (x : Stack) :
    (State.setStack s i x).pwr = s.pwr := rfl

@[simp] theorem State.setStack_host (s : State) (i : Nat) (x : Stack) :
    (State.setStack s i x).host = s.host := rfl

@[simp] theorem State.setStack_cp (s : State) (i : Nat) (x : Stack) :
    (State.setStack s i x).cp = s.cp := rfl

@[simp] theorem State.setStack_queues (s : State) (i : Nat) (x : Stack) :
    (State.setStack s i x).queues = s.queues := rfl

@[simp] theorem State.setStack_log (s : State) (i : Nat) (x : Stack) :
    (State.setStack s i x).log = s.log := rfl

@[simp] theorem State.setStack_bulk (s : State) (i : Nat) (x : Stack) :
    (State.setStack s i x).bulk = s.bulk := rfl

@[simp] theorem State.setStack_serv (s : State) (i : Nat) (x : Stack) :
    (State.setStack s i x).serv = s.serv := rfl

@[simp] theorem State.setStack_out (s : State) (i : Nat) (x : Stack) :
    (State.setStack s i x).out = s.out := rfl

@[simp] theorem State.setVt_pending (s : State) (a : Nat) (e : VtEntry) :
    (State.setVt s a e).pending = s.pending := rfl

@[simp] theorem State.setVt_free (s : State) (a : Nat) (e : VtEntry) :
    (State.setVt s a e).free = s.free := rfl

@[simp] theorem State.setVt_us (s : State) (a : Nat) (e : VtEntry) :
    (State.setVt s a e).us = s.us := rfl

@[simp] theorem State.setVt_part (s : State) (a : Nat) (e : VtEntry) :
    (State.setVt s a e).part = s.part := rfl

@[simp] theorem State.setVt_regs (s : State) (a : Nat) (e : VtEntry) :
    (State.setVt s a e).regs = s.regs := rfl

@[simp] theorem State.setVt_latches (s : State) (a : Nat) (e : VtEntry) :
    (State.setVt s a e).latches = s.latches := rfl

@[simp] theorem State.setVt_access (s : State) (a : Nat) (e : VtEntry) :
    (State.setVt s a e).access = s.access := rfl

@[simp] theorem State.setVt_readValue (s : State) (a : Nat) (e : VtEntry) :
    (State.setVt s a e).readValue = s.readValue := rfl

@[simp] theorem State.setVt_mem (s : State) (a : Nat) (e : VtEntry) :
    (State.setVt s a e).mem = s.mem := rfl

@[simp] theorem State.setVt_undef (s : State) (a : Nat) (e : VtEntry) :
    (State.setVt s a e).undef = s.undef := rfl

@[simp] theorem State.setVt_prog (s : State) (a : Nat) (e : VtEntry) :
    (State.setVt s a e).prog = s.prog := rfl

@[simp] theorem State.setVt_bound (s : State) (a : Nat) (e : VtEntry) :
    (State.setVt s a e).bound = s.bound := rfl

@[simp] theorem State.setVt_units (s : State) (a : Nat) (e : VtEntry) :
    (State.setVt s a e).units = s.units := rfl

@[simp] theorem State.setVt_step (s : State) (a : Nat) (e : VtEntry) :
    (State.setVt s a e).step = s.step := rfl

@[simp] theorem State.setVt_stash (s : State) (a : Nat) (e : VtEntry) :
    (State.setVt s a e).stash = s.stash := rfl

@[simp] theorem State.setVt_dom (s : State) (a : Nat) (e : VtEntry) :
    (State.setVt s a e).dom = s.dom := rfl

@[simp] theorem State.setVt_twin (s : State) (a : Nat) (e : VtEntry) :
    (State.setVt s a e).twin = s.twin := rfl

@[simp] theorem State.setVt_fab (s : State) (a : Nat) (e : VtEntry) :
    (State.setVt s a e).fab = s.fab := rfl

@[simp] theorem State.setVt_inl (s : State) (a : Nat) (e : VtEntry) :
    (State.setVt s a e).inl = s.inl := rfl

@[simp] theorem State.setVt_umc (s : State) (a : Nat) (e : VtEntry) :
    (State.setVt s a e).umc = s.umc := rfl

@[simp] theorem State.setVt_sec (s : State) (a : Nat) (e : VtEntry) :
    (State.setVt s a e).sec = s.sec := rfl

@[simp] theorem State.setVt_pwr (s : State) (a : Nat) (e : VtEntry) :
    (State.setVt s a e).pwr = s.pwr := rfl

@[simp] theorem State.setVt_host (s : State) (a : Nat) (e : VtEntry) :
    (State.setVt s a e).host = s.host := rfl

@[simp] theorem State.setVt_cp (s : State) (a : Nat) (e : VtEntry) :
    (State.setVt s a e).cp = s.cp := rfl

@[simp] theorem State.setVt_queues (s : State) (a : Nat) (e : VtEntry) :
    (State.setVt s a e).queues = s.queues := rfl

@[simp] theorem State.setVt_log (s : State) (a : Nat) (e : VtEntry) :
    (State.setVt s a e).log = s.log := rfl

@[simp] theorem State.setVt_bulk (s : State) (a : Nat) (e : VtEntry) :
    (State.setVt s a e).bulk = s.bulk := rfl

@[simp] theorem State.setVt_serv (s : State) (a : Nat) (e : VtEntry) :
    (State.setVt s a e).serv = s.serv := rfl

@[simp] theorem State.setVt_out (s : State) (a : Nat) (e : VtEntry) :
    (State.setVt s a e).out = s.out := rfl

@[simp] theorem State.freshen_pending (s : State) (a n : Nat) :
    (State.freshen s a n).pending = s.pending := by simp [State.freshen]

@[simp] theorem State.freshen_free (s : State) (a n : Nat) :
    (State.freshen s a n).free = s.free := by simp [State.freshen]

@[simp] theorem State.freshen_us (s : State) (a n : Nat) :
    (State.freshen s a n).us = s.us := by simp [State.freshen]

@[simp] theorem State.freshen_part (s : State) (a n : Nat) :
    (State.freshen s a n).part = s.part := by simp [State.freshen]

@[simp] theorem State.freshen_regs (s : State) (a n : Nat) :
    (State.freshen s a n).regs = s.regs := by simp [State.freshen]

@[simp] theorem State.freshen_latches (s : State) (a n : Nat) :
    (State.freshen s a n).latches = s.latches := by simp [State.freshen]

@[simp] theorem State.freshen_access (s : State) (a n : Nat) :
    (State.freshen s a n).access = s.access := by simp [State.freshen]

@[simp] theorem State.freshen_readValue (s : State) (a n : Nat) :
    (State.freshen s a n).readValue = s.readValue := by simp [State.freshen]

@[simp] theorem State.freshen_mem (s : State) (a n : Nat) :
    (State.freshen s a n).mem = s.mem := by simp [State.freshen]

@[simp] theorem State.freshen_undef (s : State) (a n : Nat) :
    (State.freshen s a n).undef = s.undef := by simp [State.freshen]

@[simp] theorem State.freshen_prog (s : State) (a n : Nat) :
    (State.freshen s a n).prog = s.prog := by simp [State.freshen]

@[simp] theorem State.freshen_bound (s : State) (a n : Nat) :
    (State.freshen s a n).bound = s.bound := by simp [State.freshen]

@[simp] theorem State.freshen_units (s : State) (a n : Nat) :
    (State.freshen s a n).units = s.units := by simp [State.freshen]

@[simp] theorem State.freshen_step (s : State) (a n : Nat) :
    (State.freshen s a n).step = s.step := by simp [State.freshen]

@[simp] theorem State.freshen_stash (s : State) (a n : Nat) :
    (State.freshen s a n).stash = s.stash := by simp [State.freshen]

@[simp] theorem State.freshen_dom (s : State) (a n : Nat) :
    (State.freshen s a n).dom = s.dom := by simp [State.freshen]

@[simp] theorem State.freshen_twin (s : State) (a n : Nat) :
    (State.freshen s a n).twin = s.twin := by simp [State.freshen]

@[simp] theorem State.freshen_fab (s : State) (a n : Nat) :
    (State.freshen s a n).fab = s.fab := by simp [State.freshen]

@[simp] theorem State.freshen_inl (s : State) (a n : Nat) :
    (State.freshen s a n).inl = s.inl := by simp [State.freshen]

@[simp] theorem State.freshen_umc (s : State) (a n : Nat) :
    (State.freshen s a n).umc = s.umc := by simp [State.freshen]

@[simp] theorem State.freshen_sec (s : State) (a n : Nat) :
    (State.freshen s a n).sec = s.sec := by simp [State.freshen]

@[simp] theorem State.freshen_pwr (s : State) (a n : Nat) :
    (State.freshen s a n).pwr = s.pwr := by simp [State.freshen]

@[simp] theorem State.freshen_host (s : State) (a n : Nat) :
    (State.freshen s a n).host = s.host := by simp [State.freshen]

@[simp] theorem State.freshen_cp (s : State) (a n : Nat) :
    (State.freshen s a n).cp = s.cp := by simp [State.freshen]

@[simp] theorem State.freshen_queues (s : State) (a n : Nat) :
    (State.freshen s a n).queues = s.queues := by simp [State.freshen]

@[simp] theorem State.freshen_log (s : State) (a n : Nat) :
    (State.freshen s a n).log = s.log := by simp [State.freshen]

@[simp] theorem State.freshen_bulk (s : State) (a n : Nat) :
    (State.freshen s a n).bulk = s.bulk := by simp [State.freshen]

@[simp] theorem State.freshen_serv (s : State) (a n : Nat) :
    (State.freshen s a n).serv = s.serv := by simp [State.freshen]

@[simp] theorem State.freshen_out (s : State) (a n : Nat) :
    (State.freshen s a n).out = s.out := by simp [State.freshen]

@[simp] theorem State.putBytes_pending (s : State) (a : Nat) (l : List Byte) :
    (State.putBytes s a l).pending = s.pending := by simp [State.putBytes]

@[simp] theorem State.putBytes_free (s : State) (a : Nat) (l : List Byte) :
    (State.putBytes s a l).free = s.free := by simp [State.putBytes]

@[simp] theorem State.putBytes_us (s : State) (a : Nat) (l : List Byte) :
    (State.putBytes s a l).us = s.us := by simp [State.putBytes]

@[simp] theorem State.putBytes_part (s : State) (a : Nat) (l : List Byte) :
    (State.putBytes s a l).part = s.part := by simp [State.putBytes]

@[simp] theorem State.putBytes_regs (s : State) (a : Nat) (l : List Byte) :
    (State.putBytes s a l).regs = s.regs := by simp [State.putBytes]

@[simp] theorem State.putBytes_latches (s : State) (a : Nat) (l : List Byte) :
    (State.putBytes s a l).latches = s.latches := by simp [State.putBytes]

@[simp] theorem State.putBytes_access (s : State) (a : Nat) (l : List Byte) :
    (State.putBytes s a l).access = s.access := by simp [State.putBytes]

@[simp] theorem State.putBytes_readValue (s : State) (a : Nat) (l : List Byte) :
    (State.putBytes s a l).readValue = s.readValue := by simp [State.putBytes]

@[simp] theorem State.putBytes_prog (s : State) (a : Nat) (l : List Byte) :
    (State.putBytes s a l).prog = s.prog := by simp [State.putBytes]

@[simp] theorem State.putBytes_bound (s : State) (a : Nat) (l : List Byte) :
    (State.putBytes s a l).bound = s.bound := by simp [State.putBytes]

@[simp] theorem State.putBytes_units (s : State) (a : Nat) (l : List Byte) :
    (State.putBytes s a l).units = s.units := by simp [State.putBytes]

@[simp] theorem State.putBytes_step (s : State) (a : Nat) (l : List Byte) :
    (State.putBytes s a l).step = s.step := by simp [State.putBytes]

@[simp] theorem State.putBytes_stash (s : State) (a : Nat) (l : List Byte) :
    (State.putBytes s a l).stash = s.stash := by simp [State.putBytes]

@[simp] theorem State.putBytes_dom (s : State) (a : Nat) (l : List Byte) :
    (State.putBytes s a l).dom = s.dom := by simp [State.putBytes]

@[simp] theorem State.putBytes_twin (s : State) (a : Nat) (l : List Byte) :
    (State.putBytes s a l).twin = s.twin := by simp [State.putBytes]

@[simp] theorem State.putBytes_fab (s : State) (a : Nat) (l : List Byte) :
    (State.putBytes s a l).fab = s.fab := by simp [State.putBytes]

@[simp] theorem State.putBytes_inl (s : State) (a : Nat) (l : List Byte) :
    (State.putBytes s a l).inl = s.inl := by simp [State.putBytes]

@[simp] theorem State.putBytes_umc (s : State) (a : Nat) (l : List Byte) :
    (State.putBytes s a l).umc = s.umc := by simp [State.putBytes]

@[simp] theorem State.putBytes_sec (s : State) (a : Nat) (l : List Byte) :
    (State.putBytes s a l).sec = s.sec := by simp [State.putBytes]

@[simp] theorem State.putBytes_pwr (s : State) (a : Nat) (l : List Byte) :
    (State.putBytes s a l).pwr = s.pwr := by simp [State.putBytes]

@[simp] theorem State.putBytes_host (s : State) (a : Nat) (l : List Byte) :
    (State.putBytes s a l).host = s.host := by simp [State.putBytes]

@[simp] theorem State.putBytes_cp (s : State) (a : Nat) (l : List Byte) :
    (State.putBytes s a l).cp = s.cp := by simp [State.putBytes]

@[simp] theorem State.putBytes_queues (s : State) (a : Nat) (l : List Byte) :
    (State.putBytes s a l).queues = s.queues := by simp [State.putBytes]

@[simp] theorem State.putBytes_log (s : State) (a : Nat) (l : List Byte) :
    (State.putBytes s a l).log = s.log := by simp [State.putBytes]

@[simp] theorem State.putBytes_bulk (s : State) (a : Nat) (l : List Byte) :
    (State.putBytes s a l).bulk = s.bulk := by simp [State.putBytes]

@[simp] theorem State.putBytes_serv (s : State) (a : Nat) (l : List Byte) :
    (State.putBytes s a l).serv = s.serv := by simp [State.putBytes]

@[simp] theorem State.putBytes_out (s : State) (a : Nat) (l : List Byte) :
    (State.putBytes s a l).out = s.out := by simp [State.putBytes]

@[simp] theorem State.makeUndef_pending (s : State) (a b : Nat) :
    (State.makeUndef s a b).pending = s.pending := rfl

@[simp] theorem State.makeUndef_us (s : State) (a b : Nat) :
    (State.makeUndef s a b).us = s.us := rfl

@[simp] theorem State.makeUndef_part (s : State) (a b : Nat) :
    (State.makeUndef s a b).part = s.part := rfl

@[simp] theorem State.makeUndef_regs (s : State) (a b : Nat) :
    (State.makeUndef s a b).regs = s.regs := rfl

@[simp] theorem State.makeUndef_latches (s : State) (a b : Nat) :
    (State.makeUndef s a b).latches = s.latches := rfl

@[simp] theorem State.makeUndef_access (s : State) (a b : Nat) :
    (State.makeUndef s a b).access = s.access := rfl

@[simp] theorem State.makeUndef_readValue (s : State) (a b : Nat) :
    (State.makeUndef s a b).readValue = s.readValue := rfl

@[simp] theorem State.makeUndef_tarns (s : State) (a b : Nat) :
    (State.makeUndef s a b).tarns = s.tarns := rfl

@[simp] theorem State.makeUndef_prog (s : State) (a b : Nat) :
    (State.makeUndef s a b).prog = s.prog := rfl

@[simp] theorem State.makeUndef_bound (s : State) (a b : Nat) :
    (State.makeUndef s a b).bound = s.bound := rfl

@[simp] theorem State.makeUndef_units (s : State) (a b : Nat) :
    (State.makeUndef s a b).units = s.units := rfl

@[simp] theorem State.makeUndef_step (s : State) (a b : Nat) :
    (State.makeUndef s a b).step = s.step := rfl

@[simp] theorem State.makeUndef_stash (s : State) (a b : Nat) :
    (State.makeUndef s a b).stash = s.stash := rfl

@[simp] theorem State.makeUndef_dom (s : State) (a b : Nat) :
    (State.makeUndef s a b).dom = s.dom := rfl

@[simp] theorem State.makeUndef_twin (s : State) (a b : Nat) :
    (State.makeUndef s a b).twin = s.twin := rfl

@[simp] theorem State.makeUndef_fab (s : State) (a b : Nat) :
    (State.makeUndef s a b).fab = s.fab := rfl

@[simp] theorem State.makeUndef_inl (s : State) (a b : Nat) :
    (State.makeUndef s a b).inl = s.inl := rfl

@[simp] theorem State.makeUndef_umc (s : State) (a b : Nat) :
    (State.makeUndef s a b).umc = s.umc := rfl

@[simp] theorem State.makeUndef_sec (s : State) (a b : Nat) :
    (State.makeUndef s a b).sec = s.sec := rfl

@[simp] theorem State.makeUndef_pwr (s : State) (a b : Nat) :
    (State.makeUndef s a b).pwr = s.pwr := rfl

@[simp] theorem State.makeUndef_host (s : State) (a b : Nat) :
    (State.makeUndef s a b).host = s.host := rfl

@[simp] theorem State.makeUndef_cp (s : State) (a b : Nat) :
    (State.makeUndef s a b).cp = s.cp := rfl

@[simp] theorem State.makeUndef_queues (s : State) (a b : Nat) :
    (State.makeUndef s a b).queues = s.queues := rfl

@[simp] theorem State.makeUndef_log (s : State) (a b : Nat) :
    (State.makeUndef s a b).log = s.log := rfl

@[simp] theorem State.makeUndef_bulk (s : State) (a b : Nat) :
    (State.makeUndef s a b).bulk = s.bulk := rfl

@[simp] theorem State.makeUndef_serv (s : State) (a b : Nat) :
    (State.makeUndef s a b).serv = s.serv := rfl

@[simp] theorem State.makeUndef_out (s : State) (a b : Nat) :
    (State.makeUndef s a b).out = s.out := rfl

@[simp] theorem State.putWord_pending (s : State) (a : Nat) (v : Word) :
    (State.putWord s a v).pending = s.pending := by simp [State.putWord]

@[simp] theorem State.putWord_free (s : State) (a : Nat) (v : Word) :
    (State.putWord s a v).free = s.free := by simp [State.putWord]

@[simp] theorem State.putWord_us (s : State) (a : Nat) (v : Word) :
    (State.putWord s a v).us = s.us := by simp [State.putWord]

@[simp] theorem State.putWord_part (s : State) (a : Nat) (v : Word) :
    (State.putWord s a v).part = s.part := by simp [State.putWord]

@[simp] theorem State.putWord_regs (s : State) (a : Nat) (v : Word) :
    (State.putWord s a v).regs = s.regs := by simp [State.putWord]

@[simp] theorem State.putWord_latches (s : State) (a : Nat) (v : Word) :
    (State.putWord s a v).latches = s.latches := by simp [State.putWord]

@[simp] theorem State.putWord_access (s : State) (a : Nat) (v : Word) :
    (State.putWord s a v).access = s.access := by simp [State.putWord]

@[simp] theorem State.putWord_readValue (s : State) (a : Nat) (v : Word) :
    (State.putWord s a v).readValue = s.readValue := by simp [State.putWord]

@[simp] theorem State.putWord_prog (s : State) (a : Nat) (v : Word) :
    (State.putWord s a v).prog = s.prog := by simp [State.putWord]

@[simp] theorem State.putWord_bound (s : State) (a : Nat) (v : Word) :
    (State.putWord s a v).bound = s.bound := by simp [State.putWord]

@[simp] theorem State.putWord_units (s : State) (a : Nat) (v : Word) :
    (State.putWord s a v).units = s.units := by simp [State.putWord]

@[simp] theorem State.putWord_step (s : State) (a : Nat) (v : Word) :
    (State.putWord s a v).step = s.step := by simp [State.putWord]

@[simp] theorem State.putWord_stash (s : State) (a : Nat) (v : Word) :
    (State.putWord s a v).stash = s.stash := by simp [State.putWord]

@[simp] theorem State.putWord_dom (s : State) (a : Nat) (v : Word) :
    (State.putWord s a v).dom = s.dom := by simp [State.putWord]

@[simp] theorem State.putWord_twin (s : State) (a : Nat) (v : Word) :
    (State.putWord s a v).twin = s.twin := by simp [State.putWord]

@[simp] theorem State.putWord_fab (s : State) (a : Nat) (v : Word) :
    (State.putWord s a v).fab = s.fab := by simp [State.putWord]

@[simp] theorem State.putWord_inl (s : State) (a : Nat) (v : Word) :
    (State.putWord s a v).inl = s.inl := by simp [State.putWord]

@[simp] theorem State.putWord_umc (s : State) (a : Nat) (v : Word) :
    (State.putWord s a v).umc = s.umc := by simp [State.putWord]

@[simp] theorem State.putWord_sec (s : State) (a : Nat) (v : Word) :
    (State.putWord s a v).sec = s.sec := by simp [State.putWord]

@[simp] theorem State.putWord_pwr (s : State) (a : Nat) (v : Word) :
    (State.putWord s a v).pwr = s.pwr := by simp [State.putWord]

@[simp] theorem State.putWord_host (s : State) (a : Nat) (v : Word) :
    (State.putWord s a v).host = s.host := by simp [State.putWord]

@[simp] theorem State.putWord_cp (s : State) (a : Nat) (v : Word) :
    (State.putWord s a v).cp = s.cp := by simp [State.putWord]

@[simp] theorem State.putWord_queues (s : State) (a : Nat) (v : Word) :
    (State.putWord s a v).queues = s.queues := by simp [State.putWord]

@[simp] theorem State.putWord_log (s : State) (a : Nat) (v : Word) :
    (State.putWord s a v).log = s.log := by simp [State.putWord]

@[simp] theorem State.putWord_bulk (s : State) (a : Nat) (v : Word) :
    (State.putWord s a v).bulk = s.bulk := by simp [State.putWord]

@[simp] theorem State.putWord_serv (s : State) (a : Nat) (v : Word) :
    (State.putWord s a v).serv = s.serv := by simp [State.putWord]

@[simp] theorem State.putWord_out (s : State) (a : Nat) (v : Word) :
    (State.putWord s a v).out = s.out := by simp [State.putWord]

@[simp] theorem State.putWords_pending (s : State) (a : Nat) (l : List Word) :
    (State.putWords s a l).pending = s.pending := by simp [State.putWords]

@[simp] theorem State.putWords_free (s : State) (a : Nat) (l : List Word) :
    (State.putWords s a l).free = s.free := by simp [State.putWords]

@[simp] theorem State.putWords_us (s : State) (a : Nat) (l : List Word) :
    (State.putWords s a l).us = s.us := by simp [State.putWords]

@[simp] theorem State.putWords_part (s : State) (a : Nat) (l : List Word) :
    (State.putWords s a l).part = s.part := by simp [State.putWords]

@[simp] theorem State.putWords_regs (s : State) (a : Nat) (l : List Word) :
    (State.putWords s a l).regs = s.regs := by simp [State.putWords]

@[simp] theorem State.putWords_latches (s : State) (a : Nat) (l : List Word) :
    (State.putWords s a l).latches = s.latches := by simp [State.putWords]

@[simp] theorem State.putWords_access (s : State) (a : Nat) (l : List Word) :
    (State.putWords s a l).access = s.access := by simp [State.putWords]

@[simp] theorem State.putWords_readValue (s : State) (a : Nat) (l : List Word) :
    (State.putWords s a l).readValue = s.readValue := by simp [State.putWords]

@[simp] theorem State.putWords_prog (s : State) (a : Nat) (l : List Word) :
    (State.putWords s a l).prog = s.prog := by simp [State.putWords]

@[simp] theorem State.putWords_bound (s : State) (a : Nat) (l : List Word) :
    (State.putWords s a l).bound = s.bound := by simp [State.putWords]

@[simp] theorem State.putWords_units (s : State) (a : Nat) (l : List Word) :
    (State.putWords s a l).units = s.units := by simp [State.putWords]

@[simp] theorem State.putWords_step (s : State) (a : Nat) (l : List Word) :
    (State.putWords s a l).step = s.step := by simp [State.putWords]

@[simp] theorem State.putWords_stash (s : State) (a : Nat) (l : List Word) :
    (State.putWords s a l).stash = s.stash := by simp [State.putWords]

@[simp] theorem State.putWords_dom (s : State) (a : Nat) (l : List Word) :
    (State.putWords s a l).dom = s.dom := by simp [State.putWords]

@[simp] theorem State.putWords_twin (s : State) (a : Nat) (l : List Word) :
    (State.putWords s a l).twin = s.twin := by simp [State.putWords]

@[simp] theorem State.putWords_fab (s : State) (a : Nat) (l : List Word) :
    (State.putWords s a l).fab = s.fab := by simp [State.putWords]

@[simp] theorem State.putWords_inl (s : State) (a : Nat) (l : List Word) :
    (State.putWords s a l).inl = s.inl := by simp [State.putWords]

@[simp] theorem State.putWords_umc (s : State) (a : Nat) (l : List Word) :
    (State.putWords s a l).umc = s.umc := by simp [State.putWords]

@[simp] theorem State.putWords_sec (s : State) (a : Nat) (l : List Word) :
    (State.putWords s a l).sec = s.sec := by simp [State.putWords]

@[simp] theorem State.putWords_pwr (s : State) (a : Nat) (l : List Word) :
    (State.putWords s a l).pwr = s.pwr := by simp [State.putWords]

@[simp] theorem State.putWords_host (s : State) (a : Nat) (l : List Word) :
    (State.putWords s a l).host = s.host := by simp [State.putWords]

@[simp] theorem State.putWords_cp (s : State) (a : Nat) (l : List Word) :
    (State.putWords s a l).cp = s.cp := by simp [State.putWords]

@[simp] theorem State.putWords_queues (s : State) (a : Nat) (l : List Word) :
    (State.putWords s a l).queues = s.queues := by simp [State.putWords]

@[simp] theorem State.putWords_log (s : State) (a : Nat) (l : List Word) :
    (State.putWords s a l).log = s.log := by simp [State.putWords]

@[simp] theorem State.putWords_bulk (s : State) (a : Nat) (l : List Word) :
    (State.putWords s a l).bulk = s.bulk := by simp [State.putWords]

@[simp] theorem State.putWords_serv (s : State) (a : Nat) (l : List Word) :
    (State.putWords s a l).serv = s.serv := by simp [State.putWords]

@[simp] theorem State.putWords_out (s : State) (a : Nat) (l : List Word) :
    (State.putWords s a l).out = s.out := by simp [State.putWords]

@[simp] theorem State.touch_pending (s : State) (a : Nat) (whole : Bool) :
    (State.touch s a whole).pending = s.pending := by
  unfold State.touch
  split
  · rfl
  · dsimp only
    split
    · rfl
    · simp

@[simp] theorem State.touch_free (s : State) (a : Nat) (whole : Bool) :
    (State.touch s a whole).free = s.free := by
  unfold State.touch
  split
  · rfl
  · dsimp only
    split
    · rfl
    · simp

@[simp] theorem State.touch_us (s : State) (a : Nat) (whole : Bool) :
    (State.touch s a whole).us = s.us := by
  unfold State.touch
  split
  · rfl
  · dsimp only
    split
    · rfl
    · simp

@[simp] theorem State.touch_part (s : State) (a : Nat) (whole : Bool) :
    (State.touch s a whole).part = s.part := by
  unfold State.touch
  split
  · rfl
  · dsimp only
    split
    · rfl
    · simp

@[simp] theorem State.touch_regs (s : State) (a : Nat) (whole : Bool) :
    (State.touch s a whole).regs = s.regs := by
  unfold State.touch
  split
  · rfl
  · dsimp only
    split
    · rfl
    · simp

@[simp] theorem State.touch_latches (s : State) (a : Nat) (whole : Bool) :
    (State.touch s a whole).latches = s.latches := by
  unfold State.touch
  split
  · rfl
  · dsimp only
    split
    · rfl
    · simp

@[simp] theorem State.touch_access (s : State) (a : Nat) (whole : Bool) :
    (State.touch s a whole).access = s.access := by
  unfold State.touch
  split
  · rfl
  · dsimp only
    split
    · rfl
    · simp

@[simp] theorem State.touch_readValue (s : State) (a : Nat) (whole : Bool) :
    (State.touch s a whole).readValue = s.readValue := by
  unfold State.touch
  split
  · rfl
  · dsimp only
    split
    · rfl
    · simp

@[simp] theorem State.touch_prog (s : State) (a : Nat) (whole : Bool) :
    (State.touch s a whole).prog = s.prog := by
  unfold State.touch
  split
  · rfl
  · dsimp only
    split
    · rfl
    · simp

@[simp] theorem State.touch_bound (s : State) (a : Nat) (whole : Bool) :
    (State.touch s a whole).bound = s.bound := by
  unfold State.touch
  split
  · rfl
  · dsimp only
    split
    · rfl
    · simp

@[simp] theorem State.touch_units (s : State) (a : Nat) (whole : Bool) :
    (State.touch s a whole).units = s.units := by
  unfold State.touch
  split
  · rfl
  · dsimp only
    split
    · rfl
    · simp

@[simp] theorem State.touch_step (s : State) (a : Nat) (whole : Bool) :
    (State.touch s a whole).step = s.step := by
  unfold State.touch
  split
  · rfl
  · dsimp only
    split
    · rfl
    · simp

@[simp] theorem State.touch_stash (s : State) (a : Nat) (whole : Bool) :
    (State.touch s a whole).stash = s.stash := by
  unfold State.touch
  split
  · rfl
  · dsimp only
    split
    · rfl
    · simp

@[simp] theorem State.touch_dom (s : State) (a : Nat) (whole : Bool) :
    (State.touch s a whole).dom = s.dom := by
  unfold State.touch
  split
  · rfl
  · dsimp only
    split
    · rfl
    · simp

@[simp] theorem State.touch_twin (s : State) (a : Nat) (whole : Bool) :
    (State.touch s a whole).twin = s.twin := by
  unfold State.touch
  split
  · rfl
  · dsimp only
    split
    · rfl
    · simp

@[simp] theorem State.touch_fab (s : State) (a : Nat) (whole : Bool) :
    (State.touch s a whole).fab = s.fab := by
  unfold State.touch
  split
  · rfl
  · dsimp only
    split
    · rfl
    · simp

@[simp] theorem State.touch_inl (s : State) (a : Nat) (whole : Bool) :
    (State.touch s a whole).inl = s.inl := by
  unfold State.touch
  split
  · rfl
  · dsimp only
    split
    · rfl
    · simp

@[simp] theorem State.touch_umc (s : State) (a : Nat) (whole : Bool) :
    (State.touch s a whole).umc = s.umc := by
  unfold State.touch
  split
  · rfl
  · dsimp only
    split
    · rfl
    · simp

@[simp] theorem State.touch_sec (s : State) (a : Nat) (whole : Bool) :
    (State.touch s a whole).sec = s.sec := by
  unfold State.touch
  split
  · rfl
  · dsimp only
    split
    · rfl
    · simp

@[simp] theorem State.touch_pwr (s : State) (a : Nat) (whole : Bool) :
    (State.touch s a whole).pwr = s.pwr := by
  unfold State.touch
  split
  · rfl
  · dsimp only
    split
    · rfl
    · simp

@[simp] theorem State.touch_host (s : State) (a : Nat) (whole : Bool) :
    (State.touch s a whole).host = s.host := by
  unfold State.touch
  split
  · rfl
  · dsimp only
    split
    · rfl
    · simp

@[simp] theorem State.touch_cp (s : State) (a : Nat) (whole : Bool) :
    (State.touch s a whole).cp = s.cp := by
  unfold State.touch
  split
  · rfl
  · dsimp only
    split
    · rfl
    · simp

@[simp] theorem State.touch_queues (s : State) (a : Nat) (whole : Bool) :
    (State.touch s a whole).queues = s.queues := by
  unfold State.touch
  split
  · rfl
  · dsimp only
    split
    · rfl
    · simp

@[simp] theorem State.touch_log (s : State) (a : Nat) (whole : Bool) :
    (State.touch s a whole).log = s.log := by
  unfold State.touch
  split
  · rfl
  · dsimp only
    split
    · rfl
    · simp

@[simp] theorem State.touch_bulk (s : State) (a : Nat) (whole : Bool) :
    (State.touch s a whole).bulk = s.bulk := by
  unfold State.touch
  split
  · rfl
  · dsimp only
    split
    · rfl
    · simp

@[simp] theorem State.touch_serv (s : State) (a : Nat) (whole : Bool) :
    (State.touch s a whole).serv = s.serv := by
  unfold State.touch
  split
  · rfl
  · dsimp only
    split
    · rfl
    · simp

@[simp] theorem State.touch_out (s : State) (a : Nat) (whole : Bool) :
    (State.touch s a whole).out = s.out := by
  unfold State.touch
  split
  · rfl
  · dsimp only
    split
    · rfl
    · simp

@[simp] theorem State.storeAux_pending (n : Nat) (s : State) (a : Nat) (l : List Byte) :
    (State.storeAux n s a l).pending = s.pending := by
  induction n generalizing s a l with
  | zero => rfl
  | succ n ih =>
    unfold State.storeAux
    split
    · rfl
    · exact (ih _ _ _).trans (by simp)

@[simp] theorem State.storeAux_free (n : Nat) (s : State) (a : Nat) (l : List Byte) :
    (State.storeAux n s a l).free = s.free := by
  induction n generalizing s a l with
  | zero => rfl
  | succ n ih =>
    unfold State.storeAux
    split
    · rfl
    · exact (ih _ _ _).trans (by simp)

@[simp] theorem State.storeAux_us (n : Nat) (s : State) (a : Nat) (l : List Byte) :
    (State.storeAux n s a l).us = s.us := by
  induction n generalizing s a l with
  | zero => rfl
  | succ n ih =>
    unfold State.storeAux
    split
    · rfl
    · exact (ih _ _ _).trans (by simp)

@[simp] theorem State.storeAux_part (n : Nat) (s : State) (a : Nat) (l : List Byte) :
    (State.storeAux n s a l).part = s.part := by
  induction n generalizing s a l with
  | zero => rfl
  | succ n ih =>
    unfold State.storeAux
    split
    · rfl
    · exact (ih _ _ _).trans (by simp)

@[simp] theorem State.storeAux_regs (n : Nat) (s : State) (a : Nat) (l : List Byte) :
    (State.storeAux n s a l).regs = s.regs := by
  induction n generalizing s a l with
  | zero => rfl
  | succ n ih =>
    unfold State.storeAux
    split
    · rfl
    · exact (ih _ _ _).trans (by simp)

@[simp] theorem State.storeAux_latches (n : Nat) (s : State) (a : Nat) (l : List Byte) :
    (State.storeAux n s a l).latches = s.latches := by
  induction n generalizing s a l with
  | zero => rfl
  | succ n ih =>
    unfold State.storeAux
    split
    · rfl
    · exact (ih _ _ _).trans (by simp)

@[simp] theorem State.storeAux_access (n : Nat) (s : State) (a : Nat) (l : List Byte) :
    (State.storeAux n s a l).access = s.access := by
  induction n generalizing s a l with
  | zero => rfl
  | succ n ih =>
    unfold State.storeAux
    split
    · rfl
    · exact (ih _ _ _).trans (by simp)

@[simp] theorem State.storeAux_readValue (n : Nat) (s : State) (a : Nat) (l : List Byte) :
    (State.storeAux n s a l).readValue = s.readValue := by
  induction n generalizing s a l with
  | zero => rfl
  | succ n ih =>
    unfold State.storeAux
    split
    · rfl
    · exact (ih _ _ _).trans (by simp)

@[simp] theorem State.storeAux_prog (n : Nat) (s : State) (a : Nat) (l : List Byte) :
    (State.storeAux n s a l).prog = s.prog := by
  induction n generalizing s a l with
  | zero => rfl
  | succ n ih =>
    unfold State.storeAux
    split
    · rfl
    · exact (ih _ _ _).trans (by simp)

@[simp] theorem State.storeAux_bound (n : Nat) (s : State) (a : Nat) (l : List Byte) :
    (State.storeAux n s a l).bound = s.bound := by
  induction n generalizing s a l with
  | zero => rfl
  | succ n ih =>
    unfold State.storeAux
    split
    · rfl
    · exact (ih _ _ _).trans (by simp)

@[simp] theorem State.storeAux_units (n : Nat) (s : State) (a : Nat) (l : List Byte) :
    (State.storeAux n s a l).units = s.units := by
  induction n generalizing s a l with
  | zero => rfl
  | succ n ih =>
    unfold State.storeAux
    split
    · rfl
    · exact (ih _ _ _).trans (by simp)

@[simp] theorem State.storeAux_step (n : Nat) (s : State) (a : Nat) (l : List Byte) :
    (State.storeAux n s a l).step = s.step := by
  induction n generalizing s a l with
  | zero => rfl
  | succ n ih =>
    unfold State.storeAux
    split
    · rfl
    · exact (ih _ _ _).trans (by simp)

@[simp] theorem State.storeAux_stash (n : Nat) (s : State) (a : Nat) (l : List Byte) :
    (State.storeAux n s a l).stash = s.stash := by
  induction n generalizing s a l with
  | zero => rfl
  | succ n ih =>
    unfold State.storeAux
    split
    · rfl
    · exact (ih _ _ _).trans (by simp)

@[simp] theorem State.storeAux_dom (n : Nat) (s : State) (a : Nat) (l : List Byte) :
    (State.storeAux n s a l).dom = s.dom := by
  induction n generalizing s a l with
  | zero => rfl
  | succ n ih =>
    unfold State.storeAux
    split
    · rfl
    · exact (ih _ _ _).trans (by simp)

@[simp] theorem State.storeAux_twin (n : Nat) (s : State) (a : Nat) (l : List Byte) :
    (State.storeAux n s a l).twin = s.twin := by
  induction n generalizing s a l with
  | zero => rfl
  | succ n ih =>
    unfold State.storeAux
    split
    · rfl
    · exact (ih _ _ _).trans (by simp)

@[simp] theorem State.storeAux_fab (n : Nat) (s : State) (a : Nat) (l : List Byte) :
    (State.storeAux n s a l).fab = s.fab := by
  induction n generalizing s a l with
  | zero => rfl
  | succ n ih =>
    unfold State.storeAux
    split
    · rfl
    · exact (ih _ _ _).trans (by simp)

@[simp] theorem State.storeAux_inl (n : Nat) (s : State) (a : Nat) (l : List Byte) :
    (State.storeAux n s a l).inl = s.inl := by
  induction n generalizing s a l with
  | zero => rfl
  | succ n ih =>
    unfold State.storeAux
    split
    · rfl
    · exact (ih _ _ _).trans (by simp)

@[simp] theorem State.storeAux_umc (n : Nat) (s : State) (a : Nat) (l : List Byte) :
    (State.storeAux n s a l).umc = s.umc := by
  induction n generalizing s a l with
  | zero => rfl
  | succ n ih =>
    unfold State.storeAux
    split
    · rfl
    · exact (ih _ _ _).trans (by simp)

@[simp] theorem State.storeAux_sec (n : Nat) (s : State) (a : Nat) (l : List Byte) :
    (State.storeAux n s a l).sec = s.sec := by
  induction n generalizing s a l with
  | zero => rfl
  | succ n ih =>
    unfold State.storeAux
    split
    · rfl
    · exact (ih _ _ _).trans (by simp)

@[simp] theorem State.storeAux_pwr (n : Nat) (s : State) (a : Nat) (l : List Byte) :
    (State.storeAux n s a l).pwr = s.pwr := by
  induction n generalizing s a l with
  | zero => rfl
  | succ n ih =>
    unfold State.storeAux
    split
    · rfl
    · exact (ih _ _ _).trans (by simp)

@[simp] theorem State.storeAux_host (n : Nat) (s : State) (a : Nat) (l : List Byte) :
    (State.storeAux n s a l).host = s.host := by
  induction n generalizing s a l with
  | zero => rfl
  | succ n ih =>
    unfold State.storeAux
    split
    · rfl
    · exact (ih _ _ _).trans (by simp)

@[simp] theorem State.storeAux_cp (n : Nat) (s : State) (a : Nat) (l : List Byte) :
    (State.storeAux n s a l).cp = s.cp := by
  induction n generalizing s a l with
  | zero => rfl
  | succ n ih =>
    unfold State.storeAux
    split
    · rfl
    · exact (ih _ _ _).trans (by simp)

@[simp] theorem State.storeAux_queues (n : Nat) (s : State) (a : Nat) (l : List Byte) :
    (State.storeAux n s a l).queues = s.queues := by
  induction n generalizing s a l with
  | zero => rfl
  | succ n ih =>
    unfold State.storeAux
    split
    · rfl
    · exact (ih _ _ _).trans (by simp)

@[simp] theorem State.storeAux_log (n : Nat) (s : State) (a : Nat) (l : List Byte) :
    (State.storeAux n s a l).log = s.log := by
  induction n generalizing s a l with
  | zero => rfl
  | succ n ih =>
    unfold State.storeAux
    split
    · rfl
    · exact (ih _ _ _).trans (by simp)

@[simp] theorem State.storeAux_bulk (n : Nat) (s : State) (a : Nat) (l : List Byte) :
    (State.storeAux n s a l).bulk = s.bulk := by
  induction n generalizing s a l with
  | zero => rfl
  | succ n ih =>
    unfold State.storeAux
    split
    · rfl
    · exact (ih _ _ _).trans (by simp)

@[simp] theorem State.storeAux_serv (n : Nat) (s : State) (a : Nat) (l : List Byte) :
    (State.storeAux n s a l).serv = s.serv := by
  induction n generalizing s a l with
  | zero => rfl
  | succ n ih =>
    unfold State.storeAux
    split
    · rfl
    · exact (ih _ _ _).trans (by simp)

@[simp] theorem State.storeAux_out (n : Nat) (s : State) (a : Nat) (l : List Byte) :
    (State.storeAux n s a l).out = s.out := by
  induction n generalizing s a l with
  | zero => rfl
  | succ n ih =>
    unfold State.storeAux
    split
    · rfl
    · exact (ih _ _ _).trans (by simp)

@[simp] theorem State.store_pending (s : State) (a : Nat) (l : List Byte) :
    (State.store s a l).pending = s.pending := by simp [State.store]

@[simp] theorem State.store_free (s : State) (a : Nat) (l : List Byte) :
    (State.store s a l).free = s.free := by simp [State.store]

@[simp] theorem State.store_us (s : State) (a : Nat) (l : List Byte) :
    (State.store s a l).us = s.us := by simp [State.store]

@[simp] theorem State.store_part (s : State) (a : Nat) (l : List Byte) :
    (State.store s a l).part = s.part := by simp [State.store]

@[simp] theorem State.store_regs (s : State) (a : Nat) (l : List Byte) :
    (State.store s a l).regs = s.regs := by simp [State.store]

@[simp] theorem State.store_latches (s : State) (a : Nat) (l : List Byte) :
    (State.store s a l).latches = s.latches := by simp [State.store]

@[simp] theorem State.store_access (s : State) (a : Nat) (l : List Byte) :
    (State.store s a l).access = s.access := by simp [State.store]

@[simp] theorem State.store_readValue (s : State) (a : Nat) (l : List Byte) :
    (State.store s a l).readValue = s.readValue := by simp [State.store]

@[simp] theorem State.store_prog (s : State) (a : Nat) (l : List Byte) :
    (State.store s a l).prog = s.prog := by simp [State.store]

@[simp] theorem State.store_bound (s : State) (a : Nat) (l : List Byte) :
    (State.store s a l).bound = s.bound := by simp [State.store]

@[simp] theorem State.store_units (s : State) (a : Nat) (l : List Byte) :
    (State.store s a l).units = s.units := by simp [State.store]

@[simp] theorem State.store_step (s : State) (a : Nat) (l : List Byte) :
    (State.store s a l).step = s.step := by simp [State.store]

@[simp] theorem State.store_stash (s : State) (a : Nat) (l : List Byte) :
    (State.store s a l).stash = s.stash := by simp [State.store]

@[simp] theorem State.store_dom (s : State) (a : Nat) (l : List Byte) :
    (State.store s a l).dom = s.dom := by simp [State.store]

@[simp] theorem State.store_twin (s : State) (a : Nat) (l : List Byte) :
    (State.store s a l).twin = s.twin := by simp [State.store]

@[simp] theorem State.store_fab (s : State) (a : Nat) (l : List Byte) :
    (State.store s a l).fab = s.fab := by simp [State.store]

@[simp] theorem State.store_inl (s : State) (a : Nat) (l : List Byte) :
    (State.store s a l).inl = s.inl := by simp [State.store]

@[simp] theorem State.store_umc (s : State) (a : Nat) (l : List Byte) :
    (State.store s a l).umc = s.umc := by simp [State.store]

@[simp] theorem State.store_sec (s : State) (a : Nat) (l : List Byte) :
    (State.store s a l).sec = s.sec := by simp [State.store]

@[simp] theorem State.store_pwr (s : State) (a : Nat) (l : List Byte) :
    (State.store s a l).pwr = s.pwr := by simp [State.store]

@[simp] theorem State.store_host (s : State) (a : Nat) (l : List Byte) :
    (State.store s a l).host = s.host := by simp [State.store]

@[simp] theorem State.store_cp (s : State) (a : Nat) (l : List Byte) :
    (State.store s a l).cp = s.cp := by simp [State.store]

@[simp] theorem State.store_queues (s : State) (a : Nat) (l : List Byte) :
    (State.store s a l).queues = s.queues := by simp [State.store]

@[simp] theorem State.store_log (s : State) (a : Nat) (l : List Byte) :
    (State.store s a l).log = s.log := by simp [State.store]

@[simp] theorem State.store_bulk (s : State) (a : Nat) (l : List Byte) :
    (State.store s a l).bulk = s.bulk := by simp [State.store]

@[simp] theorem State.store_serv (s : State) (a : Nat) (l : List Byte) :
    (State.store s a l).serv = s.serv := by simp [State.store]

@[simp] theorem State.store_out (s : State) (a : Nat) (l : List Byte) :
    (State.store s a l).out = s.out := by simp [State.store]

@[simp] theorem State.storeWord_pending (s : State) (a : Nat) (v : Word) :
    (State.storeWord s a v).pending = s.pending := by simp [State.storeWord]

@[simp] theorem State.storeWord_free (s : State) (a : Nat) (v : Word) :
    (State.storeWord s a v).free = s.free := by simp [State.storeWord]

@[simp] theorem State.storeWord_us (s : State) (a : Nat) (v : Word) :
    (State.storeWord s a v).us = s.us := by simp [State.storeWord]

@[simp] theorem State.storeWord_part (s : State) (a : Nat) (v : Word) :
    (State.storeWord s a v).part = s.part := by simp [State.storeWord]

@[simp] theorem State.storeWord_regs (s : State) (a : Nat) (v : Word) :
    (State.storeWord s a v).regs = s.regs := by simp [State.storeWord]

@[simp] theorem State.storeWord_latches (s : State) (a : Nat) (v : Word) :
    (State.storeWord s a v).latches = s.latches := by simp [State.storeWord]

@[simp] theorem State.storeWord_access (s : State) (a : Nat) (v : Word) :
    (State.storeWord s a v).access = s.access := by simp [State.storeWord]

@[simp] theorem State.storeWord_readValue (s : State) (a : Nat) (v : Word) :
    (State.storeWord s a v).readValue = s.readValue := by simp [State.storeWord]

@[simp] theorem State.storeWord_prog (s : State) (a : Nat) (v : Word) :
    (State.storeWord s a v).prog = s.prog := by simp [State.storeWord]

@[simp] theorem State.storeWord_bound (s : State) (a : Nat) (v : Word) :
    (State.storeWord s a v).bound = s.bound := by simp [State.storeWord]

@[simp] theorem State.storeWord_units (s : State) (a : Nat) (v : Word) :
    (State.storeWord s a v).units = s.units := by simp [State.storeWord]

@[simp] theorem State.storeWord_step (s : State) (a : Nat) (v : Word) :
    (State.storeWord s a v).step = s.step := by simp [State.storeWord]

@[simp] theorem State.storeWord_stash (s : State) (a : Nat) (v : Word) :
    (State.storeWord s a v).stash = s.stash := by simp [State.storeWord]

@[simp] theorem State.storeWord_dom (s : State) (a : Nat) (v : Word) :
    (State.storeWord s a v).dom = s.dom := by simp [State.storeWord]

@[simp] theorem State.storeWord_twin (s : State) (a : Nat) (v : Word) :
    (State.storeWord s a v).twin = s.twin := by simp [State.storeWord]

@[simp] theorem State.storeWord_fab (s : State) (a : Nat) (v : Word) :
    (State.storeWord s a v).fab = s.fab := by simp [State.storeWord]

@[simp] theorem State.storeWord_inl (s : State) (a : Nat) (v : Word) :
    (State.storeWord s a v).inl = s.inl := by simp [State.storeWord]

@[simp] theorem State.storeWord_umc (s : State) (a : Nat) (v : Word) :
    (State.storeWord s a v).umc = s.umc := by simp [State.storeWord]

@[simp] theorem State.storeWord_sec (s : State) (a : Nat) (v : Word) :
    (State.storeWord s a v).sec = s.sec := by simp [State.storeWord]

@[simp] theorem State.storeWord_pwr (s : State) (a : Nat) (v : Word) :
    (State.storeWord s a v).pwr = s.pwr := by simp [State.storeWord]

@[simp] theorem State.storeWord_host (s : State) (a : Nat) (v : Word) :
    (State.storeWord s a v).host = s.host := by simp [State.storeWord]

@[simp] theorem State.storeWord_cp (s : State) (a : Nat) (v : Word) :
    (State.storeWord s a v).cp = s.cp := by simp [State.storeWord]

@[simp] theorem State.storeWord_queues (s : State) (a : Nat) (v : Word) :
    (State.storeWord s a v).queues = s.queues := by simp [State.storeWord]

@[simp] theorem State.storeWord_log (s : State) (a : Nat) (v : Word) :
    (State.storeWord s a v).log = s.log := by simp [State.storeWord]

@[simp] theorem State.storeWord_bulk (s : State) (a : Nat) (v : Word) :
    (State.storeWord s a v).bulk = s.bulk := by simp [State.storeWord]

@[simp] theorem State.storeWord_serv (s : State) (a : Nat) (v : Word) :
    (State.storeWord s a v).serv = s.serv := by simp [State.storeWord]

@[simp] theorem State.storeWord_out (s : State) (a : Nat) (v : Word) :
    (State.storeWord s a v).out = s.out := by simp [State.storeWord]

@[simp] theorem State.storeWords_pending (s : State) (a : Nat) (l : List Word) :
    (State.storeWords s a l).pending = s.pending := by simp [State.storeWords]

@[simp] theorem State.storeWords_free (s : State) (a : Nat) (l : List Word) :
    (State.storeWords s a l).free = s.free := by simp [State.storeWords]

@[simp] theorem State.storeWords_us (s : State) (a : Nat) (l : List Word) :
    (State.storeWords s a l).us = s.us := by simp [State.storeWords]

@[simp] theorem State.storeWords_part (s : State) (a : Nat) (l : List Word) :
    (State.storeWords s a l).part = s.part := by simp [State.storeWords]

@[simp] theorem State.storeWords_regs (s : State) (a : Nat) (l : List Word) :
    (State.storeWords s a l).regs = s.regs := by simp [State.storeWords]

@[simp] theorem State.storeWords_latches (s : State) (a : Nat) (l : List Word) :
    (State.storeWords s a l).latches = s.latches := by simp [State.storeWords]

@[simp] theorem State.storeWords_access (s : State) (a : Nat) (l : List Word) :
    (State.storeWords s a l).access = s.access := by simp [State.storeWords]

@[simp] theorem State.storeWords_readValue (s : State) (a : Nat) (l : List Word) :
    (State.storeWords s a l).readValue = s.readValue := by simp [State.storeWords]

@[simp] theorem State.storeWords_prog (s : State) (a : Nat) (l : List Word) :
    (State.storeWords s a l).prog = s.prog := by simp [State.storeWords]

@[simp] theorem State.storeWords_bound (s : State) (a : Nat) (l : List Word) :
    (State.storeWords s a l).bound = s.bound := by simp [State.storeWords]

@[simp] theorem State.storeWords_units (s : State) (a : Nat) (l : List Word) :
    (State.storeWords s a l).units = s.units := by simp [State.storeWords]

@[simp] theorem State.storeWords_step (s : State) (a : Nat) (l : List Word) :
    (State.storeWords s a l).step = s.step := by simp [State.storeWords]

@[simp] theorem State.storeWords_stash (s : State) (a : Nat) (l : List Word) :
    (State.storeWords s a l).stash = s.stash := by simp [State.storeWords]

@[simp] theorem State.storeWords_dom (s : State) (a : Nat) (l : List Word) :
    (State.storeWords s a l).dom = s.dom := by simp [State.storeWords]

@[simp] theorem State.storeWords_twin (s : State) (a : Nat) (l : List Word) :
    (State.storeWords s a l).twin = s.twin := by simp [State.storeWords]

@[simp] theorem State.storeWords_fab (s : State) (a : Nat) (l : List Word) :
    (State.storeWords s a l).fab = s.fab := by simp [State.storeWords]

@[simp] theorem State.storeWords_inl (s : State) (a : Nat) (l : List Word) :
    (State.storeWords s a l).inl = s.inl := by simp [State.storeWords]

@[simp] theorem State.storeWords_umc (s : State) (a : Nat) (l : List Word) :
    (State.storeWords s a l).umc = s.umc := by simp [State.storeWords]

@[simp] theorem State.storeWords_sec (s : State) (a : Nat) (l : List Word) :
    (State.storeWords s a l).sec = s.sec := by simp [State.storeWords]

@[simp] theorem State.storeWords_pwr (s : State) (a : Nat) (l : List Word) :
    (State.storeWords s a l).pwr = s.pwr := by simp [State.storeWords]

@[simp] theorem State.storeWords_host (s : State) (a : Nat) (l : List Word) :
    (State.storeWords s a l).host = s.host := by simp [State.storeWords]

@[simp] theorem State.storeWords_cp (s : State) (a : Nat) (l : List Word) :
    (State.storeWords s a l).cp = s.cp := by simp [State.storeWords]

@[simp] theorem State.storeWords_queues (s : State) (a : Nat) (l : List Word) :
    (State.storeWords s a l).queues = s.queues := by simp [State.storeWords]

@[simp] theorem State.storeWords_log (s : State) (a : Nat) (l : List Word) :
    (State.storeWords s a l).log = s.log := by simp [State.storeWords]

@[simp] theorem State.storeWords_bulk (s : State) (a : Nat) (l : List Word) :
    (State.storeWords s a l).bulk = s.bulk := by simp [State.storeWords]

@[simp] theorem State.storeWords_serv (s : State) (a : Nat) (l : List Word) :
    (State.storeWords s a l).serv = s.serv := by simp [State.storeWords]

@[simp] theorem State.storeWords_out (s : State) (a : Nat) (l : List Word) :
    (State.storeWords s a l).out = s.out := by simp [State.storeWords]

@[simp] theorem State.setSetCount_pending (s : State) (blk : Block) (i b n : Nat) :
    (State.setSetCount s blk i b n).pending = s.pending := rfl

@[simp] theorem State.setSetCount_free (s : State) (blk : Block) (i b n : Nat) :
    (State.setSetCount s blk i b n).free = s.free := rfl

@[simp] theorem State.setSetCount_us (s : State) (blk : Block) (i b n : Nat) :
    (State.setSetCount s blk i b n).us = s.us := rfl

@[simp] theorem State.setSetCount_part (s : State) (blk : Block) (i b n : Nat) :
    (State.setSetCount s blk i b n).part = s.part := rfl

@[simp] theorem State.setSetCount_latches (s : State) (blk : Block) (i b n : Nat) :
    (State.setSetCount s blk i b n).latches = s.latches := rfl

@[simp] theorem State.setSetCount_access (s : State) (blk : Block) (i b n : Nat) :
    (State.setSetCount s blk i b n).access = s.access := rfl

@[simp] theorem State.setSetCount_readValue (s : State) (blk : Block) (i b n : Nat) :
    (State.setSetCount s blk i b n).readValue = s.readValue := rfl

@[simp] theorem State.setSetCount_mem (s : State) (blk : Block) (i b n : Nat) :
    (State.setSetCount s blk i b n).mem = s.mem := rfl

@[simp] theorem State.setSetCount_undef (s : State) (blk : Block) (i b n : Nat) :
    (State.setSetCount s blk i b n).undef = s.undef := rfl

@[simp] theorem State.setSetCount_tarns (s : State) (blk : Block) (i b n : Nat) :
    (State.setSetCount s blk i b n).tarns = s.tarns := rfl

@[simp] theorem State.setSetCount_prog (s : State) (blk : Block) (i b n : Nat) :
    (State.setSetCount s blk i b n).prog = s.prog := rfl

@[simp] theorem State.setSetCount_bound (s : State) (blk : Block) (i b n : Nat) :
    (State.setSetCount s blk i b n).bound = s.bound := rfl

@[simp] theorem State.setSetCount_units (s : State) (blk : Block) (i b n : Nat) :
    (State.setSetCount s blk i b n).units = s.units := rfl

@[simp] theorem State.setSetCount_step (s : State) (blk : Block) (i b n : Nat) :
    (State.setSetCount s blk i b n).step = s.step := rfl

@[simp] theorem State.setSetCount_stash (s : State) (blk : Block) (i b n : Nat) :
    (State.setSetCount s blk i b n).stash = s.stash := rfl

@[simp] theorem State.setSetCount_dom (s : State) (blk : Block) (i b n : Nat) :
    (State.setSetCount s blk i b n).dom = s.dom := rfl

@[simp] theorem State.setSetCount_twin (s : State) (blk : Block) (i b n : Nat) :
    (State.setSetCount s blk i b n).twin = s.twin := rfl

@[simp] theorem State.setSetCount_fab (s : State) (blk : Block) (i b n : Nat) :
    (State.setSetCount s blk i b n).fab = s.fab := rfl

@[simp] theorem State.setSetCount_inl (s : State) (blk : Block) (i b n : Nat) :
    (State.setSetCount s blk i b n).inl = s.inl := rfl

@[simp] theorem State.setSetCount_umc (s : State) (blk : Block) (i b n : Nat) :
    (State.setSetCount s blk i b n).umc = s.umc := rfl

@[simp] theorem State.setSetCount_sec (s : State) (blk : Block) (i b n : Nat) :
    (State.setSetCount s blk i b n).sec = s.sec := rfl

@[simp] theorem State.setSetCount_pwr (s : State) (blk : Block) (i b n : Nat) :
    (State.setSetCount s blk i b n).pwr = s.pwr := rfl

@[simp] theorem State.setSetCount_host (s : State) (blk : Block) (i b n : Nat) :
    (State.setSetCount s blk i b n).host = s.host := rfl

@[simp] theorem State.setSetCount_cp (s : State) (blk : Block) (i b n : Nat) :
    (State.setSetCount s blk i b n).cp = s.cp := rfl

@[simp] theorem State.setSetCount_queues (s : State) (blk : Block) (i b n : Nat) :
    (State.setSetCount s blk i b n).queues = s.queues := rfl

@[simp] theorem State.setSetCount_log (s : State) (blk : Block) (i b n : Nat) :
    (State.setSetCount s blk i b n).log = s.log := rfl

@[simp] theorem State.setSetCount_bulk (s : State) (blk : Block) (i b n : Nat) :
    (State.setSetCount s blk i b n).bulk = s.bulk := rfl

@[simp] theorem State.setSetCount_serv (s : State) (blk : Block) (i b n : Nat) :
    (State.setSetCount s blk i b n).serv = s.serv := rfl

@[simp] theorem State.setSetCount_out (s : State) (blk : Block) (i b n : Nat) :
    (State.setSetCount s blk i b n).out = s.out := rfl

@[simp] theorem State.raiseFlag_pending (s : State) (blk : Block) (i b : Nat) :
    (State.raiseFlag s blk i b).pending = s.pending := rfl

@[simp] theorem State.raiseFlag_free (s : State) (blk : Block) (i b : Nat) :
    (State.raiseFlag s blk i b).free = s.free := rfl

@[simp] theorem State.raiseFlag_us (s : State) (blk : Block) (i b : Nat) :
    (State.raiseFlag s blk i b).us = s.us := rfl

@[simp] theorem State.raiseFlag_part (s : State) (blk : Block) (i b : Nat) :
    (State.raiseFlag s blk i b).part = s.part := rfl

@[simp] theorem State.raiseFlag_latches (s : State) (blk : Block) (i b : Nat) :
    (State.raiseFlag s blk i b).latches = s.latches := rfl

@[simp] theorem State.raiseFlag_access (s : State) (blk : Block) (i b : Nat) :
    (State.raiseFlag s blk i b).access = s.access := rfl

@[simp] theorem State.raiseFlag_readValue (s : State) (blk : Block) (i b : Nat) :
    (State.raiseFlag s blk i b).readValue = s.readValue := rfl

@[simp] theorem State.raiseFlag_mem (s : State) (blk : Block) (i b : Nat) :
    (State.raiseFlag s blk i b).mem = s.mem := rfl

@[simp] theorem State.raiseFlag_undef (s : State) (blk : Block) (i b : Nat) :
    (State.raiseFlag s blk i b).undef = s.undef := rfl

@[simp] theorem State.raiseFlag_tarns (s : State) (blk : Block) (i b : Nat) :
    (State.raiseFlag s blk i b).tarns = s.tarns := rfl

@[simp] theorem State.raiseFlag_prog (s : State) (blk : Block) (i b : Nat) :
    (State.raiseFlag s blk i b).prog = s.prog := rfl

@[simp] theorem State.raiseFlag_bound (s : State) (blk : Block) (i b : Nat) :
    (State.raiseFlag s blk i b).bound = s.bound := rfl

@[simp] theorem State.raiseFlag_units (s : State) (blk : Block) (i b : Nat) :
    (State.raiseFlag s blk i b).units = s.units := rfl

@[simp] theorem State.raiseFlag_step (s : State) (blk : Block) (i b : Nat) :
    (State.raiseFlag s blk i b).step = s.step := rfl

@[simp] theorem State.raiseFlag_stash (s : State) (blk : Block) (i b : Nat) :
    (State.raiseFlag s blk i b).stash = s.stash := rfl

@[simp] theorem State.raiseFlag_dom (s : State) (blk : Block) (i b : Nat) :
    (State.raiseFlag s blk i b).dom = s.dom := rfl

@[simp] theorem State.raiseFlag_twin (s : State) (blk : Block) (i b : Nat) :
    (State.raiseFlag s blk i b).twin = s.twin := rfl

@[simp] theorem State.raiseFlag_fab (s : State) (blk : Block) (i b : Nat) :
    (State.raiseFlag s blk i b).fab = s.fab := rfl

@[simp] theorem State.raiseFlag_inl (s : State) (blk : Block) (i b : Nat) :
    (State.raiseFlag s blk i b).inl = s.inl := rfl

@[simp] theorem State.raiseFlag_umc (s : State) (blk : Block) (i b : Nat) :
    (State.raiseFlag s blk i b).umc = s.umc := rfl

@[simp] theorem State.raiseFlag_sec (s : State) (blk : Block) (i b : Nat) :
    (State.raiseFlag s blk i b).sec = s.sec := rfl

@[simp] theorem State.raiseFlag_pwr (s : State) (blk : Block) (i b : Nat) :
    (State.raiseFlag s blk i b).pwr = s.pwr := rfl

@[simp] theorem State.raiseFlag_host (s : State) (blk : Block) (i b : Nat) :
    (State.raiseFlag s blk i b).host = s.host := rfl

@[simp] theorem State.raiseFlag_cp (s : State) (blk : Block) (i b : Nat) :
    (State.raiseFlag s blk i b).cp = s.cp := rfl

@[simp] theorem State.raiseFlag_queues (s : State) (blk : Block) (i b : Nat) :
    (State.raiseFlag s blk i b).queues = s.queues := rfl

@[simp] theorem State.raiseFlag_log (s : State) (blk : Block) (i b : Nat) :
    (State.raiseFlag s blk i b).log = s.log := rfl

@[simp] theorem State.raiseFlag_bulk (s : State) (blk : Block) (i b : Nat) :
    (State.raiseFlag s blk i b).bulk = s.bulk := rfl

@[simp] theorem State.raiseFlag_serv (s : State) (blk : Block) (i b : Nat) :
    (State.raiseFlag s blk i b).serv = s.serv := rfl

@[simp] theorem State.raiseFlag_out (s : State) (blk : Block) (i b : Nat) :
    (State.raiseFlag s blk i b).out = s.out := rfl

@[simp] theorem State.clearFlags_pending (s : State) (blk : Block) (i : Nat) (v : Word) :
    (State.clearFlags s blk i v).pending = s.pending := by
  unfold State.clearFlags
  exact (State.foldl_pending _ _ _ (fun t b => by split <;> simp)).trans (by simp)

@[simp] theorem State.clearFlags_free (s : State) (blk : Block) (i : Nat) (v : Word) :
    (State.clearFlags s blk i v).free = s.free := by
  unfold State.clearFlags
  exact (State.foldl_free _ _ _ (fun t b => by split <;> simp)).trans (by simp)

@[simp] theorem State.clearFlags_us (s : State) (blk : Block) (i : Nat) (v : Word) :
    (State.clearFlags s blk i v).us = s.us := by
  unfold State.clearFlags
  exact (State.foldl_us _ _ _ (fun t b => by split <;> simp)).trans (by simp)

@[simp] theorem State.clearFlags_part (s : State) (blk : Block) (i : Nat) (v : Word) :
    (State.clearFlags s blk i v).part = s.part := by
  unfold State.clearFlags
  exact (State.foldl_part _ _ _ (fun t b => by split <;> simp)).trans (by simp)

@[simp] theorem State.clearFlags_latches (s : State) (blk : Block) (i : Nat) (v : Word) :
    (State.clearFlags s blk i v).latches = s.latches := by
  unfold State.clearFlags
  exact (State.foldl_latches _ _ _ (fun t b => by split <;> simp)).trans (by simp)

@[simp] theorem State.clearFlags_access (s : State) (blk : Block) (i : Nat) (v : Word) :
    (State.clearFlags s blk i v).access = s.access := by
  unfold State.clearFlags
  exact (State.foldl_access _ _ _ (fun t b => by split <;> simp)).trans (by simp)

@[simp] theorem State.clearFlags_readValue (s : State) (blk : Block) (i : Nat) (v : Word) :
    (State.clearFlags s blk i v).readValue = s.readValue := by
  unfold State.clearFlags
  exact (State.foldl_readValue _ _ _ (fun t b => by split <;> simp)).trans (by simp)

@[simp] theorem State.clearFlags_mem (s : State) (blk : Block) (i : Nat) (v : Word) :
    (State.clearFlags s blk i v).mem = s.mem := by
  unfold State.clearFlags
  exact (State.foldl_mem _ _ _ (fun t b => by split <;> simp)).trans (by simp)

@[simp] theorem State.clearFlags_undef (s : State) (blk : Block) (i : Nat) (v : Word) :
    (State.clearFlags s blk i v).undef = s.undef := by
  unfold State.clearFlags
  exact (State.foldl_undef _ _ _ (fun t b => by split <;> simp)).trans (by simp)

@[simp] theorem State.clearFlags_tarns (s : State) (blk : Block) (i : Nat) (v : Word) :
    (State.clearFlags s blk i v).tarns = s.tarns := by
  unfold State.clearFlags
  exact (State.foldl_tarns _ _ _ (fun t b => by split <;> simp)).trans (by simp)

@[simp] theorem State.clearFlags_prog (s : State) (blk : Block) (i : Nat) (v : Word) :
    (State.clearFlags s blk i v).prog = s.prog := by
  unfold State.clearFlags
  exact (State.foldl_prog _ _ _ (fun t b => by split <;> simp)).trans (by simp)

@[simp] theorem State.clearFlags_bound (s : State) (blk : Block) (i : Nat) (v : Word) :
    (State.clearFlags s blk i v).bound = s.bound := by
  unfold State.clearFlags
  exact (State.foldl_bound _ _ _ (fun t b => by split <;> simp)).trans (by simp)

@[simp] theorem State.clearFlags_units (s : State) (blk : Block) (i : Nat) (v : Word) :
    (State.clearFlags s blk i v).units = s.units := by
  unfold State.clearFlags
  exact (State.foldl_units _ _ _ (fun t b => by split <;> simp)).trans (by simp)

@[simp] theorem State.clearFlags_step (s : State) (blk : Block) (i : Nat) (v : Word) :
    (State.clearFlags s blk i v).step = s.step := by
  unfold State.clearFlags
  exact (State.foldl_step _ _ _ (fun t b => by split <;> simp)).trans (by simp)

@[simp] theorem State.clearFlags_stash (s : State) (blk : Block) (i : Nat) (v : Word) :
    (State.clearFlags s blk i v).stash = s.stash := by
  unfold State.clearFlags
  exact (State.foldl_stash _ _ _ (fun t b => by split <;> simp)).trans (by simp)

@[simp] theorem State.clearFlags_dom (s : State) (blk : Block) (i : Nat) (v : Word) :
    (State.clearFlags s blk i v).dom = s.dom := by
  unfold State.clearFlags
  exact (State.foldl_dom _ _ _ (fun t b => by split <;> simp)).trans (by simp)

@[simp] theorem State.clearFlags_twin (s : State) (blk : Block) (i : Nat) (v : Word) :
    (State.clearFlags s blk i v).twin = s.twin := by
  unfold State.clearFlags
  exact (State.foldl_twin _ _ _ (fun t b => by split <;> simp)).trans (by simp)

@[simp] theorem State.clearFlags_fab (s : State) (blk : Block) (i : Nat) (v : Word) :
    (State.clearFlags s blk i v).fab = s.fab := by
  unfold State.clearFlags
  exact (State.foldl_fab _ _ _ (fun t b => by split <;> simp)).trans (by simp)

@[simp] theorem State.clearFlags_inl (s : State) (blk : Block) (i : Nat) (v : Word) :
    (State.clearFlags s blk i v).inl = s.inl := by
  unfold State.clearFlags
  exact (State.foldl_inl _ _ _ (fun t b => by split <;> simp)).trans (by simp)

@[simp] theorem State.clearFlags_umc (s : State) (blk : Block) (i : Nat) (v : Word) :
    (State.clearFlags s blk i v).umc = s.umc := by
  unfold State.clearFlags
  exact (State.foldl_umc _ _ _ (fun t b => by split <;> simp)).trans (by simp)

@[simp] theorem State.clearFlags_sec (s : State) (blk : Block) (i : Nat) (v : Word) :
    (State.clearFlags s blk i v).sec = s.sec := by
  unfold State.clearFlags
  exact (State.foldl_sec _ _ _ (fun t b => by split <;> simp)).trans (by simp)

@[simp] theorem State.clearFlags_pwr (s : State) (blk : Block) (i : Nat) (v : Word) :
    (State.clearFlags s blk i v).pwr = s.pwr := by
  unfold State.clearFlags
  exact (State.foldl_pwr _ _ _ (fun t b => by split <;> simp)).trans (by simp)

@[simp] theorem State.clearFlags_host (s : State) (blk : Block) (i : Nat) (v : Word) :
    (State.clearFlags s blk i v).host = s.host := by
  unfold State.clearFlags
  exact (State.foldl_host _ _ _ (fun t b => by split <;> simp)).trans (by simp)

@[simp] theorem State.clearFlags_cp (s : State) (blk : Block) (i : Nat) (v : Word) :
    (State.clearFlags s blk i v).cp = s.cp := by
  unfold State.clearFlags
  exact (State.foldl_cp _ _ _ (fun t b => by split <;> simp)).trans (by simp)

@[simp] theorem State.clearFlags_queues (s : State) (blk : Block) (i : Nat) (v : Word) :
    (State.clearFlags s blk i v).queues = s.queues := by
  unfold State.clearFlags
  exact (State.foldl_queues _ _ _ (fun t b => by split <;> simp)).trans (by simp)

@[simp] theorem State.clearFlags_log (s : State) (blk : Block) (i : Nat) (v : Word) :
    (State.clearFlags s blk i v).log = s.log := by
  unfold State.clearFlags
  exact (State.foldl_log _ _ _ (fun t b => by split <;> simp)).trans (by simp)

@[simp] theorem State.clearFlags_bulk (s : State) (blk : Block) (i : Nat) (v : Word) :
    (State.clearFlags s blk i v).bulk = s.bulk := by
  unfold State.clearFlags
  exact (State.foldl_bulk _ _ _ (fun t b => by split <;> simp)).trans (by simp)

@[simp] theorem State.clearFlags_serv (s : State) (blk : Block) (i : Nat) (v : Word) :
    (State.clearFlags s blk i v).serv = s.serv := by
  unfold State.clearFlags
  exact (State.foldl_serv _ _ _ (fun t b => by split <;> simp)).trans (by simp)

@[simp] theorem State.clearFlags_out (s : State) (blk : Block) (i : Nat) (v : Word) :
    (State.clearFlags s blk i v).out = s.out := by
  unfold State.clearFlags
  exact (State.foldl_out _ _ _ (fun t b => by split <;> simp)).trans (by simp)

@[simp] theorem State.logDrop_pending (s : State) :
    (State.logDrop s).pending = s.pending := rfl

@[simp] theorem State.logDrop_free (s : State) :
    (State.logDrop s).free = s.free := rfl

@[simp] theorem State.logDrop_us (s : State) :
    (State.logDrop s).us = s.us := rfl

@[simp] theorem State.logDrop_part (s : State) :
    (State.logDrop s).part = s.part := rfl

@[simp] theorem State.logDrop_latches (s : State) :
    (State.logDrop s).latches = s.latches := rfl

@[simp] theorem State.logDrop_access (s : State) :
    (State.logDrop s).access = s.access := rfl

@[simp] theorem State.logDrop_readValue (s : State) :
    (State.logDrop s).readValue = s.readValue := rfl

@[simp] theorem State.logDrop_mem (s : State) :
    (State.logDrop s).mem = s.mem := rfl

@[simp] theorem State.logDrop_undef (s : State) :
    (State.logDrop s).undef = s.undef := rfl

@[simp] theorem State.logDrop_tarns (s : State) :
    (State.logDrop s).tarns = s.tarns := rfl

@[simp] theorem State.logDrop_prog (s : State) :
    (State.logDrop s).prog = s.prog := rfl

@[simp] theorem State.logDrop_bound (s : State) :
    (State.logDrop s).bound = s.bound := rfl

@[simp] theorem State.logDrop_units (s : State) :
    (State.logDrop s).units = s.units := rfl

@[simp] theorem State.logDrop_step (s : State) :
    (State.logDrop s).step = s.step := rfl

@[simp] theorem State.logDrop_stash (s : State) :
    (State.logDrop s).stash = s.stash := rfl

@[simp] theorem State.logDrop_dom (s : State) :
    (State.logDrop s).dom = s.dom := rfl

@[simp] theorem State.logDrop_twin (s : State) :
    (State.logDrop s).twin = s.twin := rfl

@[simp] theorem State.logDrop_fab (s : State) :
    (State.logDrop s).fab = s.fab := rfl

@[simp] theorem State.logDrop_inl (s : State) :
    (State.logDrop s).inl = s.inl := rfl

@[simp] theorem State.logDrop_umc (s : State) :
    (State.logDrop s).umc = s.umc := rfl

@[simp] theorem State.logDrop_sec (s : State) :
    (State.logDrop s).sec = s.sec := rfl

@[simp] theorem State.logDrop_pwr (s : State) :
    (State.logDrop s).pwr = s.pwr := rfl

@[simp] theorem State.logDrop_host (s : State) :
    (State.logDrop s).host = s.host := rfl

@[simp] theorem State.logDrop_cp (s : State) :
    (State.logDrop s).cp = s.cp := rfl

@[simp] theorem State.logDrop_queues (s : State) :
    (State.logDrop s).queues = s.queues := rfl

@[simp] theorem State.logDrop_bulk (s : State) :
    (State.logDrop s).bulk = s.bulk := rfl

@[simp] theorem State.logDrop_serv (s : State) :
    (State.logDrop s).serv = s.serv := rfl

@[simp] theorem State.logDrop_out (s : State) :
    (State.logDrop s).out = s.out := rfl

@[simp] theorem State.unpoison_pending (s : State) (i : Nat) (ls : List Nat) :
    (State.unpoison s i ls).pending = s.pending := rfl

@[simp] theorem State.unpoison_free (s : State) (i : Nat) (ls : List Nat) :
    (State.unpoison s i ls).free = s.free := rfl

@[simp] theorem State.unpoison_us (s : State) (i : Nat) (ls : List Nat) :
    (State.unpoison s i ls).us = s.us := rfl

@[simp] theorem State.unpoison_part (s : State) (i : Nat) (ls : List Nat) :
    (State.unpoison s i ls).part = s.part := rfl

@[simp] theorem State.unpoison_regs (s : State) (i : Nat) (ls : List Nat) :
    (State.unpoison s i ls).regs = s.regs := rfl

@[simp] theorem State.unpoison_latches (s : State) (i : Nat) (ls : List Nat) :
    (State.unpoison s i ls).latches = s.latches := rfl

@[simp] theorem State.unpoison_access (s : State) (i : Nat) (ls : List Nat) :
    (State.unpoison s i ls).access = s.access := rfl

@[simp] theorem State.unpoison_readValue (s : State) (i : Nat) (ls : List Nat) :
    (State.unpoison s i ls).readValue = s.readValue := rfl

@[simp] theorem State.unpoison_mem (s : State) (i : Nat) (ls : List Nat) :
    (State.unpoison s i ls).mem = s.mem := rfl

@[simp] theorem State.unpoison_undef (s : State) (i : Nat) (ls : List Nat) :
    (State.unpoison s i ls).undef = s.undef := rfl

@[simp] theorem State.unpoison_prog (s : State) (i : Nat) (ls : List Nat) :
    (State.unpoison s i ls).prog = s.prog := rfl

@[simp] theorem State.unpoison_bound (s : State) (i : Nat) (ls : List Nat) :
    (State.unpoison s i ls).bound = s.bound := rfl

@[simp] theorem State.unpoison_units (s : State) (i : Nat) (ls : List Nat) :
    (State.unpoison s i ls).units = s.units := rfl

@[simp] theorem State.unpoison_step (s : State) (i : Nat) (ls : List Nat) :
    (State.unpoison s i ls).step = s.step := rfl

@[simp] theorem State.unpoison_stash (s : State) (i : Nat) (ls : List Nat) :
    (State.unpoison s i ls).stash = s.stash := rfl

@[simp] theorem State.unpoison_dom (s : State) (i : Nat) (ls : List Nat) :
    (State.unpoison s i ls).dom = s.dom := rfl

@[simp] theorem State.unpoison_twin (s : State) (i : Nat) (ls : List Nat) :
    (State.unpoison s i ls).twin = s.twin := rfl

@[simp] theorem State.unpoison_fab (s : State) (i : Nat) (ls : List Nat) :
    (State.unpoison s i ls).fab = s.fab := rfl

@[simp] theorem State.unpoison_inl (s : State) (i : Nat) (ls : List Nat) :
    (State.unpoison s i ls).inl = s.inl := rfl

@[simp] theorem State.unpoison_umc (s : State) (i : Nat) (ls : List Nat) :
    (State.unpoison s i ls).umc = s.umc := rfl

@[simp] theorem State.unpoison_sec (s : State) (i : Nat) (ls : List Nat) :
    (State.unpoison s i ls).sec = s.sec := rfl

@[simp] theorem State.unpoison_pwr (s : State) (i : Nat) (ls : List Nat) :
    (State.unpoison s i ls).pwr = s.pwr := rfl

@[simp] theorem State.unpoison_host (s : State) (i : Nat) (ls : List Nat) :
    (State.unpoison s i ls).host = s.host := rfl

@[simp] theorem State.unpoison_cp (s : State) (i : Nat) (ls : List Nat) :
    (State.unpoison s i ls).cp = s.cp := rfl

@[simp] theorem State.unpoison_queues (s : State) (i : Nat) (ls : List Nat) :
    (State.unpoison s i ls).queues = s.queues := rfl

@[simp] theorem State.unpoison_log (s : State) (i : Nat) (ls : List Nat) :
    (State.unpoison s i ls).log = s.log := rfl

@[simp] theorem State.unpoison_bulk (s : State) (i : Nat) (ls : List Nat) :
    (State.unpoison s i ls).bulk = s.bulk := rfl

@[simp] theorem State.unpoison_serv (s : State) (i : Nat) (ls : List Nat) :
    (State.unpoison s i ls).serv = s.serv := rfl

@[simp] theorem State.unpoison_out (s : State) (i : Nat) (ls : List Nat) :
    (State.unpoison s i ls).out = s.out := rfl

@[simp] theorem State.flagEvent_pending (s : State) (code inst : Nat) :
    (State.flagEvent s code inst).pending = s.pending := by unfold State.flagEvent; (repeat' split) <;> simp

@[simp] theorem State.flagEvent_free (s : State) (code inst : Nat) :
    (State.flagEvent s code inst).free = s.free := by unfold State.flagEvent; (repeat' split) <;> simp

@[simp] theorem State.flagEvent_us (s : State) (code inst : Nat) :
    (State.flagEvent s code inst).us = s.us := by unfold State.flagEvent; (repeat' split) <;> simp

@[simp] theorem State.flagEvent_part (s : State) (code inst : Nat) :
    (State.flagEvent s code inst).part = s.part := by unfold State.flagEvent; (repeat' split) <;> simp

@[simp] theorem State.flagEvent_latches (s : State) (code inst : Nat) :
    (State.flagEvent s code inst).latches = s.latches := by unfold State.flagEvent; (repeat' split) <;> simp

@[simp] theorem State.flagEvent_access (s : State) (code inst : Nat) :
    (State.flagEvent s code inst).access = s.access := by unfold State.flagEvent; (repeat' split) <;> simp

@[simp] theorem State.flagEvent_readValue (s : State) (code inst : Nat) :
    (State.flagEvent s code inst).readValue = s.readValue := by unfold State.flagEvent; (repeat' split) <;> simp

@[simp] theorem State.flagEvent_mem (s : State) (code inst : Nat) :
    (State.flagEvent s code inst).mem = s.mem := by unfold State.flagEvent; (repeat' split) <;> simp

@[simp] theorem State.flagEvent_undef (s : State) (code inst : Nat) :
    (State.flagEvent s code inst).undef = s.undef := by unfold State.flagEvent; (repeat' split) <;> simp

@[simp] theorem State.flagEvent_tarns (s : State) (code inst : Nat) :
    (State.flagEvent s code inst).tarns = s.tarns := by unfold State.flagEvent; (repeat' split) <;> simp

@[simp] theorem State.flagEvent_prog (s : State) (code inst : Nat) :
    (State.flagEvent s code inst).prog = s.prog := by unfold State.flagEvent; (repeat' split) <;> simp

@[simp] theorem State.flagEvent_bound (s : State) (code inst : Nat) :
    (State.flagEvent s code inst).bound = s.bound := by unfold State.flagEvent; (repeat' split) <;> simp

@[simp] theorem State.flagEvent_units (s : State) (code inst : Nat) :
    (State.flagEvent s code inst).units = s.units := by unfold State.flagEvent; (repeat' split) <;> simp

@[simp] theorem State.flagEvent_step (s : State) (code inst : Nat) :
    (State.flagEvent s code inst).step = s.step := by unfold State.flagEvent; (repeat' split) <;> simp

@[simp] theorem State.flagEvent_stash (s : State) (code inst : Nat) :
    (State.flagEvent s code inst).stash = s.stash := by unfold State.flagEvent; (repeat' split) <;> simp

@[simp] theorem State.flagEvent_dom (s : State) (code inst : Nat) :
    (State.flagEvent s code inst).dom = s.dom := by unfold State.flagEvent; (repeat' split) <;> simp

@[simp] theorem State.flagEvent_twin (s : State) (code inst : Nat) :
    (State.flagEvent s code inst).twin = s.twin := by unfold State.flagEvent; (repeat' split) <;> simp

@[simp] theorem State.flagEvent_fab (s : State) (code inst : Nat) :
    (State.flagEvent s code inst).fab = s.fab := by unfold State.flagEvent; (repeat' split) <;> simp

@[simp] theorem State.flagEvent_inl (s : State) (code inst : Nat) :
    (State.flagEvent s code inst).inl = s.inl := by unfold State.flagEvent; (repeat' split) <;> simp

@[simp] theorem State.flagEvent_umc (s : State) (code inst : Nat) :
    (State.flagEvent s code inst).umc = s.umc := by unfold State.flagEvent; (repeat' split) <;> simp

@[simp] theorem State.flagEvent_sec (s : State) (code inst : Nat) :
    (State.flagEvent s code inst).sec = s.sec := by unfold State.flagEvent; (repeat' split) <;> simp

@[simp] theorem State.flagEvent_pwr (s : State) (code inst : Nat) :
    (State.flagEvent s code inst).pwr = s.pwr := by unfold State.flagEvent; (repeat' split) <;> simp

@[simp] theorem State.flagEvent_host (s : State) (code inst : Nat) :
    (State.flagEvent s code inst).host = s.host := by unfold State.flagEvent; (repeat' split) <;> simp

@[simp] theorem State.flagEvent_cp (s : State) (code inst : Nat) :
    (State.flagEvent s code inst).cp = s.cp := by unfold State.flagEvent; (repeat' split) <;> simp

@[simp] theorem State.flagEvent_queues (s : State) (code inst : Nat) :
    (State.flagEvent s code inst).queues = s.queues := by unfold State.flagEvent; (repeat' split) <;> simp

@[simp] theorem State.flagEvent_log (s : State) (code inst : Nat) :
    (State.flagEvent s code inst).log = s.log := by unfold State.flagEvent; (repeat' split) <;> simp

@[simp] theorem State.flagEvent_bulk (s : State) (code inst : Nat) :
    (State.flagEvent s code inst).bulk = s.bulk := by unfold State.flagEvent; (repeat' split) <;> simp

@[simp] theorem State.flagEvent_serv (s : State) (code inst : Nat) :
    (State.flagEvent s code inst).serv = s.serv := by unfold State.flagEvent; (repeat' split) <;> simp

@[simp] theorem State.flagEvent_out (s : State) (code inst : Nat) :
    (State.flagEvent s code inst).out = s.out := by unfold State.flagEvent; (repeat' split) <;> simp

@[simp] theorem State.logWrite_pending (s : State) (r : EventRec) (lost : Bool) :
    (State.logWrite s r lost).pending = s.pending := by simp [State.logWrite]

@[simp] theorem State.logWrite_free (s : State) (r : EventRec) (lost : Bool) :
    (State.logWrite s r lost).free = s.free := by simp [State.logWrite]

@[simp] theorem State.logWrite_us (s : State) (r : EventRec) (lost : Bool) :
    (State.logWrite s r lost).us = s.us := by simp [State.logWrite]

@[simp] theorem State.logWrite_part (s : State) (r : EventRec) (lost : Bool) :
    (State.logWrite s r lost).part = s.part := by simp [State.logWrite]

@[simp] theorem State.logWrite_latches (s : State) (r : EventRec) (lost : Bool) :
    (State.logWrite s r lost).latches = s.latches := by simp [State.logWrite]

@[simp] theorem State.logWrite_access (s : State) (r : EventRec) (lost : Bool) :
    (State.logWrite s r lost).access = s.access := by simp [State.logWrite]

@[simp] theorem State.logWrite_readValue (s : State) (r : EventRec) (lost : Bool) :
    (State.logWrite s r lost).readValue = s.readValue := by simp [State.logWrite]

@[simp] theorem State.logWrite_prog (s : State) (r : EventRec) (lost : Bool) :
    (State.logWrite s r lost).prog = s.prog := by simp [State.logWrite]

@[simp] theorem State.logWrite_bound (s : State) (r : EventRec) (lost : Bool) :
    (State.logWrite s r lost).bound = s.bound := by simp [State.logWrite]

@[simp] theorem State.logWrite_units (s : State) (r : EventRec) (lost : Bool) :
    (State.logWrite s r lost).units = s.units := by simp [State.logWrite]

@[simp] theorem State.logWrite_step (s : State) (r : EventRec) (lost : Bool) :
    (State.logWrite s r lost).step = s.step := by simp [State.logWrite]

@[simp] theorem State.logWrite_stash (s : State) (r : EventRec) (lost : Bool) :
    (State.logWrite s r lost).stash = s.stash := by simp [State.logWrite]

@[simp] theorem State.logWrite_dom (s : State) (r : EventRec) (lost : Bool) :
    (State.logWrite s r lost).dom = s.dom := by simp [State.logWrite]

@[simp] theorem State.logWrite_twin (s : State) (r : EventRec) (lost : Bool) :
    (State.logWrite s r lost).twin = s.twin := by simp [State.logWrite]

@[simp] theorem State.logWrite_fab (s : State) (r : EventRec) (lost : Bool) :
    (State.logWrite s r lost).fab = s.fab := by simp [State.logWrite]

@[simp] theorem State.logWrite_inl (s : State) (r : EventRec) (lost : Bool) :
    (State.logWrite s r lost).inl = s.inl := by simp [State.logWrite]

@[simp] theorem State.logWrite_umc (s : State) (r : EventRec) (lost : Bool) :
    (State.logWrite s r lost).umc = s.umc := by simp [State.logWrite]

@[simp] theorem State.logWrite_sec (s : State) (r : EventRec) (lost : Bool) :
    (State.logWrite s r lost).sec = s.sec := by simp [State.logWrite]

@[simp] theorem State.logWrite_pwr (s : State) (r : EventRec) (lost : Bool) :
    (State.logWrite s r lost).pwr = s.pwr := by simp [State.logWrite]

@[simp] theorem State.logWrite_host (s : State) (r : EventRec) (lost : Bool) :
    (State.logWrite s r lost).host = s.host := by simp [State.logWrite]

@[simp] theorem State.logWrite_cp (s : State) (r : EventRec) (lost : Bool) :
    (State.logWrite s r lost).cp = s.cp := by simp [State.logWrite]

@[simp] theorem State.logWrite_queues (s : State) (r : EventRec) (lost : Bool) :
    (State.logWrite s r lost).queues = s.queues := by simp [State.logWrite]

@[simp] theorem State.logWrite_bulk (s : State) (r : EventRec) (lost : Bool) :
    (State.logWrite s r lost).bulk = s.bulk := by simp [State.logWrite]

@[simp] theorem State.logWrite_serv (s : State) (r : EventRec) (lost : Bool) :
    (State.logWrite s r lost).serv = s.serv := by simp [State.logWrite]

@[simp] theorem State.logWrite_out (s : State) (r : EventRec) (lost : Bool) :
    (State.logWrite s r lost).out = s.out := by simp [State.logWrite]

@[simp] theorem State.keepTrnError_pending (s : State) (i l syms cls req : Nat) (ue addr : Bool) :
    (State.keepTrnError s i l syms cls req ue addr).pending = s.pending := by simp only [State.keepTrnError]; split <;> simp

@[simp] theorem State.keepTrnError_free (s : State) (i l syms cls req : Nat) (ue addr : Bool) :
    (State.keepTrnError s i l syms cls req ue addr).free = s.free := by simp only [State.keepTrnError]; split <;> simp

@[simp] theorem State.keepTrnError_us (s : State) (i l syms cls req : Nat) (ue addr : Bool) :
    (State.keepTrnError s i l syms cls req ue addr).us = s.us := by simp only [State.keepTrnError]; split <;> simp

@[simp] theorem State.keepTrnError_part (s : State) (i l syms cls req : Nat) (ue addr : Bool) :
    (State.keepTrnError s i l syms cls req ue addr).part = s.part := by simp only [State.keepTrnError]; split <;> simp

@[simp] theorem State.keepTrnError_latches (s : State) (i l syms cls req : Nat) (ue addr : Bool) :
    (State.keepTrnError s i l syms cls req ue addr).latches = s.latches := by simp only [State.keepTrnError]; split <;> simp

@[simp] theorem State.keepTrnError_access (s : State) (i l syms cls req : Nat) (ue addr : Bool) :
    (State.keepTrnError s i l syms cls req ue addr).access = s.access := by simp only [State.keepTrnError]; split <;> simp

@[simp] theorem State.keepTrnError_readValue (s : State) (i l syms cls req : Nat) (ue addr : Bool) :
    (State.keepTrnError s i l syms cls req ue addr).readValue = s.readValue := by simp only [State.keepTrnError]; split <;> simp

@[simp] theorem State.keepTrnError_mem (s : State) (i l syms cls req : Nat) (ue addr : Bool) :
    (State.keepTrnError s i l syms cls req ue addr).mem = s.mem := by simp only [State.keepTrnError]; split <;> simp

@[simp] theorem State.keepTrnError_undef (s : State) (i l syms cls req : Nat) (ue addr : Bool) :
    (State.keepTrnError s i l syms cls req ue addr).undef = s.undef := by simp only [State.keepTrnError]; split <;> simp

@[simp] theorem State.keepTrnError_prog (s : State) (i l syms cls req : Nat) (ue addr : Bool) :
    (State.keepTrnError s i l syms cls req ue addr).prog = s.prog := by simp only [State.keepTrnError]; split <;> simp

@[simp] theorem State.keepTrnError_bound (s : State) (i l syms cls req : Nat) (ue addr : Bool) :
    (State.keepTrnError s i l syms cls req ue addr).bound = s.bound := by simp only [State.keepTrnError]; split <;> simp

@[simp] theorem State.keepTrnError_units (s : State) (i l syms cls req : Nat) (ue addr : Bool) :
    (State.keepTrnError s i l syms cls req ue addr).units = s.units := by simp only [State.keepTrnError]; split <;> simp

@[simp] theorem State.keepTrnError_step (s : State) (i l syms cls req : Nat) (ue addr : Bool) :
    (State.keepTrnError s i l syms cls req ue addr).step = s.step := by simp only [State.keepTrnError]; split <;> simp

@[simp] theorem State.keepTrnError_stash (s : State) (i l syms cls req : Nat) (ue addr : Bool) :
    (State.keepTrnError s i l syms cls req ue addr).stash = s.stash := by simp only [State.keepTrnError]; split <;> simp

@[simp] theorem State.keepTrnError_dom (s : State) (i l syms cls req : Nat) (ue addr : Bool) :
    (State.keepTrnError s i l syms cls req ue addr).dom = s.dom := by simp only [State.keepTrnError]; split <;> simp

@[simp] theorem State.keepTrnError_twin (s : State) (i l syms cls req : Nat) (ue addr : Bool) :
    (State.keepTrnError s i l syms cls req ue addr).twin = s.twin := by simp only [State.keepTrnError]; split <;> simp

@[simp] theorem State.keepTrnError_fab (s : State) (i l syms cls req : Nat) (ue addr : Bool) :
    (State.keepTrnError s i l syms cls req ue addr).fab = s.fab := by simp only [State.keepTrnError]; split <;> simp

@[simp] theorem State.keepTrnError_inl (s : State) (i l syms cls req : Nat) (ue addr : Bool) :
    (State.keepTrnError s i l syms cls req ue addr).inl = s.inl := by simp only [State.keepTrnError]; split <;> simp

@[simp] theorem State.keepTrnError_umc (s : State) (i l syms cls req : Nat) (ue addr : Bool) :
    (State.keepTrnError s i l syms cls req ue addr).umc = s.umc := by simp only [State.keepTrnError]; split <;> simp

@[simp] theorem State.keepTrnError_sec (s : State) (i l syms cls req : Nat) (ue addr : Bool) :
    (State.keepTrnError s i l syms cls req ue addr).sec = s.sec := by simp only [State.keepTrnError]; split <;> simp

@[simp] theorem State.keepTrnError_pwr (s : State) (i l syms cls req : Nat) (ue addr : Bool) :
    (State.keepTrnError s i l syms cls req ue addr).pwr = s.pwr := by simp only [State.keepTrnError]; split <;> simp

@[simp] theorem State.keepTrnError_host (s : State) (i l syms cls req : Nat) (ue addr : Bool) :
    (State.keepTrnError s i l syms cls req ue addr).host = s.host := by simp only [State.keepTrnError]; split <;> simp

@[simp] theorem State.keepTrnError_cp (s : State) (i l syms cls req : Nat) (ue addr : Bool) :
    (State.keepTrnError s i l syms cls req ue addr).cp = s.cp := by simp only [State.keepTrnError]; split <;> simp

@[simp] theorem State.keepTrnError_queues (s : State) (i l syms cls req : Nat) (ue addr : Bool) :
    (State.keepTrnError s i l syms cls req ue addr).queues = s.queues := by simp only [State.keepTrnError]; split <;> simp

@[simp] theorem State.keepTrnError_log (s : State) (i l syms cls req : Nat) (ue addr : Bool) :
    (State.keepTrnError s i l syms cls req ue addr).log = s.log := by simp only [State.keepTrnError]; split <;> simp

@[simp] theorem State.keepTrnError_bulk (s : State) (i l syms cls req : Nat) (ue addr : Bool) :
    (State.keepTrnError s i l syms cls req ue addr).bulk = s.bulk := by simp only [State.keepTrnError]; split <;> simp

@[simp] theorem State.keepTrnError_serv (s : State) (i l syms cls req : Nat) (ue addr : Bool) :
    (State.keepTrnError s i l syms cls req ue addr).serv = s.serv := by simp only [State.keepTrnError]; split <;> simp

@[simp] theorem State.keepTrnError_out (s : State) (i l syms cls req : Nat) (ue addr : Bool) :
    (State.keepTrnError s i l syms cls req ue addr).out = s.out := by simp only [State.keepTrnError]; split <;> simp

@[simp] theorem State.logPut_pending (s : State) (r : EventRec) :
    (State.logPut s r).pending = s.pending := by unfold State.logPut; dsimp only; (repeat' split) <;> first | simp | rfl

@[simp] theorem State.logPut_free (s : State) (r : EventRec) :
    (State.logPut s r).free = s.free := by unfold State.logPut; dsimp only; (repeat' split) <;> first | simp | rfl

@[simp] theorem State.logPut_us (s : State) (r : EventRec) :
    (State.logPut s r).us = s.us := by unfold State.logPut; dsimp only; (repeat' split) <;> first | simp | rfl

@[simp] theorem State.logPut_part (s : State) (r : EventRec) :
    (State.logPut s r).part = s.part := by unfold State.logPut; dsimp only; (repeat' split) <;> first | simp | rfl

@[simp] theorem State.logPut_latches (s : State) (r : EventRec) :
    (State.logPut s r).latches = s.latches := by unfold State.logPut; dsimp only; (repeat' split) <;> first | simp | rfl

@[simp] theorem State.logPut_access (s : State) (r : EventRec) :
    (State.logPut s r).access = s.access := by unfold State.logPut; dsimp only; (repeat' split) <;> first | simp | rfl

@[simp] theorem State.logPut_readValue (s : State) (r : EventRec) :
    (State.logPut s r).readValue = s.readValue := by unfold State.logPut; dsimp only; (repeat' split) <;> first | simp | rfl

@[simp] theorem State.logPut_prog (s : State) (r : EventRec) :
    (State.logPut s r).prog = s.prog := by unfold State.logPut; dsimp only; (repeat' split) <;> first | simp | rfl

@[simp] theorem State.logPut_bound (s : State) (r : EventRec) :
    (State.logPut s r).bound = s.bound := by unfold State.logPut; dsimp only; (repeat' split) <;> first | simp | rfl

@[simp] theorem State.logPut_units (s : State) (r : EventRec) :
    (State.logPut s r).units = s.units := by unfold State.logPut; dsimp only; (repeat' split) <;> first | simp | rfl

@[simp] theorem State.logPut_step (s : State) (r : EventRec) :
    (State.logPut s r).step = s.step := by unfold State.logPut; dsimp only; (repeat' split) <;> first | simp | rfl

@[simp] theorem State.logPut_stash (s : State) (r : EventRec) :
    (State.logPut s r).stash = s.stash := by unfold State.logPut; dsimp only; (repeat' split) <;> first | simp | rfl

@[simp] theorem State.logPut_dom (s : State) (r : EventRec) :
    (State.logPut s r).dom = s.dom := by unfold State.logPut; dsimp only; (repeat' split) <;> first | simp | rfl

@[simp] theorem State.logPut_twin (s : State) (r : EventRec) :
    (State.logPut s r).twin = s.twin := by unfold State.logPut; dsimp only; (repeat' split) <;> first | simp | rfl

@[simp] theorem State.logPut_fab (s : State) (r : EventRec) :
    (State.logPut s r).fab = s.fab := by unfold State.logPut; dsimp only; (repeat' split) <;> first | simp | rfl

@[simp] theorem State.logPut_inl (s : State) (r : EventRec) :
    (State.logPut s r).inl = s.inl := by unfold State.logPut; dsimp only; (repeat' split) <;> first | simp | rfl

@[simp] theorem State.logPut_umc (s : State) (r : EventRec) :
    (State.logPut s r).umc = s.umc := by unfold State.logPut; dsimp only; (repeat' split) <;> first | simp | rfl

@[simp] theorem State.logPut_sec (s : State) (r : EventRec) :
    (State.logPut s r).sec = s.sec := by unfold State.logPut; dsimp only; (repeat' split) <;> first | simp | rfl

@[simp] theorem State.logPut_pwr (s : State) (r : EventRec) :
    (State.logPut s r).pwr = s.pwr := by unfold State.logPut; dsimp only; (repeat' split) <;> first | simp | rfl

@[simp] theorem State.logPut_host (s : State) (r : EventRec) :
    (State.logPut s r).host = s.host := by unfold State.logPut; dsimp only; (repeat' split) <;> first | simp | rfl

@[simp] theorem State.logPut_cp (s : State) (r : EventRec) :
    (State.logPut s r).cp = s.cp := by unfold State.logPut; dsimp only; (repeat' split) <;> first | simp | rfl

@[simp] theorem State.logPut_queues (s : State) (r : EventRec) :
    (State.logPut s r).queues = s.queues := by unfold State.logPut; dsimp only; (repeat' split) <;> first | simp | rfl

@[simp] theorem State.logPut_bulk (s : State) (r : EventRec) :
    (State.logPut s r).bulk = s.bulk := by unfold State.logPut; dsimp only; (repeat' split) <;> first | simp | rfl

@[simp] theorem State.logPut_serv (s : State) (r : EventRec) :
    (State.logPut s r).serv = s.serv := by unfold State.logPut; dsimp only; (repeat' split) <;> first | simp | rfl

@[simp] theorem State.logPut_out (s : State) (r : EventRec) :
    (State.logPut s r).out = s.out := by unfold State.logPut; dsimp only; (repeat' split) <;> first | simp | rfl

@[simp] theorem State.logRecord_pending (s : State) (r : EventRec) :
    (State.logRecord s r).pending = s.pending := by simp [State.logRecord]

@[simp] theorem State.logRecord_free (s : State) (r : EventRec) :
    (State.logRecord s r).free = s.free := by simp [State.logRecord]

@[simp] theorem State.logRecord_us (s : State) (r : EventRec) :
    (State.logRecord s r).us = s.us := by simp [State.logRecord]

@[simp] theorem State.logRecord_part (s : State) (r : EventRec) :
    (State.logRecord s r).part = s.part := by simp [State.logRecord]

@[simp] theorem State.logRecord_latches (s : State) (r : EventRec) :
    (State.logRecord s r).latches = s.latches := by simp [State.logRecord]

@[simp] theorem State.logRecord_access (s : State) (r : EventRec) :
    (State.logRecord s r).access = s.access := by simp [State.logRecord]

@[simp] theorem State.logRecord_readValue (s : State) (r : EventRec) :
    (State.logRecord s r).readValue = s.readValue := by simp [State.logRecord]

@[simp] theorem State.logRecord_prog (s : State) (r : EventRec) :
    (State.logRecord s r).prog = s.prog := by simp [State.logRecord]

@[simp] theorem State.logRecord_bound (s : State) (r : EventRec) :
    (State.logRecord s r).bound = s.bound := by simp [State.logRecord]

@[simp] theorem State.logRecord_units (s : State) (r : EventRec) :
    (State.logRecord s r).units = s.units := by simp [State.logRecord]

@[simp] theorem State.logRecord_step (s : State) (r : EventRec) :
    (State.logRecord s r).step = s.step := by simp [State.logRecord]

@[simp] theorem State.logRecord_stash (s : State) (r : EventRec) :
    (State.logRecord s r).stash = s.stash := by simp [State.logRecord]

@[simp] theorem State.logRecord_dom (s : State) (r : EventRec) :
    (State.logRecord s r).dom = s.dom := by simp [State.logRecord]

@[simp] theorem State.logRecord_twin (s : State) (r : EventRec) :
    (State.logRecord s r).twin = s.twin := by simp [State.logRecord]

@[simp] theorem State.logRecord_fab (s : State) (r : EventRec) :
    (State.logRecord s r).fab = s.fab := by simp [State.logRecord]

@[simp] theorem State.logRecord_inl (s : State) (r : EventRec) :
    (State.logRecord s r).inl = s.inl := by simp [State.logRecord]

@[simp] theorem State.logRecord_umc (s : State) (r : EventRec) :
    (State.logRecord s r).umc = s.umc := by simp [State.logRecord]

@[simp] theorem State.logRecord_sec (s : State) (r : EventRec) :
    (State.logRecord s r).sec = s.sec := by simp [State.logRecord]

@[simp] theorem State.logRecord_pwr (s : State) (r : EventRec) :
    (State.logRecord s r).pwr = s.pwr := by simp [State.logRecord]

@[simp] theorem State.logRecord_host (s : State) (r : EventRec) :
    (State.logRecord s r).host = s.host := by simp [State.logRecord]

@[simp] theorem State.logRecord_cp (s : State) (r : EventRec) :
    (State.logRecord s r).cp = s.cp := by simp [State.logRecord]

@[simp] theorem State.logRecord_queues (s : State) (r : EventRec) :
    (State.logRecord s r).queues = s.queues := by simp [State.logRecord]

@[simp] theorem State.logRecord_bulk (s : State) (r : EventRec) :
    (State.logRecord s r).bulk = s.bulk := by simp [State.logRecord]

@[simp] theorem State.logRecord_serv (s : State) (r : EventRec) :
    (State.logRecord s r).serv = s.serv := by simp [State.logRecord]

@[simp] theorem State.logRecord_out (s : State) (r : EventRec) :
    (State.logRecord s r).out = s.out := by simp [State.logRecord]

@[simp] theorem State.logOrHold_pending (s : State) (ra : Bool) (r : EventRec) :
    (State.logOrHold s ra r).pending = s.pending := by unfold State.logOrHold; (repeat' split) <;> simp

@[simp] theorem State.logOrHold_free (s : State) (ra : Bool) (r : EventRec) :
    (State.logOrHold s ra r).free = s.free := by unfold State.logOrHold; (repeat' split) <;> simp

@[simp] theorem State.logOrHold_us (s : State) (ra : Bool) (r : EventRec) :
    (State.logOrHold s ra r).us = s.us := by unfold State.logOrHold; (repeat' split) <;> simp

@[simp] theorem State.logOrHold_part (s : State) (ra : Bool) (r : EventRec) :
    (State.logOrHold s ra r).part = s.part := by unfold State.logOrHold; (repeat' split) <;> simp

@[simp] theorem State.logOrHold_latches (s : State) (ra : Bool) (r : EventRec) :
    (State.logOrHold s ra r).latches = s.latches := by unfold State.logOrHold; (repeat' split) <;> simp

@[simp] theorem State.logOrHold_access (s : State) (ra : Bool) (r : EventRec) :
    (State.logOrHold s ra r).access = s.access := by unfold State.logOrHold; (repeat' split) <;> simp

@[simp] theorem State.logOrHold_readValue (s : State) (ra : Bool) (r : EventRec) :
    (State.logOrHold s ra r).readValue = s.readValue := by unfold State.logOrHold; (repeat' split) <;> simp

@[simp] theorem State.logOrHold_prog (s : State) (ra : Bool) (r : EventRec) :
    (State.logOrHold s ra r).prog = s.prog := by unfold State.logOrHold; (repeat' split) <;> simp

@[simp] theorem State.logOrHold_bound (s : State) (ra : Bool) (r : EventRec) :
    (State.logOrHold s ra r).bound = s.bound := by unfold State.logOrHold; (repeat' split) <;> simp

@[simp] theorem State.logOrHold_units (s : State) (ra : Bool) (r : EventRec) :
    (State.logOrHold s ra r).units = s.units := by unfold State.logOrHold; (repeat' split) <;> simp

@[simp] theorem State.logOrHold_stash (s : State) (ra : Bool) (r : EventRec) :
    (State.logOrHold s ra r).stash = s.stash := by unfold State.logOrHold; (repeat' split) <;> simp

@[simp] theorem State.logOrHold_dom (s : State) (ra : Bool) (r : EventRec) :
    (State.logOrHold s ra r).dom = s.dom := by unfold State.logOrHold; (repeat' split) <;> simp

@[simp] theorem State.logOrHold_twin (s : State) (ra : Bool) (r : EventRec) :
    (State.logOrHold s ra r).twin = s.twin := by unfold State.logOrHold; (repeat' split) <;> simp

@[simp] theorem State.logOrHold_fab (s : State) (ra : Bool) (r : EventRec) :
    (State.logOrHold s ra r).fab = s.fab := by unfold State.logOrHold; (repeat' split) <;> simp

@[simp] theorem State.logOrHold_inl (s : State) (ra : Bool) (r : EventRec) :
    (State.logOrHold s ra r).inl = s.inl := by unfold State.logOrHold; (repeat' split) <;> simp

@[simp] theorem State.logOrHold_umc (s : State) (ra : Bool) (r : EventRec) :
    (State.logOrHold s ra r).umc = s.umc := by unfold State.logOrHold; (repeat' split) <;> simp

@[simp] theorem State.logOrHold_sec (s : State) (ra : Bool) (r : EventRec) :
    (State.logOrHold s ra r).sec = s.sec := by unfold State.logOrHold; (repeat' split) <;> simp

@[simp] theorem State.logOrHold_pwr (s : State) (ra : Bool) (r : EventRec) :
    (State.logOrHold s ra r).pwr = s.pwr := by unfold State.logOrHold; (repeat' split) <;> simp

@[simp] theorem State.logOrHold_host (s : State) (ra : Bool) (r : EventRec) :
    (State.logOrHold s ra r).host = s.host := by unfold State.logOrHold; (repeat' split) <;> simp

@[simp] theorem State.logOrHold_cp (s : State) (ra : Bool) (r : EventRec) :
    (State.logOrHold s ra r).cp = s.cp := by unfold State.logOrHold; (repeat' split) <;> simp

@[simp] theorem State.logOrHold_queues (s : State) (ra : Bool) (r : EventRec) :
    (State.logOrHold s ra r).queues = s.queues := by unfold State.logOrHold; (repeat' split) <;> simp

@[simp] theorem State.logOrHold_bulk (s : State) (ra : Bool) (r : EventRec) :
    (State.logOrHold s ra r).bulk = s.bulk := by unfold State.logOrHold; (repeat' split) <;> simp

@[simp] theorem State.logOrHold_serv (s : State) (ra : Bool) (r : EventRec) :
    (State.logOrHold s ra r).serv = s.serv := by unfold State.logOrHold; (repeat' split) <;> simp

@[simp] theorem State.logOrHold_out (s : State) (ra : Bool) (r : EventRec) :
    (State.logOrHold s ra r).out = s.out := by unfold State.logOrHold; (repeat' split) <;> simp

@[simp] theorem State.raiseCtx_pending (s : State) (code inst unit : Nat) (c : EvCtx) (detail : List Byte) :
    (State.raiseCtx s code inst unit c detail).pending = s.pending := by simp [State.raiseCtx]

@[simp] theorem State.raiseCtx_free (s : State) (code inst unit : Nat) (c : EvCtx) (detail : List Byte) :
    (State.raiseCtx s code inst unit c detail).free = s.free := by simp [State.raiseCtx]

@[simp] theorem State.raiseCtx_us (s : State) (code inst unit : Nat) (c : EvCtx) (detail : List Byte) :
    (State.raiseCtx s code inst unit c detail).us = s.us := by simp [State.raiseCtx]

@[simp] theorem State.raiseCtx_part (s : State) (code inst unit : Nat) (c : EvCtx) (detail : List Byte) :
    (State.raiseCtx s code inst unit c detail).part = s.part := by simp [State.raiseCtx]

@[simp] theorem State.raiseCtx_latches (s : State) (code inst unit : Nat) (c : EvCtx) (detail : List Byte) :
    (State.raiseCtx s code inst unit c detail).latches = s.latches := by simp [State.raiseCtx]

@[simp] theorem State.raiseCtx_access (s : State) (code inst unit : Nat) (c : EvCtx) (detail : List Byte) :
    (State.raiseCtx s code inst unit c detail).access = s.access := by simp [State.raiseCtx]

@[simp] theorem State.raiseCtx_readValue (s : State) (code inst unit : Nat) (c : EvCtx) (detail : List Byte) :
    (State.raiseCtx s code inst unit c detail).readValue = s.readValue := by simp [State.raiseCtx]

@[simp] theorem State.raiseCtx_prog (s : State) (code inst unit : Nat) (c : EvCtx) (detail : List Byte) :
    (State.raiseCtx s code inst unit c detail).prog = s.prog := by simp [State.raiseCtx]

@[simp] theorem State.raiseCtx_bound (s : State) (code inst unit : Nat) (c : EvCtx) (detail : List Byte) :
    (State.raiseCtx s code inst unit c detail).bound = s.bound := by simp [State.raiseCtx]

@[simp] theorem State.raiseCtx_units (s : State) (code inst unit : Nat) (c : EvCtx) (detail : List Byte) :
    (State.raiseCtx s code inst unit c detail).units = s.units := by simp [State.raiseCtx]

@[simp] theorem State.raiseCtx_stash (s : State) (code inst unit : Nat) (c : EvCtx) (detail : List Byte) :
    (State.raiseCtx s code inst unit c detail).stash = s.stash := by simp [State.raiseCtx]

@[simp] theorem State.raiseCtx_dom (s : State) (code inst unit : Nat) (c : EvCtx) (detail : List Byte) :
    (State.raiseCtx s code inst unit c detail).dom = s.dom := by simp [State.raiseCtx]

@[simp] theorem State.raiseCtx_twin (s : State) (code inst unit : Nat) (c : EvCtx) (detail : List Byte) :
    (State.raiseCtx s code inst unit c detail).twin = s.twin := by simp [State.raiseCtx]

@[simp] theorem State.raiseCtx_fab (s : State) (code inst unit : Nat) (c : EvCtx) (detail : List Byte) :
    (State.raiseCtx s code inst unit c detail).fab = s.fab := by simp [State.raiseCtx]

@[simp] theorem State.raiseCtx_inl (s : State) (code inst unit : Nat) (c : EvCtx) (detail : List Byte) :
    (State.raiseCtx s code inst unit c detail).inl = s.inl := by simp [State.raiseCtx]

@[simp] theorem State.raiseCtx_umc (s : State) (code inst unit : Nat) (c : EvCtx) (detail : List Byte) :
    (State.raiseCtx s code inst unit c detail).umc = s.umc := by simp [State.raiseCtx]

@[simp] theorem State.raiseCtx_sec (s : State) (code inst unit : Nat) (c : EvCtx) (detail : List Byte) :
    (State.raiseCtx s code inst unit c detail).sec = s.sec := by simp [State.raiseCtx]

@[simp] theorem State.raiseCtx_pwr (s : State) (code inst unit : Nat) (c : EvCtx) (detail : List Byte) :
    (State.raiseCtx s code inst unit c detail).pwr = s.pwr := by simp [State.raiseCtx]

@[simp] theorem State.raiseCtx_host (s : State) (code inst unit : Nat) (c : EvCtx) (detail : List Byte) :
    (State.raiseCtx s code inst unit c detail).host = s.host := by simp [State.raiseCtx]

@[simp] theorem State.raiseCtx_cp (s : State) (code inst unit : Nat) (c : EvCtx) (detail : List Byte) :
    (State.raiseCtx s code inst unit c detail).cp = s.cp := by simp [State.raiseCtx]

@[simp] theorem State.raiseCtx_queues (s : State) (code inst unit : Nat) (c : EvCtx) (detail : List Byte) :
    (State.raiseCtx s code inst unit c detail).queues = s.queues := by simp [State.raiseCtx]

@[simp] theorem State.raiseCtx_bulk (s : State) (code inst unit : Nat) (c : EvCtx) (detail : List Byte) :
    (State.raiseCtx s code inst unit c detail).bulk = s.bulk := by simp [State.raiseCtx]

@[simp] theorem State.raiseCtx_serv (s : State) (code inst unit : Nat) (c : EvCtx) (detail : List Byte) :
    (State.raiseCtx s code inst unit c detail).serv = s.serv := by simp [State.raiseCtx]

@[simp] theorem State.raiseCtx_out (s : State) (code inst unit : Nat) (c : EvCtx) (detail : List Byte) :
    (State.raiseCtx s code inst unit c detail).out = s.out := by simp [State.raiseCtx]

@[simp] theorem State.raiseEv_pending (s : State) (code inst : Nat) (detail : List Byte) :
    (State.raiseEv s code inst detail).pending = s.pending := by simp [State.raiseEv]

@[simp] theorem State.raiseEv_free (s : State) (code inst : Nat) (detail : List Byte) :
    (State.raiseEv s code inst detail).free = s.free := by simp [State.raiseEv]

@[simp] theorem State.raiseEv_us (s : State) (code inst : Nat) (detail : List Byte) :
    (State.raiseEv s code inst detail).us = s.us := by simp [State.raiseEv]

@[simp] theorem State.raiseEv_part (s : State) (code inst : Nat) (detail : List Byte) :
    (State.raiseEv s code inst detail).part = s.part := by simp [State.raiseEv]

@[simp] theorem State.raiseEv_latches (s : State) (code inst : Nat) (detail : List Byte) :
    (State.raiseEv s code inst detail).latches = s.latches := by simp [State.raiseEv]

@[simp] theorem State.raiseEv_access (s : State) (code inst : Nat) (detail : List Byte) :
    (State.raiseEv s code inst detail).access = s.access := by simp [State.raiseEv]

@[simp] theorem State.raiseEv_readValue (s : State) (code inst : Nat) (detail : List Byte) :
    (State.raiseEv s code inst detail).readValue = s.readValue := by simp [State.raiseEv]

@[simp] theorem State.raiseEv_prog (s : State) (code inst : Nat) (detail : List Byte) :
    (State.raiseEv s code inst detail).prog = s.prog := by simp [State.raiseEv]

@[simp] theorem State.raiseEv_bound (s : State) (code inst : Nat) (detail : List Byte) :
    (State.raiseEv s code inst detail).bound = s.bound := by simp [State.raiseEv]

@[simp] theorem State.raiseEv_units (s : State) (code inst : Nat) (detail : List Byte) :
    (State.raiseEv s code inst detail).units = s.units := by simp [State.raiseEv]

@[simp] theorem State.raiseEv_stash (s : State) (code inst : Nat) (detail : List Byte) :
    (State.raiseEv s code inst detail).stash = s.stash := by simp [State.raiseEv]

@[simp] theorem State.raiseEv_dom (s : State) (code inst : Nat) (detail : List Byte) :
    (State.raiseEv s code inst detail).dom = s.dom := by simp [State.raiseEv]

@[simp] theorem State.raiseEv_twin (s : State) (code inst : Nat) (detail : List Byte) :
    (State.raiseEv s code inst detail).twin = s.twin := by simp [State.raiseEv]

@[simp] theorem State.raiseEv_fab (s : State) (code inst : Nat) (detail : List Byte) :
    (State.raiseEv s code inst detail).fab = s.fab := by simp [State.raiseEv]

@[simp] theorem State.raiseEv_inl (s : State) (code inst : Nat) (detail : List Byte) :
    (State.raiseEv s code inst detail).inl = s.inl := by simp [State.raiseEv]

@[simp] theorem State.raiseEv_umc (s : State) (code inst : Nat) (detail : List Byte) :
    (State.raiseEv s code inst detail).umc = s.umc := by simp [State.raiseEv]

@[simp] theorem State.raiseEv_sec (s : State) (code inst : Nat) (detail : List Byte) :
    (State.raiseEv s code inst detail).sec = s.sec := by simp [State.raiseEv]

@[simp] theorem State.raiseEv_pwr (s : State) (code inst : Nat) (detail : List Byte) :
    (State.raiseEv s code inst detail).pwr = s.pwr := by simp [State.raiseEv]

@[simp] theorem State.raiseEv_host (s : State) (code inst : Nat) (detail : List Byte) :
    (State.raiseEv s code inst detail).host = s.host := by simp [State.raiseEv]

@[simp] theorem State.raiseEv_cp (s : State) (code inst : Nat) (detail : List Byte) :
    (State.raiseEv s code inst detail).cp = s.cp := by simp [State.raiseEv]

@[simp] theorem State.raiseEv_queues (s : State) (code inst : Nat) (detail : List Byte) :
    (State.raiseEv s code inst detail).queues = s.queues := by simp [State.raiseEv]

@[simp] theorem State.raiseEv_bulk (s : State) (code inst : Nat) (detail : List Byte) :
    (State.raiseEv s code inst detail).bulk = s.bulk := by simp [State.raiseEv]

@[simp] theorem State.raiseEv_serv (s : State) (code inst : Nat) (detail : List Byte) :
    (State.raiseEv s code inst detail).serv = s.serv := by simp [State.raiseEv]

@[simp] theorem State.raiseEv_out (s : State) (code inst : Nat) (detail : List Byte) :
    (State.raiseEv s code inst detail).out = s.out := by simp [State.raiseEv]

@[simp] theorem State.logOrHold_step (s : State) (r : EventRec) : (s.logOrHold false r).step = s.step := by
  simp [State.logOrHold]

@[simp] theorem State.raiseEv_step (s : State) (code inst : Nat) (detail : List Byte) :
    (s.raiseEv code inst detail).step = s.step := by
  unfold State.raiseEv State.raiseCtx
  (repeat' split) <;> simp

@[simp] theorem State.raiseLimited_pending (s : State) (code inst key : Nat) (detail : Nat → List Byte) :
    (State.raiseLimited s code inst key detail).pending = s.pending := by simp [State.raiseLimited]

@[simp] theorem State.raiseLimited_free (s : State) (code inst key : Nat) (detail : Nat → List Byte) :
    (State.raiseLimited s code inst key detail).free = s.free := by simp [State.raiseLimited]

@[simp] theorem State.raiseLimited_us (s : State) (code inst key : Nat) (detail : Nat → List Byte) :
    (State.raiseLimited s code inst key detail).us = s.us := by simp [State.raiseLimited]

@[simp] theorem State.raiseLimited_part (s : State) (code inst key : Nat) (detail : Nat → List Byte) :
    (State.raiseLimited s code inst key detail).part = s.part := by simp [State.raiseLimited]

@[simp] theorem State.raiseLimited_latches (s : State) (code inst key : Nat) (detail : Nat → List Byte) :
    (State.raiseLimited s code inst key detail).latches = s.latches := by simp [State.raiseLimited]

@[simp] theorem State.raiseLimited_access (s : State) (code inst key : Nat) (detail : Nat → List Byte) :
    (State.raiseLimited s code inst key detail).access = s.access := by simp [State.raiseLimited]

@[simp] theorem State.raiseLimited_readValue (s : State) (code inst key : Nat) (detail : Nat → List Byte) :
    (State.raiseLimited s code inst key detail).readValue = s.readValue := by simp [State.raiseLimited]

@[simp] theorem State.raiseLimited_prog (s : State) (code inst key : Nat) (detail : Nat → List Byte) :
    (State.raiseLimited s code inst key detail).prog = s.prog := by simp [State.raiseLimited]

@[simp] theorem State.raiseLimited_bound (s : State) (code inst key : Nat) (detail : Nat → List Byte) :
    (State.raiseLimited s code inst key detail).bound = s.bound := by simp [State.raiseLimited]

@[simp] theorem State.raiseLimited_units (s : State) (code inst key : Nat) (detail : Nat → List Byte) :
    (State.raiseLimited s code inst key detail).units = s.units := by simp [State.raiseLimited]

@[simp] theorem State.raiseLimited_step (s : State) (code inst key : Nat) (detail : Nat → List Byte) :
    (State.raiseLimited s code inst key detail).step = s.step := by simp [State.raiseLimited]

@[simp] theorem State.raiseLimited_stash (s : State) (code inst key : Nat) (detail : Nat → List Byte) :
    (State.raiseLimited s code inst key detail).stash = s.stash := by simp [State.raiseLimited]

@[simp] theorem State.raiseLimited_dom (s : State) (code inst key : Nat) (detail : Nat → List Byte) :
    (State.raiseLimited s code inst key detail).dom = s.dom := by simp [State.raiseLimited]

@[simp] theorem State.raiseLimited_twin (s : State) (code inst key : Nat) (detail : Nat → List Byte) :
    (State.raiseLimited s code inst key detail).twin = s.twin := by simp [State.raiseLimited]

@[simp] theorem State.raiseLimited_fab (s : State) (code inst key : Nat) (detail : Nat → List Byte) :
    (State.raiseLimited s code inst key detail).fab = s.fab := by simp [State.raiseLimited]

@[simp] theorem State.raiseLimited_inl (s : State) (code inst key : Nat) (detail : Nat → List Byte) :
    (State.raiseLimited s code inst key detail).inl = s.inl := by simp [State.raiseLimited]

@[simp] theorem State.raiseLimited_umc (s : State) (code inst key : Nat) (detail : Nat → List Byte) :
    (State.raiseLimited s code inst key detail).umc = s.umc := by simp [State.raiseLimited]

@[simp] theorem State.raiseLimited_sec (s : State) (code inst key : Nat) (detail : Nat → List Byte) :
    (State.raiseLimited s code inst key detail).sec = s.sec := by simp [State.raiseLimited]

@[simp] theorem State.raiseLimited_pwr (s : State) (code inst key : Nat) (detail : Nat → List Byte) :
    (State.raiseLimited s code inst key detail).pwr = s.pwr := by simp [State.raiseLimited]

@[simp] theorem State.raiseLimited_host (s : State) (code inst key : Nat) (detail : Nat → List Byte) :
    (State.raiseLimited s code inst key detail).host = s.host := by simp [State.raiseLimited]

@[simp] theorem State.raiseLimited_cp (s : State) (code inst key : Nat) (detail : Nat → List Byte) :
    (State.raiseLimited s code inst key detail).cp = s.cp := by simp [State.raiseLimited]

@[simp] theorem State.raiseLimited_queues (s : State) (code inst key : Nat) (detail : Nat → List Byte) :
    (State.raiseLimited s code inst key detail).queues = s.queues := by simp [State.raiseLimited]

@[simp] theorem State.raiseLimited_bulk (s : State) (code inst key : Nat) (detail : Nat → List Byte) :
    (State.raiseLimited s code inst key detail).bulk = s.bulk := by simp [State.raiseLimited]

@[simp] theorem State.raiseLimited_serv (s : State) (code inst key : Nat) (detail : Nat → List Byte) :
    (State.raiseLimited s code inst key detail).serv = s.serv := by simp [State.raiseLimited]

@[simp] theorem State.raiseLimited_out (s : State) (code inst key : Nat) (detail : Nat → List Byte) :
    (State.raiseLimited s code inst key detail).out = s.out := by simp [State.raiseLimited]

@[simp] theorem State.addCause_pending (s : State) (c : Cause) :
    (State.addCause s c).pending = s.pending := rfl

@[simp] theorem State.addCause_free (s : State) (c : Cause) :
    (State.addCause s c).free = s.free := rfl

@[simp] theorem State.addCause_us (s : State) (c : Cause) :
    (State.addCause s c).us = s.us := rfl

@[simp] theorem State.addCause_part (s : State) (c : Cause) :
    (State.addCause s c).part = s.part := rfl

@[simp] theorem State.addCause_regs (s : State) (c : Cause) :
    (State.addCause s c).regs = s.regs := rfl

@[simp] theorem State.addCause_latches (s : State) (c : Cause) :
    (State.addCause s c).latches = s.latches := rfl

@[simp] theorem State.addCause_access (s : State) (c : Cause) :
    (State.addCause s c).access = s.access := rfl

@[simp] theorem State.addCause_readValue (s : State) (c : Cause) :
    (State.addCause s c).readValue = s.readValue := rfl

@[simp] theorem State.addCause_mem (s : State) (c : Cause) :
    (State.addCause s c).mem = s.mem := rfl

@[simp] theorem State.addCause_undef (s : State) (c : Cause) :
    (State.addCause s c).undef = s.undef := rfl

@[simp] theorem State.addCause_tarns (s : State) (c : Cause) :
    (State.addCause s c).tarns = s.tarns := rfl

@[simp] theorem State.addCause_prog (s : State) (c : Cause) :
    (State.addCause s c).prog = s.prog := rfl

@[simp] theorem State.addCause_bound (s : State) (c : Cause) :
    (State.addCause s c).bound = s.bound := rfl

@[simp] theorem State.addCause_units (s : State) (c : Cause) :
    (State.addCause s c).units = s.units := rfl

@[simp] theorem State.addCause_stash (s : State) (c : Cause) :
    (State.addCause s c).stash = s.stash := rfl

@[simp] theorem State.addCause_dom (s : State) (c : Cause) :
    (State.addCause s c).dom = s.dom := rfl

@[simp] theorem State.addCause_twin (s : State) (c : Cause) :
    (State.addCause s c).twin = s.twin := rfl

@[simp] theorem State.addCause_fab (s : State) (c : Cause) :
    (State.addCause s c).fab = s.fab := rfl

@[simp] theorem State.addCause_inl (s : State) (c : Cause) :
    (State.addCause s c).inl = s.inl := rfl

@[simp] theorem State.addCause_umc (s : State) (c : Cause) :
    (State.addCause s c).umc = s.umc := rfl

@[simp] theorem State.addCause_sec (s : State) (c : Cause) :
    (State.addCause s c).sec = s.sec := rfl

@[simp] theorem State.addCause_pwr (s : State) (c : Cause) :
    (State.addCause s c).pwr = s.pwr := rfl

@[simp] theorem State.addCause_host (s : State) (c : Cause) :
    (State.addCause s c).host = s.host := rfl

@[simp] theorem State.addCause_cp (s : State) (c : Cause) :
    (State.addCause s c).cp = s.cp := rfl

@[simp] theorem State.addCause_queues (s : State) (c : Cause) :
    (State.addCause s c).queues = s.queues := rfl

@[simp] theorem State.addCause_log (s : State) (c : Cause) :
    (State.addCause s c).log = s.log := rfl

@[simp] theorem State.addCause_bulk (s : State) (c : Cause) :
    (State.addCause s c).bulk = s.bulk := rfl

@[simp] theorem State.addCause_serv (s : State) (c : Cause) :
    (State.addCause s c).serv = s.serv := rfl

@[simp] theorem State.addCause_out (s : State) (c : Cause) :
    (State.addCause s c).out = s.out := rfl

@[simp] theorem State.reqAbort_pending (s : State) (cause : Nat) :
    (State.reqAbort s cause).pending = s.pending := by unfold State.reqAbort; (repeat' split) <;> simp

@[simp] theorem State.reqAbort_free (s : State) (cause : Nat) :
    (State.reqAbort s cause).free = s.free := by unfold State.reqAbort; (repeat' split) <;> simp

@[simp] theorem State.reqAbort_us (s : State) (cause : Nat) :
    (State.reqAbort s cause).us = s.us := by unfold State.reqAbort; (repeat' split) <;> simp

@[simp] theorem State.reqAbort_part (s : State) (cause : Nat) :
    (State.reqAbort s cause).part = s.part := by unfold State.reqAbort; (repeat' split) <;> simp

@[simp] theorem State.reqAbort_regs (s : State) (cause : Nat) :
    (State.reqAbort s cause).regs = s.regs := by unfold State.reqAbort; (repeat' split) <;> simp

@[simp] theorem State.reqAbort_latches (s : State) (cause : Nat) :
    (State.reqAbort s cause).latches = s.latches := by unfold State.reqAbort; (repeat' split) <;> simp

@[simp] theorem State.reqAbort_access (s : State) (cause : Nat) :
    (State.reqAbort s cause).access = s.access := by unfold State.reqAbort; (repeat' split) <;> simp

@[simp] theorem State.reqAbort_readValue (s : State) (cause : Nat) :
    (State.reqAbort s cause).readValue = s.readValue := by unfold State.reqAbort; (repeat' split) <;> simp

@[simp] theorem State.reqAbort_mem (s : State) (cause : Nat) :
    (State.reqAbort s cause).mem = s.mem := by unfold State.reqAbort; (repeat' split) <;> simp

@[simp] theorem State.reqAbort_undef (s : State) (cause : Nat) :
    (State.reqAbort s cause).undef = s.undef := by unfold State.reqAbort; (repeat' split) <;> simp

@[simp] theorem State.reqAbort_tarns (s : State) (cause : Nat) :
    (State.reqAbort s cause).tarns = s.tarns := by unfold State.reqAbort; (repeat' split) <;> simp

@[simp] theorem State.reqAbort_prog (s : State) (cause : Nat) :
    (State.reqAbort s cause).prog = s.prog := by unfold State.reqAbort; (repeat' split) <;> simp

@[simp] theorem State.reqAbort_bound (s : State) (cause : Nat) :
    (State.reqAbort s cause).bound = s.bound := by unfold State.reqAbort; (repeat' split) <;> simp

@[simp] theorem State.reqAbort_units (s : State) (cause : Nat) :
    (State.reqAbort s cause).units = s.units := by unfold State.reqAbort; (repeat' split) <;> simp

@[simp] theorem State.reqAbort_stash (s : State) (cause : Nat) :
    (State.reqAbort s cause).stash = s.stash := by unfold State.reqAbort; (repeat' split) <;> simp

@[simp] theorem State.reqAbort_dom (s : State) (cause : Nat) :
    (State.reqAbort s cause).dom = s.dom := by unfold State.reqAbort; (repeat' split) <;> simp

@[simp] theorem State.reqAbort_twin (s : State) (cause : Nat) :
    (State.reqAbort s cause).twin = s.twin := by unfold State.reqAbort; (repeat' split) <;> simp

@[simp] theorem State.reqAbort_fab (s : State) (cause : Nat) :
    (State.reqAbort s cause).fab = s.fab := by unfold State.reqAbort; (repeat' split) <;> simp

@[simp] theorem State.reqAbort_inl (s : State) (cause : Nat) :
    (State.reqAbort s cause).inl = s.inl := by unfold State.reqAbort; (repeat' split) <;> simp

@[simp] theorem State.reqAbort_umc (s : State) (cause : Nat) :
    (State.reqAbort s cause).umc = s.umc := by unfold State.reqAbort; (repeat' split) <;> simp

@[simp] theorem State.reqAbort_sec (s : State) (cause : Nat) :
    (State.reqAbort s cause).sec = s.sec := by unfold State.reqAbort; (repeat' split) <;> simp

@[simp] theorem State.reqAbort_pwr (s : State) (cause : Nat) :
    (State.reqAbort s cause).pwr = s.pwr := by unfold State.reqAbort; (repeat' split) <;> simp

@[simp] theorem State.reqAbort_host (s : State) (cause : Nat) :
    (State.reqAbort s cause).host = s.host := by unfold State.reqAbort; (repeat' split) <;> simp

@[simp] theorem State.reqAbort_cp (s : State) (cause : Nat) :
    (State.reqAbort s cause).cp = s.cp := by unfold State.reqAbort; (repeat' split) <;> simp

@[simp] theorem State.reqAbort_queues (s : State) (cause : Nat) :
    (State.reqAbort s cause).queues = s.queues := by unfold State.reqAbort; (repeat' split) <;> simp

@[simp] theorem State.reqAbort_log (s : State) (cause : Nat) :
    (State.reqAbort s cause).log = s.log := by unfold State.reqAbort; (repeat' split) <;> simp

@[simp] theorem State.reqAbort_bulk (s : State) (cause : Nat) :
    (State.reqAbort s cause).bulk = s.bulk := by unfold State.reqAbort; (repeat' split) <;> simp

@[simp] theorem State.reqAbort_serv (s : State) (cause : Nat) :
    (State.reqAbort s cause).serv = s.serv := by unfold State.reqAbort; (repeat' split) <;> simp

@[simp] theorem State.reqAbort_out (s : State) (cause : Nat) :
    (State.reqAbort s cause).out = s.out := by unfold State.reqAbort; (repeat' split) <;> simp

@[simp] theorem State.markFaulted_pending (s : State) :
    (State.markFaulted s).pending = s.pending := by simp [State.markFaulted]

@[simp] theorem State.markFaulted_free (s : State) :
    (State.markFaulted s).free = s.free := by simp [State.markFaulted]

@[simp] theorem State.markFaulted_us (s : State) :
    (State.markFaulted s).us = s.us := by simp [State.markFaulted]

@[simp] theorem State.markFaulted_part (s : State) :
    (State.markFaulted s).part = s.part := by simp [State.markFaulted]

@[simp] theorem State.markFaulted_regs (s : State) :
    (State.markFaulted s).regs = s.regs := by simp [State.markFaulted]

@[simp] theorem State.markFaulted_latches (s : State) :
    (State.markFaulted s).latches = s.latches := by simp [State.markFaulted]

@[simp] theorem State.markFaulted_access (s : State) :
    (State.markFaulted s).access = s.access := by simp [State.markFaulted]

@[simp] theorem State.markFaulted_readValue (s : State) :
    (State.markFaulted s).readValue = s.readValue := by simp [State.markFaulted]

@[simp] theorem State.markFaulted_mem (s : State) :
    (State.markFaulted s).mem = s.mem := by simp [State.markFaulted]

@[simp] theorem State.markFaulted_undef (s : State) :
    (State.markFaulted s).undef = s.undef := by simp [State.markFaulted]

@[simp] theorem State.markFaulted_tarns (s : State) :
    (State.markFaulted s).tarns = s.tarns := by simp [State.markFaulted]

@[simp] theorem State.markFaulted_prog (s : State) :
    (State.markFaulted s).prog = s.prog := by simp [State.markFaulted]

@[simp] theorem State.markFaulted_bound (s : State) :
    (State.markFaulted s).bound = s.bound := by simp [State.markFaulted]

@[simp] theorem State.markFaulted_units (s : State) :
    (State.markFaulted s).units = s.units := by simp [State.markFaulted]

@[simp] theorem State.markFaulted_stash (s : State) :
    (State.markFaulted s).stash = s.stash := by simp [State.markFaulted]

@[simp] theorem State.markFaulted_dom (s : State) :
    (State.markFaulted s).dom = s.dom := by simp [State.markFaulted]

@[simp] theorem State.markFaulted_twin (s : State) :
    (State.markFaulted s).twin = s.twin := by simp [State.markFaulted]

@[simp] theorem State.markFaulted_fab (s : State) :
    (State.markFaulted s).fab = s.fab := by simp [State.markFaulted]

@[simp] theorem State.markFaulted_inl (s : State) :
    (State.markFaulted s).inl = s.inl := by simp [State.markFaulted]

@[simp] theorem State.markFaulted_umc (s : State) :
    (State.markFaulted s).umc = s.umc := by simp [State.markFaulted]

@[simp] theorem State.markFaulted_sec (s : State) :
    (State.markFaulted s).sec = s.sec := by simp [State.markFaulted]

@[simp] theorem State.markFaulted_pwr (s : State) :
    (State.markFaulted s).pwr = s.pwr := by simp [State.markFaulted]

@[simp] theorem State.markFaulted_host (s : State) :
    (State.markFaulted s).host = s.host := by simp [State.markFaulted]

@[simp] theorem State.markFaulted_queues (s : State) :
    (State.markFaulted s).queues = s.queues := by simp [State.markFaulted]

@[simp] theorem State.markFaulted_log (s : State) :
    (State.markFaulted s).log = s.log := by simp [State.markFaulted]

@[simp] theorem State.markFaulted_bulk (s : State) :
    (State.markFaulted s).bulk = s.bulk := by simp [State.markFaulted]

@[simp] theorem State.markFaulted_serv (s : State) :
    (State.markFaulted s).serv = s.serv := by simp [State.markFaulted]

@[simp] theorem State.markFaulted_out (s : State) :
    (State.markFaulted s).out = s.out := by simp [State.markFaulted]

@[simp] theorem State.recordReset_pending (s : State) (code : Nat) :
    (State.recordReset s code).pending = s.pending := rfl

@[simp] theorem State.recordReset_free (s : State) (code : Nat) :
    (State.recordReset s code).free = s.free := rfl

@[simp] theorem State.recordReset_us (s : State) (code : Nat) :
    (State.recordReset s code).us = s.us := rfl

@[simp] theorem State.recordReset_part (s : State) (code : Nat) :
    (State.recordReset s code).part = s.part := rfl

@[simp] theorem State.recordReset_latches (s : State) (code : Nat) :
    (State.recordReset s code).latches = s.latches := rfl

@[simp] theorem State.recordReset_access (s : State) (code : Nat) :
    (State.recordReset s code).access = s.access := rfl

@[simp] theorem State.recordReset_readValue (s : State) (code : Nat) :
    (State.recordReset s code).readValue = s.readValue := rfl

@[simp] theorem State.recordReset_mem (s : State) (code : Nat) :
    (State.recordReset s code).mem = s.mem := rfl

@[simp] theorem State.recordReset_undef (s : State) (code : Nat) :
    (State.recordReset s code).undef = s.undef := rfl

@[simp] theorem State.recordReset_tarns (s : State) (code : Nat) :
    (State.recordReset s code).tarns = s.tarns := rfl

@[simp] theorem State.recordReset_prog (s : State) (code : Nat) :
    (State.recordReset s code).prog = s.prog := rfl

@[simp] theorem State.recordReset_bound (s : State) (code : Nat) :
    (State.recordReset s code).bound = s.bound := rfl

@[simp] theorem State.recordReset_units (s : State) (code : Nat) :
    (State.recordReset s code).units = s.units := rfl

@[simp] theorem State.recordReset_step (s : State) (code : Nat) :
    (State.recordReset s code).step = s.step := rfl

@[simp] theorem State.recordReset_stash (s : State) (code : Nat) :
    (State.recordReset s code).stash = s.stash := rfl

@[simp] theorem State.recordReset_dom (s : State) (code : Nat) :
    (State.recordReset s code).dom = s.dom := rfl

@[simp] theorem State.recordReset_twin (s : State) (code : Nat) :
    (State.recordReset s code).twin = s.twin := rfl

@[simp] theorem State.recordReset_fab (s : State) (code : Nat) :
    (State.recordReset s code).fab = s.fab := rfl

@[simp] theorem State.recordReset_inl (s : State) (code : Nat) :
    (State.recordReset s code).inl = s.inl := rfl

@[simp] theorem State.recordReset_sec (s : State) (code : Nat) :
    (State.recordReset s code).sec = s.sec := rfl

@[simp] theorem State.recordReset_pwr (s : State) (code : Nat) :
    (State.recordReset s code).pwr = s.pwr := rfl

@[simp] theorem State.recordReset_host (s : State) (code : Nat) :
    (State.recordReset s code).host = s.host := rfl

@[simp] theorem State.recordReset_cp (s : State) (code : Nat) :
    (State.recordReset s code).cp = s.cp := rfl

@[simp] theorem State.recordReset_queues (s : State) (code : Nat) :
    (State.recordReset s code).queues = s.queues := rfl

@[simp] theorem State.recordReset_log (s : State) (code : Nat) :
    (State.recordReset s code).log = s.log := rfl

@[simp] theorem State.recordReset_bulk (s : State) (code : Nat) :
    (State.recordReset s code).bulk = s.bulk := rfl

@[simp] theorem State.recordReset_serv (s : State) (code : Nat) :
    (State.recordReset s code).serv = s.serv := rfl

@[simp] theorem State.recordReset_out (s : State) (code : Nat) :
    (State.recordReset s code).out = s.out := rfl

@[simp] theorem State.raiseReset_pending (s : State) :
    (State.raiseReset s).pending = s.pending := by simp [State.raiseReset]

@[simp] theorem State.raiseReset_free (s : State) :
    (State.raiseReset s).free = s.free := by simp [State.raiseReset]

@[simp] theorem State.raiseReset_us (s : State) :
    (State.raiseReset s).us = s.us := by simp [State.raiseReset]

@[simp] theorem State.raiseReset_part (s : State) :
    (State.raiseReset s).part = s.part := by simp [State.raiseReset]

@[simp] theorem State.raiseReset_latches (s : State) :
    (State.raiseReset s).latches = s.latches := by simp [State.raiseReset]

@[simp] theorem State.raiseReset_access (s : State) :
    (State.raiseReset s).access = s.access := by simp [State.raiseReset]

@[simp] theorem State.raiseReset_readValue (s : State) :
    (State.raiseReset s).readValue = s.readValue := by simp [State.raiseReset]

@[simp] theorem State.raiseReset_prog (s : State) :
    (State.raiseReset s).prog = s.prog := by simp [State.raiseReset]

@[simp] theorem State.raiseReset_bound (s : State) :
    (State.raiseReset s).bound = s.bound := by simp [State.raiseReset]

@[simp] theorem State.raiseReset_units (s : State) :
    (State.raiseReset s).units = s.units := by simp [State.raiseReset]

@[simp] theorem State.raiseReset_step (s : State) :
    (State.raiseReset s).step = s.step := by simp [State.raiseReset]

@[simp] theorem State.raiseReset_stash (s : State) :
    (State.raiseReset s).stash = s.stash := by simp [State.raiseReset]

@[simp] theorem State.raiseReset_dom (s : State) :
    (State.raiseReset s).dom = s.dom := by simp [State.raiseReset]

@[simp] theorem State.raiseReset_twin (s : State) :
    (State.raiseReset s).twin = s.twin := by simp [State.raiseReset]

@[simp] theorem State.raiseReset_fab (s : State) :
    (State.raiseReset s).fab = s.fab := by simp [State.raiseReset]

@[simp] theorem State.raiseReset_inl (s : State) :
    (State.raiseReset s).inl = s.inl := by simp [State.raiseReset]

@[simp] theorem State.raiseReset_sec (s : State) :
    (State.raiseReset s).sec = s.sec := by simp [State.raiseReset]

@[simp] theorem State.raiseReset_pwr (s : State) :
    (State.raiseReset s).pwr = s.pwr := by simp [State.raiseReset]

@[simp] theorem State.raiseReset_host (s : State) :
    (State.raiseReset s).host = s.host := by simp [State.raiseReset]

@[simp] theorem State.raiseReset_cp (s : State) :
    (State.raiseReset s).cp = s.cp := by simp [State.raiseReset]

@[simp] theorem State.raiseReset_queues (s : State) :
    (State.raiseReset s).queues = s.queues := by simp [State.raiseReset]

@[simp] theorem State.raiseReset_bulk (s : State) :
    (State.raiseReset s).bulk = s.bulk := by simp [State.raiseReset]

@[simp] theorem State.raiseReset_serv (s : State) :
    (State.raiseReset s).serv = s.serv := by simp [State.raiseReset]

@[simp] theorem State.raiseReset_out (s : State) :
    (State.raiseReset s).out = s.out := by simp [State.raiseReset]

@[simp] theorem State.alarmRecord_pending (s : State) (code level : Nat) :
    (State.alarmRecord s code level).pending = s.pending := by simp [State.alarmRecord]

@[simp] theorem State.alarmRecord_free (s : State) (code level : Nat) :
    (State.alarmRecord s code level).free = s.free := by simp [State.alarmRecord]

@[simp] theorem State.alarmRecord_us (s : State) (code level : Nat) :
    (State.alarmRecord s code level).us = s.us := by simp [State.alarmRecord]

@[simp] theorem State.alarmRecord_part (s : State) (code level : Nat) :
    (State.alarmRecord s code level).part = s.part := by simp [State.alarmRecord]

@[simp] theorem State.alarmRecord_latches (s : State) (code level : Nat) :
    (State.alarmRecord s code level).latches = s.latches := by simp [State.alarmRecord]

@[simp] theorem State.alarmRecord_access (s : State) (code level : Nat) :
    (State.alarmRecord s code level).access = s.access := by simp [State.alarmRecord]

@[simp] theorem State.alarmRecord_readValue (s : State) (code level : Nat) :
    (State.alarmRecord s code level).readValue = s.readValue := by simp [State.alarmRecord]

@[simp] theorem State.alarmRecord_prog (s : State) (code level : Nat) :
    (State.alarmRecord s code level).prog = s.prog := by simp [State.alarmRecord]

@[simp] theorem State.alarmRecord_bound (s : State) (code level : Nat) :
    (State.alarmRecord s code level).bound = s.bound := by simp [State.alarmRecord]

@[simp] theorem State.alarmRecord_units (s : State) (code level : Nat) :
    (State.alarmRecord s code level).units = s.units := by simp [State.alarmRecord]

@[simp] theorem State.alarmRecord_step (s : State) (code level : Nat) :
    (State.alarmRecord s code level).step = s.step := by simp [State.alarmRecord]

@[simp] theorem State.alarmRecord_stash (s : State) (code level : Nat) :
    (State.alarmRecord s code level).stash = s.stash := by simp [State.alarmRecord]

@[simp] theorem State.alarmRecord_dom (s : State) (code level : Nat) :
    (State.alarmRecord s code level).dom = s.dom := by simp [State.alarmRecord]

@[simp] theorem State.alarmRecord_twin (s : State) (code level : Nat) :
    (State.alarmRecord s code level).twin = s.twin := by simp [State.alarmRecord]

@[simp] theorem State.alarmRecord_fab (s : State) (code level : Nat) :
    (State.alarmRecord s code level).fab = s.fab := by simp [State.alarmRecord]

@[simp] theorem State.alarmRecord_inl (s : State) (code level : Nat) :
    (State.alarmRecord s code level).inl = s.inl := by simp [State.alarmRecord]

@[simp] theorem State.alarmRecord_pwr (s : State) (code level : Nat) :
    (State.alarmRecord s code level).pwr = s.pwr := by simp [State.alarmRecord]

@[simp] theorem State.alarmRecord_host (s : State) (code level : Nat) :
    (State.alarmRecord s code level).host = s.host := by simp [State.alarmRecord]

@[simp] theorem State.alarmRecord_cp (s : State) (code level : Nat) :
    (State.alarmRecord s code level).cp = s.cp := by simp [State.alarmRecord]

@[simp] theorem State.alarmRecord_queues (s : State) (code level : Nat) :
    (State.alarmRecord s code level).queues = s.queues := by simp [State.alarmRecord]

@[simp] theorem State.alarmRecord_bulk (s : State) (code level : Nat) :
    (State.alarmRecord s code level).bulk = s.bulk := by simp [State.alarmRecord]

@[simp] theorem State.alarmRecord_serv (s : State) (code level : Nat) :
    (State.alarmRecord s code level).serv = s.serv := by simp [State.alarmRecord]

@[simp] theorem State.alarmRecord_out (s : State) (code level : Nat) :
    (State.alarmRecord s code level).out = s.out := by simp [State.alarmRecord]

@[simp] theorem State.zeroise_pending (s : State) (code : Nat) :
    (State.zeroise s code).pending = s.pending := by simp [State.zeroise]

@[simp] theorem State.zeroise_free (s : State) (code : Nat) :
    (State.zeroise s code).free = s.free := by simp [State.zeroise]

@[simp] theorem State.zeroise_us (s : State) (code : Nat) :
    (State.zeroise s code).us = s.us := by simp [State.zeroise]

@[simp] theorem State.zeroise_part (s : State) (code : Nat) :
    (State.zeroise s code).part = s.part := by simp [State.zeroise]

@[simp] theorem State.zeroise_latches (s : State) (code : Nat) :
    (State.zeroise s code).latches = s.latches := by simp [State.zeroise]

@[simp] theorem State.zeroise_access (s : State) (code : Nat) :
    (State.zeroise s code).access = s.access := by simp [State.zeroise]

@[simp] theorem State.zeroise_readValue (s : State) (code : Nat) :
    (State.zeroise s code).readValue = s.readValue := by simp [State.zeroise]

@[simp] theorem State.zeroise_prog (s : State) (code : Nat) :
    (State.zeroise s code).prog = s.prog := by simp [State.zeroise]

@[simp] theorem State.zeroise_bound (s : State) (code : Nat) :
    (State.zeroise s code).bound = s.bound := by simp [State.zeroise]

@[simp] theorem State.zeroise_units (s : State) (code : Nat) :
    (State.zeroise s code).units = s.units := by simp [State.zeroise]

@[simp] theorem State.zeroise_step (s : State) (code : Nat) :
    (State.zeroise s code).step = s.step := by simp [State.zeroise]

@[simp] theorem State.zeroise_stash (s : State) (code : Nat) :
    (State.zeroise s code).stash = s.stash := by simp [State.zeroise]

@[simp] theorem State.zeroise_dom (s : State) (code : Nat) :
    (State.zeroise s code).dom = s.dom := by simp [State.zeroise]

@[simp] theorem State.zeroise_twin (s : State) (code : Nat) :
    (State.zeroise s code).twin = s.twin := by simp [State.zeroise]

@[simp] theorem State.zeroise_fab (s : State) (code : Nat) :
    (State.zeroise s code).fab = s.fab := by simp [State.zeroise]

@[simp] theorem State.zeroise_inl (s : State) (code : Nat) :
    (State.zeroise s code).inl = s.inl := by simp [State.zeroise]

@[simp] theorem State.zeroise_pwr (s : State) (code : Nat) :
    (State.zeroise s code).pwr = s.pwr := by simp [State.zeroise]

@[simp] theorem State.zeroise_host (s : State) (code : Nat) :
    (State.zeroise s code).host = s.host := by simp [State.zeroise]

@[simp] theorem State.zeroise_cp (s : State) (code : Nat) :
    (State.zeroise s code).cp = s.cp := by simp [State.zeroise]

@[simp] theorem State.zeroise_queues (s : State) (code : Nat) :
    (State.zeroise s code).queues = s.queues := by simp [State.zeroise]

@[simp] theorem State.zeroise_bulk (s : State) (code : Nat) :
    (State.zeroise s code).bulk = s.bulk := by simp [State.zeroise]

@[simp] theorem State.zeroise_serv (s : State) (code : Nat) :
    (State.zeroise s code).serv = s.serv := by simp [State.zeroise]

@[simp] theorem State.zeroise_out (s : State) (code : Nat) :
    (State.zeroise s code).out = s.out := by simp [State.zeroise]

@[simp] theorem State.setDuty_pending (s : State) (slow fast : Nat) :
    (State.setDuty s slow fast).pending = s.pending := by simp [State.setDuty]

@[simp] theorem State.setDuty_free (s : State) (slow fast : Nat) :
    (State.setDuty s slow fast).free = s.free := by simp [State.setDuty]

@[simp] theorem State.setDuty_us (s : State) (slow fast : Nat) :
    (State.setDuty s slow fast).us = s.us := by simp [State.setDuty]

@[simp] theorem State.setDuty_part (s : State) (slow fast : Nat) :
    (State.setDuty s slow fast).part = s.part := by simp [State.setDuty]

@[simp] theorem State.setDuty_latches (s : State) (slow fast : Nat) :
    (State.setDuty s slow fast).latches = s.latches := by simp [State.setDuty]

@[simp] theorem State.setDuty_access (s : State) (slow fast : Nat) :
    (State.setDuty s slow fast).access = s.access := by simp [State.setDuty]

@[simp] theorem State.setDuty_readValue (s : State) (slow fast : Nat) :
    (State.setDuty s slow fast).readValue = s.readValue := by simp [State.setDuty]

@[simp] theorem State.setDuty_prog (s : State) (slow fast : Nat) :
    (State.setDuty s slow fast).prog = s.prog := by simp [State.setDuty]

@[simp] theorem State.setDuty_bound (s : State) (slow fast : Nat) :
    (State.setDuty s slow fast).bound = s.bound := by simp [State.setDuty]

@[simp] theorem State.setDuty_units (s : State) (slow fast : Nat) :
    (State.setDuty s slow fast).units = s.units := by simp [State.setDuty]

@[simp] theorem State.setDuty_step (s : State) (slow fast : Nat) :
    (State.setDuty s slow fast).step = s.step := by simp [State.setDuty]

@[simp] theorem State.setDuty_stash (s : State) (slow fast : Nat) :
    (State.setDuty s slow fast).stash = s.stash := by simp [State.setDuty]

@[simp] theorem State.setDuty_dom (s : State) (slow fast : Nat) :
    (State.setDuty s slow fast).dom = s.dom := by simp [State.setDuty]

@[simp] theorem State.setDuty_twin (s : State) (slow fast : Nat) :
    (State.setDuty s slow fast).twin = s.twin := by simp [State.setDuty]

@[simp] theorem State.setDuty_fab (s : State) (slow fast : Nat) :
    (State.setDuty s slow fast).fab = s.fab := by simp [State.setDuty]

@[simp] theorem State.setDuty_inl (s : State) (slow fast : Nat) :
    (State.setDuty s slow fast).inl = s.inl := by simp [State.setDuty]

@[simp] theorem State.setDuty_umc (s : State) (slow fast : Nat) :
    (State.setDuty s slow fast).umc = s.umc := by simp [State.setDuty]

@[simp] theorem State.setDuty_sec (s : State) (slow fast : Nat) :
    (State.setDuty s slow fast).sec = s.sec := by simp [State.setDuty]

@[simp] theorem State.setDuty_host (s : State) (slow fast : Nat) :
    (State.setDuty s slow fast).host = s.host := by simp [State.setDuty]

@[simp] theorem State.setDuty_cp (s : State) (slow fast : Nat) :
    (State.setDuty s slow fast).cp = s.cp := by simp [State.setDuty]

@[simp] theorem State.setDuty_queues (s : State) (slow fast : Nat) :
    (State.setDuty s slow fast).queues = s.queues := by simp [State.setDuty]

@[simp] theorem State.setDuty_bulk (s : State) (slow fast : Nat) :
    (State.setDuty s slow fast).bulk = s.bulk := by simp [State.setDuty]

@[simp] theorem State.setDuty_serv (s : State) (slow fast : Nat) :
    (State.setDuty s slow fast).serv = s.serv := by simp [State.setDuty]

@[simp] theorem State.setDuty_out (s : State) (slow fast : Nat) :
    (State.setDuty s slow fast).out = s.out := by simp [State.setDuty]

@[simp] theorem State.startSwitch_pending (s : State) (target : Nat) (c : SwitchCause) :
    (State.startSwitch s target c).pending = s.pending := by simp [State.startSwitch]

@[simp] theorem State.startSwitch_free (s : State) (target : Nat) (c : SwitchCause) :
    (State.startSwitch s target c).free = s.free := by simp [State.startSwitch]

@[simp] theorem State.startSwitch_us (s : State) (target : Nat) (c : SwitchCause) :
    (State.startSwitch s target c).us = s.us := by simp [State.startSwitch]

@[simp] theorem State.startSwitch_part (s : State) (target : Nat) (c : SwitchCause) :
    (State.startSwitch s target c).part = s.part := by simp [State.startSwitch]

@[simp] theorem State.startSwitch_regs (s : State) (target : Nat) (c : SwitchCause) :
    (State.startSwitch s target c).regs = s.regs := by simp [State.startSwitch]

@[simp] theorem State.startSwitch_latches (s : State) (target : Nat) (c : SwitchCause) :
    (State.startSwitch s target c).latches = s.latches := by simp [State.startSwitch]

@[simp] theorem State.startSwitch_access (s : State) (target : Nat) (c : SwitchCause) :
    (State.startSwitch s target c).access = s.access := by simp [State.startSwitch]

@[simp] theorem State.startSwitch_readValue (s : State) (target : Nat) (c : SwitchCause) :
    (State.startSwitch s target c).readValue = s.readValue := by simp [State.startSwitch]

@[simp] theorem State.startSwitch_mem (s : State) (target : Nat) (c : SwitchCause) :
    (State.startSwitch s target c).mem = s.mem := by simp [State.startSwitch]

@[simp] theorem State.startSwitch_undef (s : State) (target : Nat) (c : SwitchCause) :
    (State.startSwitch s target c).undef = s.undef := by simp [State.startSwitch]

@[simp] theorem State.startSwitch_tarns (s : State) (target : Nat) (c : SwitchCause) :
    (State.startSwitch s target c).tarns = s.tarns := by simp [State.startSwitch]

@[simp] theorem State.startSwitch_prog (s : State) (target : Nat) (c : SwitchCause) :
    (State.startSwitch s target c).prog = s.prog := by simp [State.startSwitch]

@[simp] theorem State.startSwitch_bound (s : State) (target : Nat) (c : SwitchCause) :
    (State.startSwitch s target c).bound = s.bound := by simp [State.startSwitch]

@[simp] theorem State.startSwitch_units (s : State) (target : Nat) (c : SwitchCause) :
    (State.startSwitch s target c).units = s.units := by simp [State.startSwitch]

@[simp] theorem State.startSwitch_step (s : State) (target : Nat) (c : SwitchCause) :
    (State.startSwitch s target c).step = s.step := by simp [State.startSwitch]

@[simp] theorem State.startSwitch_stash (s : State) (target : Nat) (c : SwitchCause) :
    (State.startSwitch s target c).stash = s.stash := by simp [State.startSwitch]

@[simp] theorem State.startSwitch_dom (s : State) (target : Nat) (c : SwitchCause) :
    (State.startSwitch s target c).dom = s.dom := by simp [State.startSwitch]

@[simp] theorem State.startSwitch_twin (s : State) (target : Nat) (c : SwitchCause) :
    (State.startSwitch s target c).twin = s.twin := by simp [State.startSwitch]

@[simp] theorem State.startSwitch_fab (s : State) (target : Nat) (c : SwitchCause) :
    (State.startSwitch s target c).fab = s.fab := by simp [State.startSwitch]

@[simp] theorem State.startSwitch_inl (s : State) (target : Nat) (c : SwitchCause) :
    (State.startSwitch s target c).inl = s.inl := by simp [State.startSwitch]

@[simp] theorem State.startSwitch_umc (s : State) (target : Nat) (c : SwitchCause) :
    (State.startSwitch s target c).umc = s.umc := by simp [State.startSwitch]

@[simp] theorem State.startSwitch_sec (s : State) (target : Nat) (c : SwitchCause) :
    (State.startSwitch s target c).sec = s.sec := by simp [State.startSwitch]

@[simp] theorem State.startSwitch_host (s : State) (target : Nat) (c : SwitchCause) :
    (State.startSwitch s target c).host = s.host := by simp [State.startSwitch]

@[simp] theorem State.startSwitch_cp (s : State) (target : Nat) (c : SwitchCause) :
    (State.startSwitch s target c).cp = s.cp := by simp [State.startSwitch]

@[simp] theorem State.startSwitch_queues (s : State) (target : Nat) (c : SwitchCause) :
    (State.startSwitch s target c).queues = s.queues := by simp [State.startSwitch]

@[simp] theorem State.startSwitch_log (s : State) (target : Nat) (c : SwitchCause) :
    (State.startSwitch s target c).log = s.log := by simp [State.startSwitch]

@[simp] theorem State.startSwitch_bulk (s : State) (target : Nat) (c : SwitchCause) :
    (State.startSwitch s target c).bulk = s.bulk := by simp [State.startSwitch]

@[simp] theorem State.startSwitch_serv (s : State) (target : Nat) (c : SwitchCause) :
    (State.startSwitch s target c).serv = s.serv := by simp [State.startSwitch]

@[simp] theorem State.startSwitch_out (s : State) (target : Nat) (c : SwitchCause) :
    (State.startSwitch s target c).out = s.out := by simp [State.startSwitch]

@[simp] theorem State.setDie_pending (s : State) (d : Nat) (x : Die) :
    (State.setDie s d x).pending = s.pending := rfl

@[simp] theorem State.setDie_free (s : State) (d : Nat) (x : Die) :
    (State.setDie s d x).free = s.free := rfl

@[simp] theorem State.setDie_us (s : State) (d : Nat) (x : Die) :
    (State.setDie s d x).us = s.us := rfl

@[simp] theorem State.setDie_part (s : State) (d : Nat) (x : Die) :
    (State.setDie s d x).part = s.part := rfl

@[simp] theorem State.setDie_regs (s : State) (d : Nat) (x : Die) :
    (State.setDie s d x).regs = s.regs := rfl

@[simp] theorem State.setDie_latches (s : State) (d : Nat) (x : Die) :
    (State.setDie s d x).latches = s.latches := rfl

@[simp] theorem State.setDie_access (s : State) (d : Nat) (x : Die) :
    (State.setDie s d x).access = s.access := rfl

@[simp] theorem State.setDie_readValue (s : State) (d : Nat) (x : Die) :
    (State.setDie s d x).readValue = s.readValue := rfl

@[simp] theorem State.setDie_mem (s : State) (d : Nat) (x : Die) :
    (State.setDie s d x).mem = s.mem := rfl

@[simp] theorem State.setDie_undef (s : State) (d : Nat) (x : Die) :
    (State.setDie s d x).undef = s.undef := rfl

@[simp] theorem State.setDie_tarns (s : State) (d : Nat) (x : Die) :
    (State.setDie s d x).tarns = s.tarns := rfl

@[simp] theorem State.setDie_prog (s : State) (d : Nat) (x : Die) :
    (State.setDie s d x).prog = s.prog := rfl

@[simp] theorem State.setDie_bound (s : State) (d : Nat) (x : Die) :
    (State.setDie s d x).bound = s.bound := rfl

@[simp] theorem State.setDie_units (s : State) (d : Nat) (x : Die) :
    (State.setDie s d x).units = s.units := rfl

@[simp] theorem State.setDie_step (s : State) (d : Nat) (x : Die) :
    (State.setDie s d x).step = s.step := rfl

@[simp] theorem State.setDie_stash (s : State) (d : Nat) (x : Die) :
    (State.setDie s d x).stash = s.stash := rfl

@[simp] theorem State.setDie_dom (s : State) (d : Nat) (x : Die) :
    (State.setDie s d x).dom = s.dom := rfl

@[simp] theorem State.setDie_twin (s : State) (d : Nat) (x : Die) :
    (State.setDie s d x).twin = s.twin := rfl

@[simp] theorem State.setDie_fab (s : State) (d : Nat) (x : Die) :
    (State.setDie s d x).fab = s.fab := rfl

@[simp] theorem State.setDie_inl (s : State) (d : Nat) (x : Die) :
    (State.setDie s d x).inl = s.inl := rfl

@[simp] theorem State.setDie_umc (s : State) (d : Nat) (x : Die) :
    (State.setDie s d x).umc = s.umc := rfl

@[simp] theorem State.setDie_sec (s : State) (d : Nat) (x : Die) :
    (State.setDie s d x).sec = s.sec := rfl

@[simp] theorem State.setDie_host (s : State) (d : Nat) (x : Die) :
    (State.setDie s d x).host = s.host := rfl

@[simp] theorem State.setDie_cp (s : State) (d : Nat) (x : Die) :
    (State.setDie s d x).cp = s.cp := rfl

@[simp] theorem State.setDie_queues (s : State) (d : Nat) (x : Die) :
    (State.setDie s d x).queues = s.queues := rfl

@[simp] theorem State.setDie_log (s : State) (d : Nat) (x : Die) :
    (State.setDie s d x).log = s.log := rfl

@[simp] theorem State.setDie_bulk (s : State) (d : Nat) (x : Die) :
    (State.setDie s d x).bulk = s.bulk := rfl

@[simp] theorem State.setDie_serv (s : State) (d : Nat) (x : Die) :
    (State.setDie s d x).serv = s.serv := rfl

@[simp] theorem State.setDie_out (s : State) (d : Nat) (x : Die) :
    (State.setDie s d x).out = s.out := rfl

@[simp] theorem State.setTemp_pending (s : State) (x : TempSensor) (c : Int) :
    (State.setTemp s x c).pending = s.pending := rfl

@[simp] theorem State.setTemp_free (s : State) (x : TempSensor) (c : Int) :
    (State.setTemp s x c).free = s.free := rfl

@[simp] theorem State.setTemp_us (s : State) (x : TempSensor) (c : Int) :
    (State.setTemp s x c).us = s.us := rfl

@[simp] theorem State.setTemp_part (s : State) (x : TempSensor) (c : Int) :
    (State.setTemp s x c).part = s.part := rfl

@[simp] theorem State.setTemp_regs (s : State) (x : TempSensor) (c : Int) :
    (State.setTemp s x c).regs = s.regs := rfl

@[simp] theorem State.setTemp_latches (s : State) (x : TempSensor) (c : Int) :
    (State.setTemp s x c).latches = s.latches := rfl

@[simp] theorem State.setTemp_access (s : State) (x : TempSensor) (c : Int) :
    (State.setTemp s x c).access = s.access := rfl

@[simp] theorem State.setTemp_readValue (s : State) (x : TempSensor) (c : Int) :
    (State.setTemp s x c).readValue = s.readValue := rfl

@[simp] theorem State.setTemp_mem (s : State) (x : TempSensor) (c : Int) :
    (State.setTemp s x c).mem = s.mem := rfl

@[simp] theorem State.setTemp_undef (s : State) (x : TempSensor) (c : Int) :
    (State.setTemp s x c).undef = s.undef := rfl

@[simp] theorem State.setTemp_tarns (s : State) (x : TempSensor) (c : Int) :
    (State.setTemp s x c).tarns = s.tarns := rfl

@[simp] theorem State.setTemp_prog (s : State) (x : TempSensor) (c : Int) :
    (State.setTemp s x c).prog = s.prog := rfl

@[simp] theorem State.setTemp_bound (s : State) (x : TempSensor) (c : Int) :
    (State.setTemp s x c).bound = s.bound := rfl

@[simp] theorem State.setTemp_units (s : State) (x : TempSensor) (c : Int) :
    (State.setTemp s x c).units = s.units := rfl

@[simp] theorem State.setTemp_step (s : State) (x : TempSensor) (c : Int) :
    (State.setTemp s x c).step = s.step := rfl

@[simp] theorem State.setTemp_stash (s : State) (x : TempSensor) (c : Int) :
    (State.setTemp s x c).stash = s.stash := rfl

@[simp] theorem State.setTemp_dom (s : State) (x : TempSensor) (c : Int) :
    (State.setTemp s x c).dom = s.dom := rfl

@[simp] theorem State.setTemp_twin (s : State) (x : TempSensor) (c : Int) :
    (State.setTemp s x c).twin = s.twin := rfl

@[simp] theorem State.setTemp_fab (s : State) (x : TempSensor) (c : Int) :
    (State.setTemp s x c).fab = s.fab := rfl

@[simp] theorem State.setTemp_inl (s : State) (x : TempSensor) (c : Int) :
    (State.setTemp s x c).inl = s.inl := rfl

@[simp] theorem State.setTemp_umc (s : State) (x : TempSensor) (c : Int) :
    (State.setTemp s x c).umc = s.umc := rfl

@[simp] theorem State.setTemp_sec (s : State) (x : TempSensor) (c : Int) :
    (State.setTemp s x c).sec = s.sec := rfl

@[simp] theorem State.setTemp_host (s : State) (x : TempSensor) (c : Int) :
    (State.setTemp s x c).host = s.host := rfl

@[simp] theorem State.setTemp_cp (s : State) (x : TempSensor) (c : Int) :
    (State.setTemp s x c).cp = s.cp := rfl

@[simp] theorem State.setTemp_queues (s : State) (x : TempSensor) (c : Int) :
    (State.setTemp s x c).queues = s.queues := rfl

@[simp] theorem State.setTemp_log (s : State) (x : TempSensor) (c : Int) :
    (State.setTemp s x c).log = s.log := rfl

@[simp] theorem State.setTemp_bulk (s : State) (x : TempSensor) (c : Int) :
    (State.setTemp s x c).bulk = s.bulk := rfl

@[simp] theorem State.setTemp_serv (s : State) (x : TempSensor) (c : Int) :
    (State.setTemp s x c).serv = s.serv := rfl

@[simp] theorem State.setTemp_out (s : State) (x : TempSensor) (c : Int) :
    (State.setTemp s x c).out = s.out := rfl

@[simp] theorem State.setActivity_pending (s : State) (f a : Nat) :
    (State.setActivity s f a).pending = s.pending := rfl

@[simp] theorem State.setActivity_free (s : State) (f a : Nat) :
    (State.setActivity s f a).free = s.free := rfl

@[simp] theorem State.setActivity_us (s : State) (f a : Nat) :
    (State.setActivity s f a).us = s.us := rfl

@[simp] theorem State.setActivity_part (s : State) (f a : Nat) :
    (State.setActivity s f a).part = s.part := rfl

@[simp] theorem State.setActivity_regs (s : State) (f a : Nat) :
    (State.setActivity s f a).regs = s.regs := rfl

@[simp] theorem State.setActivity_latches (s : State) (f a : Nat) :
    (State.setActivity s f a).latches = s.latches := rfl

@[simp] theorem State.setActivity_access (s : State) (f a : Nat) :
    (State.setActivity s f a).access = s.access := rfl

@[simp] theorem State.setActivity_readValue (s : State) (f a : Nat) :
    (State.setActivity s f a).readValue = s.readValue := rfl

@[simp] theorem State.setActivity_mem (s : State) (f a : Nat) :
    (State.setActivity s f a).mem = s.mem := rfl

@[simp] theorem State.setActivity_undef (s : State) (f a : Nat) :
    (State.setActivity s f a).undef = s.undef := rfl

@[simp] theorem State.setActivity_tarns (s : State) (f a : Nat) :
    (State.setActivity s f a).tarns = s.tarns := rfl

@[simp] theorem State.setActivity_prog (s : State) (f a : Nat) :
    (State.setActivity s f a).prog = s.prog := rfl

@[simp] theorem State.setActivity_bound (s : State) (f a : Nat) :
    (State.setActivity s f a).bound = s.bound := rfl

@[simp] theorem State.setActivity_units (s : State) (f a : Nat) :
    (State.setActivity s f a).units = s.units := rfl

@[simp] theorem State.setActivity_step (s : State) (f a : Nat) :
    (State.setActivity s f a).step = s.step := rfl

@[simp] theorem State.setActivity_stash (s : State) (f a : Nat) :
    (State.setActivity s f a).stash = s.stash := rfl

@[simp] theorem State.setActivity_dom (s : State) (f a : Nat) :
    (State.setActivity s f a).dom = s.dom := rfl

@[simp] theorem State.setActivity_twin (s : State) (f a : Nat) :
    (State.setActivity s f a).twin = s.twin := rfl

@[simp] theorem State.setActivity_fab (s : State) (f a : Nat) :
    (State.setActivity s f a).fab = s.fab := rfl

@[simp] theorem State.setActivity_inl (s : State) (f a : Nat) :
    (State.setActivity s f a).inl = s.inl := rfl

@[simp] theorem State.setActivity_umc (s : State) (f a : Nat) :
    (State.setActivity s f a).umc = s.umc := rfl

@[simp] theorem State.setActivity_sec (s : State) (f a : Nat) :
    (State.setActivity s f a).sec = s.sec := rfl

@[simp] theorem State.setActivity_host (s : State) (f a : Nat) :
    (State.setActivity s f a).host = s.host := rfl

@[simp] theorem State.setActivity_cp (s : State) (f a : Nat) :
    (State.setActivity s f a).cp = s.cp := rfl

@[simp] theorem State.setActivity_queues (s : State) (f a : Nat) :
    (State.setActivity s f a).queues = s.queues := rfl

@[simp] theorem State.setActivity_log (s : State) (f a : Nat) :
    (State.setActivity s f a).log = s.log := rfl

@[simp] theorem State.setActivity_bulk (s : State) (f a : Nat) :
    (State.setActivity s f a).bulk = s.bulk := rfl

@[simp] theorem State.setActivity_serv (s : State) (f a : Nat) :
    (State.setActivity s f a).serv = s.serv := rfl

@[simp] theorem State.setActivity_out (s : State) (f a : Nat) :
    (State.setActivity s f a).out = s.out := rfl

@[simp] theorem State.recap_pending (s : State) (d : Nat) :
    (State.recap s d).pending = s.pending := by
  unfold State.recap
  exact State.foldl_pending _ _ _ (fun t i => by dsimp only; split <;> simp)

@[simp] theorem State.recap_free (s : State) (d : Nat) :
    (State.recap s d).free = s.free := by
  unfold State.recap
  exact State.foldl_free _ _ _ (fun t i => by dsimp only; split <;> simp)

@[simp] theorem State.recap_us (s : State) (d : Nat) :
    (State.recap s d).us = s.us := by
  unfold State.recap
  exact State.foldl_us _ _ _ (fun t i => by dsimp only; split <;> simp)

@[simp] theorem State.recap_part (s : State) (d : Nat) :
    (State.recap s d).part = s.part := by
  unfold State.recap
  exact State.foldl_part _ _ _ (fun t i => by dsimp only; split <;> simp)

@[simp] theorem State.recap_regs (s : State) (d : Nat) :
    (State.recap s d).regs = s.regs := by
  unfold State.recap
  exact State.foldl_regs _ _ _ (fun t i => by dsimp only; split <;> simp)

@[simp] theorem State.recap_latches (s : State) (d : Nat) :
    (State.recap s d).latches = s.latches := by
  unfold State.recap
  exact State.foldl_latches _ _ _ (fun t i => by dsimp only; split <;> simp)

@[simp] theorem State.recap_access (s : State) (d : Nat) :
    (State.recap s d).access = s.access := by
  unfold State.recap
  exact State.foldl_access _ _ _ (fun t i => by dsimp only; split <;> simp)

@[simp] theorem State.recap_readValue (s : State) (d : Nat) :
    (State.recap s d).readValue = s.readValue := by
  unfold State.recap
  exact State.foldl_readValue _ _ _ (fun t i => by dsimp only; split <;> simp)

@[simp] theorem State.recap_mem (s : State) (d : Nat) :
    (State.recap s d).mem = s.mem := by
  unfold State.recap
  exact State.foldl_mem _ _ _ (fun t i => by dsimp only; split <;> simp)

@[simp] theorem State.recap_undef (s : State) (d : Nat) :
    (State.recap s d).undef = s.undef := by
  unfold State.recap
  exact State.foldl_undef _ _ _ (fun t i => by dsimp only; split <;> simp)

@[simp] theorem State.recap_tarns (s : State) (d : Nat) :
    (State.recap s d).tarns = s.tarns := by
  unfold State.recap
  exact State.foldl_tarns _ _ _ (fun t i => by dsimp only; split <;> simp)

@[simp] theorem State.recap_prog (s : State) (d : Nat) :
    (State.recap s d).prog = s.prog := by
  unfold State.recap
  exact State.foldl_prog _ _ _ (fun t i => by dsimp only; split <;> simp)

@[simp] theorem State.recap_bound (s : State) (d : Nat) :
    (State.recap s d).bound = s.bound := by
  unfold State.recap
  exact State.foldl_bound _ _ _ (fun t i => by dsimp only; split <;> simp)

@[simp] theorem State.recap_units (s : State) (d : Nat) :
    (State.recap s d).units = s.units := by
  unfold State.recap
  exact State.foldl_units _ _ _ (fun t i => by dsimp only; split <;> simp)

@[simp] theorem State.recap_step (s : State) (d : Nat) :
    (State.recap s d).step = s.step := by
  unfold State.recap
  exact State.foldl_step _ _ _ (fun t i => by dsimp only; split <;> simp)

@[simp] theorem State.recap_stash (s : State) (d : Nat) :
    (State.recap s d).stash = s.stash := by
  unfold State.recap
  exact State.foldl_stash _ _ _ (fun t i => by dsimp only; split <;> simp)

@[simp] theorem State.recap_dom (s : State) (d : Nat) :
    (State.recap s d).dom = s.dom := by
  unfold State.recap
  exact State.foldl_dom _ _ _ (fun t i => by dsimp only; split <;> simp)

@[simp] theorem State.recap_twin (s : State) (d : Nat) :
    (State.recap s d).twin = s.twin := by
  unfold State.recap
  exact State.foldl_twin _ _ _ (fun t i => by dsimp only; split <;> simp)

@[simp] theorem State.recap_fab (s : State) (d : Nat) :
    (State.recap s d).fab = s.fab := by
  unfold State.recap
  exact State.foldl_fab _ _ _ (fun t i => by dsimp only; split <;> simp)

@[simp] theorem State.recap_inl (s : State) (d : Nat) :
    (State.recap s d).inl = s.inl := by
  unfold State.recap
  exact State.foldl_inl _ _ _ (fun t i => by dsimp only; split <;> simp)

@[simp] theorem State.recap_umc (s : State) (d : Nat) :
    (State.recap s d).umc = s.umc := by
  unfold State.recap
  exact State.foldl_umc _ _ _ (fun t i => by dsimp only; split <;> simp)

@[simp] theorem State.recap_sec (s : State) (d : Nat) :
    (State.recap s d).sec = s.sec := by
  unfold State.recap
  exact State.foldl_sec _ _ _ (fun t i => by dsimp only; split <;> simp)

@[simp] theorem State.recap_host (s : State) (d : Nat) :
    (State.recap s d).host = s.host := by
  unfold State.recap
  exact State.foldl_host _ _ _ (fun t i => by dsimp only; split <;> simp)

@[simp] theorem State.recap_cp (s : State) (d : Nat) :
    (State.recap s d).cp = s.cp := by
  unfold State.recap
  exact State.foldl_cp _ _ _ (fun t i => by dsimp only; split <;> simp)

@[simp] theorem State.recap_queues (s : State) (d : Nat) :
    (State.recap s d).queues = s.queues := by
  unfold State.recap
  exact State.foldl_queues _ _ _ (fun t i => by dsimp only; split <;> simp)

@[simp] theorem State.recap_log (s : State) (d : Nat) :
    (State.recap s d).log = s.log := by
  unfold State.recap
  exact State.foldl_log _ _ _ (fun t i => by dsimp only; split <;> simp)

@[simp] theorem State.recap_bulk (s : State) (d : Nat) :
    (State.recap s d).bulk = s.bulk := by
  unfold State.recap
  exact State.foldl_bulk _ _ _ (fun t i => by dsimp only; split <;> simp)

@[simp] theorem State.recap_serv (s : State) (d : Nat) :
    (State.recap s d).serv = s.serv := by
  unfold State.recap
  exact State.foldl_serv _ _ _ (fun t i => by dsimp only; split <;> simp)

@[simp] theorem State.recap_out (s : State) (d : Nat) :
    (State.recap s d).out = s.out := by
  unfold State.recap
  exact State.foldl_out _ _ _ (fun t i => by dsimp only; split <;> simp)

@[simp] theorem State.raiseRail_pending (s : State) (d : Nat) :
    (State.raiseRail s d).pending = s.pending := by unfold State.raiseRail; split <;> simp

@[simp] theorem State.raiseRail_free (s : State) (d : Nat) :
    (State.raiseRail s d).free = s.free := by unfold State.raiseRail; split <;> simp

@[simp] theorem State.raiseRail_us (s : State) (d : Nat) :
    (State.raiseRail s d).us = s.us := by unfold State.raiseRail; split <;> simp

@[simp] theorem State.raiseRail_part (s : State) (d : Nat) :
    (State.raiseRail s d).part = s.part := by unfold State.raiseRail; split <;> simp

@[simp] theorem State.raiseRail_regs (s : State) (d : Nat) :
    (State.raiseRail s d).regs = s.regs := by unfold State.raiseRail; split <;> simp

@[simp] theorem State.raiseRail_latches (s : State) (d : Nat) :
    (State.raiseRail s d).latches = s.latches := by unfold State.raiseRail; split <;> simp

@[simp] theorem State.raiseRail_access (s : State) (d : Nat) :
    (State.raiseRail s d).access = s.access := by unfold State.raiseRail; split <;> simp

@[simp] theorem State.raiseRail_readValue (s : State) (d : Nat) :
    (State.raiseRail s d).readValue = s.readValue := by unfold State.raiseRail; split <;> simp

@[simp] theorem State.raiseRail_mem (s : State) (d : Nat) :
    (State.raiseRail s d).mem = s.mem := by unfold State.raiseRail; split <;> simp

@[simp] theorem State.raiseRail_undef (s : State) (d : Nat) :
    (State.raiseRail s d).undef = s.undef := by unfold State.raiseRail; split <;> simp

@[simp] theorem State.raiseRail_tarns (s : State) (d : Nat) :
    (State.raiseRail s d).tarns = s.tarns := by unfold State.raiseRail; split <;> simp

@[simp] theorem State.raiseRail_prog (s : State) (d : Nat) :
    (State.raiseRail s d).prog = s.prog := by unfold State.raiseRail; split <;> simp

@[simp] theorem State.raiseRail_bound (s : State) (d : Nat) :
    (State.raiseRail s d).bound = s.bound := by unfold State.raiseRail; split <;> simp

@[simp] theorem State.raiseRail_units (s : State) (d : Nat) :
    (State.raiseRail s d).units = s.units := by unfold State.raiseRail; split <;> simp

@[simp] theorem State.raiseRail_step (s : State) (d : Nat) :
    (State.raiseRail s d).step = s.step := by unfold State.raiseRail; split <;> simp

@[simp] theorem State.raiseRail_stash (s : State) (d : Nat) :
    (State.raiseRail s d).stash = s.stash := by unfold State.raiseRail; split <;> simp

@[simp] theorem State.raiseRail_dom (s : State) (d : Nat) :
    (State.raiseRail s d).dom = s.dom := by unfold State.raiseRail; split <;> simp

@[simp] theorem State.raiseRail_twin (s : State) (d : Nat) :
    (State.raiseRail s d).twin = s.twin := by unfold State.raiseRail; split <;> simp

@[simp] theorem State.raiseRail_fab (s : State) (d : Nat) :
    (State.raiseRail s d).fab = s.fab := by unfold State.raiseRail; split <;> simp

@[simp] theorem State.raiseRail_inl (s : State) (d : Nat) :
    (State.raiseRail s d).inl = s.inl := by unfold State.raiseRail; split <;> simp

@[simp] theorem State.raiseRail_umc (s : State) (d : Nat) :
    (State.raiseRail s d).umc = s.umc := by unfold State.raiseRail; split <;> simp

@[simp] theorem State.raiseRail_sec (s : State) (d : Nat) :
    (State.raiseRail s d).sec = s.sec := by unfold State.raiseRail; split <;> simp

@[simp] theorem State.raiseRail_host (s : State) (d : Nat) :
    (State.raiseRail s d).host = s.host := by unfold State.raiseRail; split <;> simp

@[simp] theorem State.raiseRail_cp (s : State) (d : Nat) :
    (State.raiseRail s d).cp = s.cp := by unfold State.raiseRail; split <;> simp

@[simp] theorem State.raiseRail_queues (s : State) (d : Nat) :
    (State.raiseRail s d).queues = s.queues := by unfold State.raiseRail; split <;> simp

@[simp] theorem State.raiseRail_log (s : State) (d : Nat) :
    (State.raiseRail s d).log = s.log := by unfold State.raiseRail; split <;> simp

@[simp] theorem State.raiseRail_bulk (s : State) (d : Nat) :
    (State.raiseRail s d).bulk = s.bulk := by unfold State.raiseRail; split <;> simp

@[simp] theorem State.raiseRail_serv (s : State) (d : Nat) :
    (State.raiseRail s d).serv = s.serv := by unfold State.raiseRail; split <;> simp

@[simp] theorem State.raiseRail_out (s : State) (d : Nat) :
    (State.raiseRail s d).out = s.out := by unfold State.raiseRail; split <;> simp

@[simp] theorem State.egressDrop_pending (s : State) (why : Nat) :
    (State.egressDrop s why).pending = s.pending := by simp [State.egressDrop]

@[simp] theorem State.egressDrop_free (s : State) (why : Nat) :
    (State.egressDrop s why).free = s.free := by simp [State.egressDrop]

@[simp] theorem State.egressDrop_us (s : State) (why : Nat) :
    (State.egressDrop s why).us = s.us := by simp [State.egressDrop]

@[simp] theorem State.egressDrop_part (s : State) (why : Nat) :
    (State.egressDrop s why).part = s.part := by simp [State.egressDrop]

@[simp] theorem State.egressDrop_latches (s : State) (why : Nat) :
    (State.egressDrop s why).latches = s.latches := by simp [State.egressDrop]

@[simp] theorem State.egressDrop_access (s : State) (why : Nat) :
    (State.egressDrop s why).access = s.access := by simp [State.egressDrop]

@[simp] theorem State.egressDrop_readValue (s : State) (why : Nat) :
    (State.egressDrop s why).readValue = s.readValue := by simp [State.egressDrop]

@[simp] theorem State.egressDrop_prog (s : State) (why : Nat) :
    (State.egressDrop s why).prog = s.prog := by simp [State.egressDrop]

@[simp] theorem State.egressDrop_bound (s : State) (why : Nat) :
    (State.egressDrop s why).bound = s.bound := by simp [State.egressDrop]

@[simp] theorem State.egressDrop_units (s : State) (why : Nat) :
    (State.egressDrop s why).units = s.units := by simp [State.egressDrop]

@[simp] theorem State.egressDrop_step (s : State) (why : Nat) :
    (State.egressDrop s why).step = s.step := by simp [State.egressDrop]

@[simp] theorem State.egressDrop_stash (s : State) (why : Nat) :
    (State.egressDrop s why).stash = s.stash := by simp [State.egressDrop]

@[simp] theorem State.egressDrop_dom (s : State) (why : Nat) :
    (State.egressDrop s why).dom = s.dom := by simp [State.egressDrop]

@[simp] theorem State.egressDrop_twin (s : State) (why : Nat) :
    (State.egressDrop s why).twin = s.twin := by simp [State.egressDrop]

@[simp] theorem State.egressDrop_fab (s : State) (why : Nat) :
    (State.egressDrop s why).fab = s.fab := by simp [State.egressDrop]

@[simp] theorem State.egressDrop_inl (s : State) (why : Nat) :
    (State.egressDrop s why).inl = s.inl := by simp [State.egressDrop]

@[simp] theorem State.egressDrop_umc (s : State) (why : Nat) :
    (State.egressDrop s why).umc = s.umc := by simp [State.egressDrop]

@[simp] theorem State.egressDrop_sec (s : State) (why : Nat) :
    (State.egressDrop s why).sec = s.sec := by simp [State.egressDrop]

@[simp] theorem State.egressDrop_pwr (s : State) (why : Nat) :
    (State.egressDrop s why).pwr = s.pwr := by simp [State.egressDrop]

@[simp] theorem State.egressDrop_host (s : State) (why : Nat) :
    (State.egressDrop s why).host = s.host := by simp [State.egressDrop]

@[simp] theorem State.egressDrop_cp (s : State) (why : Nat) :
    (State.egressDrop s why).cp = s.cp := by simp [State.egressDrop]

@[simp] theorem State.egressDrop_queues (s : State) (why : Nat) :
    (State.egressDrop s why).queues = s.queues := by simp [State.egressDrop]

@[simp] theorem State.egressDrop_bulk (s : State) (why : Nat) :
    (State.egressDrop s why).bulk = s.bulk := by simp [State.egressDrop]

@[simp] theorem State.egressDrop_serv (s : State) (why : Nat) :
    (State.egressDrop s why).serv = s.serv := by simp [State.egressDrop]

@[simp] theorem State.egressDrop_out (s : State) (why : Nat) :
    (State.egressDrop s why).out = s.out := by simp [State.egressDrop]

@[simp] theorem State.txHost_pending (s : State) (x : Sent) :
    (State.txHost s x).pending = s.pending := rfl

@[simp] theorem State.txHost_free (s : State) (x : Sent) :
    (State.txHost s x).free = s.free := rfl

@[simp] theorem State.txHost_us (s : State) (x : Sent) :
    (State.txHost s x).us = s.us := rfl

@[simp] theorem State.txHost_part (s : State) (x : Sent) :
    (State.txHost s x).part = s.part := rfl

@[simp] theorem State.txHost_latches (s : State) (x : Sent) :
    (State.txHost s x).latches = s.latches := rfl

@[simp] theorem State.txHost_access (s : State) (x : Sent) :
    (State.txHost s x).access = s.access := rfl

@[simp] theorem State.txHost_readValue (s : State) (x : Sent) :
    (State.txHost s x).readValue = s.readValue := rfl

@[simp] theorem State.txHost_mem (s : State) (x : Sent) :
    (State.txHost s x).mem = s.mem := rfl

@[simp] theorem State.txHost_undef (s : State) (x : Sent) :
    (State.txHost s x).undef = s.undef := rfl

@[simp] theorem State.txHost_tarns (s : State) (x : Sent) :
    (State.txHost s x).tarns = s.tarns := rfl

@[simp] theorem State.txHost_prog (s : State) (x : Sent) :
    (State.txHost s x).prog = s.prog := rfl

@[simp] theorem State.txHost_bound (s : State) (x : Sent) :
    (State.txHost s x).bound = s.bound := rfl

@[simp] theorem State.txHost_units (s : State) (x : Sent) :
    (State.txHost s x).units = s.units := rfl

@[simp] theorem State.txHost_step (s : State) (x : Sent) :
    (State.txHost s x).step = s.step := rfl

@[simp] theorem State.txHost_stash (s : State) (x : Sent) :
    (State.txHost s x).stash = s.stash := rfl

@[simp] theorem State.txHost_dom (s : State) (x : Sent) :
    (State.txHost s x).dom = s.dom := rfl

@[simp] theorem State.txHost_twin (s : State) (x : Sent) :
    (State.txHost s x).twin = s.twin := rfl

@[simp] theorem State.txHost_fab (s : State) (x : Sent) :
    (State.txHost s x).fab = s.fab := rfl

@[simp] theorem State.txHost_inl (s : State) (x : Sent) :
    (State.txHost s x).inl = s.inl := rfl

@[simp] theorem State.txHost_umc (s : State) (x : Sent) :
    (State.txHost s x).umc = s.umc := rfl

@[simp] theorem State.txHost_sec (s : State) (x : Sent) :
    (State.txHost s x).sec = s.sec := rfl

@[simp] theorem State.txHost_pwr (s : State) (x : Sent) :
    (State.txHost s x).pwr = s.pwr := rfl

@[simp] theorem State.txHost_host (s : State) (x : Sent) :
    (State.txHost s x).host = s.host := rfl

@[simp] theorem State.txHost_cp (s : State) (x : Sent) :
    (State.txHost s x).cp = s.cp := rfl

@[simp] theorem State.txHost_queues (s : State) (x : Sent) :
    (State.txHost s x).queues = s.queues := rfl

@[simp] theorem State.txHost_log (s : State) (x : Sent) :
    (State.txHost s x).log = s.log := rfl

@[simp] theorem State.txHost_bulk (s : State) (x : Sent) :
    (State.txHost s x).bulk = s.bulk := rfl

@[simp] theorem State.txHost_serv (s : State) (x : Sent) :
    (State.txHost s x).serv = s.serv := rfl

@[simp] theorem State.sendNonReply_pending (s : State) (allowed : Bool) (x : Sent) :
    (State.sendNonReply s allowed x).pending = s.pending := by simp [State.sendNonReply]

@[simp] theorem State.sendNonReply_free (s : State) (allowed : Bool) (x : Sent) :
    (State.sendNonReply s allowed x).free = s.free := by simp [State.sendNonReply]

@[simp] theorem State.sendNonReply_us (s : State) (allowed : Bool) (x : Sent) :
    (State.sendNonReply s allowed x).us = s.us := by simp [State.sendNonReply]

@[simp] theorem State.sendNonReply_part (s : State) (allowed : Bool) (x : Sent) :
    (State.sendNonReply s allowed x).part = s.part := by simp [State.sendNonReply]

@[simp] theorem State.sendNonReply_latches (s : State) (allowed : Bool) (x : Sent) :
    (State.sendNonReply s allowed x).latches = s.latches := by simp [State.sendNonReply]

@[simp] theorem State.sendNonReply_access (s : State) (allowed : Bool) (x : Sent) :
    (State.sendNonReply s allowed x).access = s.access := by simp [State.sendNonReply]

@[simp] theorem State.sendNonReply_readValue (s : State) (allowed : Bool) (x : Sent) :
    (State.sendNonReply s allowed x).readValue = s.readValue := by simp [State.sendNonReply]

@[simp] theorem State.sendNonReply_prog (s : State) (allowed : Bool) (x : Sent) :
    (State.sendNonReply s allowed x).prog = s.prog := by simp [State.sendNonReply]

@[simp] theorem State.sendNonReply_bound (s : State) (allowed : Bool) (x : Sent) :
    (State.sendNonReply s allowed x).bound = s.bound := by simp [State.sendNonReply]

@[simp] theorem State.sendNonReply_units (s : State) (allowed : Bool) (x : Sent) :
    (State.sendNonReply s allowed x).units = s.units := by simp [State.sendNonReply]

@[simp] theorem State.sendNonReply_step (s : State) (allowed : Bool) (x : Sent) :
    (State.sendNonReply s allowed x).step = s.step := by simp [State.sendNonReply]

@[simp] theorem State.sendNonReply_stash (s : State) (allowed : Bool) (x : Sent) :
    (State.sendNonReply s allowed x).stash = s.stash := by simp [State.sendNonReply]

@[simp] theorem State.sendNonReply_dom (s : State) (allowed : Bool) (x : Sent) :
    (State.sendNonReply s allowed x).dom = s.dom := by simp [State.sendNonReply]

@[simp] theorem State.sendNonReply_twin (s : State) (allowed : Bool) (x : Sent) :
    (State.sendNonReply s allowed x).twin = s.twin := by simp [State.sendNonReply]

@[simp] theorem State.sendNonReply_fab (s : State) (allowed : Bool) (x : Sent) :
    (State.sendNonReply s allowed x).fab = s.fab := by simp [State.sendNonReply]

@[simp] theorem State.sendNonReply_inl (s : State) (allowed : Bool) (x : Sent) :
    (State.sendNonReply s allowed x).inl = s.inl := by simp [State.sendNonReply]

@[simp] theorem State.sendNonReply_umc (s : State) (allowed : Bool) (x : Sent) :
    (State.sendNonReply s allowed x).umc = s.umc := by simp [State.sendNonReply]

@[simp] theorem State.sendNonReply_sec (s : State) (allowed : Bool) (x : Sent) :
    (State.sendNonReply s allowed x).sec = s.sec := by simp [State.sendNonReply]

@[simp] theorem State.sendNonReply_pwr (s : State) (allowed : Bool) (x : Sent) :
    (State.sendNonReply s allowed x).pwr = s.pwr := by simp [State.sendNonReply]

@[simp] theorem State.sendNonReply_cp (s : State) (allowed : Bool) (x : Sent) :
    (State.sendNonReply s allowed x).cp = s.cp := by simp [State.sendNonReply]

@[simp] theorem State.sendNonReply_queues (s : State) (allowed : Bool) (x : Sent) :
    (State.sendNonReply s allowed x).queues = s.queues := by simp [State.sendNonReply]

@[simp] theorem State.sendNonReply_bulk (s : State) (allowed : Bool) (x : Sent) :
    (State.sendNonReply s allowed x).bulk = s.bulk := by simp [State.sendNonReply]

@[simp] theorem State.sendNonReply_serv (s : State) (allowed : Bool) (x : Sent) :
    (State.sendNonReply s allowed x).serv = s.serv := by simp [State.sendNonReply]

@[simp] theorem State.hostDiscard_pending (s : State) :
    (State.hostDiscard s).pending = s.pending := rfl

@[simp] theorem State.hostDiscard_free (s : State) :
    (State.hostDiscard s).free = s.free := rfl

@[simp] theorem State.hostDiscard_us (s : State) :
    (State.hostDiscard s).us = s.us := rfl

@[simp] theorem State.hostDiscard_part (s : State) :
    (State.hostDiscard s).part = s.part := rfl

@[simp] theorem State.hostDiscard_latches (s : State) :
    (State.hostDiscard s).latches = s.latches := rfl

@[simp] theorem State.hostDiscard_access (s : State) :
    (State.hostDiscard s).access = s.access := rfl

@[simp] theorem State.hostDiscard_readValue (s : State) :
    (State.hostDiscard s).readValue = s.readValue := rfl

@[simp] theorem State.hostDiscard_mem (s : State) :
    (State.hostDiscard s).mem = s.mem := rfl

@[simp] theorem State.hostDiscard_undef (s : State) :
    (State.hostDiscard s).undef = s.undef := rfl

@[simp] theorem State.hostDiscard_tarns (s : State) :
    (State.hostDiscard s).tarns = s.tarns := rfl

@[simp] theorem State.hostDiscard_prog (s : State) :
    (State.hostDiscard s).prog = s.prog := rfl

@[simp] theorem State.hostDiscard_bound (s : State) :
    (State.hostDiscard s).bound = s.bound := rfl

@[simp] theorem State.hostDiscard_units (s : State) :
    (State.hostDiscard s).units = s.units := rfl

@[simp] theorem State.hostDiscard_step (s : State) :
    (State.hostDiscard s).step = s.step := rfl

@[simp] theorem State.hostDiscard_stash (s : State) :
    (State.hostDiscard s).stash = s.stash := rfl

@[simp] theorem State.hostDiscard_dom (s : State) :
    (State.hostDiscard s).dom = s.dom := rfl

@[simp] theorem State.hostDiscard_twin (s : State) :
    (State.hostDiscard s).twin = s.twin := rfl

@[simp] theorem State.hostDiscard_fab (s : State) :
    (State.hostDiscard s).fab = s.fab := rfl

@[simp] theorem State.hostDiscard_inl (s : State) :
    (State.hostDiscard s).inl = s.inl := rfl

@[simp] theorem State.hostDiscard_umc (s : State) :
    (State.hostDiscard s).umc = s.umc := rfl

@[simp] theorem State.hostDiscard_sec (s : State) :
    (State.hostDiscard s).sec = s.sec := rfl

@[simp] theorem State.hostDiscard_pwr (s : State) :
    (State.hostDiscard s).pwr = s.pwr := rfl

@[simp] theorem State.hostDiscard_host (s : State) :
    (State.hostDiscard s).host = s.host := rfl

@[simp] theorem State.hostDiscard_cp (s : State) :
    (State.hostDiscard s).cp = s.cp := rfl

@[simp] theorem State.hostDiscard_queues (s : State) :
    (State.hostDiscard s).queues = s.queues := rfl

@[simp] theorem State.hostDiscard_log (s : State) :
    (State.hostDiscard s).log = s.log := rfl

@[simp] theorem State.hostDiscard_bulk (s : State) :
    (State.hostDiscard s).bulk = s.bulk := rfl

@[simp] theorem State.hostDiscard_serv (s : State) :
    (State.hostDiscard s).serv = s.serv := rfl

@[simp] theorem State.hostDiscard_out (s : State) :
    (State.hostDiscard s).out = s.out := rfl

@[simp] theorem State.setSynced_pending (s : State) (v : Bool) :
    (State.setSynced s v).pending = s.pending := by simp [State.setSynced]

@[simp] theorem State.setSynced_free (s : State) (v : Bool) :
    (State.setSynced s v).free = s.free := by simp [State.setSynced]

@[simp] theorem State.setSynced_us (s : State) (v : Bool) :
    (State.setSynced s v).us = s.us := by simp [State.setSynced]

@[simp] theorem State.setSynced_part (s : State) (v : Bool) :
    (State.setSynced s v).part = s.part := by simp [State.setSynced]

@[simp] theorem State.setSynced_latches (s : State) (v : Bool) :
    (State.setSynced s v).latches = s.latches := by simp [State.setSynced]

@[simp] theorem State.setSynced_access (s : State) (v : Bool) :
    (State.setSynced s v).access = s.access := by simp [State.setSynced]

@[simp] theorem State.setSynced_readValue (s : State) (v : Bool) :
    (State.setSynced s v).readValue = s.readValue := by simp [State.setSynced]

@[simp] theorem State.setSynced_prog (s : State) (v : Bool) :
    (State.setSynced s v).prog = s.prog := by simp [State.setSynced]

@[simp] theorem State.setSynced_bound (s : State) (v : Bool) :
    (State.setSynced s v).bound = s.bound := by simp [State.setSynced]

@[simp] theorem State.setSynced_units (s : State) (v : Bool) :
    (State.setSynced s v).units = s.units := by simp [State.setSynced]

@[simp] theorem State.setSynced_step (s : State) (v : Bool) :
    (State.setSynced s v).step = s.step := by simp [State.setSynced]

@[simp] theorem State.setSynced_stash (s : State) (v : Bool) :
    (State.setSynced s v).stash = s.stash := by simp [State.setSynced]

@[simp] theorem State.setSynced_dom (s : State) (v : Bool) :
    (State.setSynced s v).dom = s.dom := by simp [State.setSynced]

@[simp] theorem State.setSynced_twin (s : State) (v : Bool) :
    (State.setSynced s v).twin = s.twin := by simp [State.setSynced]

@[simp] theorem State.setSynced_fab (s : State) (v : Bool) :
    (State.setSynced s v).fab = s.fab := by simp [State.setSynced]

@[simp] theorem State.setSynced_inl (s : State) (v : Bool) :
    (State.setSynced s v).inl = s.inl := by simp [State.setSynced]

@[simp] theorem State.setSynced_umc (s : State) (v : Bool) :
    (State.setSynced s v).umc = s.umc := by simp [State.setSynced]

@[simp] theorem State.setSynced_sec (s : State) (v : Bool) :
    (State.setSynced s v).sec = s.sec := by simp [State.setSynced]

@[simp] theorem State.setSynced_pwr (s : State) (v : Bool) :
    (State.setSynced s v).pwr = s.pwr := by simp [State.setSynced]

@[simp] theorem State.setSynced_cp (s : State) (v : Bool) :
    (State.setSynced s v).cp = s.cp := by simp [State.setSynced]

@[simp] theorem State.setSynced_queues (s : State) (v : Bool) :
    (State.setSynced s v).queues = s.queues := by simp [State.setSynced]

@[simp] theorem State.setSynced_bulk (s : State) (v : Bool) :
    (State.setSynced s v).bulk = s.bulk := by simp [State.setSynced]

@[simp] theorem State.setSynced_serv (s : State) (v : Bool) :
    (State.setSynced s v).serv = s.serv := by simp [State.setSynced]

@[simp] theorem State.setSynced_out (s : State) (v : Bool) :
    (State.setSynced s v).out = s.out := by simp [State.setSynced]

@[simp] theorem State.measure_pending (s : State) (o : Int) :
    (State.measure s o).pending = s.pending := by simp [State.measure]

@[simp] theorem State.measure_free (s : State) (o : Int) :
    (State.measure s o).free = s.free := by simp [State.measure]

@[simp] theorem State.measure_us (s : State) (o : Int) :
    (State.measure s o).us = s.us := by simp [State.measure]

@[simp] theorem State.measure_part (s : State) (o : Int) :
    (State.measure s o).part = s.part := by simp [State.measure]

@[simp] theorem State.measure_latches (s : State) (o : Int) :
    (State.measure s o).latches = s.latches := by simp [State.measure]

@[simp] theorem State.measure_access (s : State) (o : Int) :
    (State.measure s o).access = s.access := by simp [State.measure]

@[simp] theorem State.measure_readValue (s : State) (o : Int) :
    (State.measure s o).readValue = s.readValue := by simp [State.measure]

@[simp] theorem State.measure_prog (s : State) (o : Int) :
    (State.measure s o).prog = s.prog := by simp [State.measure]

@[simp] theorem State.measure_bound (s : State) (o : Int) :
    (State.measure s o).bound = s.bound := by simp [State.measure]

@[simp] theorem State.measure_units (s : State) (o : Int) :
    (State.measure s o).units = s.units := by simp [State.measure]

@[simp] theorem State.measure_step (s : State) (o : Int) :
    (State.measure s o).step = s.step := by simp [State.measure]

@[simp] theorem State.measure_stash (s : State) (o : Int) :
    (State.measure s o).stash = s.stash := by simp [State.measure]

@[simp] theorem State.measure_dom (s : State) (o : Int) :
    (State.measure s o).dom = s.dom := by simp [State.measure]

@[simp] theorem State.measure_twin (s : State) (o : Int) :
    (State.measure s o).twin = s.twin := by simp [State.measure]

@[simp] theorem State.measure_fab (s : State) (o : Int) :
    (State.measure s o).fab = s.fab := by simp [State.measure]

@[simp] theorem State.measure_inl (s : State) (o : Int) :
    (State.measure s o).inl = s.inl := by simp [State.measure]

@[simp] theorem State.measure_umc (s : State) (o : Int) :
    (State.measure s o).umc = s.umc := by simp [State.measure]

@[simp] theorem State.measure_sec (s : State) (o : Int) :
    (State.measure s o).sec = s.sec := by simp [State.measure]

@[simp] theorem State.measure_pwr (s : State) (o : Int) :
    (State.measure s o).pwr = s.pwr := by simp [State.measure]

@[simp] theorem State.measure_cp (s : State) (o : Int) :
    (State.measure s o).cp = s.cp := by simp [State.measure]

@[simp] theorem State.measure_queues (s : State) (o : Int) :
    (State.measure s o).queues = s.queues := by simp [State.measure]

@[simp] theorem State.measure_bulk (s : State) (o : Int) :
    (State.measure s o).bulk = s.bulk := by simp [State.measure]

@[simp] theorem State.measure_serv (s : State) (o : Int) :
    (State.measure s o).serv = s.serv := by simp [State.measure]

@[simp] theorem State.measure_out (s : State) (o : Int) :
    (State.measure s o).out = s.out := by simp [State.measure]

@[simp] theorem State.setQueue_pending (s : State) (i : Nat) (q : Queue) :
    (State.setQueue s i q).pending = s.pending := rfl

@[simp] theorem State.setQueue_free (s : State) (i : Nat) (q : Queue) :
    (State.setQueue s i q).free = s.free := rfl

@[simp] theorem State.setQueue_us (s : State) (i : Nat) (q : Queue) :
    (State.setQueue s i q).us = s.us := rfl

@[simp] theorem State.setQueue_part (s : State) (i : Nat) (q : Queue) :
    (State.setQueue s i q).part = s.part := rfl

@[simp] theorem State.setQueue_regs (s : State) (i : Nat) (q : Queue) :
    (State.setQueue s i q).regs = s.regs := rfl

@[simp] theorem State.setQueue_latches (s : State) (i : Nat) (q : Queue) :
    (State.setQueue s i q).latches = s.latches := rfl

@[simp] theorem State.setQueue_access (s : State) (i : Nat) (q : Queue) :
    (State.setQueue s i q).access = s.access := rfl

@[simp] theorem State.setQueue_readValue (s : State) (i : Nat) (q : Queue) :
    (State.setQueue s i q).readValue = s.readValue := rfl

@[simp] theorem State.setQueue_mem (s : State) (i : Nat) (q : Queue) :
    (State.setQueue s i q).mem = s.mem := rfl

@[simp] theorem State.setQueue_undef (s : State) (i : Nat) (q : Queue) :
    (State.setQueue s i q).undef = s.undef := rfl

@[simp] theorem State.setQueue_tarns (s : State) (i : Nat) (q : Queue) :
    (State.setQueue s i q).tarns = s.tarns := rfl

@[simp] theorem State.setQueue_prog (s : State) (i : Nat) (q : Queue) :
    (State.setQueue s i q).prog = s.prog := rfl

@[simp] theorem State.setQueue_bound (s : State) (i : Nat) (q : Queue) :
    (State.setQueue s i q).bound = s.bound := rfl

@[simp] theorem State.setQueue_units (s : State) (i : Nat) (q : Queue) :
    (State.setQueue s i q).units = s.units := rfl

@[simp] theorem State.setQueue_step (s : State) (i : Nat) (q : Queue) :
    (State.setQueue s i q).step = s.step := rfl

@[simp] theorem State.setQueue_stash (s : State) (i : Nat) (q : Queue) :
    (State.setQueue s i q).stash = s.stash := rfl

@[simp] theorem State.setQueue_dom (s : State) (i : Nat) (q : Queue) :
    (State.setQueue s i q).dom = s.dom := rfl

@[simp] theorem State.setQueue_twin (s : State) (i : Nat) (q : Queue) :
    (State.setQueue s i q).twin = s.twin := rfl

@[simp] theorem State.setQueue_fab (s : State) (i : Nat) (q : Queue) :
    (State.setQueue s i q).fab = s.fab := rfl

@[simp] theorem State.setQueue_inl (s : State) (i : Nat) (q : Queue) :
    (State.setQueue s i q).inl = s.inl := rfl

@[simp] theorem State.setQueue_umc (s : State) (i : Nat) (q : Queue) :
    (State.setQueue s i q).umc = s.umc := rfl

@[simp] theorem State.setQueue_sec (s : State) (i : Nat) (q : Queue) :
    (State.setQueue s i q).sec = s.sec := rfl

@[simp] theorem State.setQueue_pwr (s : State) (i : Nat) (q : Queue) :
    (State.setQueue s i q).pwr = s.pwr := rfl

@[simp] theorem State.setQueue_host (s : State) (i : Nat) (q : Queue) :
    (State.setQueue s i q).host = s.host := rfl

@[simp] theorem State.setQueue_cp (s : State) (i : Nat) (q : Queue) :
    (State.setQueue s i q).cp = s.cp := rfl

@[simp] theorem State.setQueue_log (s : State) (i : Nat) (q : Queue) :
    (State.setQueue s i q).log = s.log := rfl

@[simp] theorem State.setQueue_bulk (s : State) (i : Nat) (q : Queue) :
    (State.setQueue s i q).bulk = s.bulk := rfl

@[simp] theorem State.setQueue_serv (s : State) (i : Nat) (q : Queue) :
    (State.setQueue s i q).serv = s.serv := rfl

@[simp] theorem State.setQueue_out (s : State) (i : Nat) (q : Queue) :
    (State.setQueue s i q).out = s.out := rfl

@[simp] theorem State.sendReply_pending (s : State) (port : CmdPort) (via : Mac × Ip) (dest : Sender) (data : List Byte) :
    (State.sendReply s port via dest data).pending = s.pending := by unfold State.sendReply; (repeat' split) <;> simp

@[simp] theorem State.sendReply_free (s : State) (port : CmdPort) (via : Mac × Ip) (dest : Sender) (data : List Byte) :
    (State.sendReply s port via dest data).free = s.free := by unfold State.sendReply; (repeat' split) <;> simp

@[simp] theorem State.sendReply_us (s : State) (port : CmdPort) (via : Mac × Ip) (dest : Sender) (data : List Byte) :
    (State.sendReply s port via dest data).us = s.us := by unfold State.sendReply; (repeat' split) <;> simp

@[simp] theorem State.sendReply_part (s : State) (port : CmdPort) (via : Mac × Ip) (dest : Sender) (data : List Byte) :
    (State.sendReply s port via dest data).part = s.part := by unfold State.sendReply; (repeat' split) <;> simp

@[simp] theorem State.sendReply_latches (s : State) (port : CmdPort) (via : Mac × Ip) (dest : Sender) (data : List Byte) :
    (State.sendReply s port via dest data).latches = s.latches := by unfold State.sendReply; (repeat' split) <;> simp

@[simp] theorem State.sendReply_access (s : State) (port : CmdPort) (via : Mac × Ip) (dest : Sender) (data : List Byte) :
    (State.sendReply s port via dest data).access = s.access := by unfold State.sendReply; (repeat' split) <;> simp

@[simp] theorem State.sendReply_readValue (s : State) (port : CmdPort) (via : Mac × Ip) (dest : Sender) (data : List Byte) :
    (State.sendReply s port via dest data).readValue = s.readValue := by unfold State.sendReply; (repeat' split) <;> simp

@[simp] theorem State.sendReply_prog (s : State) (port : CmdPort) (via : Mac × Ip) (dest : Sender) (data : List Byte) :
    (State.sendReply s port via dest data).prog = s.prog := by unfold State.sendReply; (repeat' split) <;> simp

@[simp] theorem State.sendReply_bound (s : State) (port : CmdPort) (via : Mac × Ip) (dest : Sender) (data : List Byte) :
    (State.sendReply s port via dest data).bound = s.bound := by unfold State.sendReply; (repeat' split) <;> simp

@[simp] theorem State.sendReply_units (s : State) (port : CmdPort) (via : Mac × Ip) (dest : Sender) (data : List Byte) :
    (State.sendReply s port via dest data).units = s.units := by unfold State.sendReply; (repeat' split) <;> simp

@[simp] theorem State.sendReply_step (s : State) (port : CmdPort) (via : Mac × Ip) (dest : Sender) (data : List Byte) :
    (State.sendReply s port via dest data).step = s.step := by unfold State.sendReply; (repeat' split) <;> simp

@[simp] theorem State.sendReply_stash (s : State) (port : CmdPort) (via : Mac × Ip) (dest : Sender) (data : List Byte) :
    (State.sendReply s port via dest data).stash = s.stash := by unfold State.sendReply; (repeat' split) <;> simp

@[simp] theorem State.sendReply_dom (s : State) (port : CmdPort) (via : Mac × Ip) (dest : Sender) (data : List Byte) :
    (State.sendReply s port via dest data).dom = s.dom := by unfold State.sendReply; (repeat' split) <;> simp

@[simp] theorem State.sendReply_twin (s : State) (port : CmdPort) (via : Mac × Ip) (dest : Sender) (data : List Byte) :
    (State.sendReply s port via dest data).twin = s.twin := by unfold State.sendReply; (repeat' split) <;> simp

@[simp] theorem State.sendReply_fab (s : State) (port : CmdPort) (via : Mac × Ip) (dest : Sender) (data : List Byte) :
    (State.sendReply s port via dest data).fab = s.fab := by unfold State.sendReply; (repeat' split) <;> simp

@[simp] theorem State.sendReply_inl (s : State) (port : CmdPort) (via : Mac × Ip) (dest : Sender) (data : List Byte) :
    (State.sendReply s port via dest data).inl = s.inl := by unfold State.sendReply; (repeat' split) <;> simp

@[simp] theorem State.sendReply_umc (s : State) (port : CmdPort) (via : Mac × Ip) (dest : Sender) (data : List Byte) :
    (State.sendReply s port via dest data).umc = s.umc := by unfold State.sendReply; (repeat' split) <;> simp

@[simp] theorem State.sendReply_sec (s : State) (port : CmdPort) (via : Mac × Ip) (dest : Sender) (data : List Byte) :
    (State.sendReply s port via dest data).sec = s.sec := by unfold State.sendReply; (repeat' split) <;> simp

@[simp] theorem State.sendReply_pwr (s : State) (port : CmdPort) (via : Mac × Ip) (dest : Sender) (data : List Byte) :
    (State.sendReply s port via dest data).pwr = s.pwr := by unfold State.sendReply; (repeat' split) <;> simp

@[simp] theorem State.sendReply_host (s : State) (port : CmdPort) (via : Mac × Ip) (dest : Sender) (data : List Byte) :
    (State.sendReply s port via dest data).host = s.host := by unfold State.sendReply; (repeat' split) <;> simp

@[simp] theorem State.sendReply_cp (s : State) (port : CmdPort) (via : Mac × Ip) (dest : Sender) (data : List Byte) :
    (State.sendReply s port via dest data).cp = s.cp := by unfold State.sendReply; (repeat' split) <;> simp

@[simp] theorem State.sendReply_queues (s : State) (port : CmdPort) (via : Mac × Ip) (dest : Sender) (data : List Byte) :
    (State.sendReply s port via dest data).queues = s.queues := by unfold State.sendReply; (repeat' split) <;> simp

@[simp] theorem State.sendReply_bulk (s : State) (port : CmdPort) (via : Mac × Ip) (dest : Sender) (data : List Byte) :
    (State.sendReply s port via dest data).bulk = s.bulk := by unfold State.sendReply; (repeat' split) <;> simp

@[simp] theorem State.sendReply_serv (s : State) (port : CmdPort) (via : Mac × Ip) (dest : Sender) (data : List Byte) :
    (State.sendReply s port via dest data).serv = s.serv := by unfold State.sendReply; (repeat' split) <;> simp

@[simp] theorem State.reply_pending (s : State) (i : Nat) (p : Packet) (code detail : Nat) (payload : List Byte) (via : Mac × Ip) :
    (State.reply s i p code detail payload via).pending = s.pending := by simp [State.reply]

@[simp] theorem State.reply_free (s : State) (i : Nat) (p : Packet) (code detail : Nat) (payload : List Byte) (via : Mac × Ip) :
    (State.reply s i p code detail payload via).free = s.free := by simp [State.reply]

@[simp] theorem State.reply_us (s : State) (i : Nat) (p : Packet) (code detail : Nat) (payload : List Byte) (via : Mac × Ip) :
    (State.reply s i p code detail payload via).us = s.us := by simp [State.reply]

@[simp] theorem State.reply_part (s : State) (i : Nat) (p : Packet) (code detail : Nat) (payload : List Byte) (via : Mac × Ip) :
    (State.reply s i p code detail payload via).part = s.part := by simp [State.reply]

@[simp] theorem State.reply_latches (s : State) (i : Nat) (p : Packet) (code detail : Nat) (payload : List Byte) (via : Mac × Ip) :
    (State.reply s i p code detail payload via).latches = s.latches := by simp [State.reply]

@[simp] theorem State.reply_access (s : State) (i : Nat) (p : Packet) (code detail : Nat) (payload : List Byte) (via : Mac × Ip) :
    (State.reply s i p code detail payload via).access = s.access := by simp [State.reply]

@[simp] theorem State.reply_readValue (s : State) (i : Nat) (p : Packet) (code detail : Nat) (payload : List Byte) (via : Mac × Ip) :
    (State.reply s i p code detail payload via).readValue = s.readValue := by simp [State.reply]

@[simp] theorem State.reply_prog (s : State) (i : Nat) (p : Packet) (code detail : Nat) (payload : List Byte) (via : Mac × Ip) :
    (State.reply s i p code detail payload via).prog = s.prog := by simp [State.reply]

@[simp] theorem State.reply_bound (s : State) (i : Nat) (p : Packet) (code detail : Nat) (payload : List Byte) (via : Mac × Ip) :
    (State.reply s i p code detail payload via).bound = s.bound := by simp [State.reply]

@[simp] theorem State.reply_units (s : State) (i : Nat) (p : Packet) (code detail : Nat) (payload : List Byte) (via : Mac × Ip) :
    (State.reply s i p code detail payload via).units = s.units := by simp [State.reply]

@[simp] theorem State.reply_step (s : State) (i : Nat) (p : Packet) (code detail : Nat) (payload : List Byte) (via : Mac × Ip) :
    (State.reply s i p code detail payload via).step = s.step := by simp [State.reply]

@[simp] theorem State.reply_stash (s : State) (i : Nat) (p : Packet) (code detail : Nat) (payload : List Byte) (via : Mac × Ip) :
    (State.reply s i p code detail payload via).stash = s.stash := by simp [State.reply]

@[simp] theorem State.reply_dom (s : State) (i : Nat) (p : Packet) (code detail : Nat) (payload : List Byte) (via : Mac × Ip) :
    (State.reply s i p code detail payload via).dom = s.dom := by simp [State.reply]

@[simp] theorem State.reply_twin (s : State) (i : Nat) (p : Packet) (code detail : Nat) (payload : List Byte) (via : Mac × Ip) :
    (State.reply s i p code detail payload via).twin = s.twin := by simp [State.reply]

@[simp] theorem State.reply_fab (s : State) (i : Nat) (p : Packet) (code detail : Nat) (payload : List Byte) (via : Mac × Ip) :
    (State.reply s i p code detail payload via).fab = s.fab := by simp [State.reply]

@[simp] theorem State.reply_inl (s : State) (i : Nat) (p : Packet) (code detail : Nat) (payload : List Byte) (via : Mac × Ip) :
    (State.reply s i p code detail payload via).inl = s.inl := by simp [State.reply]

@[simp] theorem State.reply_umc (s : State) (i : Nat) (p : Packet) (code detail : Nat) (payload : List Byte) (via : Mac × Ip) :
    (State.reply s i p code detail payload via).umc = s.umc := by simp [State.reply]

@[simp] theorem State.reply_sec (s : State) (i : Nat) (p : Packet) (code detail : Nat) (payload : List Byte) (via : Mac × Ip) :
    (State.reply s i p code detail payload via).sec = s.sec := by simp [State.reply]

@[simp] theorem State.reply_pwr (s : State) (i : Nat) (p : Packet) (code detail : Nat) (payload : List Byte) (via : Mac × Ip) :
    (State.reply s i p code detail payload via).pwr = s.pwr := by simp [State.reply]

@[simp] theorem State.reply_host (s : State) (i : Nat) (p : Packet) (code detail : Nat) (payload : List Byte) (via : Mac × Ip) :
    (State.reply s i p code detail payload via).host = s.host := by simp [State.reply]

@[simp] theorem State.reply_cp (s : State) (i : Nat) (p : Packet) (code detail : Nat) (payload : List Byte) (via : Mac × Ip) :
    (State.reply s i p code detail payload via).cp = s.cp := by simp [State.reply]

@[simp] theorem State.reply_bulk (s : State) (i : Nat) (p : Packet) (code detail : Nat) (payload : List Byte) (via : Mac × Ip) :
    (State.reply s i p code detail payload via).bulk = s.bulk := by simp [State.reply]

@[simp] theorem State.reply_serv (s : State) (i : Nat) (p : Packet) (code detail : Nat) (payload : List Byte) (via : Mac × Ip) :
    (State.reply s i p code detail payload via).serv = s.serv := by simp [State.reply]

@[simp] theorem State.drainUnknown_pending (i n : Nat) (s : State) :
    (State.drainUnknown i n s).pending = s.pending := by
  induction n generalizing s with
  | zero => rfl
  | succ n ih => unfold State.drainUnknown; dsimp only; (repeat' split) <;> simp [ih]

@[simp] theorem State.drainUnknown_free (i n : Nat) (s : State) :
    (State.drainUnknown i n s).free = s.free := by
  induction n generalizing s with
  | zero => rfl
  | succ n ih => unfold State.drainUnknown; dsimp only; (repeat' split) <;> simp [ih]

@[simp] theorem State.drainUnknown_us (i n : Nat) (s : State) :
    (State.drainUnknown i n s).us = s.us := by
  induction n generalizing s with
  | zero => rfl
  | succ n ih => unfold State.drainUnknown; dsimp only; (repeat' split) <;> simp [ih]

@[simp] theorem State.drainUnknown_part (i n : Nat) (s : State) :
    (State.drainUnknown i n s).part = s.part := by
  induction n generalizing s with
  | zero => rfl
  | succ n ih => unfold State.drainUnknown; dsimp only; (repeat' split) <;> simp [ih]

@[simp] theorem State.drainUnknown_latches (i n : Nat) (s : State) :
    (State.drainUnknown i n s).latches = s.latches := by
  induction n generalizing s with
  | zero => rfl
  | succ n ih => unfold State.drainUnknown; dsimp only; (repeat' split) <;> simp [ih]

@[simp] theorem State.drainUnknown_access (i n : Nat) (s : State) :
    (State.drainUnknown i n s).access = s.access := by
  induction n generalizing s with
  | zero => rfl
  | succ n ih => unfold State.drainUnknown; dsimp only; (repeat' split) <;> simp [ih]

@[simp] theorem State.drainUnknown_readValue (i n : Nat) (s : State) :
    (State.drainUnknown i n s).readValue = s.readValue := by
  induction n generalizing s with
  | zero => rfl
  | succ n ih => unfold State.drainUnknown; dsimp only; (repeat' split) <;> simp [ih]

@[simp] theorem State.drainUnknown_prog (i n : Nat) (s : State) :
    (State.drainUnknown i n s).prog = s.prog := by
  induction n generalizing s with
  | zero => rfl
  | succ n ih => unfold State.drainUnknown; dsimp only; (repeat' split) <;> simp [ih]

@[simp] theorem State.drainUnknown_bound (i n : Nat) (s : State) :
    (State.drainUnknown i n s).bound = s.bound := by
  induction n generalizing s with
  | zero => rfl
  | succ n ih => unfold State.drainUnknown; dsimp only; (repeat' split) <;> simp [ih]

@[simp] theorem State.drainUnknown_units (i n : Nat) (s : State) :
    (State.drainUnknown i n s).units = s.units := by
  induction n generalizing s with
  | zero => rfl
  | succ n ih => unfold State.drainUnknown; dsimp only; (repeat' split) <;> simp [ih]

@[simp] theorem State.drainUnknown_step (i n : Nat) (s : State) :
    (State.drainUnknown i n s).step = s.step := by
  induction n generalizing s with
  | zero => rfl
  | succ n ih => unfold State.drainUnknown; dsimp only; (repeat' split) <;> simp [ih]

@[simp] theorem State.drainUnknown_stash (i n : Nat) (s : State) :
    (State.drainUnknown i n s).stash = s.stash := by
  induction n generalizing s with
  | zero => rfl
  | succ n ih => unfold State.drainUnknown; dsimp only; (repeat' split) <;> simp [ih]

@[simp] theorem State.drainUnknown_dom (i n : Nat) (s : State) :
    (State.drainUnknown i n s).dom = s.dom := by
  induction n generalizing s with
  | zero => rfl
  | succ n ih => unfold State.drainUnknown; dsimp only; (repeat' split) <;> simp [ih]

@[simp] theorem State.drainUnknown_twin (i n : Nat) (s : State) :
    (State.drainUnknown i n s).twin = s.twin := by
  induction n generalizing s with
  | zero => rfl
  | succ n ih => unfold State.drainUnknown; dsimp only; (repeat' split) <;> simp [ih]

@[simp] theorem State.drainUnknown_fab (i n : Nat) (s : State) :
    (State.drainUnknown i n s).fab = s.fab := by
  induction n generalizing s with
  | zero => rfl
  | succ n ih => unfold State.drainUnknown; dsimp only; (repeat' split) <;> simp [ih]

@[simp] theorem State.drainUnknown_inl (i n : Nat) (s : State) :
    (State.drainUnknown i n s).inl = s.inl := by
  induction n generalizing s with
  | zero => rfl
  | succ n ih => unfold State.drainUnknown; dsimp only; (repeat' split) <;> simp [ih]

@[simp] theorem State.drainUnknown_umc (i n : Nat) (s : State) :
    (State.drainUnknown i n s).umc = s.umc := by
  induction n generalizing s with
  | zero => rfl
  | succ n ih => unfold State.drainUnknown; dsimp only; (repeat' split) <;> simp [ih]

@[simp] theorem State.drainUnknown_sec (i n : Nat) (s : State) :
    (State.drainUnknown i n s).sec = s.sec := by
  induction n generalizing s with
  | zero => rfl
  | succ n ih => unfold State.drainUnknown; dsimp only; (repeat' split) <;> simp [ih]

@[simp] theorem State.drainUnknown_pwr (i n : Nat) (s : State) :
    (State.drainUnknown i n s).pwr = s.pwr := by
  induction n generalizing s with
  | zero => rfl
  | succ n ih => unfold State.drainUnknown; dsimp only; (repeat' split) <;> simp [ih]

@[simp] theorem State.drainUnknown_host (i n : Nat) (s : State) :
    (State.drainUnknown i n s).host = s.host := by
  induction n generalizing s with
  | zero => rfl
  | succ n ih => unfold State.drainUnknown; dsimp only; (repeat' split) <;> simp [ih]

@[simp] theorem State.drainUnknown_cp (i n : Nat) (s : State) :
    (State.drainUnknown i n s).cp = s.cp := by
  induction n generalizing s with
  | zero => rfl
  | succ n ih => unfold State.drainUnknown; dsimp only; (repeat' split) <;> simp [ih]

@[simp] theorem State.drainUnknown_bulk (i n : Nat) (s : State) :
    (State.drainUnknown i n s).bulk = s.bulk := by
  induction n generalizing s with
  | zero => rfl
  | succ n ih => unfold State.drainUnknown; dsimp only; (repeat' split) <;> simp [ih]

@[simp] theorem State.drainUnknown_serv (i n : Nat) (s : State) :
    (State.drainUnknown i n s).serv = s.serv := by
  induction n generalizing s with
  | zero => rfl
  | succ n ih => unfold State.drainUnknown; dsimp only; (repeat' split) <;> simp [ih]

@[simp] theorem State.advance_pending (s : State) (i : Nat) :
    (State.advance s i).pending = s.pending := by simp [State.advance]

@[simp] theorem State.advance_free (s : State) (i : Nat) :
    (State.advance s i).free = s.free := by simp [State.advance]

@[simp] theorem State.advance_us (s : State) (i : Nat) :
    (State.advance s i).us = s.us := by simp [State.advance]

@[simp] theorem State.advance_part (s : State) (i : Nat) :
    (State.advance s i).part = s.part := by simp [State.advance]

@[simp] theorem State.advance_latches (s : State) (i : Nat) :
    (State.advance s i).latches = s.latches := by simp [State.advance]

@[simp] theorem State.advance_access (s : State) (i : Nat) :
    (State.advance s i).access = s.access := by simp [State.advance]

@[simp] theorem State.advance_readValue (s : State) (i : Nat) :
    (State.advance s i).readValue = s.readValue := by simp [State.advance]

@[simp] theorem State.advance_prog (s : State) (i : Nat) :
    (State.advance s i).prog = s.prog := by simp [State.advance]

@[simp] theorem State.advance_bound (s : State) (i : Nat) :
    (State.advance s i).bound = s.bound := by simp [State.advance]

@[simp] theorem State.advance_units (s : State) (i : Nat) :
    (State.advance s i).units = s.units := by simp [State.advance]

@[simp] theorem State.advance_step (s : State) (i : Nat) :
    (State.advance s i).step = s.step := by simp [State.advance]

@[simp] theorem State.advance_stash (s : State) (i : Nat) :
    (State.advance s i).stash = s.stash := by simp [State.advance]

@[simp] theorem State.advance_dom (s : State) (i : Nat) :
    (State.advance s i).dom = s.dom := by simp [State.advance]

@[simp] theorem State.advance_twin (s : State) (i : Nat) :
    (State.advance s i).twin = s.twin := by simp [State.advance]

@[simp] theorem State.advance_fab (s : State) (i : Nat) :
    (State.advance s i).fab = s.fab := by simp [State.advance]

@[simp] theorem State.advance_inl (s : State) (i : Nat) :
    (State.advance s i).inl = s.inl := by simp [State.advance]

@[simp] theorem State.advance_umc (s : State) (i : Nat) :
    (State.advance s i).umc = s.umc := by simp [State.advance]

@[simp] theorem State.advance_sec (s : State) (i : Nat) :
    (State.advance s i).sec = s.sec := by simp [State.advance]

@[simp] theorem State.advance_pwr (s : State) (i : Nat) :
    (State.advance s i).pwr = s.pwr := by simp [State.advance]

@[simp] theorem State.advance_host (s : State) (i : Nat) :
    (State.advance s i).host = s.host := by simp [State.advance]

@[simp] theorem State.advance_cp (s : State) (i : Nat) :
    (State.advance s i).cp = s.cp := by simp [State.advance]

@[simp] theorem State.advance_bulk (s : State) (i : Nat) :
    (State.advance s i).bulk = s.bulk := by simp [State.advance]

@[simp] theorem State.advance_serv (s : State) (i : Nat) :
    (State.advance s i).serv = s.serv := by simp [State.advance]

@[simp] theorem State.finishBusy_pending (s : State) (i op code detail : Nat) (payload : List Byte) :
    (State.finishBusy s i op code detail payload).pending = s.pending := by unfold State.finishBusy; (repeat' split) <;> simp

@[simp] theorem State.finishBusy_free (s : State) (i op code detail : Nat) (payload : List Byte) :
    (State.finishBusy s i op code detail payload).free = s.free := by unfold State.finishBusy; (repeat' split) <;> simp

@[simp] theorem State.finishBusy_us (s : State) (i op code detail : Nat) (payload : List Byte) :
    (State.finishBusy s i op code detail payload).us = s.us := by unfold State.finishBusy; (repeat' split) <;> simp

@[simp] theorem State.finishBusy_part (s : State) (i op code detail : Nat) (payload : List Byte) :
    (State.finishBusy s i op code detail payload).part = s.part := by unfold State.finishBusy; (repeat' split) <;> simp

@[simp] theorem State.finishBusy_latches (s : State) (i op code detail : Nat) (payload : List Byte) :
    (State.finishBusy s i op code detail payload).latches = s.latches := by unfold State.finishBusy; (repeat' split) <;> simp

@[simp] theorem State.finishBusy_access (s : State) (i op code detail : Nat) (payload : List Byte) :
    (State.finishBusy s i op code detail payload).access = s.access := by unfold State.finishBusy; (repeat' split) <;> simp

@[simp] theorem State.finishBusy_readValue (s : State) (i op code detail : Nat) (payload : List Byte) :
    (State.finishBusy s i op code detail payload).readValue = s.readValue := by unfold State.finishBusy; (repeat' split) <;> simp

@[simp] theorem State.finishBusy_prog (s : State) (i op code detail : Nat) (payload : List Byte) :
    (State.finishBusy s i op code detail payload).prog = s.prog := by unfold State.finishBusy; (repeat' split) <;> simp

@[simp] theorem State.finishBusy_bound (s : State) (i op code detail : Nat) (payload : List Byte) :
    (State.finishBusy s i op code detail payload).bound = s.bound := by unfold State.finishBusy; (repeat' split) <;> simp

@[simp] theorem State.finishBusy_units (s : State) (i op code detail : Nat) (payload : List Byte) :
    (State.finishBusy s i op code detail payload).units = s.units := by unfold State.finishBusy; (repeat' split) <;> simp

@[simp] theorem State.finishBusy_step (s : State) (i op code detail : Nat) (payload : List Byte) :
    (State.finishBusy s i op code detail payload).step = s.step := by unfold State.finishBusy; (repeat' split) <;> simp

@[simp] theorem State.finishBusy_stash (s : State) (i op code detail : Nat) (payload : List Byte) :
    (State.finishBusy s i op code detail payload).stash = s.stash := by unfold State.finishBusy; (repeat' split) <;> simp

@[simp] theorem State.finishBusy_dom (s : State) (i op code detail : Nat) (payload : List Byte) :
    (State.finishBusy s i op code detail payload).dom = s.dom := by unfold State.finishBusy; (repeat' split) <;> simp

@[simp] theorem State.finishBusy_twin (s : State) (i op code detail : Nat) (payload : List Byte) :
    (State.finishBusy s i op code detail payload).twin = s.twin := by unfold State.finishBusy; (repeat' split) <;> simp

@[simp] theorem State.finishBusy_fab (s : State) (i op code detail : Nat) (payload : List Byte) :
    (State.finishBusy s i op code detail payload).fab = s.fab := by unfold State.finishBusy; (repeat' split) <;> simp

@[simp] theorem State.finishBusy_inl (s : State) (i op code detail : Nat) (payload : List Byte) :
    (State.finishBusy s i op code detail payload).inl = s.inl := by unfold State.finishBusy; (repeat' split) <;> simp

@[simp] theorem State.finishBusy_umc (s : State) (i op code detail : Nat) (payload : List Byte) :
    (State.finishBusy s i op code detail payload).umc = s.umc := by unfold State.finishBusy; (repeat' split) <;> simp

@[simp] theorem State.finishBusy_sec (s : State) (i op code detail : Nat) (payload : List Byte) :
    (State.finishBusy s i op code detail payload).sec = s.sec := by unfold State.finishBusy; (repeat' split) <;> simp

@[simp] theorem State.finishBusy_pwr (s : State) (i op code detail : Nat) (payload : List Byte) :
    (State.finishBusy s i op code detail payload).pwr = s.pwr := by unfold State.finishBusy; (repeat' split) <;> simp

@[simp] theorem State.finishBusy_host (s : State) (i op code detail : Nat) (payload : List Byte) :
    (State.finishBusy s i op code detail payload).host = s.host := by unfold State.finishBusy; (repeat' split) <;> simp

@[simp] theorem State.finishBusy_cp (s : State) (i op code detail : Nat) (payload : List Byte) :
    (State.finishBusy s i op code detail payload).cp = s.cp := by unfold State.finishBusy; (repeat' split) <;> simp

@[simp] theorem State.finishBusy_bulk (s : State) (i op code detail : Nat) (payload : List Byte) :
    (State.finishBusy s i op code detail payload).bulk = s.bulk := by unfold State.finishBusy; (repeat' split) <;> simp

@[simp] theorem State.finishBusy_serv (s : State) (i op code detail : Nat) (payload : List Byte) :
    (State.finishBusy s i op code detail payload).serv = s.serv := by unfold State.finishBusy; (repeat' split) <;> simp

@[simp] theorem State.finishIssued_pending (s : State) (i : Nat) (p : Packet) (code detail : Nat) (payload : List Byte) :
    (State.finishIssued s i p code detail payload).pending = s.pending := by simp [State.finishIssued]

@[simp] theorem State.finishIssued_free (s : State) (i : Nat) (p : Packet) (code detail : Nat) (payload : List Byte) :
    (State.finishIssued s i p code detail payload).free = s.free := by simp [State.finishIssued]

@[simp] theorem State.finishIssued_us (s : State) (i : Nat) (p : Packet) (code detail : Nat) (payload : List Byte) :
    (State.finishIssued s i p code detail payload).us = s.us := by simp [State.finishIssued]

@[simp] theorem State.finishIssued_part (s : State) (i : Nat) (p : Packet) (code detail : Nat) (payload : List Byte) :
    (State.finishIssued s i p code detail payload).part = s.part := by simp [State.finishIssued]

@[simp] theorem State.finishIssued_latches (s : State) (i : Nat) (p : Packet) (code detail : Nat) (payload : List Byte) :
    (State.finishIssued s i p code detail payload).latches = s.latches := by simp [State.finishIssued]

@[simp] theorem State.finishIssued_access (s : State) (i : Nat) (p : Packet) (code detail : Nat) (payload : List Byte) :
    (State.finishIssued s i p code detail payload).access = s.access := by simp [State.finishIssued]

@[simp] theorem State.finishIssued_readValue (s : State) (i : Nat) (p : Packet) (code detail : Nat) (payload : List Byte) :
    (State.finishIssued s i p code detail payload).readValue = s.readValue := by simp [State.finishIssued]

@[simp] theorem State.finishIssued_prog (s : State) (i : Nat) (p : Packet) (code detail : Nat) (payload : List Byte) :
    (State.finishIssued s i p code detail payload).prog = s.prog := by simp [State.finishIssued]

@[simp] theorem State.finishIssued_bound (s : State) (i : Nat) (p : Packet) (code detail : Nat) (payload : List Byte) :
    (State.finishIssued s i p code detail payload).bound = s.bound := by simp [State.finishIssued]

@[simp] theorem State.finishIssued_units (s : State) (i : Nat) (p : Packet) (code detail : Nat) (payload : List Byte) :
    (State.finishIssued s i p code detail payload).units = s.units := by simp [State.finishIssued]

@[simp] theorem State.finishIssued_step (s : State) (i : Nat) (p : Packet) (code detail : Nat) (payload : List Byte) :
    (State.finishIssued s i p code detail payload).step = s.step := by simp [State.finishIssued]

@[simp] theorem State.finishIssued_stash (s : State) (i : Nat) (p : Packet) (code detail : Nat) (payload : List Byte) :
    (State.finishIssued s i p code detail payload).stash = s.stash := by simp [State.finishIssued]

@[simp] theorem State.finishIssued_dom (s : State) (i : Nat) (p : Packet) (code detail : Nat) (payload : List Byte) :
    (State.finishIssued s i p code detail payload).dom = s.dom := by simp [State.finishIssued]

@[simp] theorem State.finishIssued_twin (s : State) (i : Nat) (p : Packet) (code detail : Nat) (payload : List Byte) :
    (State.finishIssued s i p code detail payload).twin = s.twin := by simp [State.finishIssued]

@[simp] theorem State.finishIssued_fab (s : State) (i : Nat) (p : Packet) (code detail : Nat) (payload : List Byte) :
    (State.finishIssued s i p code detail payload).fab = s.fab := by simp [State.finishIssued]

@[simp] theorem State.finishIssued_inl (s : State) (i : Nat) (p : Packet) (code detail : Nat) (payload : List Byte) :
    (State.finishIssued s i p code detail payload).inl = s.inl := by simp [State.finishIssued]

@[simp] theorem State.finishIssued_umc (s : State) (i : Nat) (p : Packet) (code detail : Nat) (payload : List Byte) :
    (State.finishIssued s i p code detail payload).umc = s.umc := by simp [State.finishIssued]

@[simp] theorem State.finishIssued_sec (s : State) (i : Nat) (p : Packet) (code detail : Nat) (payload : List Byte) :
    (State.finishIssued s i p code detail payload).sec = s.sec := by simp [State.finishIssued]

@[simp] theorem State.finishIssued_pwr (s : State) (i : Nat) (p : Packet) (code detail : Nat) (payload : List Byte) :
    (State.finishIssued s i p code detail payload).pwr = s.pwr := by simp [State.finishIssued]

@[simp] theorem State.finishIssued_host (s : State) (i : Nat) (p : Packet) (code detail : Nat) (payload : List Byte) :
    (State.finishIssued s i p code detail payload).host = s.host := by simp [State.finishIssued]

@[simp] theorem State.finishIssued_cp (s : State) (i : Nat) (p : Packet) (code detail : Nat) (payload : List Byte) :
    (State.finishIssued s i p code detail payload).cp = s.cp := by simp [State.finishIssued]

@[simp] theorem State.finishIssued_bulk (s : State) (i : Nat) (p : Packet) (code detail : Nat) (payload : List Byte) :
    (State.finishIssued s i p code detail payload).bulk = s.bulk := by simp [State.finishIssued]

@[simp] theorem State.finishIssued_serv (s : State) (i : Nat) (p : Packet) (code detail : Nat) (payload : List Byte) :
    (State.finishIssued s i p code detail payload).serv = s.serv := by simp [State.finishIssued]

@[simp] theorem State.finishOp_pending (s : State) (op code detail : Nat) (payload : List Byte) :
    (State.finishOp s op code detail payload).pending = s.pending := by unfold State.finishOp; (repeat' split) <;> simp

@[simp] theorem State.finishOp_free (s : State) (op code detail : Nat) (payload : List Byte) :
    (State.finishOp s op code detail payload).free = s.free := by unfold State.finishOp; (repeat' split) <;> simp

@[simp] theorem State.finishOp_us (s : State) (op code detail : Nat) (payload : List Byte) :
    (State.finishOp s op code detail payload).us = s.us := by unfold State.finishOp; (repeat' split) <;> simp

@[simp] theorem State.finishOp_part (s : State) (op code detail : Nat) (payload : List Byte) :
    (State.finishOp s op code detail payload).part = s.part := by unfold State.finishOp; (repeat' split) <;> simp

@[simp] theorem State.finishOp_latches (s : State) (op code detail : Nat) (payload : List Byte) :
    (State.finishOp s op code detail payload).latches = s.latches := by unfold State.finishOp; (repeat' split) <;> simp

@[simp] theorem State.finishOp_access (s : State) (op code detail : Nat) (payload : List Byte) :
    (State.finishOp s op code detail payload).access = s.access := by unfold State.finishOp; (repeat' split) <;> simp

@[simp] theorem State.finishOp_readValue (s : State) (op code detail : Nat) (payload : List Byte) :
    (State.finishOp s op code detail payload).readValue = s.readValue := by unfold State.finishOp; (repeat' split) <;> simp

@[simp] theorem State.finishOp_prog (s : State) (op code detail : Nat) (payload : List Byte) :
    (State.finishOp s op code detail payload).prog = s.prog := by unfold State.finishOp; (repeat' split) <;> simp

@[simp] theorem State.finishOp_bound (s : State) (op code detail : Nat) (payload : List Byte) :
    (State.finishOp s op code detail payload).bound = s.bound := by unfold State.finishOp; (repeat' split) <;> simp

@[simp] theorem State.finishOp_units (s : State) (op code detail : Nat) (payload : List Byte) :
    (State.finishOp s op code detail payload).units = s.units := by unfold State.finishOp; (repeat' split) <;> simp

@[simp] theorem State.finishOp_step (s : State) (op code detail : Nat) (payload : List Byte) :
    (State.finishOp s op code detail payload).step = s.step := by unfold State.finishOp; (repeat' split) <;> simp

@[simp] theorem State.finishOp_stash (s : State) (op code detail : Nat) (payload : List Byte) :
    (State.finishOp s op code detail payload).stash = s.stash := by unfold State.finishOp; (repeat' split) <;> simp

@[simp] theorem State.finishOp_dom (s : State) (op code detail : Nat) (payload : List Byte) :
    (State.finishOp s op code detail payload).dom = s.dom := by unfold State.finishOp; (repeat' split) <;> simp

@[simp] theorem State.finishOp_twin (s : State) (op code detail : Nat) (payload : List Byte) :
    (State.finishOp s op code detail payload).twin = s.twin := by unfold State.finishOp; (repeat' split) <;> simp

@[simp] theorem State.finishOp_fab (s : State) (op code detail : Nat) (payload : List Byte) :
    (State.finishOp s op code detail payload).fab = s.fab := by unfold State.finishOp; (repeat' split) <;> simp

@[simp] theorem State.finishOp_inl (s : State) (op code detail : Nat) (payload : List Byte) :
    (State.finishOp s op code detail payload).inl = s.inl := by unfold State.finishOp; (repeat' split) <;> simp

@[simp] theorem State.finishOp_umc (s : State) (op code detail : Nat) (payload : List Byte) :
    (State.finishOp s op code detail payload).umc = s.umc := by unfold State.finishOp; (repeat' split) <;> simp

@[simp] theorem State.finishOp_sec (s : State) (op code detail : Nat) (payload : List Byte) :
    (State.finishOp s op code detail payload).sec = s.sec := by unfold State.finishOp; (repeat' split) <;> simp

@[simp] theorem State.finishOp_pwr (s : State) (op code detail : Nat) (payload : List Byte) :
    (State.finishOp s op code detail payload).pwr = s.pwr := by unfold State.finishOp; (repeat' split) <;> simp

@[simp] theorem State.finishOp_host (s : State) (op code detail : Nat) (payload : List Byte) :
    (State.finishOp s op code detail payload).host = s.host := by unfold State.finishOp; (repeat' split) <;> simp

@[simp] theorem State.finishOp_cp (s : State) (op code detail : Nat) (payload : List Byte) :
    (State.finishOp s op code detail payload).cp = s.cp := by unfold State.finishOp; (repeat' split) <;> simp

@[simp] theorem State.finishOp_bulk (s : State) (op code detail : Nat) (payload : List Byte) :
    (State.finishOp s op code detail payload).bulk = s.bulk := by unfold State.finishOp; (repeat' split) <;> simp

@[simp] theorem State.finishOp_serv (s : State) (op code detail : Nat) (payload : List Byte) :
    (State.finishOp s op code detail payload).serv = s.serv := by unfold State.finishOp; (repeat' split) <;> simp

@[simp] theorem State.setPort_pending (s : State) (n : Nat) (p : Port) :
    (State.setPort s n p).pending = s.pending := rfl

@[simp] theorem State.setPort_free (s : State) (n : Nat) (p : Port) :
    (State.setPort s n p).free = s.free := rfl

@[simp] theorem State.setPort_us (s : State) (n : Nat) (p : Port) :
    (State.setPort s n p).us = s.us := rfl

@[simp] theorem State.setPort_part (s : State) (n : Nat) (p : Port) :
    (State.setPort s n p).part = s.part := rfl

@[simp] theorem State.setPort_regs (s : State) (n : Nat) (p : Port) :
    (State.setPort s n p).regs = s.regs := rfl

@[simp] theorem State.setPort_latches (s : State) (n : Nat) (p : Port) :
    (State.setPort s n p).latches = s.latches := rfl

@[simp] theorem State.setPort_access (s : State) (n : Nat) (p : Port) :
    (State.setPort s n p).access = s.access := rfl

@[simp] theorem State.setPort_readValue (s : State) (n : Nat) (p : Port) :
    (State.setPort s n p).readValue = s.readValue := rfl

@[simp] theorem State.setPort_mem (s : State) (n : Nat) (p : Port) :
    (State.setPort s n p).mem = s.mem := rfl

@[simp] theorem State.setPort_undef (s : State) (n : Nat) (p : Port) :
    (State.setPort s n p).undef = s.undef := rfl

@[simp] theorem State.setPort_tarns (s : State) (n : Nat) (p : Port) :
    (State.setPort s n p).tarns = s.tarns := rfl

@[simp] theorem State.setPort_prog (s : State) (n : Nat) (p : Port) :
    (State.setPort s n p).prog = s.prog := rfl

@[simp] theorem State.setPort_bound (s : State) (n : Nat) (p : Port) :
    (State.setPort s n p).bound = s.bound := rfl

@[simp] theorem State.setPort_units (s : State) (n : Nat) (p : Port) :
    (State.setPort s n p).units = s.units := rfl

@[simp] theorem State.setPort_step (s : State) (n : Nat) (p : Port) :
    (State.setPort s n p).step = s.step := rfl

@[simp] theorem State.setPort_stash (s : State) (n : Nat) (p : Port) :
    (State.setPort s n p).stash = s.stash := rfl

@[simp] theorem State.setPort_dom (s : State) (n : Nat) (p : Port) :
    (State.setPort s n p).dom = s.dom := rfl

@[simp] theorem State.setPort_twin (s : State) (n : Nat) (p : Port) :
    (State.setPort s n p).twin = s.twin := rfl

@[simp] theorem State.setPort_inl (s : State) (n : Nat) (p : Port) :
    (State.setPort s n p).inl = s.inl := rfl

@[simp] theorem State.setPort_umc (s : State) (n : Nat) (p : Port) :
    (State.setPort s n p).umc = s.umc := rfl

@[simp] theorem State.setPort_sec (s : State) (n : Nat) (p : Port) :
    (State.setPort s n p).sec = s.sec := rfl

@[simp] theorem State.setPort_pwr (s : State) (n : Nat) (p : Port) :
    (State.setPort s n p).pwr = s.pwr := rfl

@[simp] theorem State.setPort_host (s : State) (n : Nat) (p : Port) :
    (State.setPort s n p).host = s.host := rfl

@[simp] theorem State.setPort_cp (s : State) (n : Nat) (p : Port) :
    (State.setPort s n p).cp = s.cp := rfl

@[simp] theorem State.setPort_queues (s : State) (n : Nat) (p : Port) :
    (State.setPort s n p).queues = s.queues := rfl

@[simp] theorem State.setPort_log (s : State) (n : Nat) (p : Port) :
    (State.setPort s n p).log = s.log := rfl

@[simp] theorem State.setPort_bulk (s : State) (n : Nat) (p : Port) :
    (State.setPort s n p).bulk = s.bulk := rfl

@[simp] theorem State.setPort_serv (s : State) (n : Nat) (p : Port) :
    (State.setPort s n p).serv = s.serv := rfl

@[simp] theorem State.setPort_out (s : State) (n : Nat) (p : Port) :
    (State.setPort s n p).out = s.out := rfl

@[simp] theorem State.setLink_pending (s : State) (l : Link) :
    (State.setLink s l).pending = s.pending := rfl

@[simp] theorem State.setLink_free (s : State) (l : Link) :
    (State.setLink s l).free = s.free := rfl

@[simp] theorem State.setLink_us (s : State) (l : Link) :
    (State.setLink s l).us = s.us := rfl

@[simp] theorem State.setLink_part (s : State) (l : Link) :
    (State.setLink s l).part = s.part := rfl

@[simp] theorem State.setLink_regs (s : State) (l : Link) :
    (State.setLink s l).regs = s.regs := rfl

@[simp] theorem State.setLink_latches (s : State) (l : Link) :
    (State.setLink s l).latches = s.latches := rfl

@[simp] theorem State.setLink_access (s : State) (l : Link) :
    (State.setLink s l).access = s.access := rfl

@[simp] theorem State.setLink_readValue (s : State) (l : Link) :
    (State.setLink s l).readValue = s.readValue := rfl

@[simp] theorem State.setLink_mem (s : State) (l : Link) :
    (State.setLink s l).mem = s.mem := rfl

@[simp] theorem State.setLink_undef (s : State) (l : Link) :
    (State.setLink s l).undef = s.undef := rfl

@[simp] theorem State.setLink_tarns (s : State) (l : Link) :
    (State.setLink s l).tarns = s.tarns := rfl

@[simp] theorem State.setLink_prog (s : State) (l : Link) :
    (State.setLink s l).prog = s.prog := rfl

@[simp] theorem State.setLink_bound (s : State) (l : Link) :
    (State.setLink s l).bound = s.bound := rfl

@[simp] theorem State.setLink_units (s : State) (l : Link) :
    (State.setLink s l).units = s.units := rfl

@[simp] theorem State.setLink_step (s : State) (l : Link) :
    (State.setLink s l).step = s.step := rfl

@[simp] theorem State.setLink_stash (s : State) (l : Link) :
    (State.setLink s l).stash = s.stash := rfl

@[simp] theorem State.setLink_dom (s : State) (l : Link) :
    (State.setLink s l).dom = s.dom := rfl

@[simp] theorem State.setLink_twin (s : State) (l : Link) :
    (State.setLink s l).twin = s.twin := rfl

@[simp] theorem State.setLink_inl (s : State) (l : Link) :
    (State.setLink s l).inl = s.inl := rfl

@[simp] theorem State.setLink_umc (s : State) (l : Link) :
    (State.setLink s l).umc = s.umc := rfl

@[simp] theorem State.setLink_sec (s : State) (l : Link) :
    (State.setLink s l).sec = s.sec := rfl

@[simp] theorem State.setLink_pwr (s : State) (l : Link) :
    (State.setLink s l).pwr = s.pwr := rfl

@[simp] theorem State.setLink_host (s : State) (l : Link) :
    (State.setLink s l).host = s.host := rfl

@[simp] theorem State.setLink_cp (s : State) (l : Link) :
    (State.setLink s l).cp = s.cp := rfl

@[simp] theorem State.setLink_queues (s : State) (l : Link) :
    (State.setLink s l).queues = s.queues := rfl

@[simp] theorem State.setLink_log (s : State) (l : Link) :
    (State.setLink s l).log = s.log := rfl

@[simp] theorem State.setLink_bulk (s : State) (l : Link) :
    (State.setLink s l).bulk = s.bulk := rfl

@[simp] theorem State.setLink_serv (s : State) (l : Link) :
    (State.setLink s l).serv = s.serv := rfl

@[simp] theorem State.setLink_out (s : State) (l : Link) :
    (State.setLink s l).out = s.out := rfl

@[simp] theorem State.emit_pending (s : State) (l : List Sent) :
    (State.emit s l).pending = s.pending := rfl

@[simp] theorem State.emit_free (s : State) (l : List Sent) :
    (State.emit s l).free = s.free := rfl

@[simp] theorem State.emit_us (s : State) (l : List Sent) :
    (State.emit s l).us = s.us := rfl

@[simp] theorem State.emit_part (s : State) (l : List Sent) :
    (State.emit s l).part = s.part := rfl

@[simp] theorem State.emit_regs (s : State) (l : List Sent) :
    (State.emit s l).regs = s.regs := rfl

@[simp] theorem State.emit_latches (s : State) (l : List Sent) :
    (State.emit s l).latches = s.latches := rfl

@[simp] theorem State.emit_access (s : State) (l : List Sent) :
    (State.emit s l).access = s.access := rfl

@[simp] theorem State.emit_readValue (s : State) (l : List Sent) :
    (State.emit s l).readValue = s.readValue := rfl

@[simp] theorem State.emit_mem (s : State) (l : List Sent) :
    (State.emit s l).mem = s.mem := rfl

@[simp] theorem State.emit_undef (s : State) (l : List Sent) :
    (State.emit s l).undef = s.undef := rfl

@[simp] theorem State.emit_tarns (s : State) (l : List Sent) :
    (State.emit s l).tarns = s.tarns := rfl

@[simp] theorem State.emit_prog (s : State) (l : List Sent) :
    (State.emit s l).prog = s.prog := rfl

@[simp] theorem State.emit_bound (s : State) (l : List Sent) :
    (State.emit s l).bound = s.bound := rfl

@[simp] theorem State.emit_units (s : State) (l : List Sent) :
    (State.emit s l).units = s.units := rfl

@[simp] theorem State.emit_step (s : State) (l : List Sent) :
    (State.emit s l).step = s.step := rfl

@[simp] theorem State.emit_stash (s : State) (l : List Sent) :
    (State.emit s l).stash = s.stash := rfl

@[simp] theorem State.emit_dom (s : State) (l : List Sent) :
    (State.emit s l).dom = s.dom := rfl

@[simp] theorem State.emit_twin (s : State) (l : List Sent) :
    (State.emit s l).twin = s.twin := rfl

@[simp] theorem State.emit_fab (s : State) (l : List Sent) :
    (State.emit s l).fab = s.fab := rfl

@[simp] theorem State.emit_inl (s : State) (l : List Sent) :
    (State.emit s l).inl = s.inl := rfl

@[simp] theorem State.emit_umc (s : State) (l : List Sent) :
    (State.emit s l).umc = s.umc := rfl

@[simp] theorem State.emit_sec (s : State) (l : List Sent) :
    (State.emit s l).sec = s.sec := rfl

@[simp] theorem State.emit_pwr (s : State) (l : List Sent) :
    (State.emit s l).pwr = s.pwr := rfl

@[simp] theorem State.emit_host (s : State) (l : List Sent) :
    (State.emit s l).host = s.host := rfl

@[simp] theorem State.emit_cp (s : State) (l : List Sent) :
    (State.emit s l).cp = s.cp := rfl

@[simp] theorem State.emit_queues (s : State) (l : List Sent) :
    (State.emit s l).queues = s.queues := rfl

@[simp] theorem State.emit_log (s : State) (l : List Sent) :
    (State.emit s l).log = s.log := rfl

@[simp] theorem State.emit_bulk (s : State) (l : List Sent) :
    (State.emit s l).bulk = s.bulk := rfl

@[simp] theorem State.emit_serv (s : State) (l : List Sent) :
    (State.emit s l).serv = s.serv := rfl

@[simp] theorem State.txCtl_pending (s : State) (n : Nat) (f : Sent) :
    (State.txCtl s n f).pending = s.pending := by simp [State.txCtl]

@[simp] theorem State.txCtl_free (s : State) (n : Nat) (f : Sent) :
    (State.txCtl s n f).free = s.free := by simp [State.txCtl]

@[simp] theorem State.txCtl_us (s : State) (n : Nat) (f : Sent) :
    (State.txCtl s n f).us = s.us := by simp [State.txCtl]

@[simp] theorem State.txCtl_part (s : State) (n : Nat) (f : Sent) :
    (State.txCtl s n f).part = s.part := by simp [State.txCtl]

@[simp] theorem State.txCtl_latches (s : State) (n : Nat) (f : Sent) :
    (State.txCtl s n f).latches = s.latches := by simp [State.txCtl]

@[simp] theorem State.txCtl_access (s : State) (n : Nat) (f : Sent) :
    (State.txCtl s n f).access = s.access := by simp [State.txCtl]

@[simp] theorem State.txCtl_readValue (s : State) (n : Nat) (f : Sent) :
    (State.txCtl s n f).readValue = s.readValue := by simp [State.txCtl]

@[simp] theorem State.txCtl_mem (s : State) (n : Nat) (f : Sent) :
    (State.txCtl s n f).mem = s.mem := by simp [State.txCtl]

@[simp] theorem State.txCtl_undef (s : State) (n : Nat) (f : Sent) :
    (State.txCtl s n f).undef = s.undef := by simp [State.txCtl]

@[simp] theorem State.txCtl_tarns (s : State) (n : Nat) (f : Sent) :
    (State.txCtl s n f).tarns = s.tarns := by simp [State.txCtl]

@[simp] theorem State.txCtl_prog (s : State) (n : Nat) (f : Sent) :
    (State.txCtl s n f).prog = s.prog := by simp [State.txCtl]

@[simp] theorem State.txCtl_bound (s : State) (n : Nat) (f : Sent) :
    (State.txCtl s n f).bound = s.bound := by simp [State.txCtl]

@[simp] theorem State.txCtl_units (s : State) (n : Nat) (f : Sent) :
    (State.txCtl s n f).units = s.units := by simp [State.txCtl]

@[simp] theorem State.txCtl_step (s : State) (n : Nat) (f : Sent) :
    (State.txCtl s n f).step = s.step := by simp [State.txCtl]

@[simp] theorem State.txCtl_stash (s : State) (n : Nat) (f : Sent) :
    (State.txCtl s n f).stash = s.stash := by simp [State.txCtl]

@[simp] theorem State.txCtl_dom (s : State) (n : Nat) (f : Sent) :
    (State.txCtl s n f).dom = s.dom := by simp [State.txCtl]

@[simp] theorem State.txCtl_twin (s : State) (n : Nat) (f : Sent) :
    (State.txCtl s n f).twin = s.twin := by simp [State.txCtl]

@[simp] theorem State.txCtl_inl (s : State) (n : Nat) (f : Sent) :
    (State.txCtl s n f).inl = s.inl := by simp [State.txCtl]

@[simp] theorem State.txCtl_umc (s : State) (n : Nat) (f : Sent) :
    (State.txCtl s n f).umc = s.umc := by simp [State.txCtl]

@[simp] theorem State.txCtl_sec (s : State) (n : Nat) (f : Sent) :
    (State.txCtl s n f).sec = s.sec := by simp [State.txCtl]

@[simp] theorem State.txCtl_pwr (s : State) (n : Nat) (f : Sent) :
    (State.txCtl s n f).pwr = s.pwr := by simp [State.txCtl]

@[simp] theorem State.txCtl_host (s : State) (n : Nat) (f : Sent) :
    (State.txCtl s n f).host = s.host := by simp [State.txCtl]

@[simp] theorem State.txCtl_cp (s : State) (n : Nat) (f : Sent) :
    (State.txCtl s n f).cp = s.cp := by simp [State.txCtl]

@[simp] theorem State.txCtl_queues (s : State) (n : Nat) (f : Sent) :
    (State.txCtl s n f).queues = s.queues := by simp [State.txCtl]

@[simp] theorem State.txCtl_log (s : State) (n : Nat) (f : Sent) :
    (State.txCtl s n f).log = s.log := by simp [State.txCtl]

@[simp] theorem State.txCtl_bulk (s : State) (n : Nat) (f : Sent) :
    (State.txCtl s n f).bulk = s.bulk := by simp [State.txCtl]

@[simp] theorem State.txCtl_serv (s : State) (n : Nat) (f : Sent) :
    (State.txCtl s n f).serv = s.serv := by simp [State.txCtl]

@[simp] theorem State.transmit_pending (s : State) (n : Nat) :
    (State.transmit s n).pending = s.pending := by simp only [State.transmit]; split <;> simp

@[simp] theorem State.transmit_free (s : State) (n : Nat) :
    (State.transmit s n).free = s.free := by simp only [State.transmit]; split <;> simp

@[simp] theorem State.transmit_us (s : State) (n : Nat) :
    (State.transmit s n).us = s.us := by simp only [State.transmit]; split <;> simp

@[simp] theorem State.transmit_part (s : State) (n : Nat) :
    (State.transmit s n).part = s.part := by simp only [State.transmit]; split <;> simp

@[simp] theorem State.transmit_latches (s : State) (n : Nat) :
    (State.transmit s n).latches = s.latches := by simp only [State.transmit]; split <;> simp

@[simp] theorem State.transmit_access (s : State) (n : Nat) :
    (State.transmit s n).access = s.access := by simp only [State.transmit]; split <;> simp

@[simp] theorem State.transmit_readValue (s : State) (n : Nat) :
    (State.transmit s n).readValue = s.readValue := by simp only [State.transmit]; split <;> simp

@[simp] theorem State.transmit_mem (s : State) (n : Nat) :
    (State.transmit s n).mem = s.mem := by simp only [State.transmit]; split <;> simp

@[simp] theorem State.transmit_undef (s : State) (n : Nat) :
    (State.transmit s n).undef = s.undef := by simp only [State.transmit]; split <;> simp

@[simp] theorem State.transmit_tarns (s : State) (n : Nat) :
    (State.transmit s n).tarns = s.tarns := by simp only [State.transmit]; split <;> simp

@[simp] theorem State.transmit_prog (s : State) (n : Nat) :
    (State.transmit s n).prog = s.prog := by simp only [State.transmit]; split <;> simp

@[simp] theorem State.transmit_bound (s : State) (n : Nat) :
    (State.transmit s n).bound = s.bound := by simp only [State.transmit]; split <;> simp

@[simp] theorem State.transmit_units (s : State) (n : Nat) :
    (State.transmit s n).units = s.units := by simp only [State.transmit]; split <;> simp

@[simp] theorem State.transmit_step (s : State) (n : Nat) :
    (State.transmit s n).step = s.step := by simp only [State.transmit]; split <;> simp

@[simp] theorem State.transmit_stash (s : State) (n : Nat) :
    (State.transmit s n).stash = s.stash := by simp only [State.transmit]; split <;> simp

@[simp] theorem State.transmit_dom (s : State) (n : Nat) :
    (State.transmit s n).dom = s.dom := by simp only [State.transmit]; split <;> simp

@[simp] theorem State.transmit_twin (s : State) (n : Nat) :
    (State.transmit s n).twin = s.twin := by simp only [State.transmit]; split <;> simp

@[simp] theorem State.transmit_inl (s : State) (n : Nat) :
    (State.transmit s n).inl = s.inl := by simp only [State.transmit]; split <;> simp

@[simp] theorem State.transmit_umc (s : State) (n : Nat) :
    (State.transmit s n).umc = s.umc := by simp only [State.transmit]; split <;> simp

@[simp] theorem State.transmit_sec (s : State) (n : Nat) :
    (State.transmit s n).sec = s.sec := by simp only [State.transmit]; split <;> simp

@[simp] theorem State.transmit_pwr (s : State) (n : Nat) :
    (State.transmit s n).pwr = s.pwr := by simp only [State.transmit]; split <;> simp

@[simp] theorem State.transmit_host (s : State) (n : Nat) :
    (State.transmit s n).host = s.host := by simp only [State.transmit]; split <;> simp

@[simp] theorem State.transmit_cp (s : State) (n : Nat) :
    (State.transmit s n).cp = s.cp := by simp only [State.transmit]; split <;> simp

@[simp] theorem State.transmit_queues (s : State) (n : Nat) :
    (State.transmit s n).queues = s.queues := by simp only [State.transmit]; split <;> simp

@[simp] theorem State.transmit_log (s : State) (n : Nat) :
    (State.transmit s n).log = s.log := by simp only [State.transmit]; split <;> simp

@[simp] theorem State.transmit_bulk (s : State) (n : Nat) :
    (State.transmit s n).bulk = s.bulk := by simp only [State.transmit]; split <;> simp

@[simp] theorem State.transmit_serv (s : State) (n : Nat) :
    (State.transmit s n).serv = s.serv := by simp only [State.transmit]; split <;> simp

@[simp] theorem State.linkSend_pending (s : State) (l : Link) (d : LinkData) :
    (State.linkSend s l d).pending = s.pending := by simp [State.linkSend]

@[simp] theorem State.linkSend_free (s : State) (l : Link) (d : LinkData) :
    (State.linkSend s l d).free = s.free := by simp [State.linkSend]

@[simp] theorem State.linkSend_us (s : State) (l : Link) (d : LinkData) :
    (State.linkSend s l d).us = s.us := by simp [State.linkSend]

@[simp] theorem State.linkSend_part (s : State) (l : Link) (d : LinkData) :
    (State.linkSend s l d).part = s.part := by simp [State.linkSend]

@[simp] theorem State.linkSend_latches (s : State) (l : Link) (d : LinkData) :
    (State.linkSend s l d).latches = s.latches := by simp [State.linkSend]

@[simp] theorem State.linkSend_access (s : State) (l : Link) (d : LinkData) :
    (State.linkSend s l d).access = s.access := by simp [State.linkSend]

@[simp] theorem State.linkSend_readValue (s : State) (l : Link) (d : LinkData) :
    (State.linkSend s l d).readValue = s.readValue := by simp [State.linkSend]

@[simp] theorem State.linkSend_mem (s : State) (l : Link) (d : LinkData) :
    (State.linkSend s l d).mem = s.mem := by simp [State.linkSend]

@[simp] theorem State.linkSend_undef (s : State) (l : Link) (d : LinkData) :
    (State.linkSend s l d).undef = s.undef := by simp [State.linkSend]

@[simp] theorem State.linkSend_tarns (s : State) (l : Link) (d : LinkData) :
    (State.linkSend s l d).tarns = s.tarns := by simp [State.linkSend]

@[simp] theorem State.linkSend_prog (s : State) (l : Link) (d : LinkData) :
    (State.linkSend s l d).prog = s.prog := by simp [State.linkSend]

@[simp] theorem State.linkSend_bound (s : State) (l : Link) (d : LinkData) :
    (State.linkSend s l d).bound = s.bound := by simp [State.linkSend]

@[simp] theorem State.linkSend_units (s : State) (l : Link) (d : LinkData) :
    (State.linkSend s l d).units = s.units := by simp [State.linkSend]

@[simp] theorem State.linkSend_step (s : State) (l : Link) (d : LinkData) :
    (State.linkSend s l d).step = s.step := by simp [State.linkSend]

@[simp] theorem State.linkSend_stash (s : State) (l : Link) (d : LinkData) :
    (State.linkSend s l d).stash = s.stash := by simp [State.linkSend]

@[simp] theorem State.linkSend_dom (s : State) (l : Link) (d : LinkData) :
    (State.linkSend s l d).dom = s.dom := by simp [State.linkSend]

@[simp] theorem State.linkSend_twin (s : State) (l : Link) (d : LinkData) :
    (State.linkSend s l d).twin = s.twin := by simp [State.linkSend]

@[simp] theorem State.linkSend_inl (s : State) (l : Link) (d : LinkData) :
    (State.linkSend s l d).inl = s.inl := by simp [State.linkSend]

@[simp] theorem State.linkSend_umc (s : State) (l : Link) (d : LinkData) :
    (State.linkSend s l d).umc = s.umc := by simp [State.linkSend]

@[simp] theorem State.linkSend_sec (s : State) (l : Link) (d : LinkData) :
    (State.linkSend s l d).sec = s.sec := by simp [State.linkSend]

@[simp] theorem State.linkSend_pwr (s : State) (l : Link) (d : LinkData) :
    (State.linkSend s l d).pwr = s.pwr := by simp [State.linkSend]

@[simp] theorem State.linkSend_host (s : State) (l : Link) (d : LinkData) :
    (State.linkSend s l d).host = s.host := by simp [State.linkSend]

@[simp] theorem State.linkSend_cp (s : State) (l : Link) (d : LinkData) :
    (State.linkSend s l d).cp = s.cp := by simp [State.linkSend]

@[simp] theorem State.linkSend_queues (s : State) (l : Link) (d : LinkData) :
    (State.linkSend s l d).queues = s.queues := by simp [State.linkSend]

@[simp] theorem State.linkSend_log (s : State) (l : Link) (d : LinkData) :
    (State.linkSend s l d).log = s.log := by simp [State.linkSend]

@[simp] theorem State.linkSend_bulk (s : State) (l : Link) (d : LinkData) :
    (State.linkSend s l d).bulk = s.bulk := by simp [State.linkSend]

@[simp] theorem State.linkSend_serv (s : State) (l : Link) (d : LinkData) :
    (State.linkSend s l d).serv = s.serv := by simp [State.linkSend]

@[simp] theorem State.setEngine_pending (s : State) (d : Nat) (e : Engine) :
    (State.setEngine s d e).pending = s.pending := rfl

@[simp] theorem State.setEngine_free (s : State) (d : Nat) (e : Engine) :
    (State.setEngine s d e).free = s.free := rfl

@[simp] theorem State.setEngine_us (s : State) (d : Nat) (e : Engine) :
    (State.setEngine s d e).us = s.us := rfl

@[simp] theorem State.setEngine_part (s : State) (d : Nat) (e : Engine) :
    (State.setEngine s d e).part = s.part := rfl

@[simp] theorem State.setEngine_regs (s : State) (d : Nat) (e : Engine) :
    (State.setEngine s d e).regs = s.regs := rfl

@[simp] theorem State.setEngine_latches (s : State) (d : Nat) (e : Engine) :
    (State.setEngine s d e).latches = s.latches := rfl

@[simp] theorem State.setEngine_access (s : State) (d : Nat) (e : Engine) :
    (State.setEngine s d e).access = s.access := rfl

@[simp] theorem State.setEngine_readValue (s : State) (d : Nat) (e : Engine) :
    (State.setEngine s d e).readValue = s.readValue := rfl

@[simp] theorem State.setEngine_mem (s : State) (d : Nat) (e : Engine) :
    (State.setEngine s d e).mem = s.mem := rfl

@[simp] theorem State.setEngine_undef (s : State) (d : Nat) (e : Engine) :
    (State.setEngine s d e).undef = s.undef := rfl

@[simp] theorem State.setEngine_tarns (s : State) (d : Nat) (e : Engine) :
    (State.setEngine s d e).tarns = s.tarns := rfl

@[simp] theorem State.setEngine_prog (s : State) (d : Nat) (e : Engine) :
    (State.setEngine s d e).prog = s.prog := rfl

@[simp] theorem State.setEngine_bound (s : State) (d : Nat) (e : Engine) :
    (State.setEngine s d e).bound = s.bound := rfl

@[simp] theorem State.setEngine_units (s : State) (d : Nat) (e : Engine) :
    (State.setEngine s d e).units = s.units := rfl

@[simp] theorem State.setEngine_step (s : State) (d : Nat) (e : Engine) :
    (State.setEngine s d e).step = s.step := rfl

@[simp] theorem State.setEngine_stash (s : State) (d : Nat) (e : Engine) :
    (State.setEngine s d e).stash = s.stash := rfl

@[simp] theorem State.setEngine_dom (s : State) (d : Nat) (e : Engine) :
    (State.setEngine s d e).dom = s.dom := rfl

@[simp] theorem State.setEngine_twin (s : State) (d : Nat) (e : Engine) :
    (State.setEngine s d e).twin = s.twin := rfl

@[simp] theorem State.setEngine_inl (s : State) (d : Nat) (e : Engine) :
    (State.setEngine s d e).inl = s.inl := rfl

@[simp] theorem State.setEngine_umc (s : State) (d : Nat) (e : Engine) :
    (State.setEngine s d e).umc = s.umc := rfl

@[simp] theorem State.setEngine_sec (s : State) (d : Nat) (e : Engine) :
    (State.setEngine s d e).sec = s.sec := rfl

@[simp] theorem State.setEngine_pwr (s : State) (d : Nat) (e : Engine) :
    (State.setEngine s d e).pwr = s.pwr := rfl

@[simp] theorem State.setEngine_host (s : State) (d : Nat) (e : Engine) :
    (State.setEngine s d e).host = s.host := rfl

@[simp] theorem State.setEngine_cp (s : State) (d : Nat) (e : Engine) :
    (State.setEngine s d e).cp = s.cp := rfl

@[simp] theorem State.setEngine_queues (s : State) (d : Nat) (e : Engine) :
    (State.setEngine s d e).queues = s.queues := rfl

@[simp] theorem State.setEngine_log (s : State) (d : Nat) (e : Engine) :
    (State.setEngine s d e).log = s.log := rfl

@[simp] theorem State.setEngine_bulk (s : State) (d : Nat) (e : Engine) :
    (State.setEngine s d e).bulk = s.bulk := rfl

@[simp] theorem State.setEngine_serv (s : State) (d : Nat) (e : Engine) :
    (State.setEngine s d e).serv = s.serv := rfl

@[simp] theorem State.setEngine_out (s : State) (d : Nat) (e : Engine) :
    (State.setEngine s d e).out = s.out := rfl

@[simp] theorem State.loseColls_pending (s : State) (ds : List Nat) :
    (State.loseColls s ds).pending = s.pending := by
  unfold State.loseColls
  exact State.foldl_pending _ _ _ (fun t d => by simp)

@[simp] theorem State.loseColls_free (s : State) (ds : List Nat) :
    (State.loseColls s ds).free = s.free := by
  unfold State.loseColls
  exact State.foldl_free _ _ _ (fun t d => by simp)

@[simp] theorem State.loseColls_us (s : State) (ds : List Nat) :
    (State.loseColls s ds).us = s.us := by
  unfold State.loseColls
  exact State.foldl_us _ _ _ (fun t d => by simp)

@[simp] theorem State.loseColls_part (s : State) (ds : List Nat) :
    (State.loseColls s ds).part = s.part := by
  unfold State.loseColls
  exact State.foldl_part _ _ _ (fun t d => by simp)

@[simp] theorem State.loseColls_regs (s : State) (ds : List Nat) :
    (State.loseColls s ds).regs = s.regs := by
  unfold State.loseColls
  exact State.foldl_regs _ _ _ (fun t d => by simp)

@[simp] theorem State.loseColls_latches (s : State) (ds : List Nat) :
    (State.loseColls s ds).latches = s.latches := by
  unfold State.loseColls
  exact State.foldl_latches _ _ _ (fun t d => by simp)

@[simp] theorem State.loseColls_access (s : State) (ds : List Nat) :
    (State.loseColls s ds).access = s.access := by
  unfold State.loseColls
  exact State.foldl_access _ _ _ (fun t d => by simp)

@[simp] theorem State.loseColls_readValue (s : State) (ds : List Nat) :
    (State.loseColls s ds).readValue = s.readValue := by
  unfold State.loseColls
  exact State.foldl_readValue _ _ _ (fun t d => by simp)

@[simp] theorem State.loseColls_mem (s : State) (ds : List Nat) :
    (State.loseColls s ds).mem = s.mem := by
  unfold State.loseColls
  exact State.foldl_mem _ _ _ (fun t d => by simp)

@[simp] theorem State.loseColls_undef (s : State) (ds : List Nat) :
    (State.loseColls s ds).undef = s.undef := by
  unfold State.loseColls
  exact State.foldl_undef _ _ _ (fun t d => by simp)

@[simp] theorem State.loseColls_tarns (s : State) (ds : List Nat) :
    (State.loseColls s ds).tarns = s.tarns := by
  unfold State.loseColls
  exact State.foldl_tarns _ _ _ (fun t d => by simp)

@[simp] theorem State.loseColls_prog (s : State) (ds : List Nat) :
    (State.loseColls s ds).prog = s.prog := by
  unfold State.loseColls
  exact State.foldl_prog _ _ _ (fun t d => by simp)

@[simp] theorem State.loseColls_bound (s : State) (ds : List Nat) :
    (State.loseColls s ds).bound = s.bound := by
  unfold State.loseColls
  exact State.foldl_bound _ _ _ (fun t d => by simp)

@[simp] theorem State.loseColls_units (s : State) (ds : List Nat) :
    (State.loseColls s ds).units = s.units := by
  unfold State.loseColls
  exact State.foldl_units _ _ _ (fun t d => by simp)

@[simp] theorem State.loseColls_step (s : State) (ds : List Nat) :
    (State.loseColls s ds).step = s.step := by
  unfold State.loseColls
  exact State.foldl_step _ _ _ (fun t d => by simp)

@[simp] theorem State.loseColls_stash (s : State) (ds : List Nat) :
    (State.loseColls s ds).stash = s.stash := by
  unfold State.loseColls
  exact State.foldl_stash _ _ _ (fun t d => by simp)

@[simp] theorem State.loseColls_dom (s : State) (ds : List Nat) :
    (State.loseColls s ds).dom = s.dom := by
  unfold State.loseColls
  exact State.foldl_dom _ _ _ (fun t d => by simp)

@[simp] theorem State.loseColls_twin (s : State) (ds : List Nat) :
    (State.loseColls s ds).twin = s.twin := by
  unfold State.loseColls
  exact State.foldl_twin _ _ _ (fun t d => by simp)

@[simp] theorem State.loseColls_inl (s : State) (ds : List Nat) :
    (State.loseColls s ds).inl = s.inl := by
  unfold State.loseColls
  exact State.foldl_inl _ _ _ (fun t d => by simp)

@[simp] theorem State.loseColls_umc (s : State) (ds : List Nat) :
    (State.loseColls s ds).umc = s.umc := by
  unfold State.loseColls
  exact State.foldl_umc _ _ _ (fun t d => by simp)

@[simp] theorem State.loseColls_sec (s : State) (ds : List Nat) :
    (State.loseColls s ds).sec = s.sec := by
  unfold State.loseColls
  exact State.foldl_sec _ _ _ (fun t d => by simp)

@[simp] theorem State.loseColls_pwr (s : State) (ds : List Nat) :
    (State.loseColls s ds).pwr = s.pwr := by
  unfold State.loseColls
  exact State.foldl_pwr _ _ _ (fun t d => by simp)

@[simp] theorem State.loseColls_host (s : State) (ds : List Nat) :
    (State.loseColls s ds).host = s.host := by
  unfold State.loseColls
  exact State.foldl_host _ _ _ (fun t d => by simp)

@[simp] theorem State.loseColls_cp (s : State) (ds : List Nat) :
    (State.loseColls s ds).cp = s.cp := by
  unfold State.loseColls
  exact State.foldl_cp _ _ _ (fun t d => by simp)

@[simp] theorem State.loseColls_queues (s : State) (ds : List Nat) :
    (State.loseColls s ds).queues = s.queues := by
  unfold State.loseColls
  exact State.foldl_queues _ _ _ (fun t d => by simp)

@[simp] theorem State.loseColls_log (s : State) (ds : List Nat) :
    (State.loseColls s ds).log = s.log := by
  unfold State.loseColls
  exact State.foldl_log _ _ _ (fun t d => by simp)

@[simp] theorem State.loseColls_bulk (s : State) (ds : List Nat) :
    (State.loseColls s ds).bulk = s.bulk := by
  unfold State.loseColls
  exact State.foldl_bulk _ _ _ (fun t d => by simp)

@[simp] theorem State.loseColls_serv (s : State) (ds : List Nat) :
    (State.loseColls s ds).serv = s.serv := by
  unfold State.loseColls
  exact State.foldl_serv _ _ _ (fun t d => by simp)

@[simp] theorem State.loseColls_out (s : State) (ds : List Nat) :
    (State.loseColls s ds).out = s.out := by
  unfold State.loseColls
  exact State.foldl_out _ _ _ (fun t d => by simp)

@[simp] theorem State.toSelf_pending (s : State) (d : LinkData) :
    (State.toSelf s d).pending = s.pending := rfl

@[simp] theorem State.toSelf_free (s : State) (d : LinkData) :
    (State.toSelf s d).free = s.free := rfl

@[simp] theorem State.toSelf_us (s : State) (d : LinkData) :
    (State.toSelf s d).us = s.us := rfl

@[simp] theorem State.toSelf_part (s : State) (d : LinkData) :
    (State.toSelf s d).part = s.part := rfl

@[simp] theorem State.toSelf_regs (s : State) (d : LinkData) :
    (State.toSelf s d).regs = s.regs := rfl

@[simp] theorem State.toSelf_latches (s : State) (d : LinkData) :
    (State.toSelf s d).latches = s.latches := rfl

@[simp] theorem State.toSelf_access (s : State) (d : LinkData) :
    (State.toSelf s d).access = s.access := rfl

@[simp] theorem State.toSelf_readValue (s : State) (d : LinkData) :
    (State.toSelf s d).readValue = s.readValue := rfl

@[simp] theorem State.toSelf_mem (s : State) (d : LinkData) :
    (State.toSelf s d).mem = s.mem := rfl

@[simp] theorem State.toSelf_undef (s : State) (d : LinkData) :
    (State.toSelf s d).undef = s.undef := rfl

@[simp] theorem State.toSelf_tarns (s : State) (d : LinkData) :
    (State.toSelf s d).tarns = s.tarns := rfl

@[simp] theorem State.toSelf_prog (s : State) (d : LinkData) :
    (State.toSelf s d).prog = s.prog := rfl

@[simp] theorem State.toSelf_bound (s : State) (d : LinkData) :
    (State.toSelf s d).bound = s.bound := rfl

@[simp] theorem State.toSelf_units (s : State) (d : LinkData) :
    (State.toSelf s d).units = s.units := rfl

@[simp] theorem State.toSelf_step (s : State) (d : LinkData) :
    (State.toSelf s d).step = s.step := rfl

@[simp] theorem State.toSelf_stash (s : State) (d : LinkData) :
    (State.toSelf s d).stash = s.stash := rfl

@[simp] theorem State.toSelf_dom (s : State) (d : LinkData) :
    (State.toSelf s d).dom = s.dom := rfl

@[simp] theorem State.toSelf_twin (s : State) (d : LinkData) :
    (State.toSelf s d).twin = s.twin := rfl

@[simp] theorem State.toSelf_inl (s : State) (d : LinkData) :
    (State.toSelf s d).inl = s.inl := rfl

@[simp] theorem State.toSelf_umc (s : State) (d : LinkData) :
    (State.toSelf s d).umc = s.umc := rfl

@[simp] theorem State.toSelf_sec (s : State) (d : LinkData) :
    (State.toSelf s d).sec = s.sec := rfl

@[simp] theorem State.toSelf_pwr (s : State) (d : LinkData) :
    (State.toSelf s d).pwr = s.pwr := rfl

@[simp] theorem State.toSelf_host (s : State) (d : LinkData) :
    (State.toSelf s d).host = s.host := rfl

@[simp] theorem State.toSelf_cp (s : State) (d : LinkData) :
    (State.toSelf s d).cp = s.cp := rfl

@[simp] theorem State.toSelf_queues (s : State) (d : LinkData) :
    (State.toSelf s d).queues = s.queues := rfl

@[simp] theorem State.toSelf_log (s : State) (d : LinkData) :
    (State.toSelf s d).log = s.log := rfl

@[simp] theorem State.toSelf_bulk (s : State) (d : LinkData) :
    (State.toSelf s d).bulk = s.bulk := rfl

@[simp] theorem State.toSelf_serv (s : State) (d : LinkData) :
    (State.toSelf s d).serv = s.serv := rfl

@[simp] theorem State.toSelf_out (s : State) (d : LinkData) :
    (State.toSelf s d).out = s.out := rfl

@[simp] theorem State.sendRoute_pending (s : State) (r k : Nat) (d : LinkData) :
    (State.sendRoute s r k d).pending = s.pending := by unfold State.sendRoute; split <;> simp

@[simp] theorem State.sendRoute_free (s : State) (r k : Nat) (d : LinkData) :
    (State.sendRoute s r k d).free = s.free := by unfold State.sendRoute; split <;> simp

@[simp] theorem State.sendRoute_us (s : State) (r k : Nat) (d : LinkData) :
    (State.sendRoute s r k d).us = s.us := by unfold State.sendRoute; split <;> simp

@[simp] theorem State.sendRoute_part (s : State) (r k : Nat) (d : LinkData) :
    (State.sendRoute s r k d).part = s.part := by unfold State.sendRoute; split <;> simp

@[simp] theorem State.sendRoute_latches (s : State) (r k : Nat) (d : LinkData) :
    (State.sendRoute s r k d).latches = s.latches := by unfold State.sendRoute; split <;> simp

@[simp] theorem State.sendRoute_access (s : State) (r k : Nat) (d : LinkData) :
    (State.sendRoute s r k d).access = s.access := by unfold State.sendRoute; split <;> simp

@[simp] theorem State.sendRoute_readValue (s : State) (r k : Nat) (d : LinkData) :
    (State.sendRoute s r k d).readValue = s.readValue := by unfold State.sendRoute; split <;> simp

@[simp] theorem State.sendRoute_mem (s : State) (r k : Nat) (d : LinkData) :
    (State.sendRoute s r k d).mem = s.mem := by unfold State.sendRoute; split <;> simp

@[simp] theorem State.sendRoute_undef (s : State) (r k : Nat) (d : LinkData) :
    (State.sendRoute s r k d).undef = s.undef := by unfold State.sendRoute; split <;> simp

@[simp] theorem State.sendRoute_tarns (s : State) (r k : Nat) (d : LinkData) :
    (State.sendRoute s r k d).tarns = s.tarns := by unfold State.sendRoute; split <;> simp

@[simp] theorem State.sendRoute_prog (s : State) (r k : Nat) (d : LinkData) :
    (State.sendRoute s r k d).prog = s.prog := by unfold State.sendRoute; split <;> simp

@[simp] theorem State.sendRoute_bound (s : State) (r k : Nat) (d : LinkData) :
    (State.sendRoute s r k d).bound = s.bound := by unfold State.sendRoute; split <;> simp

@[simp] theorem State.sendRoute_units (s : State) (r k : Nat) (d : LinkData) :
    (State.sendRoute s r k d).units = s.units := by unfold State.sendRoute; split <;> simp

@[simp] theorem State.sendRoute_step (s : State) (r k : Nat) (d : LinkData) :
    (State.sendRoute s r k d).step = s.step := by unfold State.sendRoute; split <;> simp

@[simp] theorem State.sendRoute_stash (s : State) (r k : Nat) (d : LinkData) :
    (State.sendRoute s r k d).stash = s.stash := by unfold State.sendRoute; split <;> simp

@[simp] theorem State.sendRoute_dom (s : State) (r k : Nat) (d : LinkData) :
    (State.sendRoute s r k d).dom = s.dom := by unfold State.sendRoute; split <;> simp

@[simp] theorem State.sendRoute_twin (s : State) (r k : Nat) (d : LinkData) :
    (State.sendRoute s r k d).twin = s.twin := by unfold State.sendRoute; split <;> simp

@[simp] theorem State.sendRoute_inl (s : State) (r k : Nat) (d : LinkData) :
    (State.sendRoute s r k d).inl = s.inl := by unfold State.sendRoute; split <;> simp

@[simp] theorem State.sendRoute_umc (s : State) (r k : Nat) (d : LinkData) :
    (State.sendRoute s r k d).umc = s.umc := by unfold State.sendRoute; split <;> simp

@[simp] theorem State.sendRoute_sec (s : State) (r k : Nat) (d : LinkData) :
    (State.sendRoute s r k d).sec = s.sec := by unfold State.sendRoute; split <;> simp

@[simp] theorem State.sendRoute_pwr (s : State) (r k : Nat) (d : LinkData) :
    (State.sendRoute s r k d).pwr = s.pwr := by unfold State.sendRoute; split <;> simp

@[simp] theorem State.sendRoute_host (s : State) (r k : Nat) (d : LinkData) :
    (State.sendRoute s r k d).host = s.host := by unfold State.sendRoute; split <;> simp

@[simp] theorem State.sendRoute_cp (s : State) (r k : Nat) (d : LinkData) :
    (State.sendRoute s r k d).cp = s.cp := by unfold State.sendRoute; split <;> simp

@[simp] theorem State.sendRoute_queues (s : State) (r k : Nat) (d : LinkData) :
    (State.sendRoute s r k d).queues = s.queues := by unfold State.sendRoute; split <;> simp

@[simp] theorem State.sendRoute_log (s : State) (r k : Nat) (d : LinkData) :
    (State.sendRoute s r k d).log = s.log := by unfold State.sendRoute; split <;> simp

@[simp] theorem State.sendRoute_bulk (s : State) (r k : Nat) (d : LinkData) :
    (State.sendRoute s r k d).bulk = s.bulk := by unfold State.sendRoute; split <;> simp

@[simp] theorem State.sendRoute_serv (s : State) (r k : Nat) (d : LinkData) :
    (State.sendRoute s r k d).serv = s.serv := by unfold State.sendRoute; split <;> simp

@[simp] theorem State.sendRank_pending (s : State) (r k : Nat) (d : LinkData) :
    (State.sendRank s r k d).pending = s.pending := by unfold State.sendRank; split <;> simp

@[simp] theorem State.sendRank_free (s : State) (r k : Nat) (d : LinkData) :
    (State.sendRank s r k d).free = s.free := by unfold State.sendRank; split <;> simp

@[simp] theorem State.sendRank_us (s : State) (r k : Nat) (d : LinkData) :
    (State.sendRank s r k d).us = s.us := by unfold State.sendRank; split <;> simp

@[simp] theorem State.sendRank_part (s : State) (r k : Nat) (d : LinkData) :
    (State.sendRank s r k d).part = s.part := by unfold State.sendRank; split <;> simp

@[simp] theorem State.sendRank_latches (s : State) (r k : Nat) (d : LinkData) :
    (State.sendRank s r k d).latches = s.latches := by unfold State.sendRank; split <;> simp

@[simp] theorem State.sendRank_access (s : State) (r k : Nat) (d : LinkData) :
    (State.sendRank s r k d).access = s.access := by unfold State.sendRank; split <;> simp

@[simp] theorem State.sendRank_readValue (s : State) (r k : Nat) (d : LinkData) :
    (State.sendRank s r k d).readValue = s.readValue := by unfold State.sendRank; split <;> simp

@[simp] theorem State.sendRank_mem (s : State) (r k : Nat) (d : LinkData) :
    (State.sendRank s r k d).mem = s.mem := by unfold State.sendRank; split <;> simp

@[simp] theorem State.sendRank_undef (s : State) (r k : Nat) (d : LinkData) :
    (State.sendRank s r k d).undef = s.undef := by unfold State.sendRank; split <;> simp

@[simp] theorem State.sendRank_tarns (s : State) (r k : Nat) (d : LinkData) :
    (State.sendRank s r k d).tarns = s.tarns := by unfold State.sendRank; split <;> simp

@[simp] theorem State.sendRank_prog (s : State) (r k : Nat) (d : LinkData) :
    (State.sendRank s r k d).prog = s.prog := by unfold State.sendRank; split <;> simp

@[simp] theorem State.sendRank_bound (s : State) (r k : Nat) (d : LinkData) :
    (State.sendRank s r k d).bound = s.bound := by unfold State.sendRank; split <;> simp

@[simp] theorem State.sendRank_units (s : State) (r k : Nat) (d : LinkData) :
    (State.sendRank s r k d).units = s.units := by unfold State.sendRank; split <;> simp

@[simp] theorem State.sendRank_step (s : State) (r k : Nat) (d : LinkData) :
    (State.sendRank s r k d).step = s.step := by unfold State.sendRank; split <;> simp

@[simp] theorem State.sendRank_stash (s : State) (r k : Nat) (d : LinkData) :
    (State.sendRank s r k d).stash = s.stash := by unfold State.sendRank; split <;> simp

@[simp] theorem State.sendRank_dom (s : State) (r k : Nat) (d : LinkData) :
    (State.sendRank s r k d).dom = s.dom := by unfold State.sendRank; split <;> simp

@[simp] theorem State.sendRank_twin (s : State) (r k : Nat) (d : LinkData) :
    (State.sendRank s r k d).twin = s.twin := by unfold State.sendRank; split <;> simp

@[simp] theorem State.sendRank_inl (s : State) (r k : Nat) (d : LinkData) :
    (State.sendRank s r k d).inl = s.inl := by unfold State.sendRank; split <;> simp

@[simp] theorem State.sendRank_umc (s : State) (r k : Nat) (d : LinkData) :
    (State.sendRank s r k d).umc = s.umc := by unfold State.sendRank; split <;> simp

@[simp] theorem State.sendRank_sec (s : State) (r k : Nat) (d : LinkData) :
    (State.sendRank s r k d).sec = s.sec := by unfold State.sendRank; split <;> simp

@[simp] theorem State.sendRank_pwr (s : State) (r k : Nat) (d : LinkData) :
    (State.sendRank s r k d).pwr = s.pwr := by unfold State.sendRank; split <;> simp

@[simp] theorem State.sendRank_host (s : State) (r k : Nat) (d : LinkData) :
    (State.sendRank s r k d).host = s.host := by unfold State.sendRank; split <;> simp

@[simp] theorem State.sendRank_cp (s : State) (r k : Nat) (d : LinkData) :
    (State.sendRank s r k d).cp = s.cp := by unfold State.sendRank; split <;> simp

@[simp] theorem State.sendRank_queues (s : State) (r k : Nat) (d : LinkData) :
    (State.sendRank s r k d).queues = s.queues := by unfold State.sendRank; split <;> simp

@[simp] theorem State.sendRank_log (s : State) (r k : Nat) (d : LinkData) :
    (State.sendRank s r k d).log = s.log := by unfold State.sendRank; split <;> simp

@[simp] theorem State.sendRank_bulk (s : State) (r k : Nat) (d : LinkData) :
    (State.sendRank s r k d).bulk = s.bulk := by unfold State.sendRank; split <;> simp

@[simp] theorem State.sendRank_serv (s : State) (r k : Nat) (d : LinkData) :
    (State.sendRank s r k d).serv = s.serv := by unfold State.sendRank; split <;> simp

@[simp] theorem State.sendTwin_pending (s : State) (d : LinkData) :
    (State.sendTwin s d).pending = s.pending := by unfold State.sendTwin; (repeat' split) <;> simp

@[simp] theorem State.sendTwin_free (s : State) (d : LinkData) :
    (State.sendTwin s d).free = s.free := by unfold State.sendTwin; (repeat' split) <;> simp

@[simp] theorem State.sendTwin_us (s : State) (d : LinkData) :
    (State.sendTwin s d).us = s.us := by unfold State.sendTwin; (repeat' split) <;> simp

@[simp] theorem State.sendTwin_part (s : State) (d : LinkData) :
    (State.sendTwin s d).part = s.part := by unfold State.sendTwin; (repeat' split) <;> simp

@[simp] theorem State.sendTwin_latches (s : State) (d : LinkData) :
    (State.sendTwin s d).latches = s.latches := by unfold State.sendTwin; (repeat' split) <;> simp

@[simp] theorem State.sendTwin_access (s : State) (d : LinkData) :
    (State.sendTwin s d).access = s.access := by unfold State.sendTwin; (repeat' split) <;> simp

@[simp] theorem State.sendTwin_readValue (s : State) (d : LinkData) :
    (State.sendTwin s d).readValue = s.readValue := by unfold State.sendTwin; (repeat' split) <;> simp

@[simp] theorem State.sendTwin_mem (s : State) (d : LinkData) :
    (State.sendTwin s d).mem = s.mem := by unfold State.sendTwin; (repeat' split) <;> simp

@[simp] theorem State.sendTwin_undef (s : State) (d : LinkData) :
    (State.sendTwin s d).undef = s.undef := by unfold State.sendTwin; (repeat' split) <;> simp

@[simp] theorem State.sendTwin_tarns (s : State) (d : LinkData) :
    (State.sendTwin s d).tarns = s.tarns := by unfold State.sendTwin; (repeat' split) <;> simp

@[simp] theorem State.sendTwin_prog (s : State) (d : LinkData) :
    (State.sendTwin s d).prog = s.prog := by unfold State.sendTwin; (repeat' split) <;> simp

@[simp] theorem State.sendTwin_bound (s : State) (d : LinkData) :
    (State.sendTwin s d).bound = s.bound := by unfold State.sendTwin; (repeat' split) <;> simp

@[simp] theorem State.sendTwin_units (s : State) (d : LinkData) :
    (State.sendTwin s d).units = s.units := by unfold State.sendTwin; (repeat' split) <;> simp

@[simp] theorem State.sendTwin_step (s : State) (d : LinkData) :
    (State.sendTwin s d).step = s.step := by unfold State.sendTwin; (repeat' split) <;> simp

@[simp] theorem State.sendTwin_stash (s : State) (d : LinkData) :
    (State.sendTwin s d).stash = s.stash := by unfold State.sendTwin; (repeat' split) <;> simp

@[simp] theorem State.sendTwin_dom (s : State) (d : LinkData) :
    (State.sendTwin s d).dom = s.dom := by unfold State.sendTwin; (repeat' split) <;> simp

@[simp] theorem State.sendTwin_twin (s : State) (d : LinkData) :
    (State.sendTwin s d).twin = s.twin := by unfold State.sendTwin; (repeat' split) <;> simp

@[simp] theorem State.sendTwin_inl (s : State) (d : LinkData) :
    (State.sendTwin s d).inl = s.inl := by unfold State.sendTwin; (repeat' split) <;> simp

@[simp] theorem State.sendTwin_umc (s : State) (d : LinkData) :
    (State.sendTwin s d).umc = s.umc := by unfold State.sendTwin; (repeat' split) <;> simp

@[simp] theorem State.sendTwin_sec (s : State) (d : LinkData) :
    (State.sendTwin s d).sec = s.sec := by unfold State.sendTwin; (repeat' split) <;> simp

@[simp] theorem State.sendTwin_pwr (s : State) (d : LinkData) :
    (State.sendTwin s d).pwr = s.pwr := by unfold State.sendTwin; (repeat' split) <;> simp

@[simp] theorem State.sendTwin_host (s : State) (d : LinkData) :
    (State.sendTwin s d).host = s.host := by unfold State.sendTwin; (repeat' split) <;> simp

@[simp] theorem State.sendTwin_cp (s : State) (d : LinkData) :
    (State.sendTwin s d).cp = s.cp := by unfold State.sendTwin; (repeat' split) <;> simp

@[simp] theorem State.sendTwin_queues (s : State) (d : LinkData) :
    (State.sendTwin s d).queues = s.queues := by unfold State.sendTwin; (repeat' split) <;> simp

@[simp] theorem State.sendTwin_log (s : State) (d : LinkData) :
    (State.sendTwin s d).log = s.log := by unfold State.sendTwin; (repeat' split) <;> simp

@[simp] theorem State.sendTwin_bulk (s : State) (d : LinkData) :
    (State.sendTwin s d).bulk = s.bulk := by unfold State.sendTwin; (repeat' split) <;> simp

@[simp] theorem State.sendTwin_serv (s : State) (d : LinkData) :
    (State.sendTwin s d).serv = s.serv := by unfold State.sendTwin; (repeat' split) <;> simp

@[simp] theorem State.pendAll_pending (s : State) (i : Nat) :
    (State.pendAll s i).pending = s.pending := by unfold State.pendAll; apply State.foldl_pending; simp

@[simp] theorem State.pendAll_free (s : State) (i : Nat) :
    (State.pendAll s i).free = s.free := by unfold State.pendAll; apply State.foldl_free; simp

@[simp] theorem State.pendAll_us (s : State) (i : Nat) :
    (State.pendAll s i).us = s.us := by unfold State.pendAll; apply State.foldl_us; simp

@[simp] theorem State.pendAll_part (s : State) (i : Nat) :
    (State.pendAll s i).part = s.part := by unfold State.pendAll; apply State.foldl_part; simp

@[simp] theorem State.pendAll_regs (s : State) (i : Nat) :
    (State.pendAll s i).regs = s.regs := by unfold State.pendAll; apply State.foldl_regs; simp

@[simp] theorem State.pendAll_latches (s : State) (i : Nat) :
    (State.pendAll s i).latches = s.latches := by unfold State.pendAll; apply State.foldl_latches; simp

@[simp] theorem State.pendAll_access (s : State) (i : Nat) :
    (State.pendAll s i).access = s.access := by unfold State.pendAll; apply State.foldl_access; simp

@[simp] theorem State.pendAll_readValue (s : State) (i : Nat) :
    (State.pendAll s i).readValue = s.readValue := by unfold State.pendAll; apply State.foldl_readValue; simp

@[simp] theorem State.pendAll_mem (s : State) (i : Nat) :
    (State.pendAll s i).mem = s.mem := by unfold State.pendAll; apply State.foldl_mem; simp

@[simp] theorem State.pendAll_undef (s : State) (i : Nat) :
    (State.pendAll s i).undef = s.undef := by unfold State.pendAll; apply State.foldl_undef; simp

@[simp] theorem State.pendAll_prog (s : State) (i : Nat) :
    (State.pendAll s i).prog = s.prog := by unfold State.pendAll; apply State.foldl_prog; simp

@[simp] theorem State.pendAll_bound (s : State) (i : Nat) :
    (State.pendAll s i).bound = s.bound := by unfold State.pendAll; apply State.foldl_bound; simp

@[simp] theorem State.pendAll_units (s : State) (i : Nat) :
    (State.pendAll s i).units = s.units := by unfold State.pendAll; apply State.foldl_units; simp

@[simp] theorem State.pendAll_step (s : State) (i : Nat) :
    (State.pendAll s i).step = s.step := by unfold State.pendAll; apply State.foldl_step; simp

@[simp] theorem State.pendAll_stash (s : State) (i : Nat) :
    (State.pendAll s i).stash = s.stash := by unfold State.pendAll; apply State.foldl_stash; simp

@[simp] theorem State.pendAll_dom (s : State) (i : Nat) :
    (State.pendAll s i).dom = s.dom := by unfold State.pendAll; apply State.foldl_dom; simp

@[simp] theorem State.pendAll_twin (s : State) (i : Nat) :
    (State.pendAll s i).twin = s.twin := by unfold State.pendAll; apply State.foldl_twin; simp

@[simp] theorem State.pendAll_fab (s : State) (i : Nat) :
    (State.pendAll s i).fab = s.fab := by unfold State.pendAll; apply State.foldl_fab; simp

@[simp] theorem State.pendAll_inl (s : State) (i : Nat) :
    (State.pendAll s i).inl = s.inl := by unfold State.pendAll; apply State.foldl_inl; simp

@[simp] theorem State.pendAll_umc (s : State) (i : Nat) :
    (State.pendAll s i).umc = s.umc := by unfold State.pendAll; apply State.foldl_umc; simp

@[simp] theorem State.pendAll_sec (s : State) (i : Nat) :
    (State.pendAll s i).sec = s.sec := by unfold State.pendAll; apply State.foldl_sec; simp

@[simp] theorem State.pendAll_pwr (s : State) (i : Nat) :
    (State.pendAll s i).pwr = s.pwr := by unfold State.pendAll; apply State.foldl_pwr; simp

@[simp] theorem State.pendAll_host (s : State) (i : Nat) :
    (State.pendAll s i).host = s.host := by unfold State.pendAll; apply State.foldl_host; simp

@[simp] theorem State.pendAll_cp (s : State) (i : Nat) :
    (State.pendAll s i).cp = s.cp := by unfold State.pendAll; apply State.foldl_cp; simp

@[simp] theorem State.pendAll_queues (s : State) (i : Nat) :
    (State.pendAll s i).queues = s.queues := by unfold State.pendAll; apply State.foldl_queues; simp

@[simp] theorem State.pendAll_log (s : State) (i : Nat) :
    (State.pendAll s i).log = s.log := by unfold State.pendAll; apply State.foldl_log; simp

@[simp] theorem State.pendAll_bulk (s : State) (i : Nat) :
    (State.pendAll s i).bulk = s.bulk := by unfold State.pendAll; apply State.foldl_bulk; simp

@[simp] theorem State.pendAll_serv (s : State) (i : Nat) :
    (State.pendAll s i).serv = s.serv := by unfold State.pendAll; apply State.foldl_serv; simp

@[simp] theorem State.pendAll_out (s : State) (i : Nat) :
    (State.pendAll s i).out = s.out := by unfold State.pendAll; apply State.foldl_out; simp

@[simp] theorem State.ckptLost_pending (s : State) (i why : Nat) :
    (State.ckptLost s i why).pending = s.pending := by simp [State.ckptLost]

@[simp] theorem State.ckptLost_free (s : State) (i why : Nat) :
    (State.ckptLost s i why).free = s.free := by simp [State.ckptLost]

@[simp] theorem State.ckptLost_us (s : State) (i why : Nat) :
    (State.ckptLost s i why).us = s.us := by simp [State.ckptLost]

@[simp] theorem State.ckptLost_part (s : State) (i why : Nat) :
    (State.ckptLost s i why).part = s.part := by simp [State.ckptLost]

@[simp] theorem State.ckptLost_latches (s : State) (i why : Nat) :
    (State.ckptLost s i why).latches = s.latches := by simp [State.ckptLost]

@[simp] theorem State.ckptLost_access (s : State) (i why : Nat) :
    (State.ckptLost s i why).access = s.access := by simp [State.ckptLost]

@[simp] theorem State.ckptLost_readValue (s : State) (i why : Nat) :
    (State.ckptLost s i why).readValue = s.readValue := by simp [State.ckptLost]

@[simp] theorem State.ckptLost_prog (s : State) (i why : Nat) :
    (State.ckptLost s i why).prog = s.prog := by simp [State.ckptLost]

@[simp] theorem State.ckptLost_bound (s : State) (i why : Nat) :
    (State.ckptLost s i why).bound = s.bound := by simp [State.ckptLost]

@[simp] theorem State.ckptLost_units (s : State) (i why : Nat) :
    (State.ckptLost s i why).units = s.units := by simp [State.ckptLost]

@[simp] theorem State.ckptLost_step (s : State) (i why : Nat) :
    (State.ckptLost s i why).step = s.step := by simp [State.ckptLost]

@[simp] theorem State.ckptLost_stash (s : State) (i why : Nat) :
    (State.ckptLost s i why).stash = s.stash := by simp [State.ckptLost]

@[simp] theorem State.ckptLost_dom (s : State) (i why : Nat) :
    (State.ckptLost s i why).dom = s.dom := by simp [State.ckptLost]

@[simp] theorem State.ckptLost_twin (s : State) (i why : Nat) :
    (State.ckptLost s i why).twin = s.twin := by simp [State.ckptLost]

@[simp] theorem State.ckptLost_fab (s : State) (i why : Nat) :
    (State.ckptLost s i why).fab = s.fab := by simp [State.ckptLost]

@[simp] theorem State.ckptLost_inl (s : State) (i why : Nat) :
    (State.ckptLost s i why).inl = s.inl := by simp [State.ckptLost]

@[simp] theorem State.ckptLost_umc (s : State) (i why : Nat) :
    (State.ckptLost s i why).umc = s.umc := by simp [State.ckptLost]

@[simp] theorem State.ckptLost_sec (s : State) (i why : Nat) :
    (State.ckptLost s i why).sec = s.sec := by simp [State.ckptLost]

@[simp] theorem State.ckptLost_pwr (s : State) (i why : Nat) :
    (State.ckptLost s i why).pwr = s.pwr := by simp [State.ckptLost]

@[simp] theorem State.ckptLost_host (s : State) (i why : Nat) :
    (State.ckptLost s i why).host = s.host := by simp [State.ckptLost]

@[simp] theorem State.ckptLost_cp (s : State) (i why : Nat) :
    (State.ckptLost s i why).cp = s.cp := by simp [State.ckptLost]

@[simp] theorem State.ckptLost_queues (s : State) (i why : Nat) :
    (State.ckptLost s i why).queues = s.queues := by simp [State.ckptLost]

@[simp] theorem State.ckptLost_bulk (s : State) (i why : Nat) :
    (State.ckptLost s i why).bulk = s.bulk := by simp [State.ckptLost]

@[simp] theorem State.ckptLost_serv (s : State) (i why : Nat) :
    (State.ckptLost s i why).serv = s.serv := by simp [State.ckptLost]

@[simp] theorem State.ckptLost_out (s : State) (i why : Nat) :
    (State.ckptLost s i why).out = s.out := by simp [State.ckptLost]

@[simp] theorem State.passDown_pending (s : State) (f : DomFrame) :
    (State.passDown s f).pending = s.pending := by
  unfold State.passDown
  exact State.foldl_pending _ _ _ (fun t d => by simp)

@[simp] theorem State.passDown_free (s : State) (f : DomFrame) :
    (State.passDown s f).free = s.free := by
  unfold State.passDown
  exact State.foldl_free _ _ _ (fun t d => by simp)

@[simp] theorem State.passDown_us (s : State) (f : DomFrame) :
    (State.passDown s f).us = s.us := by
  unfold State.passDown
  exact State.foldl_us _ _ _ (fun t d => by simp)

@[simp] theorem State.passDown_part (s : State) (f : DomFrame) :
    (State.passDown s f).part = s.part := by
  unfold State.passDown
  exact State.foldl_part _ _ _ (fun t d => by simp)

@[simp] theorem State.passDown_latches (s : State) (f : DomFrame) :
    (State.passDown s f).latches = s.latches := by
  unfold State.passDown
  exact State.foldl_latches _ _ _ (fun t d => by simp)

@[simp] theorem State.passDown_access (s : State) (f : DomFrame) :
    (State.passDown s f).access = s.access := by
  unfold State.passDown
  exact State.foldl_access _ _ _ (fun t d => by simp)

@[simp] theorem State.passDown_readValue (s : State) (f : DomFrame) :
    (State.passDown s f).readValue = s.readValue := by
  unfold State.passDown
  exact State.foldl_readValue _ _ _ (fun t d => by simp)

@[simp] theorem State.passDown_mem (s : State) (f : DomFrame) :
    (State.passDown s f).mem = s.mem := by
  unfold State.passDown
  exact State.foldl_mem _ _ _ (fun t d => by simp)

@[simp] theorem State.passDown_undef (s : State) (f : DomFrame) :
    (State.passDown s f).undef = s.undef := by
  unfold State.passDown
  exact State.foldl_undef _ _ _ (fun t d => by simp)

@[simp] theorem State.passDown_tarns (s : State) (f : DomFrame) :
    (State.passDown s f).tarns = s.tarns := by
  unfold State.passDown
  exact State.foldl_tarns _ _ _ (fun t d => by simp)

@[simp] theorem State.passDown_prog (s : State) (f : DomFrame) :
    (State.passDown s f).prog = s.prog := by
  unfold State.passDown
  exact State.foldl_prog _ _ _ (fun t d => by simp)

@[simp] theorem State.passDown_bound (s : State) (f : DomFrame) :
    (State.passDown s f).bound = s.bound := by
  unfold State.passDown
  exact State.foldl_bound _ _ _ (fun t d => by simp)

@[simp] theorem State.passDown_units (s : State) (f : DomFrame) :
    (State.passDown s f).units = s.units := by
  unfold State.passDown
  exact State.foldl_units _ _ _ (fun t d => by simp)

@[simp] theorem State.passDown_step (s : State) (f : DomFrame) :
    (State.passDown s f).step = s.step := by
  unfold State.passDown
  exact State.foldl_step _ _ _ (fun t d => by simp)

@[simp] theorem State.passDown_stash (s : State) (f : DomFrame) :
    (State.passDown s f).stash = s.stash := by
  unfold State.passDown
  exact State.foldl_stash _ _ _ (fun t d => by simp)

@[simp] theorem State.passDown_dom (s : State) (f : DomFrame) :
    (State.passDown s f).dom = s.dom := by
  unfold State.passDown
  exact State.foldl_dom _ _ _ (fun t d => by simp)

@[simp] theorem State.passDown_twin (s : State) (f : DomFrame) :
    (State.passDown s f).twin = s.twin := by
  unfold State.passDown
  exact State.foldl_twin _ _ _ (fun t d => by simp)

@[simp] theorem State.passDown_inl (s : State) (f : DomFrame) :
    (State.passDown s f).inl = s.inl := by
  unfold State.passDown
  exact State.foldl_inl _ _ _ (fun t d => by simp)

@[simp] theorem State.passDown_umc (s : State) (f : DomFrame) :
    (State.passDown s f).umc = s.umc := by
  unfold State.passDown
  exact State.foldl_umc _ _ _ (fun t d => by simp)

@[simp] theorem State.passDown_sec (s : State) (f : DomFrame) :
    (State.passDown s f).sec = s.sec := by
  unfold State.passDown
  exact State.foldl_sec _ _ _ (fun t d => by simp)

@[simp] theorem State.passDown_pwr (s : State) (f : DomFrame) :
    (State.passDown s f).pwr = s.pwr := by
  unfold State.passDown
  exact State.foldl_pwr _ _ _ (fun t d => by simp)

@[simp] theorem State.passDown_host (s : State) (f : DomFrame) :
    (State.passDown s f).host = s.host := by
  unfold State.passDown
  exact State.foldl_host _ _ _ (fun t d => by simp)

@[simp] theorem State.passDown_cp (s : State) (f : DomFrame) :
    (State.passDown s f).cp = s.cp := by
  unfold State.passDown
  exact State.foldl_cp _ _ _ (fun t d => by simp)

@[simp] theorem State.passDown_queues (s : State) (f : DomFrame) :
    (State.passDown s f).queues = s.queues := by
  unfold State.passDown
  exact State.foldl_queues _ _ _ (fun t d => by simp)

@[simp] theorem State.passDown_log (s : State) (f : DomFrame) :
    (State.passDown s f).log = s.log := by
  unfold State.passDown
  exact State.foldl_log _ _ _ (fun t d => by simp)

@[simp] theorem State.passDown_bulk (s : State) (f : DomFrame) :
    (State.passDown s f).bulk = s.bulk := by
  unfold State.passDown
  exact State.foldl_bulk _ _ _ (fun t d => by simp)

@[simp] theorem State.passDown_serv (s : State) (f : DomFrame) :
    (State.passDown s f).serv = s.serv := by
  unfold State.passDown
  exact State.foldl_serv _ _ _ (fun t d => by simp)

@[simp] theorem State.sendDown_pending (s : State) (f : DomFrame) :
    (State.sendDown s f).pending = s.pending := by simp [State.sendDown]

@[simp] theorem State.sendDown_free (s : State) (f : DomFrame) :
    (State.sendDown s f).free = s.free := by simp [State.sendDown]

@[simp] theorem State.sendDown_us (s : State) (f : DomFrame) :
    (State.sendDown s f).us = s.us := by simp [State.sendDown]

@[simp] theorem State.sendDown_part (s : State) (f : DomFrame) :
    (State.sendDown s f).part = s.part := by simp [State.sendDown]

@[simp] theorem State.sendDown_latches (s : State) (f : DomFrame) :
    (State.sendDown s f).latches = s.latches := by simp [State.sendDown]

@[simp] theorem State.sendDown_access (s : State) (f : DomFrame) :
    (State.sendDown s f).access = s.access := by simp [State.sendDown]

@[simp] theorem State.sendDown_readValue (s : State) (f : DomFrame) :
    (State.sendDown s f).readValue = s.readValue := by simp [State.sendDown]

@[simp] theorem State.sendDown_mem (s : State) (f : DomFrame) :
    (State.sendDown s f).mem = s.mem := by simp [State.sendDown]

@[simp] theorem State.sendDown_undef (s : State) (f : DomFrame) :
    (State.sendDown s f).undef = s.undef := by simp [State.sendDown]

@[simp] theorem State.sendDown_tarns (s : State) (f : DomFrame) :
    (State.sendDown s f).tarns = s.tarns := by simp [State.sendDown]

@[simp] theorem State.sendDown_prog (s : State) (f : DomFrame) :
    (State.sendDown s f).prog = s.prog := by simp [State.sendDown]

@[simp] theorem State.sendDown_bound (s : State) (f : DomFrame) :
    (State.sendDown s f).bound = s.bound := by simp [State.sendDown]

@[simp] theorem State.sendDown_units (s : State) (f : DomFrame) :
    (State.sendDown s f).units = s.units := by simp [State.sendDown]

@[simp] theorem State.sendDown_step (s : State) (f : DomFrame) :
    (State.sendDown s f).step = s.step := by simp [State.sendDown]

@[simp] theorem State.sendDown_stash (s : State) (f : DomFrame) :
    (State.sendDown s f).stash = s.stash := by simp [State.sendDown]

@[simp] theorem State.sendDown_dom (s : State) (f : DomFrame) :
    (State.sendDown s f).dom = s.dom := by simp [State.sendDown]

@[simp] theorem State.sendDown_twin (s : State) (f : DomFrame) :
    (State.sendDown s f).twin = s.twin := by simp [State.sendDown]

@[simp] theorem State.sendDown_inl (s : State) (f : DomFrame) :
    (State.sendDown s f).inl = s.inl := by simp [State.sendDown]

@[simp] theorem State.sendDown_umc (s : State) (f : DomFrame) :
    (State.sendDown s f).umc = s.umc := by simp [State.sendDown]

@[simp] theorem State.sendDown_sec (s : State) (f : DomFrame) :
    (State.sendDown s f).sec = s.sec := by simp [State.sendDown]

@[simp] theorem State.sendDown_pwr (s : State) (f : DomFrame) :
    (State.sendDown s f).pwr = s.pwr := by simp [State.sendDown]

@[simp] theorem State.sendDown_host (s : State) (f : DomFrame) :
    (State.sendDown s f).host = s.host := by simp [State.sendDown]

@[simp] theorem State.sendDown_cp (s : State) (f : DomFrame) :
    (State.sendDown s f).cp = s.cp := by simp [State.sendDown]

@[simp] theorem State.sendDown_queues (s : State) (f : DomFrame) :
    (State.sendDown s f).queues = s.queues := by simp [State.sendDown]

@[simp] theorem State.sendDown_log (s : State) (f : DomFrame) :
    (State.sendDown s f).log = s.log := by simp [State.sendDown]

@[simp] theorem State.sendDown_bulk (s : State) (f : DomFrame) :
    (State.sendDown s f).bulk = s.bulk := by simp [State.sendDown]

@[simp] theorem State.sendDown_serv (s : State) (f : DomFrame) :
    (State.sendDown s f).serv = s.serv := by simp [State.sendDown]

@[simp] theorem State.sendDirect_pending (s : State) (f : DomFrame) :
    (State.sendDirect s f).pending = s.pending := by simp [State.sendDirect]

@[simp] theorem State.sendDirect_free (s : State) (f : DomFrame) :
    (State.sendDirect s f).free = s.free := by simp [State.sendDirect]

@[simp] theorem State.sendDirect_us (s : State) (f : DomFrame) :
    (State.sendDirect s f).us = s.us := by simp [State.sendDirect]

@[simp] theorem State.sendDirect_part (s : State) (f : DomFrame) :
    (State.sendDirect s f).part = s.part := by simp [State.sendDirect]

@[simp] theorem State.sendDirect_latches (s : State) (f : DomFrame) :
    (State.sendDirect s f).latches = s.latches := by simp [State.sendDirect]

@[simp] theorem State.sendDirect_access (s : State) (f : DomFrame) :
    (State.sendDirect s f).access = s.access := by simp [State.sendDirect]

@[simp] theorem State.sendDirect_readValue (s : State) (f : DomFrame) :
    (State.sendDirect s f).readValue = s.readValue := by simp [State.sendDirect]

@[simp] theorem State.sendDirect_mem (s : State) (f : DomFrame) :
    (State.sendDirect s f).mem = s.mem := by simp [State.sendDirect]

@[simp] theorem State.sendDirect_undef (s : State) (f : DomFrame) :
    (State.sendDirect s f).undef = s.undef := by simp [State.sendDirect]

@[simp] theorem State.sendDirect_tarns (s : State) (f : DomFrame) :
    (State.sendDirect s f).tarns = s.tarns := by simp [State.sendDirect]

@[simp] theorem State.sendDirect_prog (s : State) (f : DomFrame) :
    (State.sendDirect s f).prog = s.prog := by simp [State.sendDirect]

@[simp] theorem State.sendDirect_bound (s : State) (f : DomFrame) :
    (State.sendDirect s f).bound = s.bound := by simp [State.sendDirect]

@[simp] theorem State.sendDirect_units (s : State) (f : DomFrame) :
    (State.sendDirect s f).units = s.units := by simp [State.sendDirect]

@[simp] theorem State.sendDirect_step (s : State) (f : DomFrame) :
    (State.sendDirect s f).step = s.step := by simp [State.sendDirect]

@[simp] theorem State.sendDirect_stash (s : State) (f : DomFrame) :
    (State.sendDirect s f).stash = s.stash := by simp [State.sendDirect]

@[simp] theorem State.sendDirect_dom (s : State) (f : DomFrame) :
    (State.sendDirect s f).dom = s.dom := by simp [State.sendDirect]

@[simp] theorem State.sendDirect_twin (s : State) (f : DomFrame) :
    (State.sendDirect s f).twin = s.twin := by simp [State.sendDirect]

@[simp] theorem State.sendDirect_inl (s : State) (f : DomFrame) :
    (State.sendDirect s f).inl = s.inl := by simp [State.sendDirect]

@[simp] theorem State.sendDirect_umc (s : State) (f : DomFrame) :
    (State.sendDirect s f).umc = s.umc := by simp [State.sendDirect]

@[simp] theorem State.sendDirect_sec (s : State) (f : DomFrame) :
    (State.sendDirect s f).sec = s.sec := by simp [State.sendDirect]

@[simp] theorem State.sendDirect_pwr (s : State) (f : DomFrame) :
    (State.sendDirect s f).pwr = s.pwr := by simp [State.sendDirect]

@[simp] theorem State.sendDirect_host (s : State) (f : DomFrame) :
    (State.sendDirect s f).host = s.host := by simp [State.sendDirect]

@[simp] theorem State.sendDirect_cp (s : State) (f : DomFrame) :
    (State.sendDirect s f).cp = s.cp := by simp [State.sendDirect]

@[simp] theorem State.sendDirect_queues (s : State) (f : DomFrame) :
    (State.sendDirect s f).queues = s.queues := by simp [State.sendDirect]

@[simp] theorem State.sendDirect_log (s : State) (f : DomFrame) :
    (State.sendDirect s f).log = s.log := by simp [State.sendDirect]

@[simp] theorem State.sendDirect_bulk (s : State) (f : DomFrame) :
    (State.sendDirect s f).bulk = s.bulk := by simp [State.sendDirect]

@[simp] theorem State.sendDirect_serv (s : State) (f : DomFrame) :
    (State.sendDirect s f).serv = s.serv := by simp [State.sendDirect]

@[simp] theorem State.addOwn_pending (s : State) (f : DomFrame) :
    (State.addOwn s f).pending = s.pending := rfl

@[simp] theorem State.addOwn_free (s : State) (f : DomFrame) :
    (State.addOwn s f).free = s.free := rfl

@[simp] theorem State.addOwn_us (s : State) (f : DomFrame) :
    (State.addOwn s f).us = s.us := rfl

@[simp] theorem State.addOwn_part (s : State) (f : DomFrame) :
    (State.addOwn s f).part = s.part := rfl

@[simp] theorem State.addOwn_regs (s : State) (f : DomFrame) :
    (State.addOwn s f).regs = s.regs := rfl

@[simp] theorem State.addOwn_latches (s : State) (f : DomFrame) :
    (State.addOwn s f).latches = s.latches := rfl

@[simp] theorem State.addOwn_access (s : State) (f : DomFrame) :
    (State.addOwn s f).access = s.access := rfl

@[simp] theorem State.addOwn_readValue (s : State) (f : DomFrame) :
    (State.addOwn s f).readValue = s.readValue := rfl

@[simp] theorem State.addOwn_mem (s : State) (f : DomFrame) :
    (State.addOwn s f).mem = s.mem := rfl

@[simp] theorem State.addOwn_undef (s : State) (f : DomFrame) :
    (State.addOwn s f).undef = s.undef := rfl

@[simp] theorem State.addOwn_tarns (s : State) (f : DomFrame) :
    (State.addOwn s f).tarns = s.tarns := rfl

@[simp] theorem State.addOwn_prog (s : State) (f : DomFrame) :
    (State.addOwn s f).prog = s.prog := rfl

@[simp] theorem State.addOwn_bound (s : State) (f : DomFrame) :
    (State.addOwn s f).bound = s.bound := rfl

@[simp] theorem State.addOwn_units (s : State) (f : DomFrame) :
    (State.addOwn s f).units = s.units := rfl

@[simp] theorem State.addOwn_step (s : State) (f : DomFrame) :
    (State.addOwn s f).step = s.step := rfl

@[simp] theorem State.addOwn_stash (s : State) (f : DomFrame) :
    (State.addOwn s f).stash = s.stash := rfl

@[simp] theorem State.addOwn_twin (s : State) (f : DomFrame) :
    (State.addOwn s f).twin = s.twin := rfl

@[simp] theorem State.addOwn_fab (s : State) (f : DomFrame) :
    (State.addOwn s f).fab = s.fab := rfl

@[simp] theorem State.addOwn_inl (s : State) (f : DomFrame) :
    (State.addOwn s f).inl = s.inl := rfl

@[simp] theorem State.addOwn_umc (s : State) (f : DomFrame) :
    (State.addOwn s f).umc = s.umc := rfl

@[simp] theorem State.addOwn_sec (s : State) (f : DomFrame) :
    (State.addOwn s f).sec = s.sec := rfl

@[simp] theorem State.addOwn_pwr (s : State) (f : DomFrame) :
    (State.addOwn s f).pwr = s.pwr := rfl

@[simp] theorem State.addOwn_host (s : State) (f : DomFrame) :
    (State.addOwn s f).host = s.host := rfl

@[simp] theorem State.addOwn_cp (s : State) (f : DomFrame) :
    (State.addOwn s f).cp = s.cp := rfl

@[simp] theorem State.addOwn_queues (s : State) (f : DomFrame) :
    (State.addOwn s f).queues = s.queues := rfl

@[simp] theorem State.addOwn_log (s : State) (f : DomFrame) :
    (State.addOwn s f).log = s.log := rfl

@[simp] theorem State.addOwn_bulk (s : State) (f : DomFrame) :
    (State.addOwn s f).bulk = s.bulk := rfl

@[simp] theorem State.addOwn_serv (s : State) (f : DomFrame) :
    (State.addOwn s f).serv = s.serv := rfl

@[simp] theorem State.addOwn_out (s : State) (f : DomFrame) :
    (State.addOwn s f).out = s.out := rfl

@[simp] theorem State.txPfc_pending (s : State) (n : Nat) (pause : Bool) :
    (State.txPfc s n pause).pending = s.pending := by unfold State.txPfc; split <;> simp

@[simp] theorem State.txPfc_free (s : State) (n : Nat) (pause : Bool) :
    (State.txPfc s n pause).free = s.free := by unfold State.txPfc; split <;> simp

@[simp] theorem State.txPfc_us (s : State) (n : Nat) (pause : Bool) :
    (State.txPfc s n pause).us = s.us := by unfold State.txPfc; split <;> simp

@[simp] theorem State.txPfc_part (s : State) (n : Nat) (pause : Bool) :
    (State.txPfc s n pause).part = s.part := by unfold State.txPfc; split <;> simp

@[simp] theorem State.txPfc_latches (s : State) (n : Nat) (pause : Bool) :
    (State.txPfc s n pause).latches = s.latches := by unfold State.txPfc; split <;> simp

@[simp] theorem State.txPfc_access (s : State) (n : Nat) (pause : Bool) :
    (State.txPfc s n pause).access = s.access := by unfold State.txPfc; split <;> simp

@[simp] theorem State.txPfc_readValue (s : State) (n : Nat) (pause : Bool) :
    (State.txPfc s n pause).readValue = s.readValue := by unfold State.txPfc; split <;> simp

@[simp] theorem State.txPfc_mem (s : State) (n : Nat) (pause : Bool) :
    (State.txPfc s n pause).mem = s.mem := by unfold State.txPfc; split <;> simp

@[simp] theorem State.txPfc_undef (s : State) (n : Nat) (pause : Bool) :
    (State.txPfc s n pause).undef = s.undef := by unfold State.txPfc; split <;> simp

@[simp] theorem State.txPfc_tarns (s : State) (n : Nat) (pause : Bool) :
    (State.txPfc s n pause).tarns = s.tarns := by unfold State.txPfc; split <;> simp

@[simp] theorem State.txPfc_prog (s : State) (n : Nat) (pause : Bool) :
    (State.txPfc s n pause).prog = s.prog := by unfold State.txPfc; split <;> simp

@[simp] theorem State.txPfc_bound (s : State) (n : Nat) (pause : Bool) :
    (State.txPfc s n pause).bound = s.bound := by unfold State.txPfc; split <;> simp

@[simp] theorem State.txPfc_units (s : State) (n : Nat) (pause : Bool) :
    (State.txPfc s n pause).units = s.units := by unfold State.txPfc; split <;> simp

@[simp] theorem State.txPfc_step (s : State) (n : Nat) (pause : Bool) :
    (State.txPfc s n pause).step = s.step := by unfold State.txPfc; split <;> simp

@[simp] theorem State.txPfc_stash (s : State) (n : Nat) (pause : Bool) :
    (State.txPfc s n pause).stash = s.stash := by unfold State.txPfc; split <;> simp

@[simp] theorem State.txPfc_dom (s : State) (n : Nat) (pause : Bool) :
    (State.txPfc s n pause).dom = s.dom := by unfold State.txPfc; split <;> simp

@[simp] theorem State.txPfc_twin (s : State) (n : Nat) (pause : Bool) :
    (State.txPfc s n pause).twin = s.twin := by unfold State.txPfc; split <;> simp

@[simp] theorem State.txPfc_fab (s : State) (n : Nat) (pause : Bool) :
    (State.txPfc s n pause).fab = s.fab := by unfold State.txPfc; split <;> simp

@[simp] theorem State.txPfc_inl (s : State) (n : Nat) (pause : Bool) :
    (State.txPfc s n pause).inl = s.inl := by unfold State.txPfc; split <;> simp

@[simp] theorem State.txPfc_umc (s : State) (n : Nat) (pause : Bool) :
    (State.txPfc s n pause).umc = s.umc := by unfold State.txPfc; split <;> simp

@[simp] theorem State.txPfc_sec (s : State) (n : Nat) (pause : Bool) :
    (State.txPfc s n pause).sec = s.sec := by unfold State.txPfc; split <;> simp

@[simp] theorem State.txPfc_pwr (s : State) (n : Nat) (pause : Bool) :
    (State.txPfc s n pause).pwr = s.pwr := by unfold State.txPfc; split <;> simp

@[simp] theorem State.txPfc_host (s : State) (n : Nat) (pause : Bool) :
    (State.txPfc s n pause).host = s.host := by unfold State.txPfc; split <;> simp

@[simp] theorem State.txPfc_cp (s : State) (n : Nat) (pause : Bool) :
    (State.txPfc s n pause).cp = s.cp := by unfold State.txPfc; split <;> simp

@[simp] theorem State.txPfc_queues (s : State) (n : Nat) (pause : Bool) :
    (State.txPfc s n pause).queues = s.queues := by unfold State.txPfc; split <;> simp

@[simp] theorem State.txPfc_log (s : State) (n : Nat) (pause : Bool) :
    (State.txPfc s n pause).log = s.log := by unfold State.txPfc; split <;> simp

@[simp] theorem State.txPfc_bulk (s : State) (n : Nat) (pause : Bool) :
    (State.txPfc s n pause).bulk = s.bulk := by unfold State.txPfc; split <;> simp

@[simp] theorem State.txPfc_serv (s : State) (n : Nat) (pause : Bool) :
    (State.txPfc s n pause).serv = s.serv := by unfold State.txPfc; split <;> simp

@[simp] theorem State.xonCheck_pending (s : State) (n : Nat) :
    (State.xonCheck s n).pending = s.pending := by unfold State.xonCheck; dsimp only; split <;> simp

@[simp] theorem State.xonCheck_free (s : State) (n : Nat) :
    (State.xonCheck s n).free = s.free := by unfold State.xonCheck; dsimp only; split <;> simp

@[simp] theorem State.xonCheck_us (s : State) (n : Nat) :
    (State.xonCheck s n).us = s.us := by unfold State.xonCheck; dsimp only; split <;> simp

@[simp] theorem State.xonCheck_part (s : State) (n : Nat) :
    (State.xonCheck s n).part = s.part := by unfold State.xonCheck; dsimp only; split <;> simp

@[simp] theorem State.xonCheck_latches (s : State) (n : Nat) :
    (State.xonCheck s n).latches = s.latches := by unfold State.xonCheck; dsimp only; split <;> simp

@[simp] theorem State.xonCheck_access (s : State) (n : Nat) :
    (State.xonCheck s n).access = s.access := by unfold State.xonCheck; dsimp only; split <;> simp

@[simp] theorem State.xonCheck_readValue (s : State) (n : Nat) :
    (State.xonCheck s n).readValue = s.readValue := by unfold State.xonCheck; dsimp only; split <;> simp

@[simp] theorem State.xonCheck_mem (s : State) (n : Nat) :
    (State.xonCheck s n).mem = s.mem := by unfold State.xonCheck; dsimp only; split <;> simp

@[simp] theorem State.xonCheck_undef (s : State) (n : Nat) :
    (State.xonCheck s n).undef = s.undef := by unfold State.xonCheck; dsimp only; split <;> simp

@[simp] theorem State.xonCheck_tarns (s : State) (n : Nat) :
    (State.xonCheck s n).tarns = s.tarns := by unfold State.xonCheck; dsimp only; split <;> simp

@[simp] theorem State.xonCheck_prog (s : State) (n : Nat) :
    (State.xonCheck s n).prog = s.prog := by unfold State.xonCheck; dsimp only; split <;> simp

@[simp] theorem State.xonCheck_bound (s : State) (n : Nat) :
    (State.xonCheck s n).bound = s.bound := by unfold State.xonCheck; dsimp only; split <;> simp

@[simp] theorem State.xonCheck_units (s : State) (n : Nat) :
    (State.xonCheck s n).units = s.units := by unfold State.xonCheck; dsimp only; split <;> simp

@[simp] theorem State.xonCheck_step (s : State) (n : Nat) :
    (State.xonCheck s n).step = s.step := by unfold State.xonCheck; dsimp only; split <;> simp

@[simp] theorem State.xonCheck_stash (s : State) (n : Nat) :
    (State.xonCheck s n).stash = s.stash := by unfold State.xonCheck; dsimp only; split <;> simp

@[simp] theorem State.xonCheck_dom (s : State) (n : Nat) :
    (State.xonCheck s n).dom = s.dom := by unfold State.xonCheck; dsimp only; split <;> simp

@[simp] theorem State.xonCheck_twin (s : State) (n : Nat) :
    (State.xonCheck s n).twin = s.twin := by unfold State.xonCheck; dsimp only; split <;> simp

@[simp] theorem State.xonCheck_inl (s : State) (n : Nat) :
    (State.xonCheck s n).inl = s.inl := by unfold State.xonCheck; dsimp only; split <;> simp

@[simp] theorem State.xonCheck_umc (s : State) (n : Nat) :
    (State.xonCheck s n).umc = s.umc := by unfold State.xonCheck; dsimp only; split <;> simp

@[simp] theorem State.xonCheck_sec (s : State) (n : Nat) :
    (State.xonCheck s n).sec = s.sec := by unfold State.xonCheck; dsimp only; split <;> simp

@[simp] theorem State.xonCheck_pwr (s : State) (n : Nat) :
    (State.xonCheck s n).pwr = s.pwr := by unfold State.xonCheck; dsimp only; split <;> simp

@[simp] theorem State.xonCheck_host (s : State) (n : Nat) :
    (State.xonCheck s n).host = s.host := by unfold State.xonCheck; dsimp only; split <;> simp

@[simp] theorem State.xonCheck_cp (s : State) (n : Nat) :
    (State.xonCheck s n).cp = s.cp := by unfold State.xonCheck; dsimp only; split <;> simp

@[simp] theorem State.xonCheck_queues (s : State) (n : Nat) :
    (State.xonCheck s n).queues = s.queues := by unfold State.xonCheck; dsimp only; split <;> simp

@[simp] theorem State.xonCheck_log (s : State) (n : Nat) :
    (State.xonCheck s n).log = s.log := by unfold State.xonCheck; dsimp only; split <;> simp

@[simp] theorem State.xonCheck_bulk (s : State) (n : Nat) :
    (State.xonCheck s n).bulk = s.bulk := by unfold State.xonCheck; dsimp only; split <;> simp

@[simp] theorem State.xonCheck_serv (s : State) (n : Nat) :
    (State.xonCheck s n).serv = s.serv := by unfold State.xonCheck; dsimp only; split <;> simp

@[simp] theorem State.keepFrames_pending (s : State) (keep : RxFrame → Bool) :
    (State.keepFrames s keep).pending = s.pending := by
  unfold State.keepFrames
  exact (State.foldl_pending _ _ _ (fun t n => by simp)).trans rfl

@[simp] theorem State.keepFrames_free (s : State) (keep : RxFrame → Bool) :
    (State.keepFrames s keep).free = s.free := by
  unfold State.keepFrames
  exact (State.foldl_free _ _ _ (fun t n => by simp)).trans rfl

@[simp] theorem State.keepFrames_us (s : State) (keep : RxFrame → Bool) :
    (State.keepFrames s keep).us = s.us := by
  unfold State.keepFrames
  exact (State.foldl_us _ _ _ (fun t n => by simp)).trans rfl

@[simp] theorem State.keepFrames_part (s : State) (keep : RxFrame → Bool) :
    (State.keepFrames s keep).part = s.part := by
  unfold State.keepFrames
  exact (State.foldl_part _ _ _ (fun t n => by simp)).trans rfl

@[simp] theorem State.keepFrames_latches (s : State) (keep : RxFrame → Bool) :
    (State.keepFrames s keep).latches = s.latches := by
  unfold State.keepFrames
  exact (State.foldl_latches _ _ _ (fun t n => by simp)).trans rfl

@[simp] theorem State.keepFrames_access (s : State) (keep : RxFrame → Bool) :
    (State.keepFrames s keep).access = s.access := by
  unfold State.keepFrames
  exact (State.foldl_access _ _ _ (fun t n => by simp)).trans rfl

@[simp] theorem State.keepFrames_readValue (s : State) (keep : RxFrame → Bool) :
    (State.keepFrames s keep).readValue = s.readValue := by
  unfold State.keepFrames
  exact (State.foldl_readValue _ _ _ (fun t n => by simp)).trans rfl

@[simp] theorem State.keepFrames_mem (s : State) (keep : RxFrame → Bool) :
    (State.keepFrames s keep).mem = s.mem := by
  unfold State.keepFrames
  exact (State.foldl_mem _ _ _ (fun t n => by simp)).trans rfl

@[simp] theorem State.keepFrames_undef (s : State) (keep : RxFrame → Bool) :
    (State.keepFrames s keep).undef = s.undef := by
  unfold State.keepFrames
  exact (State.foldl_undef _ _ _ (fun t n => by simp)).trans rfl

@[simp] theorem State.keepFrames_tarns (s : State) (keep : RxFrame → Bool) :
    (State.keepFrames s keep).tarns = s.tarns := by
  unfold State.keepFrames
  exact (State.foldl_tarns _ _ _ (fun t n => by simp)).trans rfl

@[simp] theorem State.keepFrames_prog (s : State) (keep : RxFrame → Bool) :
    (State.keepFrames s keep).prog = s.prog := by
  unfold State.keepFrames
  exact (State.foldl_prog _ _ _ (fun t n => by simp)).trans rfl

@[simp] theorem State.keepFrames_bound (s : State) (keep : RxFrame → Bool) :
    (State.keepFrames s keep).bound = s.bound := by
  unfold State.keepFrames
  exact (State.foldl_bound _ _ _ (fun t n => by simp)).trans rfl

@[simp] theorem State.keepFrames_units (s : State) (keep : RxFrame → Bool) :
    (State.keepFrames s keep).units = s.units := by
  unfold State.keepFrames
  exact (State.foldl_units _ _ _ (fun t n => by simp)).trans rfl

@[simp] theorem State.keepFrames_step (s : State) (keep : RxFrame → Bool) :
    (State.keepFrames s keep).step = s.step := by
  unfold State.keepFrames
  exact (State.foldl_step _ _ _ (fun t n => by simp)).trans rfl

@[simp] theorem State.keepFrames_stash (s : State) (keep : RxFrame → Bool) :
    (State.keepFrames s keep).stash = s.stash := by
  unfold State.keepFrames
  exact (State.foldl_stash _ _ _ (fun t n => by simp)).trans rfl

@[simp] theorem State.keepFrames_dom (s : State) (keep : RxFrame → Bool) :
    (State.keepFrames s keep).dom = s.dom := by
  unfold State.keepFrames
  exact (State.foldl_dom _ _ _ (fun t n => by simp)).trans rfl

@[simp] theorem State.keepFrames_twin (s : State) (keep : RxFrame → Bool) :
    (State.keepFrames s keep).twin = s.twin := by
  unfold State.keepFrames
  exact (State.foldl_twin _ _ _ (fun t n => by simp)).trans rfl

@[simp] theorem State.keepFrames_inl (s : State) (keep : RxFrame → Bool) :
    (State.keepFrames s keep).inl = s.inl := by
  unfold State.keepFrames
  exact (State.foldl_inl _ _ _ (fun t n => by simp)).trans rfl

@[simp] theorem State.keepFrames_umc (s : State) (keep : RxFrame → Bool) :
    (State.keepFrames s keep).umc = s.umc := by
  unfold State.keepFrames
  exact (State.foldl_umc _ _ _ (fun t n => by simp)).trans rfl

@[simp] theorem State.keepFrames_sec (s : State) (keep : RxFrame → Bool) :
    (State.keepFrames s keep).sec = s.sec := by
  unfold State.keepFrames
  exact (State.foldl_sec _ _ _ (fun t n => by simp)).trans rfl

@[simp] theorem State.keepFrames_pwr (s : State) (keep : RxFrame → Bool) :
    (State.keepFrames s keep).pwr = s.pwr := by
  unfold State.keepFrames
  exact (State.foldl_pwr _ _ _ (fun t n => by simp)).trans rfl

@[simp] theorem State.keepFrames_host (s : State) (keep : RxFrame → Bool) :
    (State.keepFrames s keep).host = s.host := by
  unfold State.keepFrames
  exact (State.foldl_host _ _ _ (fun t n => by simp)).trans rfl

@[simp] theorem State.keepFrames_cp (s : State) (keep : RxFrame → Bool) :
    (State.keepFrames s keep).cp = s.cp := by
  unfold State.keepFrames
  exact (State.foldl_cp _ _ _ (fun t n => by simp)).trans rfl

@[simp] theorem State.keepFrames_queues (s : State) (keep : RxFrame → Bool) :
    (State.keepFrames s keep).queues = s.queues := by
  unfold State.keepFrames
  exact (State.foldl_queues _ _ _ (fun t n => by simp)).trans rfl

@[simp] theorem State.keepFrames_log (s : State) (keep : RxFrame → Bool) :
    (State.keepFrames s keep).log = s.log := by
  unfold State.keepFrames
  exact (State.foldl_log _ _ _ (fun t n => by simp)).trans rfl

@[simp] theorem State.keepFrames_bulk (s : State) (keep : RxFrame → Bool) :
    (State.keepFrames s keep).bulk = s.bulk := by
  unfold State.keepFrames
  exact (State.foldl_bulk _ _ _ (fun t n => by simp)).trans rfl

@[simp] theorem State.keepFrames_serv (s : State) (keep : RxFrame → Bool) :
    (State.keepFrames s keep).serv = s.serv := by
  unfold State.keepFrames
  exact (State.foldl_serv _ _ _ (fun t n => by simp)).trans rfl

@[simp] theorem State.dropKey_pending (s : State) (f : DomFrame) :
    (State.dropKey s f).pending = s.pending := by simp [State.dropKey]

@[simp] theorem State.dropKey_free (s : State) (f : DomFrame) :
    (State.dropKey s f).free = s.free := by simp [State.dropKey]

@[simp] theorem State.dropKey_us (s : State) (f : DomFrame) :
    (State.dropKey s f).us = s.us := by simp [State.dropKey]

@[simp] theorem State.dropKey_part (s : State) (f : DomFrame) :
    (State.dropKey s f).part = s.part := by simp [State.dropKey]

@[simp] theorem State.dropKey_latches (s : State) (f : DomFrame) :
    (State.dropKey s f).latches = s.latches := by simp [State.dropKey]

@[simp] theorem State.dropKey_access (s : State) (f : DomFrame) :
    (State.dropKey s f).access = s.access := by simp [State.dropKey]

@[simp] theorem State.dropKey_readValue (s : State) (f : DomFrame) :
    (State.dropKey s f).readValue = s.readValue := by simp [State.dropKey]

@[simp] theorem State.dropKey_mem (s : State) (f : DomFrame) :
    (State.dropKey s f).mem = s.mem := by simp [State.dropKey]

@[simp] theorem State.dropKey_undef (s : State) (f : DomFrame) :
    (State.dropKey s f).undef = s.undef := by simp [State.dropKey]

@[simp] theorem State.dropKey_tarns (s : State) (f : DomFrame) :
    (State.dropKey s f).tarns = s.tarns := by simp [State.dropKey]

@[simp] theorem State.dropKey_prog (s : State) (f : DomFrame) :
    (State.dropKey s f).prog = s.prog := by simp [State.dropKey]

@[simp] theorem State.dropKey_bound (s : State) (f : DomFrame) :
    (State.dropKey s f).bound = s.bound := by simp [State.dropKey]

@[simp] theorem State.dropKey_units (s : State) (f : DomFrame) :
    (State.dropKey s f).units = s.units := by simp [State.dropKey]

@[simp] theorem State.dropKey_step (s : State) (f : DomFrame) :
    (State.dropKey s f).step = s.step := by simp [State.dropKey]

@[simp] theorem State.dropKey_stash (s : State) (f : DomFrame) :
    (State.dropKey s f).stash = s.stash := by simp [State.dropKey]

@[simp] theorem State.dropKey_twin (s : State) (f : DomFrame) :
    (State.dropKey s f).twin = s.twin := by simp [State.dropKey]

@[simp] theorem State.dropKey_inl (s : State) (f : DomFrame) :
    (State.dropKey s f).inl = s.inl := by simp [State.dropKey]

@[simp] theorem State.dropKey_umc (s : State) (f : DomFrame) :
    (State.dropKey s f).umc = s.umc := by simp [State.dropKey]

@[simp] theorem State.dropKey_sec (s : State) (f : DomFrame) :
    (State.dropKey s f).sec = s.sec := by simp [State.dropKey]

@[simp] theorem State.dropKey_pwr (s : State) (f : DomFrame) :
    (State.dropKey s f).pwr = s.pwr := by simp [State.dropKey]

@[simp] theorem State.dropKey_host (s : State) (f : DomFrame) :
    (State.dropKey s f).host = s.host := by simp [State.dropKey]

@[simp] theorem State.dropKey_cp (s : State) (f : DomFrame) :
    (State.dropKey s f).cp = s.cp := by simp [State.dropKey]

@[simp] theorem State.dropKey_queues (s : State) (f : DomFrame) :
    (State.dropKey s f).queues = s.queues := by simp [State.dropKey]

@[simp] theorem State.dropKey_log (s : State) (f : DomFrame) :
    (State.dropKey s f).log = s.log := by simp [State.dropKey]

@[simp] theorem State.dropKey_bulk (s : State) (f : DomFrame) :
    (State.dropKey s f).bulk = s.bulk := by simp [State.dropKey]

@[simp] theorem State.dropKey_serv (s : State) (f : DomFrame) :
    (State.dropKey s f).serv = s.serv := by simp [State.dropKey]

@[simp] theorem State.setAttempt_pending (s : State) (ra : Bool) (a : Attempt) :
    (State.setAttempt s ra a).pending = s.pending := by simp [State.setAttempt]

@[simp] theorem State.setAttempt_free (s : State) (ra : Bool) (a : Attempt) :
    (State.setAttempt s ra a).free = s.free := by simp [State.setAttempt]

@[simp] theorem State.setAttempt_us (s : State) (ra : Bool) (a : Attempt) :
    (State.setAttempt s ra a).us = s.us := by simp [State.setAttempt]

@[simp] theorem State.setAttempt_part (s : State) (ra : Bool) (a : Attempt) :
    (State.setAttempt s ra a).part = s.part := by simp [State.setAttempt]

@[simp] theorem State.setAttempt_regs (s : State) (ra : Bool) (a : Attempt) :
    (State.setAttempt s ra a).regs = s.regs := by simp [State.setAttempt]

@[simp] theorem State.setAttempt_latches (s : State) (ra : Bool) (a : Attempt) :
    (State.setAttempt s ra a).latches = s.latches := by simp [State.setAttempt]

@[simp] theorem State.setAttempt_access (s : State) (ra : Bool) (a : Attempt) :
    (State.setAttempt s ra a).access = s.access := by simp [State.setAttempt]

@[simp] theorem State.setAttempt_readValue (s : State) (ra : Bool) (a : Attempt) :
    (State.setAttempt s ra a).readValue = s.readValue := by simp [State.setAttempt]

@[simp] theorem State.setAttempt_mem (s : State) (ra : Bool) (a : Attempt) :
    (State.setAttempt s ra a).mem = s.mem := by simp [State.setAttempt]

@[simp] theorem State.setAttempt_undef (s : State) (ra : Bool) (a : Attempt) :
    (State.setAttempt s ra a).undef = s.undef := by simp [State.setAttempt]

@[simp] theorem State.setAttempt_tarns (s : State) (ra : Bool) (a : Attempt) :
    (State.setAttempt s ra a).tarns = s.tarns := by simp [State.setAttempt]

@[simp] theorem State.setAttempt_prog (s : State) (ra : Bool) (a : Attempt) :
    (State.setAttempt s ra a).prog = s.prog := by simp [State.setAttempt]

@[simp] theorem State.setAttempt_bound (s : State) (ra : Bool) (a : Attempt) :
    (State.setAttempt s ra a).bound = s.bound := by simp [State.setAttempt]

@[simp] theorem State.setAttempt_units (s : State) (ra : Bool) (a : Attempt) :
    (State.setAttempt s ra a).units = s.units := by simp [State.setAttempt]

@[simp] theorem State.setAttempt_stash (s : State) (ra : Bool) (a : Attempt) :
    (State.setAttempt s ra a).stash = s.stash := by simp [State.setAttempt]

@[simp] theorem State.setAttempt_dom (s : State) (ra : Bool) (a : Attempt) :
    (State.setAttempt s ra a).dom = s.dom := by simp [State.setAttempt]

@[simp] theorem State.setAttempt_twin (s : State) (ra : Bool) (a : Attempt) :
    (State.setAttempt s ra a).twin = s.twin := by simp [State.setAttempt]

@[simp] theorem State.setAttempt_fab (s : State) (ra : Bool) (a : Attempt) :
    (State.setAttempt s ra a).fab = s.fab := by simp [State.setAttempt]

@[simp] theorem State.setAttempt_inl (s : State) (ra : Bool) (a : Attempt) :
    (State.setAttempt s ra a).inl = s.inl := by simp [State.setAttempt]

@[simp] theorem State.setAttempt_umc (s : State) (ra : Bool) (a : Attempt) :
    (State.setAttempt s ra a).umc = s.umc := by simp [State.setAttempt]

@[simp] theorem State.setAttempt_sec (s : State) (ra : Bool) (a : Attempt) :
    (State.setAttempt s ra a).sec = s.sec := by simp [State.setAttempt]

@[simp] theorem State.setAttempt_pwr (s : State) (ra : Bool) (a : Attempt) :
    (State.setAttempt s ra a).pwr = s.pwr := by simp [State.setAttempt]

@[simp] theorem State.setAttempt_host (s : State) (ra : Bool) (a : Attempt) :
    (State.setAttempt s ra a).host = s.host := by simp [State.setAttempt]

@[simp] theorem State.setAttempt_cp (s : State) (ra : Bool) (a : Attempt) :
    (State.setAttempt s ra a).cp = s.cp := by simp [State.setAttempt]

@[simp] theorem State.setAttempt_queues (s : State) (ra : Bool) (a : Attempt) :
    (State.setAttempt s ra a).queues = s.queues := by simp [State.setAttempt]

@[simp] theorem State.setAttempt_log (s : State) (ra : Bool) (a : Attempt) :
    (State.setAttempt s ra a).log = s.log := by simp [State.setAttempt]

@[simp] theorem State.setAttempt_bulk (s : State) (ra : Bool) (a : Attempt) :
    (State.setAttempt s ra a).bulk = s.bulk := by simp [State.setAttempt]

@[simp] theorem State.setAttempt_serv (s : State) (ra : Bool) (a : Attempt) :
    (State.setAttempt s ra a).serv = s.serv := by simp [State.setAttempt]

@[simp] theorem State.setAttempt_out (s : State) (ra : Bool) (a : Attempt) :
    (State.setAttempt s ra a).out = s.out := by simp [State.setAttempt]

@[simp] theorem State.causeIn_pending (s : State) (ra : Bool) (c : Cause) :
    (State.causeIn s ra c).pending = s.pending := by unfold State.causeIn; (repeat' split) <;> simp

@[simp] theorem State.causeIn_free (s : State) (ra : Bool) (c : Cause) :
    (State.causeIn s ra c).free = s.free := by unfold State.causeIn; (repeat' split) <;> simp

@[simp] theorem State.causeIn_us (s : State) (ra : Bool) (c : Cause) :
    (State.causeIn s ra c).us = s.us := by unfold State.causeIn; (repeat' split) <;> simp

@[simp] theorem State.causeIn_part (s : State) (ra : Bool) (c : Cause) :
    (State.causeIn s ra c).part = s.part := by unfold State.causeIn; (repeat' split) <;> simp

@[simp] theorem State.causeIn_regs (s : State) (ra : Bool) (c : Cause) :
    (State.causeIn s ra c).regs = s.regs := by unfold State.causeIn; (repeat' split) <;> simp

@[simp] theorem State.causeIn_latches (s : State) (ra : Bool) (c : Cause) :
    (State.causeIn s ra c).latches = s.latches := by unfold State.causeIn; (repeat' split) <;> simp

@[simp] theorem State.causeIn_access (s : State) (ra : Bool) (c : Cause) :
    (State.causeIn s ra c).access = s.access := by unfold State.causeIn; (repeat' split) <;> simp

@[simp] theorem State.causeIn_readValue (s : State) (ra : Bool) (c : Cause) :
    (State.causeIn s ra c).readValue = s.readValue := by unfold State.causeIn; (repeat' split) <;> simp

@[simp] theorem State.causeIn_mem (s : State) (ra : Bool) (c : Cause) :
    (State.causeIn s ra c).mem = s.mem := by unfold State.causeIn; (repeat' split) <;> simp

@[simp] theorem State.causeIn_undef (s : State) (ra : Bool) (c : Cause) :
    (State.causeIn s ra c).undef = s.undef := by unfold State.causeIn; (repeat' split) <;> simp

@[simp] theorem State.causeIn_tarns (s : State) (ra : Bool) (c : Cause) :
    (State.causeIn s ra c).tarns = s.tarns := by unfold State.causeIn; (repeat' split) <;> simp

@[simp] theorem State.causeIn_prog (s : State) (ra : Bool) (c : Cause) :
    (State.causeIn s ra c).prog = s.prog := by unfold State.causeIn; (repeat' split) <;> simp

@[simp] theorem State.causeIn_bound (s : State) (ra : Bool) (c : Cause) :
    (State.causeIn s ra c).bound = s.bound := by unfold State.causeIn; (repeat' split) <;> simp

@[simp] theorem State.causeIn_units (s : State) (ra : Bool) (c : Cause) :
    (State.causeIn s ra c).units = s.units := by unfold State.causeIn; (repeat' split) <;> simp

@[simp] theorem State.causeIn_stash (s : State) (ra : Bool) (c : Cause) :
    (State.causeIn s ra c).stash = s.stash := by unfold State.causeIn; (repeat' split) <;> simp

@[simp] theorem State.causeIn_dom (s : State) (ra : Bool) (c : Cause) :
    (State.causeIn s ra c).dom = s.dom := by unfold State.causeIn; (repeat' split) <;> simp

@[simp] theorem State.causeIn_twin (s : State) (ra : Bool) (c : Cause) :
    (State.causeIn s ra c).twin = s.twin := by unfold State.causeIn; (repeat' split) <;> simp

@[simp] theorem State.causeIn_fab (s : State) (ra : Bool) (c : Cause) :
    (State.causeIn s ra c).fab = s.fab := by unfold State.causeIn; (repeat' split) <;> simp

@[simp] theorem State.causeIn_inl (s : State) (ra : Bool) (c : Cause) :
    (State.causeIn s ra c).inl = s.inl := by unfold State.causeIn; (repeat' split) <;> simp

@[simp] theorem State.causeIn_umc (s : State) (ra : Bool) (c : Cause) :
    (State.causeIn s ra c).umc = s.umc := by unfold State.causeIn; (repeat' split) <;> simp

@[simp] theorem State.causeIn_sec (s : State) (ra : Bool) (c : Cause) :
    (State.causeIn s ra c).sec = s.sec := by unfold State.causeIn; (repeat' split) <;> simp

@[simp] theorem State.causeIn_pwr (s : State) (ra : Bool) (c : Cause) :
    (State.causeIn s ra c).pwr = s.pwr := by unfold State.causeIn; (repeat' split) <;> simp

@[simp] theorem State.causeIn_host (s : State) (ra : Bool) (c : Cause) :
    (State.causeIn s ra c).host = s.host := by unfold State.causeIn; (repeat' split) <;> simp

@[simp] theorem State.causeIn_cp (s : State) (ra : Bool) (c : Cause) :
    (State.causeIn s ra c).cp = s.cp := by unfold State.causeIn; (repeat' split) <;> simp

@[simp] theorem State.causeIn_queues (s : State) (ra : Bool) (c : Cause) :
    (State.causeIn s ra c).queues = s.queues := by unfold State.causeIn; (repeat' split) <;> simp

@[simp] theorem State.causeIn_log (s : State) (ra : Bool) (c : Cause) :
    (State.causeIn s ra c).log = s.log := by unfold State.causeIn; (repeat' split) <;> simp

@[simp] theorem State.causeIn_bulk (s : State) (ra : Bool) (c : Cause) :
    (State.causeIn s ra c).bulk = s.bulk := by unfold State.causeIn; (repeat' split) <;> simp

@[simp] theorem State.causeIn_serv (s : State) (ra : Bool) (c : Cause) :
    (State.causeIn s ra c).serv = s.serv := by unfold State.causeIn; (repeat' split) <;> simp

@[simp] theorem State.causeIn_out (s : State) (ra : Bool) (c : Cause) :
    (State.causeIn s ra c).out = s.out := by unfold State.causeIn; (repeat' split) <;> simp

@[simp] theorem State.vetoIn_pending (s : State) (ra : Bool) (loss : Bool) (l : Nat) (cut : Cut) :
    (State.vetoIn s ra loss l cut).pending = s.pending := by unfold State.vetoIn; (repeat' split) <;> simp

@[simp] theorem State.vetoIn_free (s : State) (ra : Bool) (loss : Bool) (l : Nat) (cut : Cut) :
    (State.vetoIn s ra loss l cut).free = s.free := by unfold State.vetoIn; (repeat' split) <;> simp

@[simp] theorem State.vetoIn_us (s : State) (ra : Bool) (loss : Bool) (l : Nat) (cut : Cut) :
    (State.vetoIn s ra loss l cut).us = s.us := by unfold State.vetoIn; (repeat' split) <;> simp

@[simp] theorem State.vetoIn_part (s : State) (ra : Bool) (loss : Bool) (l : Nat) (cut : Cut) :
    (State.vetoIn s ra loss l cut).part = s.part := by unfold State.vetoIn; (repeat' split) <;> simp

@[simp] theorem State.vetoIn_latches (s : State) (ra : Bool) (loss : Bool) (l : Nat) (cut : Cut) :
    (State.vetoIn s ra loss l cut).latches = s.latches := by unfold State.vetoIn; (repeat' split) <;> simp

@[simp] theorem State.vetoIn_access (s : State) (ra : Bool) (loss : Bool) (l : Nat) (cut : Cut) :
    (State.vetoIn s ra loss l cut).access = s.access := by unfold State.vetoIn; (repeat' split) <;> simp

@[simp] theorem State.vetoIn_readValue (s : State) (ra : Bool) (loss : Bool) (l : Nat) (cut : Cut) :
    (State.vetoIn s ra loss l cut).readValue = s.readValue := by unfold State.vetoIn; (repeat' split) <;> simp

@[simp] theorem State.vetoIn_prog (s : State) (ra : Bool) (loss : Bool) (l : Nat) (cut : Cut) :
    (State.vetoIn s ra loss l cut).prog = s.prog := by unfold State.vetoIn; (repeat' split) <;> simp

@[simp] theorem State.vetoIn_bound (s : State) (ra : Bool) (loss : Bool) (l : Nat) (cut : Cut) :
    (State.vetoIn s ra loss l cut).bound = s.bound := by unfold State.vetoIn; (repeat' split) <;> simp

@[simp] theorem State.vetoIn_units (s : State) (ra : Bool) (loss : Bool) (l : Nat) (cut : Cut) :
    (State.vetoIn s ra loss l cut).units = s.units := by unfold State.vetoIn; (repeat' split) <;> simp

@[simp] theorem State.vetoIn_stash (s : State) (ra : Bool) (loss : Bool) (l : Nat) (cut : Cut) :
    (State.vetoIn s ra loss l cut).stash = s.stash := by unfold State.vetoIn; (repeat' split) <;> simp

@[simp] theorem State.vetoIn_dom (s : State) (ra : Bool) (loss : Bool) (l : Nat) (cut : Cut) :
    (State.vetoIn s ra loss l cut).dom = s.dom := by unfold State.vetoIn; (repeat' split) <;> simp

@[simp] theorem State.vetoIn_twin (s : State) (ra : Bool) (loss : Bool) (l : Nat) (cut : Cut) :
    (State.vetoIn s ra loss l cut).twin = s.twin := by unfold State.vetoIn; (repeat' split) <;> simp

@[simp] theorem State.vetoIn_fab (s : State) (ra : Bool) (loss : Bool) (l : Nat) (cut : Cut) :
    (State.vetoIn s ra loss l cut).fab = s.fab := by unfold State.vetoIn; (repeat' split) <;> simp

@[simp] theorem State.vetoIn_inl (s : State) (ra : Bool) (loss : Bool) (l : Nat) (cut : Cut) :
    (State.vetoIn s ra loss l cut).inl = s.inl := by unfold State.vetoIn; (repeat' split) <;> simp

@[simp] theorem State.vetoIn_umc (s : State) (ra : Bool) (loss : Bool) (l : Nat) (cut : Cut) :
    (State.vetoIn s ra loss l cut).umc = s.umc := by unfold State.vetoIn; (repeat' split) <;> simp

@[simp] theorem State.vetoIn_sec (s : State) (ra : Bool) (loss : Bool) (l : Nat) (cut : Cut) :
    (State.vetoIn s ra loss l cut).sec = s.sec := by unfold State.vetoIn; (repeat' split) <;> simp

@[simp] theorem State.vetoIn_pwr (s : State) (ra : Bool) (loss : Bool) (l : Nat) (cut : Cut) :
    (State.vetoIn s ra loss l cut).pwr = s.pwr := by unfold State.vetoIn; (repeat' split) <;> simp

@[simp] theorem State.vetoIn_host (s : State) (ra : Bool) (loss : Bool) (l : Nat) (cut : Cut) :
    (State.vetoIn s ra loss l cut).host = s.host := by unfold State.vetoIn; (repeat' split) <;> simp

@[simp] theorem State.vetoIn_cp (s : State) (ra : Bool) (loss : Bool) (l : Nat) (cut : Cut) :
    (State.vetoIn s ra loss l cut).cp = s.cp := by unfold State.vetoIn; (repeat' split) <;> simp

@[simp] theorem State.vetoIn_queues (s : State) (ra : Bool) (loss : Bool) (l : Nat) (cut : Cut) :
    (State.vetoIn s ra loss l cut).queues = s.queues := by unfold State.vetoIn; (repeat' split) <;> simp

@[simp] theorem State.vetoIn_bulk (s : State) (ra : Bool) (loss : Bool) (l : Nat) (cut : Cut) :
    (State.vetoIn s ra loss l cut).bulk = s.bulk := by unfold State.vetoIn; (repeat' split) <;> simp

@[simp] theorem State.vetoIn_serv (s : State) (ra : Bool) (loss : Bool) (l : Nat) (cut : Cut) :
    (State.vetoIn s ra loss l cut).serv = s.serv := by unfold State.vetoIn; (repeat' split) <;> simp

@[simp] theorem State.vetoIn_out (s : State) (ra : Bool) (loss : Bool) (l : Nat) (cut : Cut) :
    (State.vetoIn s ra loss l cut).out = s.out := by unfold State.vetoIn; (repeat' split) <;> simp

@[simp] theorem State.setFacet_pending (s : State) (f : Nat) (x : FacetSt) :
    (State.setFacet s f x).pending = s.pending := rfl

@[simp] theorem State.setFacet_free (s : State) (f : Nat) (x : FacetSt) :
    (State.setFacet s f x).free = s.free := rfl

@[simp] theorem State.setFacet_us (s : State) (f : Nat) (x : FacetSt) :
    (State.setFacet s f x).us = s.us := rfl

@[simp] theorem State.setFacet_part (s : State) (f : Nat) (x : FacetSt) :
    (State.setFacet s f x).part = s.part := rfl

@[simp] theorem State.setFacet_regs (s : State) (f : Nat) (x : FacetSt) :
    (State.setFacet s f x).regs = s.regs := rfl

@[simp] theorem State.setFacet_latches (s : State) (f : Nat) (x : FacetSt) :
    (State.setFacet s f x).latches = s.latches := rfl

@[simp] theorem State.setFacet_access (s : State) (f : Nat) (x : FacetSt) :
    (State.setFacet s f x).access = s.access := rfl

@[simp] theorem State.setFacet_readValue (s : State) (f : Nat) (x : FacetSt) :
    (State.setFacet s f x).readValue = s.readValue := rfl

@[simp] theorem State.setFacet_mem (s : State) (f : Nat) (x : FacetSt) :
    (State.setFacet s f x).mem = s.mem := rfl

@[simp] theorem State.setFacet_undef (s : State) (f : Nat) (x : FacetSt) :
    (State.setFacet s f x).undef = s.undef := rfl

@[simp] theorem State.setFacet_tarns (s : State) (f : Nat) (x : FacetSt) :
    (State.setFacet s f x).tarns = s.tarns := rfl

@[simp] theorem State.setFacet_prog (s : State) (f : Nat) (x : FacetSt) :
    (State.setFacet s f x).prog = s.prog := rfl

@[simp] theorem State.setFacet_bound (s : State) (f : Nat) (x : FacetSt) :
    (State.setFacet s f x).bound = s.bound := rfl

@[simp] theorem State.setFacet_step (s : State) (f : Nat) (x : FacetSt) :
    (State.setFacet s f x).step = s.step := rfl

@[simp] theorem State.setFacet_stash (s : State) (f : Nat) (x : FacetSt) :
    (State.setFacet s f x).stash = s.stash := rfl

@[simp] theorem State.setFacet_dom (s : State) (f : Nat) (x : FacetSt) :
    (State.setFacet s f x).dom = s.dom := rfl

@[simp] theorem State.setFacet_twin (s : State) (f : Nat) (x : FacetSt) :
    (State.setFacet s f x).twin = s.twin := rfl

@[simp] theorem State.setFacet_fab (s : State) (f : Nat) (x : FacetSt) :
    (State.setFacet s f x).fab = s.fab := rfl

@[simp] theorem State.setFacet_inl (s : State) (f : Nat) (x : FacetSt) :
    (State.setFacet s f x).inl = s.inl := rfl

@[simp] theorem State.setFacet_umc (s : State) (f : Nat) (x : FacetSt) :
    (State.setFacet s f x).umc = s.umc := rfl

@[simp] theorem State.setFacet_sec (s : State) (f : Nat) (x : FacetSt) :
    (State.setFacet s f x).sec = s.sec := rfl

@[simp] theorem State.setFacet_pwr (s : State) (f : Nat) (x : FacetSt) :
    (State.setFacet s f x).pwr = s.pwr := rfl

@[simp] theorem State.setFacet_host (s : State) (f : Nat) (x : FacetSt) :
    (State.setFacet s f x).host = s.host := rfl

@[simp] theorem State.setFacet_cp (s : State) (f : Nat) (x : FacetSt) :
    (State.setFacet s f x).cp = s.cp := rfl

@[simp] theorem State.setFacet_queues (s : State) (f : Nat) (x : FacetSt) :
    (State.setFacet s f x).queues = s.queues := rfl

@[simp] theorem State.setFacet_log (s : State) (f : Nat) (x : FacetSt) :
    (State.setFacet s f x).log = s.log := rfl

@[simp] theorem State.setFacet_bulk (s : State) (f : Nat) (x : FacetSt) :
    (State.setFacet s f x).bulk = s.bulk := rfl

@[simp] theorem State.setFacet_serv (s : State) (f : Nat) (x : FacetSt) :
    (State.setFacet s f x).serv = s.serv := rfl

@[simp] theorem State.setFacet_out (s : State) (f : Nat) (x : FacetSt) :
    (State.setFacet s f x).out = s.out := rfl

@[simp] theorem State.setCutter_pending (s : State) (c : Nat) (x : CutterSt) :
    (State.setCutter s c x).pending = s.pending := rfl

@[simp] theorem State.setCutter_free (s : State) (c : Nat) (x : CutterSt) :
    (State.setCutter s c x).free = s.free := rfl

@[simp] theorem State.setCutter_us (s : State) (c : Nat) (x : CutterSt) :
    (State.setCutter s c x).us = s.us := rfl

@[simp] theorem State.setCutter_part (s : State) (c : Nat) (x : CutterSt) :
    (State.setCutter s c x).part = s.part := rfl

@[simp] theorem State.setCutter_regs (s : State) (c : Nat) (x : CutterSt) :
    (State.setCutter s c x).regs = s.regs := rfl

@[simp] theorem State.setCutter_latches (s : State) (c : Nat) (x : CutterSt) :
    (State.setCutter s c x).latches = s.latches := rfl

@[simp] theorem State.setCutter_access (s : State) (c : Nat) (x : CutterSt) :
    (State.setCutter s c x).access = s.access := rfl

@[simp] theorem State.setCutter_readValue (s : State) (c : Nat) (x : CutterSt) :
    (State.setCutter s c x).readValue = s.readValue := rfl

@[simp] theorem State.setCutter_mem (s : State) (c : Nat) (x : CutterSt) :
    (State.setCutter s c x).mem = s.mem := rfl

@[simp] theorem State.setCutter_undef (s : State) (c : Nat) (x : CutterSt) :
    (State.setCutter s c x).undef = s.undef := rfl

@[simp] theorem State.setCutter_tarns (s : State) (c : Nat) (x : CutterSt) :
    (State.setCutter s c x).tarns = s.tarns := rfl

@[simp] theorem State.setCutter_prog (s : State) (c : Nat) (x : CutterSt) :
    (State.setCutter s c x).prog = s.prog := rfl

@[simp] theorem State.setCutter_bound (s : State) (c : Nat) (x : CutterSt) :
    (State.setCutter s c x).bound = s.bound := rfl

@[simp] theorem State.setCutter_step (s : State) (c : Nat) (x : CutterSt) :
    (State.setCutter s c x).step = s.step := rfl

@[simp] theorem State.setCutter_stash (s : State) (c : Nat) (x : CutterSt) :
    (State.setCutter s c x).stash = s.stash := rfl

@[simp] theorem State.setCutter_dom (s : State) (c : Nat) (x : CutterSt) :
    (State.setCutter s c x).dom = s.dom := rfl

@[simp] theorem State.setCutter_twin (s : State) (c : Nat) (x : CutterSt) :
    (State.setCutter s c x).twin = s.twin := rfl

@[simp] theorem State.setCutter_fab (s : State) (c : Nat) (x : CutterSt) :
    (State.setCutter s c x).fab = s.fab := rfl

@[simp] theorem State.setCutter_inl (s : State) (c : Nat) (x : CutterSt) :
    (State.setCutter s c x).inl = s.inl := rfl

@[simp] theorem State.setCutter_umc (s : State) (c : Nat) (x : CutterSt) :
    (State.setCutter s c x).umc = s.umc := rfl

@[simp] theorem State.setCutter_sec (s : State) (c : Nat) (x : CutterSt) :
    (State.setCutter s c x).sec = s.sec := rfl

@[simp] theorem State.setCutter_pwr (s : State) (c : Nat) (x : CutterSt) :
    (State.setCutter s c x).pwr = s.pwr := rfl

@[simp] theorem State.setCutter_host (s : State) (c : Nat) (x : CutterSt) :
    (State.setCutter s c x).host = s.host := rfl

@[simp] theorem State.setCutter_cp (s : State) (c : Nat) (x : CutterSt) :
    (State.setCutter s c x).cp = s.cp := rfl

@[simp] theorem State.setCutter_queues (s : State) (c : Nat) (x : CutterSt) :
    (State.setCutter s c x).queues = s.queues := rfl

@[simp] theorem State.setCutter_log (s : State) (c : Nat) (x : CutterSt) :
    (State.setCutter s c x).log = s.log := rfl

@[simp] theorem State.setCutter_bulk (s : State) (c : Nat) (x : CutterSt) :
    (State.setCutter s c x).bulk = s.bulk := rfl

@[simp] theorem State.setCutter_serv (s : State) (c : Nat) (x : CutterSt) :
    (State.setCutter s c x).serv = s.serv := rfl

@[simp] theorem State.setCutter_out (s : State) (c : Nat) (x : CutterSt) :
    (State.setCutter s c x).out = s.out := rfl

@[simp] theorem State.setLoupe_pending (s : State) (g : Nat) (x : LoupeSt) :
    (State.setLoupe s g x).pending = s.pending := rfl

@[simp] theorem State.setLoupe_free (s : State) (g : Nat) (x : LoupeSt) :
    (State.setLoupe s g x).free = s.free := rfl

@[simp] theorem State.setLoupe_us (s : State) (g : Nat) (x : LoupeSt) :
    (State.setLoupe s g x).us = s.us := rfl

@[simp] theorem State.setLoupe_part (s : State) (g : Nat) (x : LoupeSt) :
    (State.setLoupe s g x).part = s.part := rfl

@[simp] theorem State.setLoupe_regs (s : State) (g : Nat) (x : LoupeSt) :
    (State.setLoupe s g x).regs = s.regs := rfl

@[simp] theorem State.setLoupe_latches (s : State) (g : Nat) (x : LoupeSt) :
    (State.setLoupe s g x).latches = s.latches := rfl

@[simp] theorem State.setLoupe_access (s : State) (g : Nat) (x : LoupeSt) :
    (State.setLoupe s g x).access = s.access := rfl

@[simp] theorem State.setLoupe_readValue (s : State) (g : Nat) (x : LoupeSt) :
    (State.setLoupe s g x).readValue = s.readValue := rfl

@[simp] theorem State.setLoupe_mem (s : State) (g : Nat) (x : LoupeSt) :
    (State.setLoupe s g x).mem = s.mem := rfl

@[simp] theorem State.setLoupe_undef (s : State) (g : Nat) (x : LoupeSt) :
    (State.setLoupe s g x).undef = s.undef := rfl

@[simp] theorem State.setLoupe_tarns (s : State) (g : Nat) (x : LoupeSt) :
    (State.setLoupe s g x).tarns = s.tarns := rfl

@[simp] theorem State.setLoupe_prog (s : State) (g : Nat) (x : LoupeSt) :
    (State.setLoupe s g x).prog = s.prog := rfl

@[simp] theorem State.setLoupe_bound (s : State) (g : Nat) (x : LoupeSt) :
    (State.setLoupe s g x).bound = s.bound := rfl

@[simp] theorem State.setLoupe_step (s : State) (g : Nat) (x : LoupeSt) :
    (State.setLoupe s g x).step = s.step := rfl

@[simp] theorem State.setLoupe_stash (s : State) (g : Nat) (x : LoupeSt) :
    (State.setLoupe s g x).stash = s.stash := rfl

@[simp] theorem State.setLoupe_dom (s : State) (g : Nat) (x : LoupeSt) :
    (State.setLoupe s g x).dom = s.dom := rfl

@[simp] theorem State.setLoupe_twin (s : State) (g : Nat) (x : LoupeSt) :
    (State.setLoupe s g x).twin = s.twin := rfl

@[simp] theorem State.setLoupe_fab (s : State) (g : Nat) (x : LoupeSt) :
    (State.setLoupe s g x).fab = s.fab := rfl

@[simp] theorem State.setLoupe_inl (s : State) (g : Nat) (x : LoupeSt) :
    (State.setLoupe s g x).inl = s.inl := rfl

@[simp] theorem State.setLoupe_umc (s : State) (g : Nat) (x : LoupeSt) :
    (State.setLoupe s g x).umc = s.umc := rfl

@[simp] theorem State.setLoupe_sec (s : State) (g : Nat) (x : LoupeSt) :
    (State.setLoupe s g x).sec = s.sec := rfl

@[simp] theorem State.setLoupe_pwr (s : State) (g : Nat) (x : LoupeSt) :
    (State.setLoupe s g x).pwr = s.pwr := rfl

@[simp] theorem State.setLoupe_host (s : State) (g : Nat) (x : LoupeSt) :
    (State.setLoupe s g x).host = s.host := rfl

@[simp] theorem State.setLoupe_cp (s : State) (g : Nat) (x : LoupeSt) :
    (State.setLoupe s g x).cp = s.cp := rfl

@[simp] theorem State.setLoupe_queues (s : State) (g : Nat) (x : LoupeSt) :
    (State.setLoupe s g x).queues = s.queues := rfl

@[simp] theorem State.setLoupe_log (s : State) (g : Nat) (x : LoupeSt) :
    (State.setLoupe s g x).log = s.log := rfl

@[simp] theorem State.setLoupe_bulk (s : State) (g : Nat) (x : LoupeSt) :
    (State.setLoupe s g x).bulk = s.bulk := rfl

@[simp] theorem State.setLoupe_serv (s : State) (g : Nat) (x : LoupeSt) :
    (State.setLoupe s g x).serv = s.serv := rfl

@[simp] theorem State.setLoupe_out (s : State) (g : Nat) (x : LoupeSt) :
    (State.setLoupe s g x).out = s.out := rfl

@[simp] theorem State.numEvent_pending (s : State) (code unit inst : Nat) (c : EvCtx) :
    (State.numEvent s code unit inst c).pending = s.pending := by simp [State.numEvent]

@[simp] theorem State.numEvent_free (s : State) (code unit inst : Nat) (c : EvCtx) :
    (State.numEvent s code unit inst c).free = s.free := by simp [State.numEvent]

@[simp] theorem State.numEvent_us (s : State) (code unit inst : Nat) (c : EvCtx) :
    (State.numEvent s code unit inst c).us = s.us := by simp [State.numEvent]

@[simp] theorem State.numEvent_part (s : State) (code unit inst : Nat) (c : EvCtx) :
    (State.numEvent s code unit inst c).part = s.part := by simp [State.numEvent]

@[simp] theorem State.numEvent_latches (s : State) (code unit inst : Nat) (c : EvCtx) :
    (State.numEvent s code unit inst c).latches = s.latches := by simp [State.numEvent]

@[simp] theorem State.numEvent_access (s : State) (code unit inst : Nat) (c : EvCtx) :
    (State.numEvent s code unit inst c).access = s.access := by simp [State.numEvent]

@[simp] theorem State.numEvent_readValue (s : State) (code unit inst : Nat) (c : EvCtx) :
    (State.numEvent s code unit inst c).readValue = s.readValue := by simp [State.numEvent]

@[simp] theorem State.numEvent_prog (s : State) (code unit inst : Nat) (c : EvCtx) :
    (State.numEvent s code unit inst c).prog = s.prog := by simp [State.numEvent]

@[simp] theorem State.numEvent_bound (s : State) (code unit inst : Nat) (c : EvCtx) :
    (State.numEvent s code unit inst c).bound = s.bound := by simp [State.numEvent]

@[simp] theorem State.numEvent_units (s : State) (code unit inst : Nat) (c : EvCtx) :
    (State.numEvent s code unit inst c).units = s.units := by simp [State.numEvent]

@[simp] theorem State.numEvent_stash (s : State) (code unit inst : Nat) (c : EvCtx) :
    (State.numEvent s code unit inst c).stash = s.stash := by simp [State.numEvent]

@[simp] theorem State.numEvent_dom (s : State) (code unit inst : Nat) (c : EvCtx) :
    (State.numEvent s code unit inst c).dom = s.dom := by simp [State.numEvent]

@[simp] theorem State.numEvent_twin (s : State) (code unit inst : Nat) (c : EvCtx) :
    (State.numEvent s code unit inst c).twin = s.twin := by simp [State.numEvent]

@[simp] theorem State.numEvent_fab (s : State) (code unit inst : Nat) (c : EvCtx) :
    (State.numEvent s code unit inst c).fab = s.fab := by simp [State.numEvent]

@[simp] theorem State.numEvent_inl (s : State) (code unit inst : Nat) (c : EvCtx) :
    (State.numEvent s code unit inst c).inl = s.inl := by simp [State.numEvent]

@[simp] theorem State.numEvent_umc (s : State) (code unit inst : Nat) (c : EvCtx) :
    (State.numEvent s code unit inst c).umc = s.umc := by simp [State.numEvent]

@[simp] theorem State.numEvent_sec (s : State) (code unit inst : Nat) (c : EvCtx) :
    (State.numEvent s code unit inst c).sec = s.sec := by simp [State.numEvent]

@[simp] theorem State.numEvent_pwr (s : State) (code unit inst : Nat) (c : EvCtx) :
    (State.numEvent s code unit inst c).pwr = s.pwr := by simp [State.numEvent]

@[simp] theorem State.numEvent_host (s : State) (code unit inst : Nat) (c : EvCtx) :
    (State.numEvent s code unit inst c).host = s.host := by simp [State.numEvent]

@[simp] theorem State.numEvent_cp (s : State) (code unit inst : Nat) (c : EvCtx) :
    (State.numEvent s code unit inst c).cp = s.cp := by simp [State.numEvent]

@[simp] theorem State.numEvent_queues (s : State) (code unit inst : Nat) (c : EvCtx) :
    (State.numEvent s code unit inst c).queues = s.queues := by simp [State.numEvent]

@[simp] theorem State.numEvent_bulk (s : State) (code unit inst : Nat) (c : EvCtx) :
    (State.numEvent s code unit inst c).bulk = s.bulk := by simp [State.numEvent]

@[simp] theorem State.numEvent_serv (s : State) (code unit inst : Nat) (c : EvCtx) :
    (State.numEvent s code unit inst c).serv = s.serv := by simp [State.numEvent]

@[simp] theorem State.numEvent_out (s : State) (code unit inst : Nat) (c : EvCtx) :
    (State.numEvent s code unit inst c).out = s.out := by simp [State.numEvent]

@[simp] theorem State.keepError_pending (s : State) (b : Block) (i o : Nat) (ueHeld ue : Bool) (rest : Nat) :
    (State.keepError s b i o ueHeld ue rest).pending = s.pending := by simp [State.keepError]

@[simp] theorem State.keepError_free (s : State) (b : Block) (i o : Nat) (ueHeld ue : Bool) (rest : Nat) :
    (State.keepError s b i o ueHeld ue rest).free = s.free := by simp [State.keepError]

@[simp] theorem State.keepError_us (s : State) (b : Block) (i o : Nat) (ueHeld ue : Bool) (rest : Nat) :
    (State.keepError s b i o ueHeld ue rest).us = s.us := by simp [State.keepError]

@[simp] theorem State.keepError_part (s : State) (b : Block) (i o : Nat) (ueHeld ue : Bool) (rest : Nat) :
    (State.keepError s b i o ueHeld ue rest).part = s.part := by simp [State.keepError]

@[simp] theorem State.keepError_latches (s : State) (b : Block) (i o : Nat) (ueHeld ue : Bool) (rest : Nat) :
    (State.keepError s b i o ueHeld ue rest).latches = s.latches := by simp [State.keepError]

@[simp] theorem State.keepError_access (s : State) (b : Block) (i o : Nat) (ueHeld ue : Bool) (rest : Nat) :
    (State.keepError s b i o ueHeld ue rest).access = s.access := by simp [State.keepError]

@[simp] theorem State.keepError_readValue (s : State) (b : Block) (i o : Nat) (ueHeld ue : Bool) (rest : Nat) :
    (State.keepError s b i o ueHeld ue rest).readValue = s.readValue := by simp [State.keepError]

@[simp] theorem State.keepError_mem (s : State) (b : Block) (i o : Nat) (ueHeld ue : Bool) (rest : Nat) :
    (State.keepError s b i o ueHeld ue rest).mem = s.mem := by simp [State.keepError]

@[simp] theorem State.keepError_undef (s : State) (b : Block) (i o : Nat) (ueHeld ue : Bool) (rest : Nat) :
    (State.keepError s b i o ueHeld ue rest).undef = s.undef := by simp [State.keepError]

@[simp] theorem State.keepError_tarns (s : State) (b : Block) (i o : Nat) (ueHeld ue : Bool) (rest : Nat) :
    (State.keepError s b i o ueHeld ue rest).tarns = s.tarns := by simp [State.keepError]

@[simp] theorem State.keepError_prog (s : State) (b : Block) (i o : Nat) (ueHeld ue : Bool) (rest : Nat) :
    (State.keepError s b i o ueHeld ue rest).prog = s.prog := by simp [State.keepError]

@[simp] theorem State.keepError_bound (s : State) (b : Block) (i o : Nat) (ueHeld ue : Bool) (rest : Nat) :
    (State.keepError s b i o ueHeld ue rest).bound = s.bound := by simp [State.keepError]

@[simp] theorem State.keepError_units (s : State) (b : Block) (i o : Nat) (ueHeld ue : Bool) (rest : Nat) :
    (State.keepError s b i o ueHeld ue rest).units = s.units := by simp [State.keepError]

@[simp] theorem State.keepError_step (s : State) (b : Block) (i o : Nat) (ueHeld ue : Bool) (rest : Nat) :
    (State.keepError s b i o ueHeld ue rest).step = s.step := by simp [State.keepError]

@[simp] theorem State.keepError_stash (s : State) (b : Block) (i o : Nat) (ueHeld ue : Bool) (rest : Nat) :
    (State.keepError s b i o ueHeld ue rest).stash = s.stash := by simp [State.keepError]

@[simp] theorem State.keepError_dom (s : State) (b : Block) (i o : Nat) (ueHeld ue : Bool) (rest : Nat) :
    (State.keepError s b i o ueHeld ue rest).dom = s.dom := by simp [State.keepError]

@[simp] theorem State.keepError_twin (s : State) (b : Block) (i o : Nat) (ueHeld ue : Bool) (rest : Nat) :
    (State.keepError s b i o ueHeld ue rest).twin = s.twin := by simp [State.keepError]

@[simp] theorem State.keepError_fab (s : State) (b : Block) (i o : Nat) (ueHeld ue : Bool) (rest : Nat) :
    (State.keepError s b i o ueHeld ue rest).fab = s.fab := by simp [State.keepError]

@[simp] theorem State.keepError_inl (s : State) (b : Block) (i o : Nat) (ueHeld ue : Bool) (rest : Nat) :
    (State.keepError s b i o ueHeld ue rest).inl = s.inl := by simp [State.keepError]

@[simp] theorem State.keepError_umc (s : State) (b : Block) (i o : Nat) (ueHeld ue : Bool) (rest : Nat) :
    (State.keepError s b i o ueHeld ue rest).umc = s.umc := by simp [State.keepError]

@[simp] theorem State.keepError_sec (s : State) (b : Block) (i o : Nat) (ueHeld ue : Bool) (rest : Nat) :
    (State.keepError s b i o ueHeld ue rest).sec = s.sec := by simp [State.keepError]

@[simp] theorem State.keepError_pwr (s : State) (b : Block) (i o : Nat) (ueHeld ue : Bool) (rest : Nat) :
    (State.keepError s b i o ueHeld ue rest).pwr = s.pwr := by simp [State.keepError]

@[simp] theorem State.keepError_host (s : State) (b : Block) (i o : Nat) (ueHeld ue : Bool) (rest : Nat) :
    (State.keepError s b i o ueHeld ue rest).host = s.host := by simp [State.keepError]

@[simp] theorem State.keepError_cp (s : State) (b : Block) (i o : Nat) (ueHeld ue : Bool) (rest : Nat) :
    (State.keepError s b i o ueHeld ue rest).cp = s.cp := by simp [State.keepError]

@[simp] theorem State.keepError_queues (s : State) (b : Block) (i o : Nat) (ueHeld ue : Bool) (rest : Nat) :
    (State.keepError s b i o ueHeld ue rest).queues = s.queues := by simp [State.keepError]

@[simp] theorem State.keepError_log (s : State) (b : Block) (i o : Nat) (ueHeld ue : Bool) (rest : Nat) :
    (State.keepError s b i o ueHeld ue rest).log = s.log := by simp [State.keepError]

@[simp] theorem State.keepError_bulk (s : State) (b : Block) (i o : Nat) (ueHeld ue : Bool) (rest : Nat) :
    (State.keepError s b i o ueHeld ue rest).bulk = s.bulk := by simp [State.keepError]

@[simp] theorem State.keepError_serv (s : State) (b : Block) (i o : Nat) (ueHeld ue : Bool) (rest : Nat) :
    (State.keepError s b i o ueHeld ue rest).serv = s.serv := by simp [State.keepError]

@[simp] theorem State.keepError_out (s : State) (b : Block) (i o : Nat) (ueHeld ue : Bool) (rest : Nat) :
    (State.keepError s b i o ueHeld ue rest).out = s.out := by simp [State.keepError]

@[simp] theorem State.markDone_pending (s : State) (ra : Bool) (id : Nat) :
    (State.markDone s ra id).pending = s.pending := by unfold State.markDone; (repeat' split) <;> simp

@[simp] theorem State.markDone_free (s : State) (ra : Bool) (id : Nat) :
    (State.markDone s ra id).free = s.free := by unfold State.markDone; (repeat' split) <;> simp

@[simp] theorem State.markDone_us (s : State) (ra : Bool) (id : Nat) :
    (State.markDone s ra id).us = s.us := by unfold State.markDone; (repeat' split) <;> simp

@[simp] theorem State.markDone_part (s : State) (ra : Bool) (id : Nat) :
    (State.markDone s ra id).part = s.part := by unfold State.markDone; (repeat' split) <;> simp

@[simp] theorem State.markDone_regs (s : State) (ra : Bool) (id : Nat) :
    (State.markDone s ra id).regs = s.regs := by unfold State.markDone; (repeat' split) <;> simp

@[simp] theorem State.markDone_latches (s : State) (ra : Bool) (id : Nat) :
    (State.markDone s ra id).latches = s.latches := by unfold State.markDone; (repeat' split) <;> simp

@[simp] theorem State.markDone_access (s : State) (ra : Bool) (id : Nat) :
    (State.markDone s ra id).access = s.access := by unfold State.markDone; (repeat' split) <;> simp

@[simp] theorem State.markDone_readValue (s : State) (ra : Bool) (id : Nat) :
    (State.markDone s ra id).readValue = s.readValue := by unfold State.markDone; (repeat' split) <;> simp

@[simp] theorem State.markDone_mem (s : State) (ra : Bool) (id : Nat) :
    (State.markDone s ra id).mem = s.mem := by unfold State.markDone; (repeat' split) <;> simp

@[simp] theorem State.markDone_undef (s : State) (ra : Bool) (id : Nat) :
    (State.markDone s ra id).undef = s.undef := by unfold State.markDone; (repeat' split) <;> simp

@[simp] theorem State.markDone_tarns (s : State) (ra : Bool) (id : Nat) :
    (State.markDone s ra id).tarns = s.tarns := by unfold State.markDone; (repeat' split) <;> simp

@[simp] theorem State.markDone_prog (s : State) (ra : Bool) (id : Nat) :
    (State.markDone s ra id).prog = s.prog := by unfold State.markDone; (repeat' split) <;> simp

@[simp] theorem State.markDone_bound (s : State) (ra : Bool) (id : Nat) :
    (State.markDone s ra id).bound = s.bound := by unfold State.markDone; (repeat' split) <;> simp

@[simp] theorem State.markDone_units (s : State) (ra : Bool) (id : Nat) :
    (State.markDone s ra id).units = s.units := by unfold State.markDone; (repeat' split) <;> simp

@[simp] theorem State.markDone_stash (s : State) (ra : Bool) (id : Nat) :
    (State.markDone s ra id).stash = s.stash := by unfold State.markDone; (repeat' split) <;> simp

@[simp] theorem State.markDone_dom (s : State) (ra : Bool) (id : Nat) :
    (State.markDone s ra id).dom = s.dom := by unfold State.markDone; (repeat' split) <;> simp

@[simp] theorem State.markDone_twin (s : State) (ra : Bool) (id : Nat) :
    (State.markDone s ra id).twin = s.twin := by unfold State.markDone; (repeat' split) <;> simp

@[simp] theorem State.markDone_fab (s : State) (ra : Bool) (id : Nat) :
    (State.markDone s ra id).fab = s.fab := by unfold State.markDone; (repeat' split) <;> simp

@[simp] theorem State.markDone_inl (s : State) (ra : Bool) (id : Nat) :
    (State.markDone s ra id).inl = s.inl := by unfold State.markDone; (repeat' split) <;> simp

@[simp] theorem State.markDone_umc (s : State) (ra : Bool) (id : Nat) :
    (State.markDone s ra id).umc = s.umc := by unfold State.markDone; (repeat' split) <;> simp

@[simp] theorem State.markDone_sec (s : State) (ra : Bool) (id : Nat) :
    (State.markDone s ra id).sec = s.sec := by unfold State.markDone; (repeat' split) <;> simp

@[simp] theorem State.markDone_pwr (s : State) (ra : Bool) (id : Nat) :
    (State.markDone s ra id).pwr = s.pwr := by unfold State.markDone; (repeat' split) <;> simp

@[simp] theorem State.markDone_host (s : State) (ra : Bool) (id : Nat) :
    (State.markDone s ra id).host = s.host := by unfold State.markDone; (repeat' split) <;> simp

@[simp] theorem State.markDone_cp (s : State) (ra : Bool) (id : Nat) :
    (State.markDone s ra id).cp = s.cp := by unfold State.markDone; (repeat' split) <;> simp

@[simp] theorem State.markDone_queues (s : State) (ra : Bool) (id : Nat) :
    (State.markDone s ra id).queues = s.queues := by unfold State.markDone; (repeat' split) <;> simp

@[simp] theorem State.markDone_log (s : State) (ra : Bool) (id : Nat) :
    (State.markDone s ra id).log = s.log := by unfold State.markDone; (repeat' split) <;> simp

@[simp] theorem State.markDone_bulk (s : State) (ra : Bool) (id : Nat) :
    (State.markDone s ra id).bulk = s.bulk := by unfold State.markDone; (repeat' split) <;> simp

@[simp] theorem State.markDone_serv (s : State) (ra : Bool) (id : Nat) :
    (State.markDone s ra id).serv = s.serv := by unfold State.markDone; (repeat' split) <;> simp

@[simp] theorem State.markDone_out (s : State) (ra : Bool) (id : Nat) :
    (State.markDone s ra id).out = s.out := by unfold State.markDone; (repeat' split) <;> simp

@[simp] theorem State.dropUnitWork_pending (s : State) (ra : Bool) (ids : List Nat) :
    (State.dropUnitWork s ra ids).pending = s.pending := rfl

@[simp] theorem State.dropUnitWork_free (s : State) (ra : Bool) (ids : List Nat) :
    (State.dropUnitWork s ra ids).free = s.free := rfl

@[simp] theorem State.dropUnitWork_us (s : State) (ra : Bool) (ids : List Nat) :
    (State.dropUnitWork s ra ids).us = s.us := rfl

@[simp] theorem State.dropUnitWork_part (s : State) (ra : Bool) (ids : List Nat) :
    (State.dropUnitWork s ra ids).part = s.part := rfl

@[simp] theorem State.dropUnitWork_regs (s : State) (ra : Bool) (ids : List Nat) :
    (State.dropUnitWork s ra ids).regs = s.regs := rfl

@[simp] theorem State.dropUnitWork_latches (s : State) (ra : Bool) (ids : List Nat) :
    (State.dropUnitWork s ra ids).latches = s.latches := rfl

@[simp] theorem State.dropUnitWork_access (s : State) (ra : Bool) (ids : List Nat) :
    (State.dropUnitWork s ra ids).access = s.access := rfl

@[simp] theorem State.dropUnitWork_readValue (s : State) (ra : Bool) (ids : List Nat) :
    (State.dropUnitWork s ra ids).readValue = s.readValue := rfl

@[simp] theorem State.dropUnitWork_mem (s : State) (ra : Bool) (ids : List Nat) :
    (State.dropUnitWork s ra ids).mem = s.mem := rfl

@[simp] theorem State.dropUnitWork_undef (s : State) (ra : Bool) (ids : List Nat) :
    (State.dropUnitWork s ra ids).undef = s.undef := rfl

@[simp] theorem State.dropUnitWork_tarns (s : State) (ra : Bool) (ids : List Nat) :
    (State.dropUnitWork s ra ids).tarns = s.tarns := rfl

@[simp] theorem State.dropUnitWork_prog (s : State) (ra : Bool) (ids : List Nat) :
    (State.dropUnitWork s ra ids).prog = s.prog := rfl

@[simp] theorem State.dropUnitWork_bound (s : State) (ra : Bool) (ids : List Nat) :
    (State.dropUnitWork s ra ids).bound = s.bound := rfl

@[simp] theorem State.dropUnitWork_step (s : State) (ra : Bool) (ids : List Nat) :
    (State.dropUnitWork s ra ids).step = s.step := rfl

@[simp] theorem State.dropUnitWork_stash (s : State) (ra : Bool) (ids : List Nat) :
    (State.dropUnitWork s ra ids).stash = s.stash := rfl

@[simp] theorem State.dropUnitWork_dom (s : State) (ra : Bool) (ids : List Nat) :
    (State.dropUnitWork s ra ids).dom = s.dom := rfl

@[simp] theorem State.dropUnitWork_twin (s : State) (ra : Bool) (ids : List Nat) :
    (State.dropUnitWork s ra ids).twin = s.twin := rfl

@[simp] theorem State.dropUnitWork_fab (s : State) (ra : Bool) (ids : List Nat) :
    (State.dropUnitWork s ra ids).fab = s.fab := rfl

@[simp] theorem State.dropUnitWork_inl (s : State) (ra : Bool) (ids : List Nat) :
    (State.dropUnitWork s ra ids).inl = s.inl := rfl

@[simp] theorem State.dropUnitWork_umc (s : State) (ra : Bool) (ids : List Nat) :
    (State.dropUnitWork s ra ids).umc = s.umc := rfl

@[simp] theorem State.dropUnitWork_sec (s : State) (ra : Bool) (ids : List Nat) :
    (State.dropUnitWork s ra ids).sec = s.sec := rfl

@[simp] theorem State.dropUnitWork_pwr (s : State) (ra : Bool) (ids : List Nat) :
    (State.dropUnitWork s ra ids).pwr = s.pwr := rfl

@[simp] theorem State.dropUnitWork_host (s : State) (ra : Bool) (ids : List Nat) :
    (State.dropUnitWork s ra ids).host = s.host := rfl

@[simp] theorem State.dropUnitWork_cp (s : State) (ra : Bool) (ids : List Nat) :
    (State.dropUnitWork s ra ids).cp = s.cp := rfl

@[simp] theorem State.dropUnitWork_queues (s : State) (ra : Bool) (ids : List Nat) :
    (State.dropUnitWork s ra ids).queues = s.queues := rfl

@[simp] theorem State.dropUnitWork_log (s : State) (ra : Bool) (ids : List Nat) :
    (State.dropUnitWork s ra ids).log = s.log := rfl

@[simp] theorem State.dropUnitWork_bulk (s : State) (ra : Bool) (ids : List Nat) :
    (State.dropUnitWork s ra ids).bulk = s.bulk := rfl

@[simp] theorem State.dropUnitWork_serv (s : State) (ra : Bool) (ids : List Nat) :
    (State.dropUnitWork s ra ids).serv = s.serv := rfl

@[simp] theorem State.dropUnitWork_out (s : State) (ra : Bool) (ids : List Nat) :
    (State.dropUnitWork s ra ids).out = s.out := rfl

@[simp] theorem State.clearUnits_pending (s : State) (all : Bool) :
    (State.clearUnits s all).pending = s.pending := rfl

@[simp] theorem State.clearUnits_free (s : State) (all : Bool) :
    (State.clearUnits s all).free = s.free := rfl

@[simp] theorem State.clearUnits_us (s : State) (all : Bool) :
    (State.clearUnits s all).us = s.us := rfl

@[simp] theorem State.clearUnits_part (s : State) (all : Bool) :
    (State.clearUnits s all).part = s.part := rfl

@[simp] theorem State.clearUnits_regs (s : State) (all : Bool) :
    (State.clearUnits s all).regs = s.regs := rfl

@[simp] theorem State.clearUnits_latches (s : State) (all : Bool) :
    (State.clearUnits s all).latches = s.latches := rfl

@[simp] theorem State.clearUnits_access (s : State) (all : Bool) :
    (State.clearUnits s all).access = s.access := rfl

@[simp] theorem State.clearUnits_readValue (s : State) (all : Bool) :
    (State.clearUnits s all).readValue = s.readValue := rfl

@[simp] theorem State.clearUnits_mem (s : State) (all : Bool) :
    (State.clearUnits s all).mem = s.mem := rfl

@[simp] theorem State.clearUnits_undef (s : State) (all : Bool) :
    (State.clearUnits s all).undef = s.undef := rfl

@[simp] theorem State.clearUnits_tarns (s : State) (all : Bool) :
    (State.clearUnits s all).tarns = s.tarns := rfl

@[simp] theorem State.clearUnits_prog (s : State) (all : Bool) :
    (State.clearUnits s all).prog = s.prog := rfl

@[simp] theorem State.clearUnits_bound (s : State) (all : Bool) :
    (State.clearUnits s all).bound = s.bound := rfl

@[simp] theorem State.clearUnits_step (s : State) (all : Bool) :
    (State.clearUnits s all).step = s.step := rfl

@[simp] theorem State.clearUnits_stash (s : State) (all : Bool) :
    (State.clearUnits s all).stash = s.stash := rfl

@[simp] theorem State.clearUnits_dom (s : State) (all : Bool) :
    (State.clearUnits s all).dom = s.dom := rfl

@[simp] theorem State.clearUnits_twin (s : State) (all : Bool) :
    (State.clearUnits s all).twin = s.twin := rfl

@[simp] theorem State.clearUnits_fab (s : State) (all : Bool) :
    (State.clearUnits s all).fab = s.fab := rfl

@[simp] theorem State.clearUnits_inl (s : State) (all : Bool) :
    (State.clearUnits s all).inl = s.inl := rfl

@[simp] theorem State.clearUnits_umc (s : State) (all : Bool) :
    (State.clearUnits s all).umc = s.umc := rfl

@[simp] theorem State.clearUnits_sec (s : State) (all : Bool) :
    (State.clearUnits s all).sec = s.sec := rfl

@[simp] theorem State.clearUnits_pwr (s : State) (all : Bool) :
    (State.clearUnits s all).pwr = s.pwr := rfl

@[simp] theorem State.clearUnits_host (s : State) (all : Bool) :
    (State.clearUnits s all).host = s.host := rfl

@[simp] theorem State.clearUnits_cp (s : State) (all : Bool) :
    (State.clearUnits s all).cp = s.cp := rfl

@[simp] theorem State.clearUnits_queues (s : State) (all : Bool) :
    (State.clearUnits s all).queues = s.queues := rfl

@[simp] theorem State.clearUnits_log (s : State) (all : Bool) :
    (State.clearUnits s all).log = s.log := rfl

@[simp] theorem State.clearUnits_bulk (s : State) (all : Bool) :
    (State.clearUnits s all).bulk = s.bulk := rfl

@[simp] theorem State.clearUnits_serv (s : State) (all : Bool) :
    (State.clearUnits s all).serv = s.serv := rfl

@[simp] theorem State.clearUnits_out (s : State) (all : Bool) :
    (State.clearUnits s all).out = s.out := rfl

@[simp] theorem State.setStash_pending (s : State) (x : Stash) :
    (State.setStash s x).pending = s.pending := rfl

@[simp] theorem State.setStash_free (s : State) (x : Stash) :
    (State.setStash s x).free = s.free := rfl

@[simp] theorem State.setStash_us (s : State) (x : Stash) :
    (State.setStash s x).us = s.us := rfl

@[simp] theorem State.setStash_part (s : State) (x : Stash) :
    (State.setStash s x).part = s.part := rfl

@[simp] theorem State.setStash_regs (s : State) (x : Stash) :
    (State.setStash s x).regs = s.regs := rfl

@[simp] theorem State.setStash_latches (s : State) (x : Stash) :
    (State.setStash s x).latches = s.latches := rfl

@[simp] theorem State.setStash_access (s : State) (x : Stash) :
    (State.setStash s x).access = s.access := rfl

@[simp] theorem State.setStash_readValue (s : State) (x : Stash) :
    (State.setStash s x).readValue = s.readValue := rfl

@[simp] theorem State.setStash_mem (s : State) (x : Stash) :
    (State.setStash s x).mem = s.mem := rfl

@[simp] theorem State.setStash_undef (s : State) (x : Stash) :
    (State.setStash s x).undef = s.undef := rfl

@[simp] theorem State.setStash_tarns (s : State) (x : Stash) :
    (State.setStash s x).tarns = s.tarns := rfl

@[simp] theorem State.setStash_prog (s : State) (x : Stash) :
    (State.setStash s x).prog = s.prog := rfl

@[simp] theorem State.setStash_bound (s : State) (x : Stash) :
    (State.setStash s x).bound = s.bound := rfl

@[simp] theorem State.setStash_units (s : State) (x : Stash) :
    (State.setStash s x).units = s.units := rfl

@[simp] theorem State.setStash_step (s : State) (x : Stash) :
    (State.setStash s x).step = s.step := rfl

@[simp] theorem State.setStash_dom (s : State) (x : Stash) :
    (State.setStash s x).dom = s.dom := rfl

@[simp] theorem State.setStash_twin (s : State) (x : Stash) :
    (State.setStash s x).twin = s.twin := rfl

@[simp] theorem State.setStash_fab (s : State) (x : Stash) :
    (State.setStash s x).fab = s.fab := rfl

@[simp] theorem State.setStash_inl (s : State) (x : Stash) :
    (State.setStash s x).inl = s.inl := rfl

@[simp] theorem State.setStash_umc (s : State) (x : Stash) :
    (State.setStash s x).umc = s.umc := rfl

@[simp] theorem State.setStash_sec (s : State) (x : Stash) :
    (State.setStash s x).sec = s.sec := rfl

@[simp] theorem State.setStash_pwr (s : State) (x : Stash) :
    (State.setStash s x).pwr = s.pwr := rfl

@[simp] theorem State.setStash_host (s : State) (x : Stash) :
    (State.setStash s x).host = s.host := rfl

@[simp] theorem State.setStash_cp (s : State) (x : Stash) :
    (State.setStash s x).cp = s.cp := rfl

@[simp] theorem State.setStash_queues (s : State) (x : Stash) :
    (State.setStash s x).queues = s.queues := rfl

@[simp] theorem State.setStash_log (s : State) (x : Stash) :
    (State.setStash s x).log = s.log := rfl

@[simp] theorem State.setStash_bulk (s : State) (x : Stash) :
    (State.setStash s x).bulk = s.bulk := rfl

@[simp] theorem State.setStash_serv (s : State) (x : Stash) :
    (State.setStash s x).serv = s.serv := rfl

@[simp] theorem State.setStash_out (s : State) (x : Stash) :
    (State.setStash s x).out = s.out := rfl

@[simp] theorem State.setRank_pending (s : State) (r : Nat) (e : RankEntry) :
    (State.setRank s r e).pending = s.pending := rfl

@[simp] theorem State.setRank_free (s : State) (r : Nat) (e : RankEntry) :
    (State.setRank s r e).free = s.free := rfl

@[simp] theorem State.setRank_us (s : State) (r : Nat) (e : RankEntry) :
    (State.setRank s r e).us = s.us := rfl

@[simp] theorem State.setRank_part (s : State) (r : Nat) (e : RankEntry) :
    (State.setRank s r e).part = s.part := rfl

@[simp] theorem State.setRank_regs (s : State) (r : Nat) (e : RankEntry) :
    (State.setRank s r e).regs = s.regs := rfl

@[simp] theorem State.setRank_latches (s : State) (r : Nat) (e : RankEntry) :
    (State.setRank s r e).latches = s.latches := rfl

@[simp] theorem State.setRank_access (s : State) (r : Nat) (e : RankEntry) :
    (State.setRank s r e).access = s.access := rfl

@[simp] theorem State.setRank_readValue (s : State) (r : Nat) (e : RankEntry) :
    (State.setRank s r e).readValue = s.readValue := rfl

@[simp] theorem State.setRank_mem (s : State) (r : Nat) (e : RankEntry) :
    (State.setRank s r e).mem = s.mem := rfl

@[simp] theorem State.setRank_undef (s : State) (r : Nat) (e : RankEntry) :
    (State.setRank s r e).undef = s.undef := rfl

@[simp] theorem State.setRank_tarns (s : State) (r : Nat) (e : RankEntry) :
    (State.setRank s r e).tarns = s.tarns := rfl

@[simp] theorem State.setRank_prog (s : State) (r : Nat) (e : RankEntry) :
    (State.setRank s r e).prog = s.prog := rfl

@[simp] theorem State.setRank_bound (s : State) (r : Nat) (e : RankEntry) :
    (State.setRank s r e).bound = s.bound := rfl

@[simp] theorem State.setRank_units (s : State) (r : Nat) (e : RankEntry) :
    (State.setRank s r e).units = s.units := rfl

@[simp] theorem State.setRank_step (s : State) (r : Nat) (e : RankEntry) :
    (State.setRank s r e).step = s.step := rfl

@[simp] theorem State.setRank_stash (s : State) (r : Nat) (e : RankEntry) :
    (State.setRank s r e).stash = s.stash := rfl

@[simp] theorem State.setRank_twin (s : State) (r : Nat) (e : RankEntry) :
    (State.setRank s r e).twin = s.twin := rfl

@[simp] theorem State.setRank_fab (s : State) (r : Nat) (e : RankEntry) :
    (State.setRank s r e).fab = s.fab := rfl

@[simp] theorem State.setRank_inl (s : State) (r : Nat) (e : RankEntry) :
    (State.setRank s r e).inl = s.inl := rfl

@[simp] theorem State.setRank_umc (s : State) (r : Nat) (e : RankEntry) :
    (State.setRank s r e).umc = s.umc := rfl

@[simp] theorem State.setRank_sec (s : State) (r : Nat) (e : RankEntry) :
    (State.setRank s r e).sec = s.sec := rfl

@[simp] theorem State.setRank_pwr (s : State) (r : Nat) (e : RankEntry) :
    (State.setRank s r e).pwr = s.pwr := rfl

@[simp] theorem State.setRank_host (s : State) (r : Nat) (e : RankEntry) :
    (State.setRank s r e).host = s.host := rfl

@[simp] theorem State.setRank_cp (s : State) (r : Nat) (e : RankEntry) :
    (State.setRank s r e).cp = s.cp := rfl

@[simp] theorem State.setRank_queues (s : State) (r : Nat) (e : RankEntry) :
    (State.setRank s r e).queues = s.queues := rfl

@[simp] theorem State.setRank_log (s : State) (r : Nat) (e : RankEntry) :
    (State.setRank s r e).log = s.log := rfl

@[simp] theorem State.setRank_bulk (s : State) (r : Nat) (e : RankEntry) :
    (State.setRank s r e).bulk = s.bulk := rfl

@[simp] theorem State.setRank_serv (s : State) (r : Nat) (e : RankEntry) :
    (State.setRank s r e).serv = s.serv := rfl

@[simp] theorem State.setRank_out (s : State) (r : Nat) (e : RankEntry) :
    (State.setRank s r e).out = s.out := rfl

@[simp] theorem State.setStepNum_pending (s : State) (n : Nat) :
    (State.setStepNum s n).pending = s.pending := rfl

@[simp] theorem State.setStepNum_free (s : State) (n : Nat) :
    (State.setStepNum s n).free = s.free := rfl

@[simp] theorem State.setStepNum_us (s : State) (n : Nat) :
    (State.setStepNum s n).us = s.us := rfl

@[simp] theorem State.setStepNum_part (s : State) (n : Nat) :
    (State.setStepNum s n).part = s.part := rfl

@[simp] theorem State.setStepNum_latches (s : State) (n : Nat) :
    (State.setStepNum s n).latches = s.latches := rfl

@[simp] theorem State.setStepNum_access (s : State) (n : Nat) :
    (State.setStepNum s n).access = s.access := rfl

@[simp] theorem State.setStepNum_readValue (s : State) (n : Nat) :
    (State.setStepNum s n).readValue = s.readValue := rfl

@[simp] theorem State.setStepNum_mem (s : State) (n : Nat) :
    (State.setStepNum s n).mem = s.mem := rfl

@[simp] theorem State.setStepNum_undef (s : State) (n : Nat) :
    (State.setStepNum s n).undef = s.undef := rfl

@[simp] theorem State.setStepNum_tarns (s : State) (n : Nat) :
    (State.setStepNum s n).tarns = s.tarns := rfl

@[simp] theorem State.setStepNum_prog (s : State) (n : Nat) :
    (State.setStepNum s n).prog = s.prog := rfl

@[simp] theorem State.setStepNum_bound (s : State) (n : Nat) :
    (State.setStepNum s n).bound = s.bound := rfl

@[simp] theorem State.setStepNum_units (s : State) (n : Nat) :
    (State.setStepNum s n).units = s.units := rfl

@[simp] theorem State.setStepNum_step (s : State) (n : Nat) :
    (State.setStepNum s n).step = s.step := rfl

@[simp] theorem State.setStepNum_stash (s : State) (n : Nat) :
    (State.setStepNum s n).stash = s.stash := rfl

@[simp] theorem State.setStepNum_dom (s : State) (n : Nat) :
    (State.setStepNum s n).dom = s.dom := rfl

@[simp] theorem State.setStepNum_twin (s : State) (n : Nat) :
    (State.setStepNum s n).twin = s.twin := rfl

@[simp] theorem State.setStepNum_fab (s : State) (n : Nat) :
    (State.setStepNum s n).fab = s.fab := rfl

@[simp] theorem State.setStepNum_inl (s : State) (n : Nat) :
    (State.setStepNum s n).inl = s.inl := rfl

@[simp] theorem State.setStepNum_umc (s : State) (n : Nat) :
    (State.setStepNum s n).umc = s.umc := rfl

@[simp] theorem State.setStepNum_sec (s : State) (n : Nat) :
    (State.setStepNum s n).sec = s.sec := rfl

@[simp] theorem State.setStepNum_pwr (s : State) (n : Nat) :
    (State.setStepNum s n).pwr = s.pwr := rfl

@[simp] theorem State.setStepNum_host (s : State) (n : Nat) :
    (State.setStepNum s n).host = s.host := rfl

@[simp] theorem State.setStepNum_cp (s : State) (n : Nat) :
    (State.setStepNum s n).cp = s.cp := rfl

@[simp] theorem State.setStepNum_queues (s : State) (n : Nat) :
    (State.setStepNum s n).queues = s.queues := rfl

@[simp] theorem State.setStepNum_log (s : State) (n : Nat) :
    (State.setStepNum s n).log = s.log := rfl

@[simp] theorem State.setStepNum_bulk (s : State) (n : Nat) :
    (State.setStepNum s n).bulk = s.bulk := rfl

@[simp] theorem State.setStepNum_serv (s : State) (n : Nat) :
    (State.setStepNum s n).serv = s.serv := rfl

@[simp] theorem State.setStepNum_out (s : State) (n : Nat) :
    (State.setStepNum s n).out = s.out := rfl

@[simp] theorem State.setBase_pending (s : State) (b : Nat) :
    (State.setBase s b).pending = s.pending := rfl

@[simp] theorem State.setBase_free (s : State) (b : Nat) :
    (State.setBase s b).free = s.free := rfl

@[simp] theorem State.setBase_us (s : State) (b : Nat) :
    (State.setBase s b).us = s.us := rfl

@[simp] theorem State.setBase_part (s : State) (b : Nat) :
    (State.setBase s b).part = s.part := rfl

@[simp] theorem State.setBase_latches (s : State) (b : Nat) :
    (State.setBase s b).latches = s.latches := rfl

@[simp] theorem State.setBase_access (s : State) (b : Nat) :
    (State.setBase s b).access = s.access := rfl

@[simp] theorem State.setBase_readValue (s : State) (b : Nat) :
    (State.setBase s b).readValue = s.readValue := rfl

@[simp] theorem State.setBase_mem (s : State) (b : Nat) :
    (State.setBase s b).mem = s.mem := rfl

@[simp] theorem State.setBase_undef (s : State) (b : Nat) :
    (State.setBase s b).undef = s.undef := rfl

@[simp] theorem State.setBase_tarns (s : State) (b : Nat) :
    (State.setBase s b).tarns = s.tarns := rfl

@[simp] theorem State.setBase_prog (s : State) (b : Nat) :
    (State.setBase s b).prog = s.prog := rfl

@[simp] theorem State.setBase_bound (s : State) (b : Nat) :
    (State.setBase s b).bound = s.bound := rfl

@[simp] theorem State.setBase_units (s : State) (b : Nat) :
    (State.setBase s b).units = s.units := rfl

@[simp] theorem State.setBase_step (s : State) (b : Nat) :
    (State.setBase s b).step = s.step := rfl

@[simp] theorem State.setBase_stash (s : State) (b : Nat) :
    (State.setBase s b).stash = s.stash := rfl

@[simp] theorem State.setBase_dom (s : State) (b : Nat) :
    (State.setBase s b).dom = s.dom := rfl

@[simp] theorem State.setBase_twin (s : State) (b : Nat) :
    (State.setBase s b).twin = s.twin := rfl

@[simp] theorem State.setBase_fab (s : State) (b : Nat) :
    (State.setBase s b).fab = s.fab := rfl

@[simp] theorem State.setBase_inl (s : State) (b : Nat) :
    (State.setBase s b).inl = s.inl := rfl

@[simp] theorem State.setBase_umc (s : State) (b : Nat) :
    (State.setBase s b).umc = s.umc := rfl

@[simp] theorem State.setBase_sec (s : State) (b : Nat) :
    (State.setBase s b).sec = s.sec := rfl

@[simp] theorem State.setBase_pwr (s : State) (b : Nat) :
    (State.setBase s b).pwr = s.pwr := rfl

@[simp] theorem State.setBase_host (s : State) (b : Nat) :
    (State.setBase s b).host = s.host := rfl

@[simp] theorem State.setBase_cp (s : State) (b : Nat) :
    (State.setBase s b).cp = s.cp := rfl

@[simp] theorem State.setBase_queues (s : State) (b : Nat) :
    (State.setBase s b).queues = s.queues := rfl

@[simp] theorem State.setBase_log (s : State) (b : Nat) :
    (State.setBase s b).log = s.log := rfl

@[simp] theorem State.setBase_bulk (s : State) (b : Nat) :
    (State.setBase s b).bulk = s.bulk := rfl

@[simp] theorem State.setBase_serv (s : State) (b : Nat) :
    (State.setBase s b).serv = s.serv := rfl

@[simp] theorem State.setBase_out (s : State) (b : Nat) :
    (State.setBase s b).out = s.out := rfl

end Sys2Proof.Machine
end

