-- ==== Sys2Proof/Laws/Memory.lean ====
section
/-! SUPPORT. Bytes of memory: a write leaves every byte outside its range alone, reads back what it wrote, and keeps the canonical form;
the same for register words. -/
namespace Sys2Proof.Machine

/-! ## Register words -/

theorem State.regAt_setRegAt_other (s : State) (a k : Nat) (v : Word) (h : a ≠ k) :
    (s.setRegAt k v).regAt a = s.regAt a := Bank.get_put_other _ _ _ _ _ h

theorem State.regAt_setReg_other (s : State) (b : Block) (i o a : Nat) (v : Word) (h : a ≠ regAddr b i o) :
    (s.setReg b i o v).regAt a = s.regAt a := Bank.get_put_other _ _ _ _ _ h

theorem State.regAt_bump_other (s : State) (b : Block) (i o n a : Nat) (h : a ≠ regAddr b i o) :
    (s.bump b i o n).regAt a = s.regAt a := Bank.get_put_other _ _ _ _ _ h

theorem State.reg_setReg_same (s : State) (b : Block) (i o : Nat) (v : Word) (h : Bank.wf regReset s.regs = true) :
    (s.setReg b i o v).reg b i o = v := Bank.get_put_same _ _ _ _ h

/-! ## Undefined runs -/

/-- Taking a range out of the undefined runs changes nothing outside it. -/
theorem carve_find (lo hi a : Nat) (us : List Undef) (h : a < lo ∨ hi ≤ a) :
    ((carve lo hi us).find? fun u => decide (u.lo ≤ a ∧ a < u.hi)).map (·.token) =
      (us.find? fun u => decide (u.lo ≤ a ∧ a < u.hi)).map (·.token) := by
  induction us with
  | nil => rfl
  | cons u t ih =>
    rw [show carve lo hi (u :: t) =
        (if u.hi ≤ lo ∨ hi ≤ u.lo then [u]
          else (if u.lo < lo then [⟨u.lo, lo, u.token⟩] else []) ++ (if hi < u.hi then [⟨hi, u.hi, u.token⟩] else []))
          ++ carve lo hi t from rfl]
    by_cases hin : u.lo ≤ a ∧ a < u.hi
    · rw [List.find?_cons_of_pos (by simpa using hin)]
      by_cases hd : u.hi ≤ lo ∨ hi ≤ u.lo
      · rw [if_pos hd]
        simp [hin]
      · rw [if_neg hd]
        by_cases h1 : u.lo < lo
        · by_cases h2 : a < lo
          · simp [h1, h2, hin.1]
          · have h3 : hi < u.hi := by omega
            have h4 : ¬ a < lo := h2
            have h5 : hi ≤ a := by omega
            simp [h1, h3, h4, h5, hin.2]
        · have h3 : hi < u.hi := by omega
          have h5 : hi ≤ a := by omega
          simp [h1, h3, h5, hin.2]
    · rw [List.find?_cons_of_neg (by simpa using hin), ← ih]
      by_cases hd : u.hi ≤ lo ∨ hi ≤ u.lo
      · rw [if_pos hd]
        simp [hin]
      · rw [if_neg hd, List.find?_append]
        have hn : ((if u.lo < lo then [(⟨u.lo, lo, u.token⟩ : Undef)] else []) ++
            (if hi < u.hi then [(⟨hi, u.hi, u.token⟩ : Undef)] else [])).find?
            (fun u : Undef => decide (u.lo ≤ a ∧ a < u.hi)) = none := by
          rw [List.find?_eq_none]
          intro x hx
          simp only [List.mem_append] at hx
          rcases hx with hx | hx
          · split at hx
            · simp only [List.mem_singleton] at hx
              subst hx
              simp only [decide_eq_true_eq]
              omega
            · simp at hx
          · split at hx
            · simp only [List.mem_singleton] at hx
              subst hx
              simp only [decide_eq_true_eq]
              omega
            · simp at hx
        rw [hn]
        rfl

/-- The token of the undefined run an address lies in. -/
def State.tokenAt (s : State) (a : Nat) : Option Nat := (s.undefAt a).map (·.token)

/-- A byte in terms of what it depends on. -/
theorem State.byte_eq (s : State) (a : Nat) :
    s.byte a =
      if a < tarnTop ∧ (s.stack (stackOf a)).trained = false then Config.freeByte (s.stack (stackOf a)).token a
      else match s.tokenAt a with
        | some n => Config.freeByte n a
        | none => Bank.get memDefault s.mem a := by
  unfold State.byte State.tokenAt
  split
  · rfl
  · cases s.undefAt a <;> rfl

/-- A byte is the same in two states that agree on its stack's training, its undefined run and its stored value. -/
theorem State.byte_congr (s t : State) (a : Nat)
    (h1 : (t.stack (stackOf a)).trained = (s.stack (stackOf a)).trained)
    (h2 : (t.stack (stackOf a)).token = (s.stack (stackOf a)).token)
    (h3 : t.tokenAt a = s.tokenAt a) (h4 : Bank.get memDefault t.mem a = Bank.get memDefault s.mem a) :
    t.byte a = s.byte a := by
  rw [State.byte_eq, State.byte_eq, h1, h2, h3, h4]

/-! ## Stacks -/

theorem State.stack_setStack_other (s : State) (i j : Nat) (x : Stack) (h : j ≠ i) : (s.setStack i x).stack j = s.stack j :=
  Bank.get_put_other _ _ _ _ _ h

theorem State.stack_setStack_same (s : State) (i : Nat) (x : Stack) (h : Bank.wf stackDefault s.tarns = true) :
    (s.setStack i x).stack i = x := Bank.get_put_same _ _ _ _ h

/-- A write to a stack that keeps its training keeps it for every stack. -/
theorem State.stack_setStack_keeps {α : Type} (f : Stack → α) (s : State) (i j : Nat) (x : Stack)
    (h : Bank.wf stackDefault s.tarns = true) (hx : f x = f (s.stack i)) :
    f ((s.setStack i x).stack j) = f (s.stack j) := by
  by_cases hj : j = i
  · subst hj
    rw [State.stack_setStack_same s j x h, hx]
  · rw [State.stack_setStack_other s i j x hj]

/-! ## Byte writes -/

theorem State.freshen_stacks_wf (s : State) (a n : Nat) (h : Bank.wf stackDefault s.tarns = true) :
    Bank.wf stackDefault (s.freshen a n).tarns = true := by
  unfold State.freshen
  dsimp only
  split
  · exact Bank.put_wf _ _ _ _ h
  · exact h

theorem State.freshen_stack_keeps {α : Type} (f : Stack → α) (s : State) (a n j : Nat)
    (h : Bank.wf stackDefault s.tarns = true) (hf : ∀ (k : Stack) (l : List Nat), f { k with poison := l } = f k) :
    f ((s.freshen a n).stack j) = f (s.stack j) := by
  unfold State.freshen
  dsimp only
  split
  · exact State.stack_setStack_keeps f s _ j _ h (hf _ _)
  · rfl

theorem State.putBytes_stack_keeps {α : Type} (f : Stack → α) (s : State) (a : Nat) (l : List Byte) (j : Nat)
    (h : Bank.wf stackDefault s.tarns = true) (hf : ∀ (k : Stack) (l : List Nat), f { k with poison := l } = f k) :
    f ((s.putBytes a l).stack j) = f (s.stack j) := State.freshen_stack_keeps f s a l.length j h hf

/-- A write leaves every byte outside it as it was. -/
theorem State.byte_putBytes_other (s : State) (k : Nat) (l : List Byte) (a : Nat)
    (h : Bank.wf stackDefault s.tarns = true) (ha : a < k ∨ k + l.length ≤ a) :
    (s.putBytes k l).byte a = s.byte a := by
  refine State.byte_congr _ _ _ ?_ ?_ ?_ ?_
  · exact State.putBytes_stack_keeps (·.trained) s k l _ h fun _ _ => rfl
  · exact State.putBytes_stack_keeps (·.token) s k l _ h fun _ _ => rfl
  · show ((carve k (k + l.length) (s.freshen k l.length).undef).find? _).map (·.token) = _
    rw [State.freshen_undef]
    exact carve_find k (k + l.length) a s.undef ha
  · show Bank.get memDefault (Bank.putRange memDefault (s.freshen k l.length).mem k l) a = _
    rw [State.freshen_mem]
    exact Bank.get_putRange_other _ _ _ _ _ ha

theorem State.putBytes_mem_wf (s : State) (k : Nat) (l : List Byte) (h : Memory.wf s.mem = true) :
    Memory.wf (s.putBytes k l).mem = true := by
  show Bank.wf memDefault (Bank.putRange memDefault (s.freshen k l.length).mem k l) = true
  rw [State.freshen_mem]
  exact Bank.putRange_wf _ _ _ _ h

theorem State.putBytes_stacks_wf (s : State) (k : Nat) (l : List Byte) (h : Bank.wf stackDefault s.tarns = true) :
    Bank.wf stackDefault (s.putBytes k l).tarns = true := State.freshen_stacks_wf s k l.length h

end Sys2Proof.Machine
end

