-- ==== Sys2Proof/Laws/Events.lean ====
section
/-! SUPPORT. What raising an event can do, once: `raiseEv`, `raiseLimited` and their parts change nothing but what `eventOnly` names. -/
namespace Sys2Proof.Machine

theorem State.canonical_iff (s : State) : s.canonical = true ↔
    Memory.wf s.mem = true ∧ Bank.wf regReset s.regs = true ∧ Bank.wf stackDefault s.tarns = true ∧
      Bank.wf queueDefault s.queues = true := by
  simp [State.canonical, and_assoc]

theorem eventOnly_refl (s : State) : eventOnly s s :=
  ⟨rfl, fun _ _ => rfl, fun h => ⟨h, fun _ _ => rfl, fun _ => rfl⟩⟩

/-- The ring's place depends only on registers that no event changes. -/
theorem inEventRing_congr {s t : State} (h : ∀ a, isEventReg a = false → t.regAt a = s.regAt a) (a : Nat) :
    t.inEventRing a = s.inEventRing a := by
  have h0 : t.reg .policy 0 0x40 = s.reg .policy 0 0x40 := h _ (by decide)
  have h1 : t.reg .policy 0 (0x40 + 4) = s.reg .policy 0 (0x40 + 4) := h _ (by decide)
  have h2 : t.reg .policy 0 0x48 = s.reg .policy 0 0x48 := h _ (by decide)
  have hb : t.ringBase .policy 0x40 = s.ringBase .policy 0x40 := by simp only [State.ringBase, State.field, h0, h1]
  have hs : t.logSize = s.logSize := by simp only [State.logSize, State.field, h2]
  unfold State.inEventRing
  rw [hb, hs]

theorem eventOnly_trans {s t u : State} (h : eventOnly s t) (k : eventOnly t u) : eventOnly s u := by
  obtain ⟨h1, h2, h3⟩ := h
  obtain ⟨k1, k2, k3⟩ := k
  refine ⟨?_, fun a ha => (k2 a ha).trans (h2 a ha), fun hc => ?_⟩
  · rw [k1, h1]
  · obtain ⟨c1, c2, c3⟩ := h3 hc
    obtain ⟨d1, d2, d3⟩ := k3 c1
    refine ⟨d1, fun a ha => ?_, fun i => ?_⟩
    · exact (d2 a (by rw [inEventRing_congr h2 a]; exact ha)).trans (c2 a ha)
    · have e1 := d3 i
      have e2 := c3 i
      rw [← e2, ← e1]

theorem eventOnly_setReg (s : State) (b : Block) (i o : Nat) (v : Word) (h : isEventReg (regAddr b i o) = true) :
    eventOnly s (s.setReg b i o v) := by
  refine ⟨rfl, fun a ha => ?_, fun hc => ?_⟩
  · refine State.regAt_setReg_other s b i o a v ?_
    rintro rfl
    rw [h] at ha
    cases ha
  · obtain ⟨c1, c2, c3, c4⟩ := (State.canonical_iff s).1 hc
    refine ⟨(State.canonical_iff _).2 ⟨c1, Bank.put_wf _ _ _ _ c2, c3, c4⟩, fun a _ => ?_, fun _ => rfl⟩
    exact State.byte_congr s _ a rfl rfl rfl rfl

theorem eventOnly_bump (s : State) (b : Block) (i o n : Nat) (h : isEventReg (regAddr b i o) = true) :
    eventOnly s (s.bump b i o n) := eventOnly_setReg s b i o _ h

theorem eventOnly_log (s : State) (l : Log) : eventOnly s { s with log := l } :=
  ⟨rfl, fun _ _ => rfl, fun h => ⟨h, fun a _ => State.byte_congr s _ a rfl rfl rfl rfl, fun _ => rfl⟩⟩

theorem eventOnly_putBytes (s : State) (k : Nat) (l : List Byte)
    (h : ∀ a, k ≤ a → a < k + l.length → s.inEventRing a = true) : eventOnly s (s.putBytes k l) := by
  refine ⟨?_, fun a _ => ?_, fun hc => ?_⟩
  · show _ = { s with
      regs := _, mem := _, undef := _, tarns := _, log := _ }
    unfold State.putBytes State.freshen
    dsimp only
    split <;> rfl
  · unfold State.regAt
    rw [State.putBytes_regs]
  · obtain ⟨c1, c2, c3, c4⟩ := (State.canonical_iff s).1 hc
    refine ⟨(State.canonical_iff _).2 ⟨State.putBytes_mem_wf s k l c1, ?_, State.putBytes_stacks_wf s k l c3, ?_⟩, ?_, ?_⟩
    · rw [State.putBytes_regs]
      exact c2
    · rw [State.putBytes_queues]
      exact c4
    · intro a ha
      refine State.byte_putBytes_other s k l a c3 ?_
      by_cases h1 : a < k
      · exact .inl h1
      · by_cases h2 : a < k + l.length
        · rw [h a (by omega) h2] at ha
          cases ha
        · exact .inr (by omega)
    · intro i
      have e := State.putBytes_stack_keeps (fun x : Stack => { x with poison := (s.stack i).poison, ueHeld := (s.stack i).ueHeld }) s k l i c3 fun _ _ => rfl
      exact e

theorem eventOnly_unpoison (s : State) (i : Nat) (ls : List Nat) : eventOnly s (s.unpoison i ls) := by
  refine ⟨rfl, fun _ _ => rfl, fun hc => ?_⟩
  obtain ⟨c1, c2, c3, c4⟩ := (State.canonical_iff s).1 hc
  refine ⟨(State.canonical_iff _).2 ⟨c1, c2, Bank.put_wf _ _ _ _ c3, c4⟩, fun a _ => ?_, fun j => ?_⟩
  · exact State.byte_congr s _ a
      (State.stack_setStack_keeps (·.trained) s i (stackOf a)
        { s.stack i with poison := (s.stack i).poison.filter fun l => !ls.contains l } c3 rfl)
      (State.stack_setStack_keeps (·.token) s i (stackOf a)
        { s.stack i with poison := (s.stack i).poison.filter fun l => !ls.contains l } c3 rfl) rfl rfl
  · have e := State.stack_setStack_keeps (fun x : Stack => { x with poison := (s.stack j).poison, ueHeld := (s.stack j).ueHeld }) s i j
      { s.stack i with poison := (s.stack i).poison.filter fun l => !ls.contains l } c3 rfl
    exact e

/-! ## Flags -/

theorem pageBase_mod (b : Block) (i o : Nat) (h : o < 0x1000) : regAddr b i o % 0x1000 = o := by
  cases b <;> simp only [regAddr, pageBase] <;> omega

theorem isEventReg_flag (b : Block) (i : Nat) : isEventReg (regAddr b i (evReg b)) = true := by
  have h : evReg b = 4 ∨ evReg b = 8 := by cases b <;> simp [evReg]
  unfold isEventReg
  rcases h with h | h <;> rw [h] <;> simp [pageBase_mod]

theorem isEventReg_count (b : Block) (i n : Nat) (h : n < 8) : isEventReg (regAddr b i (cntReg b n)) = true := by
  have hc : cntReg b n = 8 ∨ cntReg b n = 0xC ∨ (cntReg b n = 0x10 ∧ b = .fct) := by
    have : n / 4 = 0 ∨ n / 4 = 1 := by omega
    cases b <;> rcases this with h | h <;> simp [cntReg, evReg, h]
  unfold isEventReg
  rcases hc with h | h | ⟨h, rfl⟩
  · rw [h]; simp [pageBase_mod]
  · rw [h]; simp [pageBase_mod]
  · rw [h]
    have : pageBase .fct ≤ regAddr .fct i 0x10 := by simp only [regAddr]; omega
    simp [pageBase_mod, this]

theorem eventOnly_raiseFlag (s : State) (b : Block) (i n : Nat) (h : n < 8) : eventOnly s (s.raiseFlag b i n) :=
  eventOnly_trans (eventOnly_setReg s b i _ _ (isEventReg_flag b i)) (eventOnly_setReg _ b i _ _ (isEventReg_count b i n h))

theorem evFlag_bit (code : Nat) (b : Block) (n : Nat) (h : evFlag code = some (b, n)) : n < 8 := by
  unfold evFlag at h
  split at h <;> first | (injection h with h; injection h with _ h; omega) | cases h

theorem eventOnly_flagEvent (s : State) (code inst : Nat) : eventOnly s (s.flagEvent code inst) := by
  unfold State.flagEvent
  split
  · rename_i b n h
    exact eventOnly_raiseFlag s b inst n (evFlag_bit code b n h)
  · exact eventOnly_refl s

/-! ## Records -/

theorem isEventReg_head : isEventReg (regAddr .policy 0 0x4C) = true := by decide

theorem isEventReg_lost : isEventReg (regAddr .policy 0 0x54) = true := by decide

theorem eventOnly_logDrop (s : State) : eventOnly s s.logDrop :=
  eventOnly_trans (eventOnly_setReg s .policy 0 0x54 _ isEventReg_lost) (eventOnly_log _ _)

theorem recBytes_length (r : EventRec) (lost : Bool) (seq : Nat) (h : r.detail.length = 8) :
    (recBytes r lost seq).length = 48 := by
  simp [recBytes, leBytes, h]

/-- The next record lies in the ring. -/
theorem logPlace_bound (s : State) : s.ringBase .policy 0x40 ≤ s.logPlace ∧
    s.logPlace + 48 ≤ s.ringBase .policy 0x40 + 48 * s.logSize := by
  have h : 0 < s.logSize := Nat.pos_of_ne_zero (by simp [State.logSize])
  have h2 := Nat.mod_lt (s.reg .policy 0 0x4C).toNat h
  unfold State.logPlace
  omega

theorem inEventRing_place (s : State) (a : Nat) (h1 : s.logPlace ≤ a) (h2 : a < s.logPlace + 48) : s.inEventRing a = true := by
  have h := logPlace_bound s
  simp only [State.inEventRing, decide_eq_true_eq]
  omega

theorem inEventRing_line (s : State) (l a : Nat) (h1 : lineOf s.logPlace ≤ l) (h2 : l * 64 < s.logPlace + 48)
    (h3 : 64 * l ≤ a) (h4 : a < 64 * l + 64) : s.inEventRing a = true := by
  have h := logPlace_bound s
  simp only [State.inEventRing, decide_eq_true_eq]
  simp only [lineOf] at h1
  omega

theorem eventOnly_logWrite (s : State) (r : EventRec) (lost : Bool) (h : r.detail.length = 8) :
    eventOnly s (s.logWrite r lost) := by
  refine eventOnly_trans (eventOnly_trans (eventOnly_putBytes s s.logPlace _ ?_) (eventOnly_setReg _ .policy 0 0x4C _ isEventReg_head))
    (eventOnly_log _ _)
  intro a h1 h2
  rw [recBytes_length r _ _ h] at h2
  exact inEventRing_place s a h1 h2

theorem eventOnly_zeroLines (ls : List Nat) (s : State) (h : ∀ l ∈ ls, ∀ a, 64 * l ≤ a → a < 64 * l + 64 → s.inEventRing a = true) :
    eventOnly s (ls.foldl (fun t x => t.putBytes (64 * x) (List.replicate 64 0)) s) := by
  induction ls generalizing s with
  | nil => exact eventOnly_refl s
  | cons l r ih =>
    have h0 := eventOnly_putBytes s (64 * l) (List.replicate 64 0) fun a h1 h2 =>
      h l (by simp) a h1 (by simpa using h2)
    refine eventOnly_trans h0 (ih _ fun l' hl a h1 h2 => ?_)
    rw [inEventRing_congr h0.2.1]
    exact h l' (by simp [hl]) a h1 h2

theorem mkRec_detail (s : State) (code unit inst : Nat) (c : EvCtx) (d : List Byte) : (mkRec s code unit inst c d).detail.length = 8 := by
  simp [mkRec]

theorem isEventReg_trn (i o : Nat) (hi : i < 8) (h : o = 0x94 ∨ o = 0x30 ∨ o = 0x34 ∨ o = 0x38) :
    isEventReg (regAddr .trn i o) = true := by
  have e : regAddr .trn i o % 0x1000 = o := pageBase_mod .trn i o (by omega)
  have h1 : pageBase .trn ≤ regAddr .trn i o ∧ regAddr .trn i o < pageBase .trn + 8 * 0x1000 := by
    simp only [regAddr]
    omega
  unfold isEventReg
  rcases h with h | h | h | h <;> simp only [e, h1] <;> simp [h]

theorem eventOnly_setUeHeld (s : State) (i : Nat) (ue : Bool) : eventOnly s (s.setStack i { s.stack i with ueHeld := ue }) := by
  refine ⟨rfl, fun _ _ => rfl, fun hc => ?_⟩
  obtain ⟨c1, c2, c3, c4⟩ := (State.canonical_iff s).1 hc
  refine ⟨(State.canonical_iff _).2 ⟨c1, c2, Bank.put_wf _ _ _ _ c3, c4⟩, fun a _ => ?_, fun j => ?_⟩
  · exact State.byte_congr s _ a
      (State.stack_setStack_keeps (·.trained) s i (stackOf a) { s.stack i with ueHeld := ue } c3 rfl)
      (State.stack_setStack_keeps (·.token) s i (stackOf a) { s.stack i with ueHeld := ue } c3 rfl) rfl rfl
  · exact State.stack_setStack_keeps (fun x : Stack => { x with poison := (s.stack j).poison, ueHeld := (s.stack j).ueHeld }) s i j
      { s.stack i with ueHeld := ue } c3 rfl

theorem eventOnly_keepTrnError (s : State) (i l syms cls req : Nat) (ue addr : Bool) (hi : i < 8) :
    eventOnly s (s.keepTrnError i l syms cls req ue addr) := by
  unfold State.keepTrnError
  dsimp only
  split
  · exact eventOnly_refl s
  · exact eventOnly_trans (eventOnly_trans (eventOnly_trans (eventOnly_setUeHeld s i ue)
      (eventOnly_setReg _ .trn i 0x30 _ (isEventReg_trn i _ hi (by simp))))
      (eventOnly_setReg _ .trn i 0x34 _ (isEventReg_trn i _ hi (by simp))))
      (eventOnly_setReg _ .trn i 0x38 _ (isEventReg_trn i _ hi (by simp)))

theorem eventOnly_foldl {α : Type} (f : State → α → State) (h : ∀ t x, eventOnly t (f t x)) (l : List α) (s : State) :
    eventOnly s (l.foldl f s) := by
  induction l generalizing s with
  | nil => exact eventOnly_refl s
  | cons x r ih => exact eventOnly_trans (h s x) (ih _)

theorem stackOf_place (s : State) (l : Nat) (ls : List Nat) (h : s.poisoned s.logPlace (s.logPlace + 48) = l :: ls) :
    stackOf s.logPlace < 8 := by
  unfold State.poisoned at h
  split at h
  · rename_i h0
    simp only [tarnTop] at h0
    unfold stackOf
    omega
  · cases h

theorem eventOnly_logPut (s : State) (r : EventRec) (h : r.detail.length = 8) : eventOnly s (s.logPut r) := by
  unfold State.logPut
  dsimp only
  split
  · split
    · exact eventOnly_logWrite s r false h
    · rename_i l ls hp
      have hi := stackOf_place s l ls hp
      have hz := eventOnly_zeroLines (l :: ls) s fun x hx a h1 h2 => by
        have hm : x ∈ s.poisoned s.logPlace (s.logPlace + 48) := by rw [hp]; exact hx
        unfold State.poisoned at hm
        split at hm
        · simp only [List.mem_filter, decide_eq_true_eq] at hm
          exact inEventRing_line s x a hm.2.1 hm.2.2 h1 h2
        · simp at hm
      refine eventOnly_trans ?_ (eventOnly_foldl _ (fun t x => ?_) _ _)
      · refine eventOnly_trans ?_ (eventOnly_logWrite _ r true h)
        refine eventOnly_trans (eventOnly_trans hz (eventOnly_unpoison _ (stackOf s.logPlace) (l :: ls)))
          (eventOnly_foldl _ (fun t x => ?_) _ _)
        exact eventOnly_trans (eventOnly_trans (eventOnly_flagEvent t 0x0302 (stackOf s.logPlace))
          (eventOnly_bump _ .trn (stackOf s.logPlace) 0x94 1 (isEventReg_trn _ _ hi (by simp))))
          (eventOnly_keepTrnError _ _ _ _ _ _ _ _ hi)
      · split
        · exact eventOnly_logWrite _ _ false (mkRec_detail _ _ _ _ _ _)
        · exact eventOnly_logDrop _
  · have h1 := eventOnly_trans (eventOnly_flagEvent s 0x0305 (stackOf s.logPlace % 8)) (eventOnly_logDrop _)
    split
    · exact eventOnly_trans h1 (eventOnly_log _ _)
    · exact eventOnly_trans h1 (eventOnly_logDrop _)

theorem eventOnly_logRecord (s : State) (r : EventRec) (h : r.detail.length = 8) : eventOnly s (s.logRecord r) := by
  unfold State.logRecord
  repeat' split
  all_goals first
    | exact eventOnly_log _ _
    | exact eventOnly_logPut s r h
    | exact eventOnly_logDrop s

/-- Raising an event that no run-ahead strand raises. -/
theorem eventOnly_raiseCtx (s : State) (code inst unit : Nat) (c : EvCtx) (d : List Byte) (h : c.ra = false) :
    eventOnly s (s.raiseCtx code inst unit c d) := by
  unfold State.raiseCtx
  split
  · refine eventOnly_trans (eventOnly_flagEvent s code inst) ?_
    unfold State.logOrHold
    rw [h]
    exact eventOnly_logRecord _ _ (mkRec_detail _ _ _ _ _ _)
  · split
    · exact eventOnly_flagEvent s code inst
    · exact eventOnly_refl s

theorem eventOnly_raiseEv (s : State) (code inst : Nat) (d : List Byte) : eventOnly s (s.raiseEv code inst d) :=
  eventOnly_raiseCtx s code inst _ {} d rfl

theorem eventOnly_raiseLimited (s : State) (code inst key : Nat) (d : Nat → List Byte) :
    eventOnly s (s.raiseLimited code inst key d) := by
  unfold State.raiseLimited
  dsimp only
  split
  · refine eventOnly_trans (t := if s.mainOn then s.flagEvent code inst else s) ?_ (eventOnly_log _ _)
    split
    · exact eventOnly_flagEvent s code inst
    · exact eventOnly_refl s
  · exact eventOnly_trans (eventOnly_raiseEv s code inst _) (eventOnly_log _ _)

end Sys2Proof.Machine
end

