-- ==== Sys2Proof/Laws/Commands.lean ====
section
/-! SUPPORT. What running the command at the front of a queue does, once for every opcode row, and what moving on does. -/
namespace Sys2Proof.Machine

/-- A command at the front whose length and state pass runs its body on the queue without it (R369, R373). -/
theorem runCmd_of_fronts (s : State) (i op : Nat) (p : Packet) (rest : List Packet) (l : List Byte) (lenOk : Nat → Bool)
    (stateOk : State → Bool) (body : Packet → List Byte → State → State × Result) (h : s.fronts i op p rest l)
    (hl : lenOk l.length = true) (hs : stateOk s = true) :
    s.runCmd i op lenOk stateOk body =
      match body p l (s.take i rest) with
      | (t, .done code detail payload) => t.closes i p code detail payload (s.replyVia p.src)
      | (t, .wait) => t.setQueue i { t.queue i with busy := some p }
      | (t, .issued) => (t.setQueue i { t.queue i with issued := (t.queue i).issued ++ [p] }).advance i := by
  obtain ⟨h1, h2, h3⟩ := h
  have h4 : ¬(i ≠ 16 ∧ s.cp = .faulted ∧ runsFaulted op = false) := by
    rintro ⟨a, b, c⟩
    rw [h3 a b] at c
    cases c
  simp only [State.runCmd, h1, h2, hl, hs, h4]
  rfl

/-- The same for a row of the host port. -/
theorem runHost_of_fronts (s : State) (q op : Nat) (p : Packet) (rest : List Packet) (l : List Byte) (lenOk : Nat → Bool)
    (stateOk : State → Bool) (body : Packet → List Byte → State → State × Result) (hq : q < 16) (h : s.fronts q op p rest l)
    (hl : lenOk l.length = true) (hs : stateOk s = true) :
    s.runHost q op lenOk stateOk body =
      match body p l (s.take q rest) with
      | (t, .done code detail payload) => t.closes q p code detail payload (s.replyVia p.src)
      | (t, .wait) => t.setQueue q { t.queue q with busy := some p }
      | (t, .issued) => (t.setQueue q { t.queue q with issued := (t.queue q).issued ++ [p] }).advance q := by
  unfold State.runHost
  rw [if_pos hq, runCmd_of_fronts s q op p rest l lenOk stateOk body h hl hs]

/-- A queue whose front is a known opcode stays as it is. -/
theorem advance_of_known (s : State) (q : Nat) (p : Packet) (l : List Packet) (h : (s.queue q).accepted = p :: l)
    (hk : knownOpcode q p.opcode = true) : s.advance q = s := by
  unfold State.advance
  rw [h]
  simp only [List.length_cons, State.drainUnknown, h]
  split <;> simp_all

/-- An empty queue stays as it is. -/
theorem advance_of_empty (s : State) (q : Nat) (h : (s.queue q).accepted = []) : s.advance q = s := by
  unfold State.advance
  rw [h]
  rfl

theorem queue_setQueue_same (s : State) (i : Nat) (q : Queue) (h : s.canonical = true) : (s.setQueue i q).queue i = q :=
  Bank.get_put_same _ _ _ _ ((State.canonical_iff s).1 h).2.2.2

theorem queue_setQueue_other (s : State) (i j : Nat) (q : Queue) (h : j ≠ i) : (s.setQueue i q).queue j = s.queue j :=
  Bank.get_put_other _ _ _ _ _ h

end Sys2Proof.Machine
end

