-- ==== Sys2Proof/Laws/Lines.lean ====
section
/-! SUPPORT. What a unit's accesses to Tarn do, once: with no line on a poison list its own effect, otherwise the outcomes of R270 and
nothing of its effect. -/
namespace Sys2Proof.Machine

theorem State.badLines_of_clean (s : State) (ls : List Nat) (h : cleanTarn s) : s.badLines ls = [] := by
  simp [State.badLines, h _]

theorem State.strandIO_of_none (s : State) (ra : Bool) (req : Nat) (reads : List Nat) (writes : List (Nat × Nat)) (t : State)
    (h : s.badLines (reads ++ writes.flatMap fun w => s.mergeLines w.1 w.2) = []) : s.strandIO ra req reads writes t = t := by
  simp [State.strandIO, h]

theorem State.strandIO_of_clean (s : State) (ra : Bool) (req : Nat) (reads : List Nat) (writes : List (Nat × Nat)) (t : State)
    (h : cleanTarn s) : s.strandIO ra req reads writes t = t :=
  s.strandIO_of_none ra req reads writes t (s.badLines_of_clean _ h)

theorem State.strandIO_of_bad (s : State) (ra : Bool) (req : Nat) (reads : List Nat) (writes : List (Nat × Nat)) (t : State)
    (h : s.badLines (reads ++ writes.flatMap fun w => s.mergeLines w.1 w.2) ≠ []) :
    s.strandIO ra req reads writes t =
      (s.badLines (reads ++ writes.flatMap fun w => s.mergeLines w.1 w.2)).foldl (fun u l => u.lineUEFor ra l req false) s := by
  unfold State.strandIO
  split
  · contradiction
  · simp_all

end Sys2Proof.Machine
end

