-- ==== Sys2Proof/Tests/Slice0.lean ====
section
/-! SUPPORT. The model's own tests: ill-formed commands that WellFormed refuses, small checks of single steps against the manual's own
numbers, and for each statement with hypotheses a state and operands that meet them (one for each clause). -/
set_option Elab.async false
namespace Sys2Proof.Tests
open Sys2Proof Sys2Proof.Machine

/-! ## States -/

/-- Standby power is on and the rails are off, with the input in range. -/
def onStandby : State := { State.reset with umc := { standby := true, precharged := true, inputMv := 50000 } }

/-- In a phase of the power-up sequence. -/
def inPhase (p : Phase) : State := { onStandby with umc := { onStandby.umc with phase := p } }

/-- Powered up: the dies are out of reset. -/
def up : State := inPhase .dies

/-- With a power controller's state. -/
def upPwr (p : Pwr) : State := { up with pwr := p }

/-- With a command of opcode `op` and payload `l` alone at the front of queue `i`. -/
def pkt (op : Nat) (l : List Byte) : Packet := ⟨false, false, op, 0, 0, 0, l, ⟨0, .v4 0, 0, .v4 0, none⟩⟩

def withCmd (s : State) (i op : Nat) (l : List Byte) : State := { s with queues := [(i, { accepted := [pkt op l] })] }

/-- That command is at the front, and CPSTATE does not refuse it. -/
def ready (s : State) (i op : Nat) (l : List Byte) : Bool :=
  decide (s.front i op = some (pkt op l, []) ∧ content (pkt op l) = some l ∧ (i = 16 ∨ s.cp ≠ .faulted ∨ runsFaulted op = true))

theorem fronts_of_ready (s : State) (i op : Nat) (l : List Byte) (h : ready s i op l = true) : s.fronts i op (pkt op l) [] l := by
  simp only [ready, decide_eq_true_eq] at h
  refine ⟨h.1, h.2.1, fun hi hc => ?_⟩
  rcases h.2.2 with k | k | k
  · exact absurd k hi
  · exact absurd hc k
  · exact k

/-- Zero bytes. -/
def z (n : Nat) : List Byte := List.replicate n 0

/-! ## Power: witnesses -/

theorem witness_PowerComesAndGoes :
    (State.reset.umc.standby = false ∧ (true && State.reset.umc.autoOn) = false) ∧
    (let s : State := { State.reset with umc := { autoOn := true, precharged := true, inputMv := 48000 } }
     s.umc.standby = false ∧ s.umc.autoOn = true ∧ s.clockHeld true 5 = true ∧ s.umc.precharged = true ∧ 48000 ≤ s.umc.inputMv ∧ s.umc.inputMv ≤ 54000) ∧
    up.umc.standby = true ∧ up.mainOn = true ∧ (∀ i, i < 8 → (up.stack i).trained = false) ∧
    (inPhase .rails).umc.phase = .rails ∧ (inPhase .rails).umc.warm = false ∧
    sensorOk (.tarn 7) = true ∧ (if isTarn (.tarn 7) then 105 else 115) ≤ (105 : Int) ∧ sensorOk (.die 3 3) = true := by
  decide

theorem witness_MainInputIsWatched :
    (let s := State.reset
     ¬ (s.umc.autoDue = true ∧ s.umc.autoOn = true ∧ s.mainOn = false ∧ s.umc.standby = true ∧ s.umc.tamper = false ∧ (48000 : Nat) ≤ 61000 ∧ (61000 : Nat) ≤ 54000)) ∧
    (let s : State := { onStandby with umc := { onStandby.umc with autoOn := true, autoDue := true } }
     s.umc.autoDue = true ∧ s.umc.autoOn = true ∧ s.umc.standby = true ∧ s.umc.tamper = false ∧ s.mainOn = false) := by
  decide

theorem witness_PowerUpAndResets :
    (onStandby.umc.standby = true ∧ onStandby.umc.tamper = false ∧ onStandby.umc.precharged = true ∧ 48000 ≤ onStandby.umc.inputMv ∧
      onStandby.umc.inputMv ≤ 54000 ∧ onStandby.mainOn = false) ∧
    ((inPhase .rails).umc.phase = .rails ∧ (inPhase .rails).umc.warm = false) ∧
    (let s : State := { inPhase .rails with umc := { (inPhase .rails).umc with warm := true } }
     let t : State := { s with sec := { s.sec with keys := .ready } }
     t.umc.phase = .rails ∧ t.umc.warm = true ∧ t.sec.keys ≠ .none) ∧
    (inPhase .hub).umc.phase = .hub ∧ (up.umc.phase = .dies ∧ (up.stack 7).trained = false ∧ up.canonical = true) ∧
    up.umc.standby = true ∧ up.mainOn = true := by
  decide

theorem witness_Alarms :
    up.umc.standby = true ∧ up.mainOn = true ∧ (1 : Nat) < 2 ∧ (-21 : Int) < -20 ∧ up.umc.alarms.length ≤ 128 ∧
    ∃ t, exec .debugPort up = .next t := by
  refine ⟨by decide, by decide, by decide, by decide, by decide, _, rfl⟩

theorem witness_PowerController_restarts :
    (let s := upPwr { samples := List.replicate 100 5000, step := 4 }
     s.mainOn = true ∧ s.capStep ≤ s.pwr.step ∧ ¬(s.pwr.step < 4 ∧ (s.lim * 100 < s.powerSum 100 ∨ s.pwr.throttle = true)) ∧
       ¬(s.capStep < s.pwr.step ∧ s.pwr.throttle = false ∧
         s.powerSum 100 * stepFreq (s.pwr.step - 1) ≤ (s.lim - s.hyst) * 100 * stepFreq s.pwr.step)) := by
  decide +kernel

theorem witness_PowerController :
    (up.mainOn = true ∧ 3100 * 20 < ((3101 :: List.replicate 19 3100).take 20).foldl (· + ·) 0 ∧
      ((3100 :: List.replicate 19 3100).take 20).foldl (· + ·) 0 ≤ 3100 * 20) ∧
    (let s : State := (upPwr { step := 0 }).setReg .pwr 0 0x18 0x20000
     s.mainOn = true ∧ s.pwr.switching = none ∧ s.pwr.step < s.capStep) ∧
    (let s := upPwr { samples := List.replicate 100 5000 }
     s.mainOn = true ∧ s.pwr.switching = none ∧ s.capStep ≤ s.pwr.step ∧ s.pwr.step < 4 ∧ s.lim * 100 < s.powerSum 100) ∧
    (let s := upPwr { throttle := true }
     s.mainOn = true ∧ s.pwr.switching = none ∧ s.capStep ≤ s.pwr.step ∧ s.pwr.step < 4 ∧ s.powerSum 100 ≤ s.lim * 100 ∧
       s.pwr.throttle = true) ∧
    (let s := upPwr { step := 4 }
     s.mainOn = true ∧ s.pwr.switching = none ∧ s.capStep < s.pwr.step ∧ s.pwr.step ≤ 4 ∧ s.pwr.throttle = false ∧
       s.powerSum 100 ≤ s.lim * 100 ∧
       s.powerSum 100 * stepFreq (s.pwr.step - 1) ≤ (s.lim - s.hyst) * 100 * stepFreq s.pwr.step) ∧
    (let s := upPwr { switching := some (2, .limit, [0, 1]) }
     s.pwr.switching = some (2, .limit, [0, 1]) ∧ 3 ∉ [0, 1] ∧ s.pwr.droop = [] ∧ [0, 1].length < 3) ∧
    (let s := upPwr { switching := some (2, .limit, [0, 1, 2]) }
     s.pwr.switching = some (2, .limit, [0, 1, 2]) ∧ 3 ∉ [0, 1, 2] ∧ s.pwr.droop = [] ∧ [0, 1, 2].length = 3 ∧
       s.pwr.fastPending = false) ∧
    (upPwr { samples := List.replicate 1000 5000 }).overLimit = true ∧
    ((upPwr { dSlow := 7 }).pwr.dSlow < 8 ∧ (upPwr { dSlow := 7 }).underLimit = true ∧
      (upPwr { dSlow := 7 }).powerSum 20 ≤ 2900 * 20) := by
  decide +kernel

theorem witness_DroopTrimAgeTemperature :
    (up.umc.phase = .dies ∧ 15 < 16 ∧ 15 ∉ up.pwr.droop ∧ up.drooped (15 / 4) 500 = true ∧
      up.setPoint 3 ≤ 900 + up.field .pwr 0 0x1C 0 8) ∧
    (let s := upPwr { droop := [15] }
     15 ∈ s.pwr.droop ∧ s.field .pwr 0 0x1C 8 8 ≤ 255) ∧
    (let s := upPwr { trims := [(24, 0x80007000)] }
     (s.die 3).aged = false ∧ (s.die 3).forced = false ∧
       (bestTrim (s.covering 3 (max (s.die 3).peak (s.dieActivity 3)))).isSome = true) ∧
    (let s := upPwr { dies := [(3, { railMv := 700, cap := 4 })] }
     (s.die 3).railMv < s.untrimmed ∧ (s.die 3).forced = false ∧ (s.die 3).cap < 8) ∧
    ((upPwr { dies := [(3, { rising := true })] }).die 3).rising = true ∧
    (15 / 4 = 3 ∧ up.field .pwr 0 0x28 0 8 ≤ 255 ∧ (up.die 3).forced = false ∧ up.untrimmed ≤ (up.die 3).railMv ∧
      Bank.wf (fun _ => 0xFF) up.pwr.age = true) ∧
    (sensorOk (.die 0 0) = true ∧ up.pwr.throttle = false ∧ (up.setTemp (.die 0 0) 200).tooHot = true ∧
      (up.setTemp (.die 0 0) 30).tooHot = false) ∧
    (let s := upPwr { throttle := true }
     s.umc.phase = .dies ∧ s.pwr.throttle = true ∧ s.cool = true ∧ (s.setTemp (.die 0 0) 200).cool = false) ∧
    (let s := upPwr { switching := some (1, .up, []) }
     s.pwr.switching = some (1, .up, []) ∧ s.pwr.fastPending = false) ∧ up.hubUp = true := by
  decide +kernel

/-! ## Registers: witnesses -/

/-- Up, with stack 0 trained. -/
def trained : State := { up with tarns := [(0, { trained := true })] }

theorem witness_RegisterWriteStatus :
    (up.reaches .host = true ∧ 2 % 4 ≠ 0) ∧ (pageOf 0 = none) ∧
    (let a := regAddr .cut 0 0x10
     let s := onStandby
     s.reaches .urhild = true ∧ a % 4 = 0 ∧ pageOf a = some (.cut, 0, 0x10) ∧ s.hubUp = false) ∧
    (let a := regAddr .host 0 0x78
     pageOf a = some (.host, 0, 0x78) ∧ ((regDesc .host 0x78).any fun r => r.urhild) = true ∧ absent up.part .host 0 0x78 = false) ∧
    (let a := regAddr .fct 639 0x70
     a % 4 = 0 ∧ pageOf a = some (.fct, 639, 0x70) ∧ ((regDesc .fct 0x70).any fun r => !r.urhild && r.kind == .ro) = true ∧
       absent up.part .fct 639 0x70 = false) ∧
    (let a := regAddr .trn 0 0x30
     pageOf a = some (.trn, 0, 0x30) ∧ ((regDesc .trn 0x30).any fun r => !r.urhild && r.kind == .ro) = true ∧
       absent trained.part .trn 0 0x30 = false ∧ (trained.stack 0).trained = true) ∧
    (let s : State := { trained with sec := { cfgFormed := true } }
     let a := regAddr .trn 0 0x24
     pageOf a = some (.trn, 0, 0x24) ∧ ((regDesc .trn 0x24).any fun r => !r.urhild && r.kind == .rw && s.locked .trn 0 r) = true ∧
       (s.stack 0).trained = true ∧ absent s.part .trn 0 0x24 = false) ∧
    (let a := regAddr .serv 0 0x10
     pageOf a = some (.serv, 0, 0x10) ∧ absent up.part .serv 0 0x10 = false ∧
       ((regDesc .serv 0x10).any fun r => !r.urhild && r.kind == .rw && !up.locked .serv 0 r && !inRanges 0xFFF r.ranges) = true) := by
  decide +kernel

theorem witness_RegisterReadsAndWrites :
    (let a := regAddr .cut 159 0x10
     a % 4 = 0 ∧ pageOf a = some (.cut, 159, 0x10) ∧ ((regDesc .cut 0x10).any fun r => r.kind == .rw) = true ∧
       absent up.part .cut 159 0x10 = false ∧ up.reaches .host = true ∧ (up.writeReg .host a 5).2 = .ok) ∧
    (159 < instances .cut ∧ ((regDesc .cut (evReg .cut)).any fun r => r.kind == .w1c) = true ∧
      absent up.part .cut 159 (evReg .cut) = false ∧ up.hubUp = true ∧ up.canonical = true) := by
  decide +kernel

theorem witness_HostRegistersAndReads :
    (up.hubUp = true ∧ up.reaches .urhild = true ∧ ∃ o, pairLo .inl = some o) ∧
    (let s : State := { up with host := { macLo := some 1 } }
     s.newMac 0 ≠ 0 ∧ (s.newMac 0).getLsbD 40 = false) ∧ up.newMac 0 = 0 ∧
    (bits (0x00FFE000 : Word) 12 12 = 0xFFE ∧ bit (0x00FFE000 : Word) 30 = up.ctrlBit 30) ∧
    (let s : State := { up with host := { link := true } }
     s.host.link = true ∧ bit (0x40001000 : Word) 30 ≠ s.ctrlBit 30 ∧ bits (0x40001000 : Word) 12 12 = 1) ∧
    (up.umc.standby = true ∧ (up.writeReg .urhild (regAddr .host 0 0x78) 0).2 = .ok) := by
  refine ⟨⟨by decide, by decide, _, rfl⟩, ?_⟩
  decide +kernel

theorem witness_RingStepServingRegisters :
    (up.hubUp = true ∧ up.prog = none ∧ up.log.set = false ∧ up.log.boot = [] ∧ up.log.held = []) ∧
    ((up.reg .policy 0 0x4C - 0).toNat ≤ up.logSize ∧ (up.reg .inl 0 0x4C - 0).toNat ≤ 2 ^ up.field .inl 0 0x48 0 5 ∧
      up.dom.ratioHeld = [] ∧ (up.reg .serv 0 0x2C - 0).toNat ≤ up.prvSize ∧
      up.reg .serv 0 0x30 = 0 ∧
      ((up.setReg .serv 0 0x2C 1).reg .serv 0 0x2C - 1).toNat ≤ up.prvSize ∧ (1 : Word) ≠ (up.setReg .serv 0 0x2C 1).reg .serv 0 0x30) ∧
    (up.logSize < (up.reg .policy 0 0x4C - 1).toNat ∧ 2 ^ up.field .inl 0 0x48 0 5 < (up.reg .inl 0 0x4C - 1).toNat ∧
      up.prvSize < (up.reg .serv 0 0x2C - 1).toNat) ∧
    (let s : State := { up with cp := .ready }
     s.slotLatched 1 = false ∧ bits (0x800 : Word) 0 12 = 0x800) ∧
    (let s : State := { up with inl := { latched := some 1 } }
     s.slotLatched 1 = true) := by
  decide +kernel

theorem witness_FacetRegistersAndPilot :
    (up.hubUp = true ∧ up.sec.cfgFormed = false ∧ absent up.part .fct 639 0x20 = false ∧ (up.facet 639).pilot = none) ∧
    absent up.part .fct 639 0x30 = false ∧ absent up.part .fct 639 0x40 = false ∧ up.usable 639 = false ∧ bit (1 : Word) 0 = true ∧
    (let s := up.setFacet 639 { pilot := some (0x7F7F, [0, 0, 0, 0, 0], false) }
     (s.facet 639).pilot = some (0x7F7F, [0, 0, 0, 0, 0], false) ∧ mapValid 0x7F7F = true ∧
       misaligned 0x7F7F [0, 0, 0, 0, 0] = []) ∧
    (absent up.part .fct 0 0 = false ∧ up.passHolds 0 = false) ∧
    (let s := up.setReg .fct 0 0x44 0xC07F0000
     s.passHolds 0 = true) := by
  decide +kernel

theorem witness_TarnLinkPowerRegisters :
    (trained.hubUp = true ∧ trained.sec.cfgFormed = false ∧ (trained.stack 0).trained = true ∧
      absent trained.part .trn 0 0x24 = false ∧ trained.canonical = true) ∧
    (trained.umc.standby = true ∧ (trained.writeReg .urhild (regAddr .trn 0 0x5C) 1).2 = .ok ∧
      absent trained.part .trn 0 0x5C = false) ∧
    (absent up.part .cePort 11 0x14 = false ∧ (∀ l ∈ up.fab.links, l.port = 11 → l.up = false) ∧ up.prog = none ∧ up.canonical = true ∧
      (up.port 11).ctl = []) ∧
    (up.reaches .host = true ∧ bits (0x4000A : Word) 16 3 = 4 ∧ 0xA ≤ bits (0x4000A : Word) 0 8 ∧ up.canonical = true ∧
      up.pwr.step < 4 ∧ up.pwr.switching = none ∧ bits (0x0000A : Word) 16 3 ≤ up.pwr.step) ∧
    (up.writeReg .host (regAddr .pwr 0 0x34) 0x1014).2 = .ok ∧
    (bits (0x003C0000 : Word) 16 6 = 0x3C ∧ ∀ d, d < 4 → (up.die d).forced = false) := by
  decide +kernel

/-! ## Frames and commands: witnesses -/

theorem witness_ManagementAndSmbus :
    (ready (withCmd up 16 0x0602 (z 4)) 16 0x0602 (z 4) = true ∧ leAt 2 2 (z 4) = 0) ∧
    (ready (withCmd up 16 0x0603 (z 4)) 16 0x0603 (z 4) = true ∧ leAt 1 3 (z 4) = 0) ∧
    (ready (withCmd up 16 0x0604 (z 8)) 16 0x0604 (z 8) = true ∧ leAt 6 2 (z 8) = 0) ∧
    (ready (withCmd up 16 0x0602 [0, 0, 0, 1]) 16 0x0602 [0, 0, 0, 1] = true ∧ leAt 2 2 [0, 0, 0, 1] ≠ 0) ∧
    (ready (withCmd up 16 0x0603 [0, 0, 0, 1]) 16 0x0603 [0, 0, 0, 1] = true ∧ leAt 1 3 [0, 0, 0, 1] ≠ 0) ∧
    (ready (withCmd up 16 0x0604 (z 7 ++ [1])) 16 0x0604 (z 7 ++ [1]) = true ∧ leAt 6 2 (z 7 ++ [1]) ≠ 0) ∧
    (let mine (s : State) (f : SmbFrame) : Bool := decide (f.slave = 0x68 + (if s.umc.siteB then 1 else 0) ∧ f.pecOk = true ∧ s.umc.standby = true)
     let a := regAddr .cut 0 0x10
     let s : State := { up with umc := { up.umc with smbAddr := a } }
     mine up ⟨0x68, true⟩ = true ∧ mine onStandby ⟨0x68, true⟩ = true ∧ (0x69 : Nat) ≠ 0x68 + (if up.umc.siteB then 1 else 0) ∧
       mine { up with umc := { up.umc with siteB := true } } ⟨0x69, true⟩ = true ∧ (z 6).length = 6 ∧ (z 4).length = 4 ∧
       mine s ⟨0x68, true⟩ = true ∧ a % 4 = 0 ∧ pageOf a = some (.cut, 0, 0x10) ∧ ((regDesc .cut 0x10).any fun r => r.kind == .rw) = true ∧
       absent s.part .cut 0 0x10 = false ∧ (s.writeReg .urhild a 0).2 = .ok ∧ s.canonical = true ∧
       up.mainOn = true ∧ onStandby.mainOn = false ∧ onStandby.umc.tamper = false ∧ onStandby.umc.precharged = true ∧
       48000 ≤ onStandby.umc.inputMv ∧ onStandby.umc.inputMv ≤ 54000 ∧ 3 < (4 : Byte).toNat) := by
  decide +kernel

/-- The host port up, with its egress list open to the MAC address 0 and PTP on. -/
def portUp' : State :=
  ({ up with host := { link := true, egress := [(0, ⟨[0, 0, 0, 0], 0, 0x80000000⟩)] } }.setReg .host 0 0x10 0x82001000).setReg
    .host 0 0x50 0x80000000

def frame (b : EthBody) : EthFrame := ⟨true, 0, 0, false, none, false, b, 64⟩

/-- A datagram for a port of a module whose MAC address is `m`. -/
def dgram (m : Mac) (p : Nat) (l : List Byte) : EthFrame :=
  { frame (.udp (.v4 0) (.v6 (linkLocal m)) 0 p true false false l) with dstMac := m }

/-- A sound command packet: version 1, opcode 1, SEQ `n`, no payload. -/
def wire (version seq : Byte) : List Byte :=
  let h : List Byte := [0x5A, 0x54, 0x43, 0x50, version, 0, 0, 1, 0, 0, 0, 0, 0, 0, 0, 0, 0, 0, 0, seq] ++ z 8
  h ++ beBytes 4 (crc32c h).toNat

theorem witness_ManagementPortAndHostFrames :
    (onStandby.mgmtAccepts (frame .other) = false) ∧
    (let s := onStandby.setReg .umc 0 0x20 5
     s.umc.standby = true ∧ s.mgmtAccepts { frame (.arpRequest 5) with group := true } = true ∧
       s.mgmtAccepts { frame (.neighborSolicitation (linkLocal s.mgmtMac) false false) with group := true } = true ∧
       s.mgmtAccepts (frame (.echoRequest (.v4 0) (.v4 5) false false [])) = true) ∧
    (let m := onStandby.mgmtMac
     onStandby.mgmtAccepts (dgram m 0x5A55 []) = true ∧ headerFault [] ≠ none ∧
       onStandby.mgmtAccepts (dgram m 0x5A55 (wire 2 0)) = true ∧ headerFault (wire 2 0) = none ∧
       (frameFault (wire 2 0) true).isSome = true ∧
       frameFault (wire 1 0) true = none ∧ knownOpcode 16 (parsePacket (wire 1 0) ⟨0, .v4 0, 0, .v4 0, none⟩).opcode = true ∧
       (parsePacket (wire 1 0) ⟨0, .v4 0, 0, .v4 0, none⟩).sync = false ∧
       BitVec.ofNat 32 (parsePacket (wire 1 0) ⟨0, .v4 0, 0, .v4 0, none⟩).seq = (onStandby.queue 16).next) ∧
    (let s := portUp'
     s.hostPortUp = true ∧ s.nonReplies < s.field .host 0 0x80 0 16 ∧
       s.hostAccepts { frame (.arpRequest s.hostIp4) with group := true } = true ∧
       s.hostAccepts { frame (.neighborSolicitation (linkLocal s.host.mac) false false) with group := true } = true ∧
       s.hostAccepts (frame (.echoRequest (.v4 0) (.v6 (linkLocal s.host.mac)) false false [])) = true ∧
       s.egressOk 0 (some (.v4 0, none)) = true ∧ s.egressOk 1 (some (.v4 0, none)) = false ∧
       s.hostAccepts (frame .other) = false ∧ s.hostAccepts { frame (.arpRequest s.hostIp4) with fcsOk := false } = false ∧
       s.ctrlBit 31 = true) ∧
    (let s := portUp'.setReg .host 0 0x80 0
     s.hostPortUp = true ∧ s.hostAccepts { frame (.arpRequest s.hostIp4) with group := true } = true ∧
       s.field .host 0 0x80 0 16 ≤ s.nonReplies) ∧
    (up.host.link = !true) := by
  decide +kernel

theorem witness_PrecisionTime :
    let ds : PtpDataset := ⟨0, 0, 0, 0, 0, 7, 0⟩
    let s : State := { portUp' with host := { portUp'.host with
      master := some ds, syncOrigin := some 1, syncSeq := some 3, syncRx := 6, synced := true } }
    (portUp'.hostPortUp = true ∧ portUp'.host.master = none ∧
      portUp'.hostAccepts (frame (.ptp .udp4 0 true false false (.announce ds))) = true) ∧
    (s.hostAccepts (frame (.ptp .udp4 0 true false false (.sync ds.identity 3 5 6 true))) = true ∧ s.host.master = some ds ∧
      s.hostAccepts (frame (.ptp .udp4 0 true false false (.delayResp ds.identity 0 true 9))) = true ∧ s.host.syncOrigin = some 1 ∧
      s.hostAccepts (frame (.ptp .udp4 0 true false false (.sync ds.identity 3 5 6 false))) = true ∧
      s.hostAccepts (frame (.ptp .udp4 0 true false false (.followUp ds.identity 3 5))) = true ∧ s.host.syncSeq = some 3 ∧
      s.host.syncRx = 6 ∧ s.host.syncSeq ≠ some 4 ∧ s.host.delaySeq = 0 ∧ (5 : Nat) ≠ s.host.delaySeq) ∧
    (s.hubUp = true ∧ s.host.synced = true) := by
  decide +kernel

/-- A datagram that a sound sender sends to this port is heard as a packet of queue 0. -/
theorem hears_wire (s : State) (seq : Byte) (h : (s.hostPortUp && s.hostAccepts (dgram s.host.mac s.udpPort (wire 1 seq)) &&
    decide (headerFault (wire 1 seq) = none) && s.egressOk 0 (some (.v4 0, some 0)) &&
    decide (frameFault (wire 1 seq) (s.cp == .boot) = none) &&
    decide ((parsePacket (wire 1 seq) ⟨0, .v4 0, 0, .v6 (linkLocal s.host.mac), none⟩).queue < 16)) = true) :
    s.hears (dgram s.host.mac s.udpPort (wire 1 seq)) (parsePacket (wire 1 seq) ⟨0, .v4 0, 0, .v6 (linkLocal s.host.mac), none⟩) := by
  simp only [Bool.and_eq_true, decide_eq_true_eq] at h
  exact ⟨.v4 0, .v6 (linkLocal s.host.mac), 0, s.udpPort, true, false, false, wire 1 seq, rfl, h.1.1.1.1.1, h.1.1.1.1.2, h.1.1.1.2,
    h.1.1.2, h.1.2, rfl, h.2⟩

theorem witness_CommandPackets :
    (portUp'.hostAccepts (dgram 0 portUp'.udpPort []) = true ∧ (headerFault []).isSome = true ∧
      portUp'.hostAccepts (dgram 0 portUp'.udpPort (wire 1 0)) = true ∧ headerFault (wire 1 0) = none ∧
      portUp'.egressOk 1 (some (.v4 0, some 0)) = false ∧ (frameFault (wire 2 0) true).isSome = true) ∧
    (portUp'.hears (dgram portUp'.host.mac portUp'.udpPort (wire 1 0))
      (parsePacket (wire 1 0) ⟨0, .v4 0, 0, .v6 (linkLocal portUp'.host.mac), none⟩)) ∧
    (portUp'.canonical = true ∧ (portUp'.queue 0).syncWait = none ∧ (portUp'.queue 0).held = [] ∧ portUp'.rb .host = 1 ∧
      knownOpcode 0 1 = true ∧ (portUp'.queue 0).cache = []) ∧
    (let s : State := { up with queues := [(0, { busy := some (pkt 1 []) })] }
     (s.queue (queueIdx .host 0)).running ≠ 0) ∧
    (let s : State := { up with queues := [(15, { syncWait := some (pkt 1 []) })] }
     (s.queue 15).syncWait = some (pkt 1 []) ∧ (s.queue 15).running = 0 ∧ (s.queue 15).apart = [] ∧ knownOpcode 15 1 = true ∧
       s.canonical = true) := by
  refine ⟨by decide +kernel, hears_wire _ _ (by decide +kernel), by decide +kernel, by decide +kernel, by decide +kernel⟩

theorem witness_OpcodeChecks :
    (withCmd up 15 0x0003 []).front 15 0x0003 = some (pkt 0x0003 [], []) ∧ content (pkt 0x0003 []) = some [] ∧
    content { pkt 0x0003 [] with pcrc := true } = none ∧ (z 1).length ≠ 0 ∧ CpState.boot ∉ [CpState.ready, CpState.loaded] ∧
    (up.front 15 1 = none ∧ up.front 15 5 = none ∧ up.front 15 0x0202 = none ∧ up.front 15 0x0211 = none) := by
  decide +kernel

/-- A state of CPSTATE `c`. -/
def inCp (c : CpState) : State := { up with cp := c }

theorem witness_QueryAndRegisterCommands :
    ready (withCmd up 16 0x0001 []) (queueIdx .mgmt 0) 0x0001 [] = true ∧
    ready (withCmd up 15 0x0002 []) (queueIdx .host 15) 0x0002 [] = true ∧
    ready (withCmd (inCp .loaded) 15 0x0003 []) 15 0x0003 [] = true ∧ ready (withCmd up 15 0x0004 []) 15 0x0004 [] = true ∧
    (ready (withCmd up 15 0x0005 []) 15 0x0005 [] = true ∧ ((withCmd up 15 0x0005 []).queue 15).issued = [] ∧
      (withCmd up 15 0x0005 []).canonical = true) ∧
    (let s : State := { up with queues := [(15, { accepted := [pkt 5 []], issued := [pkt 0x0210 []] })] }
     ready s 15 0x0005 [] = true ∧ (s.queue 15).issued ≠ [] ∧ s.canonical = true) ∧
    (let s : State := { up with queues := [(15, { busy := some (pkt 5 []) })] }
     (s.queue 15).issued = [] ∧ (s.queue 15).busy = some (pkt 5 []) ∧ (pkt 5 []).opcode = 0x0005) ∧
    (ready (withCmd up 15 0x0201 (z 8)) 15 0x0201 (z 8) = true ∧ 8 ≤ (z 8).length) ∧
    (ready (withCmd up 15 0x0202 (z 12)) 15 0x0202 (z 12) = true ∧ leAt 6 2 (z 12) = 0) := by
  decide +kernel


/-- R385: a reply to a request sent to an address that a write has moved since leaves from the new one; frames outside 64 to 9,022 bytes
are not accepted (R358). -/
theorem test_reply_addresses :
    (let s := ((up.setReg .host 0 0x10 0x82001000).setReg .host 0 0x20 5)
     (s.replyVia ⟨1, .v4 9, 7, .v4 4, none⟩).2 = .v4 5 ∧ (s.replyVia ⟨1, .v4 9, 7, .v4 5, none⟩).2 = .v4 5 ∧
       s.hostAccepts (frame (.echoRequest (.v4 9) (.v4 5) false false [])) = true ∧
       s.hostAccepts { frame (.echoRequest (.v4 9) (.v4 5) false false []) with len := 63 } = false ∧
       s.hostAccepts { frame (.echoRequest (.v4 9) (.v4 5) false false []) with len := 9023 } = false) := by decide +kernel

/-! ## Firmware, memory and programs: witnesses -/

/-- An image of 17,216 bytes whose body is 64 zero bytes. -/
def goodImage : Bank Byte :=
  Bank.putRange imageDefault (Bank.putRange imageDefault [] 0 [0x5A, 0x54, 0x46, 0x57, 1, 0, 0, 0, 64]) 16 (digestBytes (sha384 (z 64)))

def inBoot (b : Bank Byte) : State := { inCp .boot with sec := { image := b } }

/-- In BOOT with that image, on a part whose slot 0 has the hashes of the image's keys. -/
def signed : State :=
  { inBoot goodImage with part := { (inBoot goodImage).part with vendorKeys := [(sha384 (z 384), sha384 (z 48))] } }

theorem witness_FirmwareConfigurationAttestation :
    (ready (withCmd (inBoot []) 15 0x0101 (z 5)) 15 0x0101 (z 5) = true ∧ (inBoot []).cp = .boot ∧ 5 ≤ (z 5).length ∧
      leAt 0 4 (z 5) + ((z 5).length - 4) ≤ 0x400000) ∧
    (let l : List Byte := [0x40, 0x43, 0, 0]
     ready (withCmd (inBoot goodImage) 15 0x0102 l) 15 0x0102 l = true ∧ l.length = 4 ∧
       signed.startFault (leAt 0 4 l) true true = none ∧ ready (withCmd (inBoot []) 15 0x0102 l) 15 0x0102 l = true ∧
       (inBoot []).startFault (leAt 0 4 l) (inBoot []).rsaVerdict (inBoot []).slhVerdict = some (stBadField, 0)) ∧
    (ready (withCmd (inCp .config) 15 0x0103 []) 15 0x0103 [] = true) ∧
    (ready (withCmd (inCp .loaded) 15 0x0104 (z 48)) 15 0x0104 (z 48) = true ∧ (z 48).length = 48 ∧
      { (inCp .loaded) with sec := { keys := .ready } }.canSign = true ∧ (inCp .loaded).canSign = false) := by
  refine ⟨by decide +kernel, ⟨by decide +kernel, by decide +kernel, by decide +kernel, by decide +kernel, ?_⟩, by decide +kernel,
    by decide +kernel⟩
  have h : (inBoot []).imageFault (leAt 0 4 [0x40, 0x43, 0, 0]) = some (stBadField, 0) := by decide +kernel
  unfold State.startFault
  rw [h]

/-- Up, with the first 16 MiB of stack 0 a host page window. -/
def windowed : State := up.setReg .trn 0 0x44 8

/-- A stack whose line 1 cannot be corrected. -/
def poisoned : State := { windowed with tarns := [(0, { poison := [1] })] }

/-- ADDR `a` and LEN `n`, each of 8 bytes. -/
def addrLen (a n : Nat) : List Byte := leBytes 8 a ++ leBytes 8 n

/-- CPSTATE LOADED with program `g`. -/
def loadedWith (g : Program) : State := { windowed with cp := .loaded, prog := some g }

/-- A training program with one versioned region of 64 KiB at 1 GiB. -/
def plain : Program := { (default : Program) with regions := [⟨0x40000000, 0x10000, true, .param⟩] }

/-- A RESTORE of `n` pages from the window into that region. -/
def restoreOf (n : Nat) : List Byte := leBytes 8 0x40000000 ++ leBytes 8 4096 ++ leBytes 4 n ++ z 4

theorem witness_MemoryAndRestoreCommands :
    (let l := addrLen 64 64
     let m := addrLen (2 ^ 45) 64
     ready (withCmd windowed 15 0x0210 l) 15 0x0210 l = true ∧ 0 < leAt 8 4 l ∧ leAt 8 4 l ≤ memMax (pkt 0x0210 l) ∧ leAt 12 4 l = 0 ∧
       windowed.rangeStatus false 64 64 = stOk ∧ windowed.firstBad 64 64 = none ∧
       ready (withCmd windowed 15 0x0210 m) 15 0x0210 m = true ∧ windowed.rangeStatus false (2 ^ 45) 64 ≠ stOk) ∧
    (let l := leBytes 8 64 ++ z 60
     ready (withCmd windowed 15 0x0211 l) 15 0x0211 l = true ∧ windowed.rangeStatus true 64 60 = stOk ∧
       partialLines 64 60 = [0] ∧ windowed.lineBad 64 = false ∧ windowed.rangeStatus true (2 ^ 45) 60 ≠ stOk) ∧
    (let l := addrLen 64 128 ++ z 8
     ready (withCmd windowed 15 0x0212 l) 15 0x0212 l = true ∧ l.length = 24 ∧ windowed.rangeStatus true 64 128 = stOk) ∧
    (let l := addrLen 64 128
     ready (withCmd windowed 15 0x0213 l) 15 0x0213 l = true ∧ windowed.firstBad 64 128 = none) ∧
    (let s : State := { windowed with bulk := [⟨15, pkt 0x0210 [], stOk, 0, []⟩], queues := [(15, { issued := [pkt 0x0210 []] })] }
     (pkt 0x0210 []).opcode ≠ 0x0307 ∧ pkt 0x0210 [] ∈ (s.queue 15).issued) ∧
    (let s := loadedWith plain
     ready (withCmd s 15 0x0307 (restoreOf 0)) 15 0x0307 (restoreOf 0) = true ∧ s.step.att = none ∧ s.step.committing = false ∧ s.hasDown 4 = false ∧
       s.step.ra = none ∧ leAt 20 4 (restoreOf 0) = 0 ∧ s.restoreField 0x40000000 4096 0 = none ∧ leAt 16 4 (restoreOf 1) = 1 ∧
       s.restoreField 0x40000000 4096 1 = none ∧ s.firstBad 4096 4096 = none ∧ s.ckptSend (stackOf 0x40000000) = false) ∧
    (let j : BulkJob := ⟨15, pkt 0x0307 [], stOk, 0, []⟩
     j.packet.opcode = 0x0307 ∧ j.code = stOk ∧ up.dom.rankValid = false) := by
  decide +kernel

theorem witness_BulkWritesStoreWhereTheySay :
    (let l := leBytes 8 64 ++ z 64
     let s := withCmd windowed 15 0x0211 l
     s.canonical = true ∧ ready s 15 0x0211 l = true ∧ 9 ≤ l.length ∧ l.length ≤ 8160 ∧
       (s.take 15 []).rangeStatus true 64 64 = stOk ∧ partialLines 64 64 = [] ∧ (l.drop 8)[63]? = some 0 ∧
       ({ s with tarns := [(0, { trained := true })] }.stack (stackOf 127)).trained = true) ∧
    (let l := addrLen 64 128 ++ z 8
     let s := withCmd windowed 15 0x0212 l
     s.canonical = true ∧ ready s 15 0x0212 l = true ∧ l.length = 24 ∧ (s.take 15 []).rangeStatus true 64 128 = stOk) := by
  decide +kernel

/-- A program with its digest fields in place. -/
def sealed' (g : Program) : Program :=
  { g with programDigest := Config.programDigest (Program.bare g), numericsDigest := Config.numericsDigest (Program.numerics g) (numericsValues g) }

/-- A serving program with no operation. -/
def serving : Program :=
  { (default : Program) with
      serving := true, shards := 1, config := [⟨14, 0x10, [0x1FFFFF]⟩], regions := [⟨0x40000000, 0x10000, false, .data⟩]
      serv := some { (default : ServInfo) with inf := 2, ctxAddr := 0x40000000, rulesOk := true } }

/-- The payload of a PROG_LOAD of `g`. -/
def loadOf (g : Program) : List Byte := leBytes 8 0 ++ leBytes 8 64 ++ digestBytes g.programDigest

/-- The event ring at 4 KiB. -/
def withRing : State := { (windowed.setReg .policy 0 0x40 4096) with cp := .ready, log := { set := true } }

theorem leBytes_length (n v : Nat) : (leBytes n v).length = n := by
  induction n generalizing v with
  | zero => rfl
  | succ n ih => simp [leBytes, ih]

theorem load_payload (g : Program) : (loadOf g).length = 64 ∧ slice 16 48 (loadOf g) = digestBytes g.programDigest := by
  have h : (digestBytes g.programDigest).length = 48 := by simp [digestBytes, beBytes, leBytes_length]
  constructor
  · simp [loadOf, leBytes_length, h]
  · have e : loadOf g = (leBytes 8 0 ++ leBytes 8 64) ++ digestBytes g.programDigest := rfl
    rw [e, slice, List.drop_append_of_le_length (by simp [leBytes_length]), List.drop_eq_nil_of_le (by simp [leBytes_length])]
    simpa using List.take_of_length_le (Nat.le_of_eq h)

theorem fronts_load (s : State) (g : Program) (h : s.cp ≠ .faulted) :
    (withCmd s 15 0x0301 (loadOf g)).fronts 15 0x0301 (pkt 0x0301 (loadOf g)) [] (loadOf g) := ⟨rfl, rfl, fun _ k => absurd k h⟩

theorem digestFault_sealed (g : Program) : digestFault (sealed' g) (digestBytes (sealed' g).programDigest) = none := by
  have a : Program.bare (sealed' g) = Program.bare g := rfl
  have n : Program.numerics (sealed' g) = Program.numerics g := rfl
  have b : numericsValues (sealed' g) = numericsValues g := rfl
  unfold digestFault
  rw [a, n, b, if_neg (by simp [sealed']), if_neg (by simp [sealed'])]

theorem loadFault_sealed (s : State) (g : Program) :
    s.loadFault (sealed' g) (digestBytes (sealed' g).programDigest) =
      match featureFault s.part (sealed' g) with
      | some x => some x
      | none => s.tableFault (sealed' g) := by
  unfold State.loadFault
  rw [digestFault_sealed]
  all_goals rfl

theorem witness_ProgramLoadAndUnload :
    (let s := withRing
     s.cp = .ready ∧ s.inOneWindow 0 64 = true ∧ s.firstBad 0 64 = none ∧ s.twin.mode ≠ 2 ∧ s.binding (sealed' serving) = some [] ∧
       s.loadFault (sealed' serving) (digestBytes (sealed' serving).programDigest) = none ∧
       (withCmd s 15 0x0301 (loadOf (sealed' serving))).fronts 15 0x0301 (pkt 0x0301 (loadOf (sealed' serving))) []
         (loadOf (sealed' serving))) ∧
    ((inCp .ready).inOneWindow 0 64 = false ∧ ready (withCmd withRing 15 0x0301 (z 64)) 15 0x0301 (z 64) = true ∧ leAt 8 8 (z 64) = 0) ∧
    ({ withRing with log := {} }.loadFault (sealed' serving) (digestBytes (sealed' serving).programDigest) = some (stLoadRefused, 0xFFFC)) ∧
    (let s := loadedWith plain
     ready (withCmd s 15 0x0302 []) 15 0x0302 [] = true ∧ s.step.halted = none ∧ s.step.att = none ∧ s.step.committing = false ∧
       s.serv.model = none) ∧
    (let s : State := { loadedWith plain with queues := [(15, { busy := some (pkt 0x0302 []) })] }
     s.busyWith 0x0302 ≠ none ∧ s.quiet = true ∧ s.bulk = [] ∧ s.tarns = [] ∧ (∀ i, i < 8 → s.epochRuns i = false) ∧ s.cp = .loaded) := by
  refine ⟨⟨by decide +kernel, by decide +kernel, by decide +kernel, by decide +kernel, by decide +kernel, ?_, ?_⟩, by decide +kernel, ?_,
    by decide +kernel, by decide +kernel⟩
  · rw [loadFault_sealed]; decide +kernel
  · exact fronts_load withRing _ (by decide +kernel)
  · rw [loadFault_sealed]; decide +kernel

/-- The wellhead of a domain of one module, with its program loaded. -/
def wellhead (g : Program) : State :=
  { loadedWith g with dom := { size := 1, wgen := 1, rankValid := true, ranks := [(0, ⟨1, 5, 0⟩)] } }

theorem witness_DomainRunCommands :
    (let s := wellhead plain
     s.prog = some plain ∧ plain.serving = false ∧ s.isWellhead = true ∧ s.step.halted = none ∧ s.allLoaded = true ∧ s.stepOpen = false ∧
       ready (withCmd s 15 0x0303 (z 4)) 15 0x0303 (z 4) = true ∧ ready (withCmd s 15 0x0304 []) 15 0x0304 [] = true ∧
       ready (withCmd s 15 0x0305 []) 15 0x0305 [] = true ∧ ready (withCmd s 15 0x0306 []) 15 0x0306 [] = true) ∧
    (let s : State := { wellhead plain with step := { halted := some 1 } }
     s.step.halted ≠ none ∧ s.dom.halting = [] ∧ s.step.exhausted = false ∧ s.allJoined = true) ∧
    (let s : State := { wellhead plain with step := { committing := true } }
     s.step.halted = none ∧ s.stepOpen = true) ∧
    ((loadedWith plain).isWellhead = false) := by
  decide +kernel

/-! ## The twin, the domain, serving and strands: witnesses -/

/-- Stack 0 is trained and holds these bytes at `a`. -/
def storing (s : State) (a : Nat) (l : List Byte) : State := ({ s with tarns := [(0, { trained := true })] } : State).putBytes a l

/-- An AR collective of one F32 element on engine 0. -/
def arOf (op : CollOp) : CollDesc := { (default : CollDesc) with op := op, fmt := .f32, elems := 1, strand := 9 }

/-- An attempt of step 1. -/
def att0 : Attempt := { step := 1, number := 0, base := 0, lr := some 0, wide := false, rerun := false, skip := false }

/-- A strand of phase 0 that depends on `deps`. -/
def strandOf (id : Nat) (k : StrandKind) (deps : List Nat := []) : Strand := { id := id, phase := 0, kind := k, deps := deps, seg := none, rung := none, wide := none }

/-- A program of these strands. -/
def progOf (ts : List Strand) : Program := { plain with strands := ts }

/-- An attempt is open on the wellhead. -/
def opened (g : Program) (a : Attempt) : State := { wellhead g with step := { att := some a } }

/-- A launch of step 1, attempt 0, one module of one leaf. -/
def launchOf (step : Nat) : List Byte := z 64 ++ leBytes 4 step ++ [0, 0, 1, 0] ++ z 8 ++ leBytes 4 1 ++ z 20

/-- A link that is up, to the twin. -/
def twinLinkUp : Link := { port := 0, mac := 2, twin := true, up := true }

theorem witness_TwinDomainAndHostedLaunch :
    (ready (withCmd (inCp .config) 15 0x0401 (z 4)) 15 0x0401 (z 4) = true ∧ leAt 0 1 (z 4) ≤ 2 ∧ leAt 1 3 (z 4) = 0 ∧
      (inCp .config).fab.links = [] ∧ (inCp .config).twin.hello = none) ∧
    (let l := z 6 ++ leBytes 2 1 ++ z 4
     ready (withCmd (inCp .ready) 15 0x0402 l) 15 0x0402 l = true ∧ leAt 0 4 l = (inCp .ready).ceDomain ∧ leAt 8 1 l ≤ 1 ∧
       leAt 9 3 l = 0 ∧ (inCp .ready).dom.rankValid = false ∧ leAt 4 2 l < leAt 6 2 l ∧ leAt 6 2 l ≤ (inCp .ready).domainMax) ∧
    (let s := withCmd (inCp .ready) 15 0x0403 (z 8)
     ready s 15 0x0403 (z 8) = true ∧ leAt 4 2 (z 8) ≤ 1023 ∧ leAt 6 2 (z 8) ≤ 1023 ∧ s.canonical = true) ∧
    (let s : State := (((loadedWith plain).setReg .trn 0 0x60 0x40000000).setReg .trn 0 0x7C 0)
     let s : State := { s with fab := { links := [twinLinkUp] } }
     let l := [1] ++ z 7
     ready (withCmd s 15 0x0404 (z 8)) 15 0x0404 (z 8) = true ∧ s.quiet = true ∧ s.partnerPresent = true ∧ s.twin.sending = none ∧
       ready (withCmd s 15 0x0404 l) 15 0x0404 l = true ∧ leAt 0 1 l = 1 ∧ leAt 1 3 l = 0 ∧
       (∀ i, i < 8 → (leAt 0 1 l).testBit i = true →
         (((storing s 0 (z 8)).take 15 []).heldEpoch i) = some (leAt 4 4 l))) ∧
    (let s := opened (progOf [strandOf 1 (.hosted (arOf .ar))]) att0
     ready (withCmd s 15 0x0410 (launchOf 1)) 15 0x0410 (launchOf 1) = true ∧ (launchOf 1).length = 104 ∧
       (parseLaunch (launchOf 1)).badField = none ∧ s.launchFault (parseLaunch (launchOf 1)) (arOf .ar) = none ∧
       (s.hostedColl (parseLaunch (launchOf 1)) (arOf .ar) 15 (pkt 0x0410 (launchOf 1))).isSome = true ∧
       ready (withCmd s 15 0x0410 (launchOf 2)) 15 0x0410 (launchOf 2) = true ∧ s.launchFault (parseLaunch (launchOf 2)) (arOf .ar) = some 0) := by
  decide +kernel

/-- What the serving program of the tests declares. -/
def info1 : ServInfo := { (default : ServInfo) with inf := 2, ctxMax := 4, rulesOk := true }

/-- The serving program is loaded; with a model, or not. -/
def servingWith (v : Serv) : State := { loadedWith { serving with serv := some info1 } with serv := v }

def calib0 : Calib := { (default : Calib) with scores := 1 }

def model0 : Model := ⟨0, [], calib0⟩

/-- A program with one weight tensor, and a calibration block that has its F16 copy written over the middle of line 1. -/
def info2 : ServInfo := { info1 with params := [(5, 1, 1)] }

def calib1 : Calib :=
  { calib0 with weights := [{ (default : WeightCopy) with tensor := 5, copy := { (default : CopyDesc) with en := true, fmt := .f16, codes := 66 } }] }

def req0 : Request := ⟨15, pkt 0x0503 (z 18), 3, 1, 0, z 4, 0⟩

theorem witness_ServingCommands :
    (let s := servingWith {}
     let l := z 16 ++ digestBytes (sha384 [])
     ready (withCmd s 15 0x0501 l) 15 0x0501 l = true ∧ l.length = 64 + 16 * leAt 12 4 l ∧ 64 ≤ l.length ∧
       modelLoadFault s.servInfo 0 0 0 [] = none ∧ s.ringIn .serv 0x20 (256 * s.prvSize) = true ∧
       modelRanges s.servInfo 0 0 [] = [(0, 0)] ∧ (s.bulkReadAll [(0, 0)] []).2.toOption = some [] ∧
       digestBytes (sha384 []) = slice 16 48 l ∧ calibFault { serving with serv := some info1 } default = some 0 ∧
       calibFault { serving with serv := some info1 } calib0 = none ∧ (State.narrowWeights s.servInfo [] calib0.weights s).2 = none) ∧
    (let g := { serving with serv := some info2 }
     let s : State := { loadedWith g with tarns := [(0, { trained := true, poison := [1] })] }
     let l := z 12 ++ leBytes 4 1 ++ digestBytes (sha384 (z 2)) ++ leBytes 4 5 ++ z 4 ++ leBytes 8 128
     let es := modelEntries 1 l
     ready (withCmd s 15 0x0501 l) 15 0x0501 l = true ∧ l.length = 64 + 16 * leAt 12 4 l ∧ modelLoadFault s.servInfo 0 0 1 es = none ∧
       s.ringIn .serv 0x20 (256 * s.prvSize) = true ∧ (s.bulkReadAll (modelRanges s.servInfo 0 0 es) []).2.toOption = some (z 2) ∧
       digestBytes (sha384 (z 2)) = slice 16 48 l ∧ calibFault g calib1 = none ∧
       (State.narrowWeights s.servInfo es calib1.weights (s.bulkReadAll (modelRanges s.servInfo 0 0 es) []).1).2 = some (66, 0)) ∧
    (let s := servingWith { model := some model0 }
     let r : State := { s with serv := { s.serv with batch := some ⟨[req0], false⟩ } }
     ready (withCmd s 15 0x0502 []) 15 0x0502 [] = true ∧ (servingWith {}).serv.model = none ∧ s.serv.model ≠ none ∧ s.servRuns = false ∧
       r.servRuns = true) ∧
    (let s := servingWith { model := some model0 }
     let l := leBytes 2 3 ++ leBytes 2 1 ++ z 16
     let x : Pass := ⟨⟨15, pkt 0x0505 [], 0, 0, 0, 0, 0, 0, 0, 0, 0, 0⟩, 3, [], [], [], 0, false, false, [], 0⟩
     let b : State := { s with serv := { s.serv with pass := some x } }
     ready (withCmd s 15 0x0503 l) 15 0x0503 l = true ∧ leAt 0 2 l < 2048 ∧ 0 < leAt 2 2 l ∧ leAt 2 2 l ≤ 32 ∧ leAt 8 8 l = 0 ∧
       l.length = 16 + leAt 2 2 l * inBytes s.servInfo ∧ s.borrowed 3 = false ∧ leAt 4 4 l = s.nextPos 3 ∧
       leAt 4 4 l + 1 ≤ s.servInfo.ctxMax ∧ s.heldRequests < 8192 ∧ b.borrowed 3 = true ∧
       leAt 4 4 l ≠ (s.setSlot 3 { (s.slot 3) with len := 1 }).nextPos 3) ∧
    ((servingWith {}).serv.model = none ∧ ready (withCmd (servingWith {}) 15 0x0504 (z 4)) 15 0x0504 (z 4) = true ∧
      ready (withCmd (servingWith {}) 15 0x0505 (z 272)) 15 0x0505 (z 272) = true) ∧
    (let s := servingWith { model := some model0 }
     ready (withCmd s 15 0x0504 (z 4)) 15 0x0504 (z 4) = true ∧ s.slotIdle 0 = true ∧ s.borrowed 0 = false ∧
       (s.setSlot 0 { (s.slot 0) with queue := [req0] }).slotIdle 0 = false) ∧
    (let s := servingWith { model := some model0 }
     let l := z 272
     ready (withCmd s 15 0x0505 l) 15 0x0505 l = true ∧ l.length = 272 ∧ slice 0 48 l = digestBytes model0.commit ∧
       slice 48 48 l = digestBytes (0 : Digest) ∧ s.explainFault s.servInfo l = none ∧ s.serv.passes.length < 64 ∧
       slice 0 48 l ≠ digestBytes (1 : Digest)) := by
  decide +kernel

theorem witness_BatchesAndPasses :
    let s := servingWith { model := some model0, slots := [(3, { queue := [req0] })] }
    let r : State := { (s.setReg .serv 0 0x14 0) with us := 10 }
    let ran : State := { s with serv := { s.serv with batch := some ⟨[req0], false⟩ }, step := { att := some att0 } }
    let x : Explain := ⟨15, pkt 0x0505 [], 0, 0, 0, 0, 0, 0, 2, 0, 0, 0⟩
    let p : Pass := ⟨x, 3, [], [], [], 0, false, false, [], 0⟩
    let w : State := servingWith { model := some model0, passes := [x] }
    (r.waitDue = true) ∧
    (let b : State := { s with serv := { s.serv with due := true } }
     b.batchReady = true ∧ b.servRuns = false ∧ b.busyWith 0x0502 = none ∧
       b.prvRoom (countEvents (b.pendingSlots.filterMap fun e => e.2.queue.head?)) = true ∧
       (b.setReg .serv 0 0x2C 0x10000).prvRoom 1 = false) ∧
    (ran.canonical = true ∧ ran.servDone = true ∧ ran.prvOutside 1 = [] ∧ ran.busyWith 0x0502 = none ∧
      ran.badLines (ran.resultLines ran.servInfo (List.range 1)) = []) ∧
    (let c : State := { ran with step := { att := some att0, causes := [⟨4, 0, .outside, 1, false⟩] } }
     c.servCause = some 4) ∧
    (w.serv.passes = x :: [] ∧ w.batchReady = false ∧ w.serv.pass = none ∧ w.serv.batch = none ∧ w.busyWith 0x0502 = none ∧
      (w.slot 5).len = 0 ∧ w.slotIdle 5 = true ∧ { s with serv := { s.serv with due := true, passes := [x] } }.batchReady = true) ∧
    (let v : State := servingWith { model := some model0, pass := some p }
     let u : State := { servingWith { model := some model0, pass := some { p with running := true, point := 1 } } with step := { att := some att0 } }
     v.serv.batch = none ∧ v.batchReady = false ∧ v.busyWith 0x0502 = none ∧ u.servDone = true ∧ u.canonical = true ∧
       u.badLines (u.pointLines { p with running := true, point := 1 }) = [] ∧
       0 < 1 ∧ 1 < x.n ∧ v.servDone = false) := by
  decide +kernel

theorem witness_StrandsStartInOrder :
    let c := strandOf 1 (.copy default)
    let l := strandOf 2 (.loss 0 4)
    let g := progOf [c, l]
    let s := opened g att0
    (issuable false g.strands).any (·.id == 1) = true ∧ s.strand? 1 = some c ∧ active att0 c = true ∧ 1 ∉ att0.started ∧
      depsDone att0 (issuable false g.strands) c = true ∧ phasesDone att0 (issuable false g.strands) c = true ∧
      s.inOrder att0 (issuable false g.strands) c = true ∧ s.clearFor g att0 (issuable false g.strands) c = true ∧
      s.waitsForReturn false g c = false ∧ s.firstBlocks g 1 = [] ∧ s.heldBack g att0 c = false ∧
    (let t : State := { s with dom := { s.dom with held := [⟨2, 0, .at 0, 1, false⟩] } }
     t.prog = some g ∧ t.step.att = some att0 ∧ t.strand? 1 = some c ∧ troubleClear att0 g.strands = true ∧
       t.heldBack g att0 c = true) ∧
    (let a : Attempt := { att0 with started := [1] }
     let s := opened g a
     s.strand? 2 = some l ∧ active a l = true ∧ 2 ∉ a.started ∧ s.inOrder a (issuable false g.strands) l = true ∧ 2 ∉ a.done ∧
       depsDone a (issuable false g.strands) l = true ∧ phasesDone a (issuable false g.strands) l = true ∧
       s.clearFor g a (issuable false g.strands) l = true ∧ s.firstBlocks g 2 = [] ∧ s.waitsForReturn false g l = false ∧ s.heldBack g a l = false ∧
       ((storing s 0 (z 16)).loadWords 0 4).any notFinite = false ∧
       ((storing s 0 (z 14 ++ [0x80, 0x7F])).loadWords 0 4).any notFinite = true) ∧
    (depsDone att0 (issuable false g.strands) (strandOf 3 (.copy default) [1]) = false) ∧
    (0 ∉ att0.phases ∧ c ∈ g.strands ∧ c.phase = 0 ∧ active att0 c = true ∧ c.id ∉ att0.done ∧
      ∀ t ∈ g.strands, t.phase = 0 → active att0 t = true → t.id ∈ ({ att0 with done := [1, 2] } : Attempt).done) := by
  decide +kernel

/-! ## Facets and Cutters: witnesses -/

/-- A task of one quarter of a Facet over `n` K-groups of 32. -/
def tileD (n : Nat) : TileDesc := { (default : TileDesc) with format := .f16, kg := 0, mode := .q4, k := 32 * n }

/-- Facet 0 is usable and holds `x`; the program is one tile, `d`, and it has started. -/
def facetOn (d : TileDesc) (x : FacetSt) : State :=
  let s := (opened (progOf [strandOf 1 (.tile d)]) { att0 with started := [1] }).setReg .fct 0 0 1
  s.setFacet 0 x

/-- A task whose 32 × 32 cells have all folded one K-group, with zeros for its scales. -/
def drained (next : Nat) : FTask :=
  { id := 1, ra := false, pidx := 0, bank := 0, next := next, scales := some (List.replicate 128 0)
    cells := (List.range 32).map fun c => (c, (1, 0)) }

def incl0 : InclDesc := ⟨0, 0, 0, 0, 0, 0x1000⟩

theorem witness_FacetTakesTasks :
    (let s := facetOn (tileD 1) {}
     s.nextTask 0 = some (false, { att0 with started := [1] }, strandOf 1 (.tile (tileD 1)), tileD 1) ∧ (s.facet 0).tasks = [] ∧
       s.usable 0 = true) ∧
    (let s := facetOn (tileD 1) { mode := .q4 }
     let g := progOf [strandOf 1 (.tile (tileD 1))]
     s.prog = some g ∧ s.strand? 1 = some (strandOf 1 (.tile (tileD 1))) ∧ s.physFacet (tileD 1) = 0 ∧ s.usable 0 = true ∧
       (s.facet 0).mode = (tileD 1).mode ∧ s.sameFormat 0 (tileD 1) = true ∧ s.sampled g { att0 with started := [1] } (tileD 1) 0 = false ∧
       s.stopped false (strandOf 1 (.tile (tileD 1))) = false) ∧
    (let s := facetOn (tileD 1) { issuing := true, tasks := [{ drained 0 with faulted := true }] }
     (s.facet 0).issuing = true ∧ s.hasSlice 0 = false) ∧
    (let s := facetOn (tileD 1) { tasks := [{ drained 0 with scales := none }] }
     (s.facet 0).tasks.filter (fun t => t.pidx == 0) = [{ drained 0 with scales := none }] ∧ s.tileOf (drained 0) = some (tileD 1)) ∧
    (let d : TileDesc := { tileD 1 with incl := some incl0 }
     let s := facetOn d { tasks := [drained 0] }
     s.canonical = true ∧ s.inclNext 0 0 = some (drained 0, d, incl0) ∧ s.attempt false = some { att0 with started := [1] } ∧
       s.inclWaits 0 (drained 0) incl0 = false ∧ s.inclNext 0 1 = none) := by
  decide +kernel

theorem witness_FacetFoldsDrainsCompletes :
    (let s := facetOn (tileD 2) { mode := .q4, tasks := [drained 0] }
     s.foldTask 0 0 3 4 = some (drained 0, tileD 2) ∧ s.attempt false = some { att0 with started := [1] } ∧ (tileD 2).format = .f16 ∧
       3 < partRows (tileD 2).mode ∧ 4 < partCols (tileD 2).mode ∧ (s.facet 0).replayed.contains (1, false) = false) ∧
    (let s := facetOn (tileD 1) { mode := .q4, tasks := [drained 0] }
     s.canonical = true ∧ (s.facet 0).live 0 = [drained 0] ∧ s.tileOf (drained 0) = some (tileD 1) ∧ (drained 0).next < 32 ∧
       rowFolded (drained 0) (tileD 1) 0 = true ∧ (tileD 1).incl = none ∧ s.inLoupe 0 (drained 0) = false ∧
       (s.drainRow 0 (drained 0) (tileD 1) (List.replicate 128 0)).any notFinite = false) ∧
    (rowFolded (drained 1) (tileD 1) 1 = false) ∧
    (let s := facetOn (tileD 1) { tasks := [{ drained 0 with faulted := true }] }
     (s.facet 0).tasks = [{ drained 0 with faulted := true }] ∧ (s.facet 0).replayed.contains (1, false) = false) ∧
    (∀ t ∈ ((facetOn (tileD 1) { tasks := [drained 0] }).facet 0).tasks, t.faulted = false) ∧
    (let s := facetOn (tileD 1) { tasks := [drained 32] }
     (s.facet 0).live 0 = [drained 32] ∧ partRows (tileD 1).mode ≤ (drained 32).next ∧ (tileD 1).fused = 0) := by
  decide +kernel

/-- A serving program of one strand: its groups take the just-in-time path (R148). -/
def oneKernel (k : StrandKind) : Program := { progOf [strandOf 1 k] with serving := true }

/-- Cluster 0's Cutter holds `x`; the program is one strand, and it has started. -/
def cutterOn (k : StrandKind) (x : CutterSt) : State := (opened (oneKernel k) { att0 with started := [1] }).setCutter 0 x

/-- It is at the head of its Cutter's queue. -/
def heads (k : StrandKind) : Prop :=
  let s := cutterOn k { queue := [(1, false)] }
  s.attempt false = some { att0 with started := [1] } ∧ s.strand? 1 = some (strandOf 1 k) ∧
    s.headKernel 0 = some (false, strandOf 1 k) ∧ (s.cutter 0).kernel = none ∧ (s.cutter 0).halted = false

/-- A QUANT of one zero element, with a row copy of TENSOR granularity or none. -/
def quantD (on : Bool) : QuantDesc :=
  { (default : QuantDesc) with
      pr := 1, pc := 1, parts := 1, shard := some 0
      row := { (default : CopyDesc) with en := on, fmt := .l4, gran := .tensor } }

/-- A task of fused kernel `n` whose row 0 has been delivered to the kernel. -/
def fusedOn (n : Nat) : State :=
  facetOn { tileD 1 with fused := n, fk := { (default : FusedDesc) with pFmt := some .f16 } }
    { tasks := [{ drained 1 with chunks := [(0, List.replicate 32 0)] }] }

theorem witness_FusedAndElementKernels :
    (∀ n, n < 5 → let d : TileDesc := { tileD 1 with fused := n, fk := { (default : FusedDesc) with pFmt := some .f16 } }
      (fusedOn n).fusedTask 0 0 n 0 = some ({ drained 1 with chunks := [(0, List.replicate 32 0)] }, d, List.replicate 32 0) ∧
      (fusedOn n).attempt false = some { att0 with started := [1] } ∧ ((fusedOn n).strand? 1).isSome = true ∧
      ((fusedOn n).cutter (facetCluster 0)).halted = false ∧
      ∀ i, i < 32 → ((fusedOn n).fusedP (facetCluster 0) d 0 i).2 = false) ∧
    (let k : FusedDesc := { (default : FusedDesc) with pFmt := some .f16 }
     k.causal ≠ true ∧ k.pBlk ≠ 1 ∧ k.gamma ≠ 1) ∧
    (∀ n, up.fusedTask 0 0 n 0 = none) ∧
    (∀ op ∈ [ElemOp.add, .mul, .scale, .relu, .silu], heads (.elem { (default : ElemDesc) with op := op, n := 2 }) ∧
      heads (.elem { (default : ElemDesc) with op := op, n := 1, quant := some (quantD true) })) ∧
    (let s := cutterOn (.elem default) { kernel := some (1, false, true) }
     (s.cutter 0).kernel = some (1, false, true) ∧ (s.cutter 0).halted = false ∧ s.attempt false = some { att0 with started := [1] }) := by
  unfold heads
  refine ⟨by decide +kernel, by decide, fun n => rfl, by decide +kernel, by decide +kernel⟩

def applyD (k : ApplyKind) (on : Bool) : ApplyDesc :=
  { (default : ApplyDesc) with kind := k, rows := 1, width := 1, quant := quantD on }

theorem witness_QuantisingKernels :
    (let s := cutterOn (.quant (quantD true)) { queue := [(1, false)] }
     let g := oneKernel (.quant (quantD true))
     heads (.quant (quantD true)) ∧
       (s.quantPath g false (strandOf 1 (.quant (quantD true))) 0 (quantD true) (s.quantPanel 0 (quantD true)) true).2 = (false, 0)) ∧
    (∀ k ∈ [ApplyKind.rmsApply, .rmsBwdApply, .smxApply, .smxBwdApply],
      heads (.apply (applyD k true)) ∧ heads (.apply (applyD k false)) ∧
      (let d := applyD k false
       let s := cutterOn (.apply d) { queue := [(1, false)] }
       (s.quantPath (oneKernel (.apply d)) false (strandOf 1 (.apply d)) 0 d.quant ((List.range 1).map (s.applyRow 0 d))
         true).2.1 = true) ∧
      (let d := applyD k true
       let s := cutterOn (.apply d) { queue := [(1, false)] }
       (s.quantPath (oneKernel (.apply d)) false (strandOf 1 (.apply d)) 0 d.quant ((List.range 1).map (s.applyRow 0 d))
         true).2.1 = false)) := by
  unfold heads
  decide +kernel

/-! ## Policy, steps and the stash: witnesses -/

/-- The message `mtype` of an attempt that the wellhead has sent itself. -/
def withDown (s : State) (mtype step number arg : Nat) (l : List Nat) : State :=
  { s with fab := { s.fab with inbox := [⟨255, 0, 0, .dom (s.domFrame mtype true step number arg (encN l))⟩] } }

/-- This module's part of a combined message. -/
def withOwn (s : State) (mtype step number arg : Nat) (l : List Nat) : State :=
  { s with dom := { s.dom with own := [s.domFrame mtype false step number arg (encN l)] } }

/-- A downward message of a type waits, and it and the state without it, passed on where this is no wellhead, meet `p`. -/
def hears (s : State) (mtype : Nat) (p : DomFrame → State → Bool) : Bool :=
  (s.takeDown mtype).any fun r => p r.1 (if r.2.isWellhead then r.2 else r.2.passDown r.1)

theorem hears_spec (s : State) (mtype : Nat) (p : DomFrame → State → Bool) (h : hears s mtype p = true) :
    ∃ f t, s.receives mtype f t ∧ p f t = true := by
  obtain ⟨⟨f, t⟩, e, k⟩ := (Option.any_eq_true _ _).1 h
  exact ⟨f, _, ⟨t, e, rfl⟩, k⟩

/-- The message is for the open attempt. -/
def hearsOpen (s : State) (mtype : Nat) (a : Attempt) : Bool :=
  hears s mtype fun f t => decide (t.step.att = some a ∧ a.step = f.step ∧ a.base = fld f 0)

def decidesB (s : State) (kind : Nat) (g : Program) (ra : Bool) (a : Attempt) : Bool :=
  (s.takeFrame (isDecision kind)).any fun r =>
    let t := if r.2.2.isWellhead then r.2.2 else r.2.2.passDown r.2.1
    decide (s.hasDown 0x11 = false ∧ t.prog = some g ∧ t.attemptOf r.2.1.step = some (ra, a) ∧ fld r.2.1 0 = a.base)

theorem decides_of (s : State) (kind : Nat) (g : Program) (ra : Bool) (a : Attempt) (h : decidesB s kind g ra a = true) :
    ∃ f t, s.decides kind g ra a f t := by
  obtain ⟨⟨x, f, t⟩, e, k⟩ := (Option.any_eq_true _ _).1 h
  have k := of_decide_eq_true k
  exact ⟨f, _, ⟨x, t, e, rfl⟩, k⟩

/-- A combined message is complete at the wellhead, and its sum and the state without its parts meet `p`. -/
def sumsB (s : State) (mtype : Nat) (inTurn : DomFrame → Bool) (p : DomFrame → State → Bool) : Bool :=
  (s.takeCombined mtype inTurn).any fun r => r.2.2.isWellhead && p { r.1 with payload := sumFields r.1 r.2.1 } r.2.2

theorem sums_of (s : State) (mtype : Nat) (inTurn : DomFrame → Bool) (p : DomFrame → State → Bool) (h : sumsB s mtype inTurn p = true) :
    ∃ f t, s.sumsIf mtype inTurn f t ∧ p f t = true := by
  obtain ⟨⟨f, l, t⟩, e, k⟩ := (Option.any_eq_true _ _).1 h
  simp only [Bool.and_eq_true] at k
  exact ⟨_, t, ⟨f, l, e, k.1, rfl⟩, k.2⟩

/-- The same on a module that is not the wellhead. -/
def sumsUpB (s : State) (mtype : Nat) : Bool := (s.takeCombined mtype fun _ => true).any fun r => !r.2.2.isWellhead

theorem sumsBelow_of (s : State) (mtype : Nat) (h : sumsUpB s mtype = true) : ∃ f t, s.sumsBelow mtype f t := by
  obtain ⟨⟨f, l, t⟩, e, k⟩ := (Option.any_eq_true _ _).1 h
  exact ⟨_, t, f, l, e, by simpa using k, rfl⟩

/-- A module of two that is not the wellhead. -/
def member (g : Program) : State :=
  { wellhead g with dom := { size := 2, wgen := 1, rank := 1, rankValid := true, ranks := [(0, ⟨1, 5, 0⟩), (1, ⟨1, 6, 0⟩)] } }

def trouble0 (sat : Bool) : Trouble := ⟨5, false, sat, false, false, false, false, 1, 0, 0⟩

/-- An attempt whose layer 2 is at a rung. -/
def atRung (r : Rung) : Attempt := att0.setLayer 2 { rung := r }

theorem witness_JudgeFollowsTheTable :
    ((wellhead plain).field .policy 0 0x10 0 4 ≠ 0) ∧
    (([trouble0 true].any (·.now) = true ∨ [trouble0 true].all (inJ plain { jit := [(5, false)] }) = true)) ∧
    ([trouble0 true].any (·.now) = false ∧ [trouble0 true].all (inJ plain ((atRung .l4).layer 2)) = false ∧
      ((atRung .l4).layer 2).c ≠ (wellhead plain).field .policy 0 0x10 0 4) ∧
    ((atRung .f16).layer 2).rung = .f16 ∧ ((atRung .l8).layer 2).rung ≠ .f16 ∧
    ((wellhead plain).judge plain (atRung .l8) 2 [trouble0 true]).decision = .replay := by
  decide +kernel

/-- One strand, of the forward segment of layer 2. -/
def segProg : Program := progOf [⟨1, 0, .copy default, [], some (2, false), none, none, none⟩]

/-- The messages `ms` of this module's own parts. -/
def withOwns (s : State) (mtype step number : Nat) (ms : List (Nat × List Nat)) : State :=
  { s with dom := { s.dom with own := ms.map fun m => s.domFrame mtype false step number m.1 (encN m.2) } }

/-- Two forward segments, of layers 2 and 3, with one copy each that is always just-in-time. -/
def twoSegs : Program :=
  { progOf [⟨1, 0, .copy default, [], some (2, false), none, none, none⟩, ⟨2, 0, .copy default, [], some (3, false), none, none, none⟩] with
      copies := [⟨5, false, 2, false, some 0, none, false, true, 0⟩, ⟨6, false, 3, false, some 0, none, false, true, 0⟩] }

/-- Layer 3 is at F16; a report of each segment, with one element of one saturated. -/
def bothReport : State :=
  withOwns (opened twoSegs (att0.setLayer 3 { rung := .f16 })) 6 1 0
    [(reportArg 2 false 0, [0, 1, 1, 0, 1, 0, 0]), (reportArg 3 false 0, [0, 1, 1, 0, 1, 0, 0])]

theorem witness_ReportsAndDecisions :
    (let s := opened segProg att0
     segStrands att0 segProg.strands 2 false ≠ [] ∧ (att0.seg 2 false).clear = false ∧ (att0.seg 2 false).reported = false ∧
       s.loupesDone false 2 false = true ∧ (∃ t ∈ segStrands att0 segProg.strands 2 false, t.id ∉ att0.done) ∧
       (∀ t ∈ segStrands att0 segProg.strands 2 false, t.id ∈ ({ att0 with done := [1] } : Attempt).done)) ∧
    (let s := withOwn (opened segProg att0) 6 1 0 (reportArg 2 false 0) [0]
     sumsB s 6 (fun h => !s.isWellhead || s.reportInTurn h) (fun f t => decide (t.prog = some segProg ∧
       t.attemptOf f.step = some (false, att0) ∧ fld f 0 = att0.base ∧ t.exhaustedBeside = none ∧
       f.arg / 2 ^ 11 = (att0.seg (f.arg % 2 ^ 11 / 2) (f.arg % 2 ^ 11 % 2 == 1)).tries)) = true ∧
       s.hasDown 7 = false ∧ s.hasDown 0x11 = false) ∧
    (let s := bothReport
     let a := att0.setLayer 3 { rung := .f16 }
     sumsB s 6 (fun h => !s.isWellhead || s.reportInTurn h) (fun f t => decide (t.prog = some twoSegs ∧
       t.attemptOf f.step = some (false, a) ∧ fld f 0 = a.base ∧ f.arg = reportArg 2 false 0 ∧
       (t.judge twoSegs a 2 (t.troubles twoSegs f 2 false)).decision = .global ∧ t.exhaustedBeside ≠ none)) = true ∧
       s.hasDown 7 = false ∧ s.hasDown 0x11 = false) ∧
    (sumsUpB (withOwn (member segProg) 6 1 0 (reportArg 2 false 0) [0]) 6 = true) ∧
    ((opened segProg att0).takeCombined 6 (fun h => !(opened segProg att0).isWellhead || (opened segProg att0).reportInTurn h) = none) ∧
    (∀ kind, kind < 5 →
      decidesB (withDown (opened segProg att0) 7 1 0 0 [0, 2, 0, kind]) kind segProg false att0 = true ∧
      decidesB (withDown { member segProg with step := { att := some att0 } } 7 1 0 0 [0, 2, 0, kind]) kind segProg false att0 = true ∧
      (withDown (opened segProg att0) 7 1 0 0 [0, 2, 0, kind]).isWellhead = true ∧
      decidesB (withDown { opened segProg att0 with step := { ra := some att0 } } 7 1 0 0 [0, 2, 0, kind]) kind segProg true att0 = true) := by
  decide +kernel

/-- The wellhead may open step `n`, with a slot armed or none. -/
def mayOpenWith (b : Bool) : State :=
  let s := wellhead plain
  { s with dom := { s.dom with running := true }, inl := { latched := if b then some s.stepNum else none } }

theorem witness_StepsOpen :
    (up.mayOpen = false) ∧
    ((mayOpenWith true).mayOpen = true ∧ (mayOpenWith true).latchFor (mayOpenWith true).stepNum ≠ none) ∧
    ((mayOpenWith false).mayOpen = true ∧ (mayOpenWith false).latchFor (mayOpenWith false).stepNum = none ∧
      (mayOpenWith false).dom.blocked ≠ some (mayOpenWith false).stepNum) ∧
    (let s := mayOpenWith false
     let t : State := { s with dom := { s.dom with blocked := some s.stepNum } }
     t.mayOpen = true ∧ t.latchFor t.stepNum = none ∧ t.dom.blocked = some t.stepNum) ∧
    (let s := withDown (wellhead plain) 4 1 0 0 [0, 0, 0, 0, 1]
     s.step.att = none ∧ s.step.committing = false ∧ s.hasDown 0x11 = false ∧ s.step.ra = none ∧ s.canonical = true ∧ s.tarns = [] ∧
       hears s 4 (fun f t => decide (t.prog = some plain ∧ fld f 4 = 1)) = true ∧ s.step.halted = none) ∧
    (let s := withDown { member plain with step := { ra := some att0 } } 4 1 0 0 [0, 0, 0, 0, 0]
     s.step.att = none ∧ s.step.committing = false ∧ s.hasDown 0x11 = false ∧ s.step.ra = some att0 ∧ s.canonical = true ∧ s.tarns = [] ∧
       hears s 4 (fun f t => decide (t.prog = some plain ∧ att0.step = f.step ∧ att0.base = f.arg ∧ fld f 2 ≠ 1)) = true ∧
       s.step.halted = none) ∧
    ((opened plain att0).step.att ≠ none) := by
  decide +kernel

/-- A program whose update order names layer 2. -/
def voting : Program := { plain with updateOrder := [2] }

theorem witness_PolicyVotesGatesAborts :
    (let s := opened voting att0
     (withDown s 0x11 1 0 0 [0]).hasDown 0x11 = true ∧
     (∀ r, r < 2 → hearsOpen (withDown s 9 1 0 0 [0, r, 7, 0]) 9 att0 = true) ∧ (withDown s 9 1 0 0 [0]).hasDown 0x11 = false ∧
     (withDown s 9 1 0 0 [0]).hasDown 9 = true ∧ (withDown s 9 1 0 0 [0]).policyWaits = false ∧ (withDown s 9 1 0 0 [0]).tarns = [] ∧
     (let g : Program := { voting with policyBase := 0x40000000, layers := [{ (default : LayerEntry) with num := 0 }] }
      let t : State := { withDown (opened g att0) 9 1 0 0 [0] with tarns := [(0, { due := some 0 })] }
      t.hasDown 9 = true ∧ t.policyWaits = true) ∧
     sumsB (withOwn s 8 1 0 0 [0]) 8 (fun _ => true) (fun f t => decide (t.step.att = some att0 ∧ att0.step = f.step)) = true ∧
     s.takeCombined 8 (fun _ => true) = none ∧
     (2 ∈ voting.updateOrder ∧ att0.skip = false ∧ att0.mayVote voting 2 = true ∧ s.updatesDone voting att0 2 = true ∧ s.dom.own = [] ∧
       s.isWellhead = true ∧ s.children = [] ∧ s.dom.size = 1 ∧ att0.vetoes.contains 2 = false ∧ att0.base < 2 ^ 64) ∧
     (let t : State := { s with dom := { s.dom with size := 2 } }
      t.updatesDone voting att0 2 = true ∧ t.dom.own = [] ∧ t.dom.rankValid = true ∧ t.children ≠ [] ∧ t.fab.inbox = []) ∧
     hearsOpen (withDown s 0xC 1 0 2 [0]) 0xC att0 = true) ∧
    (let g : Program := { voting with
       regions := [{ base := 0, size := 4096, versioned := false, cls := .param }]
       updates := [{ (default : UpdateEntry) with layer := 2 }] }
     let a : Attempt := { att0 with gates := [2], lvoted := [2] }
     let s := opened g a
     gated g 2 = true ∧ s.gateIssued a 2 = true ∧ s.layerClear g 2 = false ∧ a.mayVote g 2 = true) ∧
    (let s : State := { opened voting att0 with queues := [(15, { busy := some (pkt 0x0305 []) })] }
     s.hostAbortWaits = true ∧ s.step.committing = false ∧ s.hasDown 0xF = false ∧ s.hasDown 0x11 = false ∧ s.hasDown 4 = false) ∧
    (up.hostAbortWaits = false ∧ up.step.causes = [] ∧ up.isWellhead = false) ∧
    (let s := opened voting att0
     (withDown s 0x11 1 0 0 [0]).canonical = true ∧ (withDown s 0x11 1 0 0 [0]).hasDown 0xC = false ∧
       (withDown s 0x11 1 0 0 [0]).hasDown 0xF = false ∧
       (∀ h, h < 2 → hearsOpen (withDown s 0x11 1 0 0 [0, 3, 0, 0, h]) 0x11 att0 = true) ∧
       hearsOpen (withDown { member voting with step := { att := some att0 } } 0x11 1 0 0 [0, 1, 0, 0, 0]) 0x11 att0 = true) := by
  decide +kernel

theorem witness_CommitSequence :
    (let a : Attempt := { att0 with policy := true }
     let s := opened voting a
     voting.serving = false ∧ a.endSent = false ∧ voting.strands = [] ∧ s.inl.posts = [] ∧ s.inl.seen = [] ∧ s.inl.parts = [] ∧
       s.inl.passed = [] ∧ a.amax = [] ∧ s.twin.mode ≠ 2 ∧ a.vetoes = [] ∧ s.log.held.any (·.numerics) = false) ∧
    (let s := opened voting att0
     let t : State := { s with log := { s.log with held := [{ (default : EventRec) with code := 0x0101 }] } }
     t.log.held.any (·.numerics) = true) ∧
    (∀ v, v < 2 → sumsB (withOwn (opened voting att0) 0xD 1 0 0 [0, 1, v]) 0xD (fun _ => true) (fun f t => decide (t.prog = some voting ∧
      t.step.att = some att0 ∧ att0.step = f.step ∧ att0.base = fld f 0 ∧ fld f 1 = t.dom.size ∧ fld f 2 = v)) = true) ∧
    troubleClear att0 voting.strands = true ∧ (opened voting att0).hasUp 0x12 = false ∧
    (let s := opened voting att0
     let t : State := { s with fab := { s.fab with inbox := [⟨0, 2, 1, .dom (s.domFrame 0x12 false 1 0 0 (encN [0]))⟩] } }
     t.hasUp 0x12 = true) ∧
    (∀ m ∈ [0xD, 0xE, 0x10], sumsUpB (withOwn (member voting) m 1 0 0 [0, 1, 0]) m = true ∧ (withOwn (member voting) m 1 0 0 [0]).hasUp 0x12 = false) ∧
    (let s := withOwn { opened voting att0 with dom := { (opened voting att0).dom with finiteClear := true } } 0xE 1 0 0 [0, 1]
     sumsB s 0xE (fun _ => true) (fun f t => decide (t.step.att = some att0 ∧ att0.step = f.step ∧ att0.base = fld f 0 ∧ fld f 1 = t.dom.size)) = true ∧
       s.mayCommit = true) ∧
    ((opened voting att0).mayCommit = false) ∧
    (let s := withDown (opened voting att0) 0xF 1 0 0 [0]
     s.canonical = true ∧ s.step.committing = false ∧ s.hasDown 9 = false ∧ s.vInFlight = false ∧
       ({ s with tarns := [(0, { grants := [(0, ⟨0, 0x1000000, 1, 0, true⟩)] })] } : State).vInFlight = true ∧
       hearsOpen s 0xF att0 = true ∧ hears s 0xF (fun _ t => decide (t.prog = some voting)) = true) ∧
    (let s : State := { wellhead voting with step := { att := some att0, committing := true } }
     let t : State := { s with dom := { s.dom with doneIn := false } }
     t.step.ra = none ∧ t.isWellhead = true ∧ t.dom.doneIn = false) ∧
    (let s : State := { member voting with step := { att := some att0, committing := true, ra := some { att0 with step := 2 } } }
     s.step.committing = true ∧ s.step.ra = some { att0 with step := 2 }) ∧
    (let s := withOwn (wellhead voting) 0x10 1 0 0 [0, 1]
     s.canonical = true ∧ sumsB s 0x10 (fun _ => true) (fun _ _ => true) = true ∧ s.busyWith 0x0304 = none) ∧
    (let a : Attempt := { att0 with endSent := true }
     let s : State := { opened voting a with twin := { mode := 2, paired := true } }
     (opened voting att0).twin.mode ≠ 2 ∧ s.canonical = true ∧ a.readySent = false ∧ s.step.causes = [] ∧ s.twin.mine = none ∧ s.twin.theirs = none ∧
       s.badLines ((List.range 8).flatMap fun i => (s.touchedPages i).flatMap fun p =>
         (List.range 64).map fun j => s.shadowAddr (4096 * p + 64 * j) / 64) = []) := by
  decide +kernel

/-- A program with one class 2 stash block of a page on die 0, and a Pond region of `n` bytes. -/
def stashing (n : Nat) : Program :=
  { plain with
      stash := [⟨1, 2, 0, 0, 4096, 4096, 4096, 1, 2, 3, 2⟩], regions := [⟨0x80000000, n, false, .pond⟩]
      strands := [strandOf 3 (.copy default)] }

def block0 (spillable : Bool) : Block4 := ⟨1, 0, false, 0x80000000, 4096, spillable⟩

/-- The block is in the Pond, or in the Spillway area. -/
def inPond (areaMib : Nat) : State :=
  { opened (stashing 4096) att0 with stash := { enabled := true, areaMib := areaMib, resident := [block0 true] } }

def spilled0 (id : Nat) : Spilled := ⟨id, 0, false, false, 0, 0, 4096, [0], 0x80000000, [], none⟩

def inArea (n : Nat) (a : Attempt) : State := { opened (stashing n) a with stash := { spilled := [spilled0 1] } }

theorem witness_StashSpillsAndReturns :
    (let s := inPond 1
     s.stash.resident.find? (s.spillReady (stashing 4096) 1 0) = some (block0 true) ∧ s.stash.spillPlace 4096 = some 0 ∧
       (inPond 0).stash.resident.find? ((inPond 0).spillReady (stashing 4096) 1 0) = some (block0 true) ∧
       (inPond 0).stash.spillPlace 4096 = none ∧ s.stash.resident.find? (s.spillReady (stashing 4096) 2 0) = none) ∧
    (let a : Attempt := { att0 with started := [3] }
     let s := inArea 4096 a
     (s.stash.spilled.find? fun b => b.id == 1 && b.shard == 0) = some (spilled0 1) ∧ (stashEntry (stashing 4096) 1 0).isSome = true ∧
       s.attempt (spilled0 1).ra = some a ∧ 3 ∉ att0.started ∧ 3 ∈ a.started ∧
       (∀ q ∈ s.stash.spilled, q.ra = false → q.id < 1 → s.returnDue (stashing 4096) q = false) ∧
       firstFit (pondRegions (stashing 4096) 0) s.stash.used 4096 = some 0x80000000) ∧
    (let g : Program := { stashing 64 with strands := [strandOf 3 (.copy { (default : CopyStrand) with dst := 0 }), strandOf 4 (.tile default)] }
     let a : Attempt := { att0 with started := [3], done := [3] }
     let s (a : Attempt) : State := { opened g a with stash := { spilled := [spilled0 1] } }
     firstFit (pondRegions g 0) (s a).stash.used 4096 = none ∧ (s a).stuck g false a 0 = false ∧
       (let b : Attempt := { a with started := [3, 4], done := [3, 4] }
        (s b).stuck g false b 0 = true ∧ (s b).strand? 3 = some (strandOf 3 (.copy { (default : CopyStrand) with dst := 0 })))) := by
  decide +kernel

/-! ## Inlets, Loupes and links: witnesses -/

/-- An update entry of a 1 × 128 tensor whose piece this module's die 0 owns. -/
def entry0 : UpdateEntry := { (default : UpdateEntry) with tensor := 7, layer := 2, rule := .facu, rows := 1, cols := 128, own := [(0, 0)] }

def postOf (i : Nat) : InlPost := ⟨0, 7, 0, i, 0, 0, false⟩

/-- An attempt on a program with this update entry. -/
def updating (e : UpdateEntry) (a : Attempt) (i : InletSt) : State := { opened { plain with updates := [e] } a with inl := i }

/-- A program whose first page is a U page of parameters, with an entry whose WH lies there and whose WM lies on a V page. -/
def mixed : Program :=
  { plain with
      regions := [⟨0, 4096, false, .param⟩, ⟨0x40000000, 0x10000, true, .param⟩]
      updates := [{ entry0 with rule := .fac, wm := 0x40000000 }] }

theorem witness_InletTakesPosts :
    up.hubUp = true ∧
    (∀ sparse frozen pre : Bool, sparse = false ∨ pre = false →
      let e : UpdateEntry := { entry0 with sparse := sparse, frozen := frozen, rule := if pre then .pre else .fac }
      let s := updating e att0 { posts := [postOf 0] }
      s.nextPost { plain with updates := [e] } att0 0 (fun e => e.sparse == sparse) = some (postOf 0, e, .all) ∧ s.entryWaits e = false ∧
        att0.lr ≠ none ∧ s.step.committing = false ∧ bit (s.reg .inl 0 0x14) 0 = false ∧ (7, 0) ∉ att0.applied ∧ s.tarns = []) ∧
    (let a : Attempt := { att0 with applied := [(7, 0)] }
     let s := updating entry0 a { posts := [postOf 0] }
     (7, 0) ∈ a.applied ∧ s.nextPost { plain with updates := [entry0] } a 0 (fun e => e.sparse == false) = some (postOf 0, entry0, .all)) ∧
    (let e : UpdateEntry := { entry0 with rule := .fac, wm := 0x40000000 }
     let s : State := { opened mixed att0 with inl := { posts := [postOf 0] } }
     let a : Attempt := { att0 with gates := [2], applied := [(7, 0)] }
     let u : State := { opened mixed a with inl := { posts := [{ postOf 0 with vDone := true }] } }
     s.nextPost mixed att0 0 (fun e => e.sparse == false) = some (postOf 0, e, .v) ∧
       u.nextPost mixed a 0 (fun e => e.sparse == false) = some ({ postOf 0 with vDone := true }, e, .u) ∧
       (Pages.u).writes mixed (tarnAddr e.wh) = true) := by
  decide +kernel

/-- A 64 × 128 tensor under PRE, with every block of its one unit taken. -/
def entryPre : UpdateEntry := { entry0 with rule := .pre, rows := 64 }

def taken : InletSt := { seen := (List.range 64).map postOf }

/-- NS_ITER of the block of that tensor, issued; the refresh is due in odd steps. -/
def rooting (d : NsDesc) (i : InletSt) : State :=
  let g : Program := { plain with updates := [entryPre], strands := [strandOf 1 (.nsIter d)] }
  let s := ((opened g { att0 with started := [1] }).setReg .inl 0 0x18 0x20A0A).setCutter 0 { queue := [(1, false)] }
  { s with inl := i }

theorem witness_InletStatisticsAndRoots :
    (∀ b : Bool, let s := updating entryPre att0 { taken with pre := if b then [(7, 0)] else [] }
     let g : Program := { plain with updates := [entryPre] }
     (s.preGrad entryPre 0 0).any (fun m => !m.isEmpty) = true ∧ updateOf g 7 = some entryPre ∧ forDie entryPre 0 = entryPre ∧
       phaseOf g att0 entryPre (s.inl.preV.contains (7, 0)) = some .all ∧ entryPre.frozen = false ∧
       ((7, 0) ∈ s.inl.pre ↔ b = true) ∧ s.entryWaits entryPre = false ∧ att0.lr ≠ none ∧ s.step.committing = false ∧ s.tarns = []) ∧
    (let e : UpdateEntry := { entryPre with wm := 0x40000000 }
     phaseOf mixed att0 e false = some .v ∧ phaseOf mixed { att0 with gates := [2] } e true = some .u) ∧
    (let e : UpdateEntry := { entry0 with rule := .fac }
     let g : Program := { plain with updates := [e], strands := [strandOf 1 (.statsPass 0 7)] }
     let a : Attempt := { att0 with started := [1], applied := [(7, 0)] }
     let s := opened g a
     s.strand? 1 = some (strandOf 1 (.statsPass 0 7)) ∧ updateOf g 7 = some e ∧ 1 ∈ a.started ∧ 1 ∉ a.done ∧ gateShut g a e.layer = false ∧
       s.ownedPieces e 0 = [0] ∧ (∀ b ∈ pieceBlocks e 0, (7, b) ∈ a.applied) ∧ s.inl.posts = [] ∧ s.tarns = []) ∧
    (let s := updating entry0 att0 { passed := [(0, 7)] }
     (0, 7) ∈ s.inl.passed ∧ (0, 7) ∉ s.inl.stats ∧ s.entryWaits entry0 = false ∧ entry0.frozen = false ∧ s.step.committing = false ∧
       att0.skip = false ∧ s.tarns = [] ∧ (0, 7) ∉ (updating entry0 att0 {}).inl.passed) ∧
    (let d : NsDesc := { (default : NsDesc) with tensor := 7 }
     let s := rooting d { taken with pre := [(7, 0)] }
     s.strand? 1 = some (strandOf 1 (.nsIter d)) ∧ s.prog.bind (updateOf · 7) = some entryPre ∧ s.refreshStep 0 1 = true ∧
       s.refreshStep 0 2 = false ∧ s.preDone entryPre 0 = true ∧ (rooting d taken).preDone entryPre 0 = false ∧ s.inl.staged = [] ∧
       s.headKernel 0 = some (false, strandOf 1 (.nsIter d)) ∧ (s.cutter 0).kernel = none ∧ (s.cutter 0).halted = false ∧
       s.writeWaits (tarnAddr d.root) = false ∧ s.rootShut d = false ∧ s.tarns = [] ∧
       ∀ z : Bool, ((rooting d { staged := [(1, z)] }).inl.staged.find? fun x => x.1 == 1) = some (1, z)) ∧
    (let d : NsDesc := { (default : NsDesc) with tensor := 7 }
     let s := { rooting d {} with prog := some { mixed with updates := [entryPre], strands := [strandOf 1 (.nsIter d)] } }
     s.rootShut d = true ∧ s.headKernel 0 = some (false, strandOf 1 (.nsIter d))) := by
  refine ⟨by decide +kernel, by decide +kernel, by decide +kernel, by decide +kernel, by decide +kernel, by decide +kernel⟩

def amax0 : AmaxPart :=
  { tensor := 5, col := false, group := 0, hist := 0x40002000, value := 0x3F800000, parts := 1, need := 1, shared := false, arg := 0
    sent := false, back := none }

/-- The Loupe's queue holds a ready sample of a tile without K, whose one element at the sub-tile's corner is `y`. -/
def judging (y : Word) (base : Nat) (seg : Bool) : State :=
  let d : TileDesc := { (default : TileDesc) with tensor := 7, format := .f16 }
  let q : LoupeTask :=
    { id := 1, ra := false, base := base, seg := none, tries := 0, ready := true, scales := [], ea := [], eb := []
      ys := [(64 * (subTile 1 7 0).1 + (subTile 1 7 0).2, y)] }
  let g : Program := { plain with
    strands := [⟨1, 0, .tile d, [], if seg then some (2, false) else none, none, none, none⟩]
    products := [⟨7, (0, false), (0, false), some (default, default), false⟩] }
  (opened g att0).setLoupe 3 { queue := [q] }

/-- What the Loupe finds in it. -/
def judgedIn (y : Word) : Option (List Judged) :=
  let s := judging y 0 true
  match (s.loupe 3).queue with
  | q :: _ => s.judgeSample 3 1 (s.physFacet { (default : TileDesc) with tensor := 7, format := .f16 })
      (facetCluster (s.physFacet { (default : TileDesc) with tensor := 7, format := .f16 }))
      { (default : TileDesc) with tensor := 7, format := .f16 } (default, default) q
  | [] => none

theorem witness_RatiosAmaxesVerdicts :
    (let s := updating entry0 att0 { parts := [⟨7, 0, 0, 0, 0⟩, ⟨7, 0, 1, 0, 0⟩] }
     s.wholeUnit { plain with updates := [entry0] } att0 = some (0, entry0, 0) ∧ s.isWellhead = true ∧ s.hasUp 0x12 = false) ∧
    (let g : Program := { plain with updates := [entry0] }
     let s : State := { member g with step := { att := some att0 }, inl := { parts := [⟨7, 0, 0, 0, 0⟩, ⟨7, 0, 1, 0, 0⟩] } }
     s.wholeUnit g att0 = some (0, entry0, 0) ∧ s.isWellhead = false ∧ s.parentOf s.dom.rank ≠ s.dom.rank ∧ s.hasUp 0x12 = false) ∧
    (let a : Attempt := { att0 with amax := [amax0] }
     let s := opened plain a
     s.step.ra = none ∧ s.dom.own = [] ∧ s.hasDown 5 = false ∧ s.amaxReady false = some (a, amax0) ∧ amax0.shared = false ∧
       plain.serving = false ∧ s.badLines (s.mergeLines (amax0.hist + 8 * (a.step % 64)) 8) = []) ∧
    (let x : AmaxPart := { amax0 with shared := true }
     let a : Attempt := { att0 with amax := [x] }
     let s : State := { opened plain a with dom := { (opened plain a).dom with size := 2 } }
     s.step.ra = none ∧ s.dom.own = [] ∧ s.hasDown 5 = false ∧ s.amaxReady false = some (a, x) ∧ s.children ≠ [] ∧ s.fab.inbox = []) ∧
    up.prog = none ∧
    (let s := judging 0 0 true
     ((s.loupe 3).queue.find? (·.ready)).any (fun q => decide (q.ra = false ∧ q.id = 1 ∧ q.base = att0.base)) = true ∧
       (s.strand? 1).isSome = true ∧ (s.loupe 3).halted = false ∧ (att0.seg 2 false).tries = 0 ∧ att0.base ≠ 5) ∧
    (judgedIn 0x7FC00000 = none ∧ (judgedIn 0).any (fun l => !l.any (·.fails)) = true ∧
      (judgedIn 0x3F800000).any (fun l => l.any (·.fails)) = true) := by
  decide +kernel

/-- Port 2 and port 3 enabled and up; rank 1 is reached at MAC address 9 through port 3. -/
def portsUp : State :=
  let s := (up.setReg .cePort 2 0x10 0x80000000).setReg .cePort 3 0x10 0x80000000
  { s with fab := { ports := [(2, { phy := true }), (3, { phy := true })], routes := [(1, some ⟨9, [3]⟩)] } }

/-- A frame header for port `n`, from MAC address `m`. -/
def hdrTo (n : Nat) (m : Mac) : PeerHdr :=
  ⟨true, m, portsUp.portMac n, some (portsUp.field .cePort n 0x10 12 12), portsUp.field .cePort n 0x18 16 16, 64⟩

/-- A link on port 3 to MAC address 9. -/
def link9 : Link := { port := 3, mac := 9, up := true }

def linked (l : Link) : State := { portsUp with fab := { portsUp.fab with links := [l] } }

theorem witness_LinksComeUpAndGoDown :
    (up.umc.phase = .dies ∧ portEnabled up.part 3 = true ∧ portEnabled up.part 12 = false) ∧
    ((portsUp.port 3).phy = true ∧ portsUp.fab.links = []) ∧
    (let s := linked link9
     (s.port 3).phy = true ∧ (s.fab.links.filter fun x => x.port == 3 && x.up) = [link9] ∧ s.link? 3 9 = some link9 ∧ link9.up = true) ∧
    (portsUp.portUp 2 = true ∧ (portsUp.port 2).held = false ∧ oxbow 2 = true ∧
      (portsUp.fab.links.all fun l => !(l.port == 2 && l.twin && l.up)) = true) ∧
    (portsUp.portUp 3 = true ∧ (portsUp.port 3).held = false ∧ oxbow 3 = false ∧ portsUp.fab.routes = [(1, some ⟨9, [3]⟩)] ∧
      portsUp.linkIsUp 3 9 = false) ∧
    (portsUp.peerAccepts 3 (hdrTo 3 9) false = true ∧ portsUp.initOk 3 9 false 1 portsUp.ceDomain = true ∧
      portsUp.initOk 3 9 false 2 portsUp.ceDomain = false ∧ (linked link9).peerAccepts 3 (hdrTo 3 9) false = true ∧
      (linked link9).initOk 3 9 false 1 portsUp.ceDomain = true ∧ (linked link9).linkIsUp 3 9 = true ∧
      (portsUp.fab.routes.any fun e => e.2.any fun r => r.mac == 9 && r.ports.contains 3) = true) := by
  decide +kernel

theorem witness_LinkSequencingAndFlowControl :
    (let s := linked link9
     s.portUp 3 = true ∧ s.peerAccepts 3 (hdrTo 3 9) false = true ∧ s.link? 3 9 = some link9 ∧
       (BitVec.ofNat 32 0 - BitVec.ofNat 32 link9.rxNext).toNat = 0 ∧ s.domStale (.coll default) = false ∧
       0 < (BitVec.ofNat 32 1 - BitVec.ofNat 32 link9.rxNext).toNat ∧ (BitVec.ofNat 32 1 - BitVec.ofNat 32 link9.rxNext).toNat < 2 ^ 31 ∧
       2 ^ 31 ≤ (BitVec.ofNat 32 0xFFFFFFFF - BitVec.ofNat 32 link9.rxNext).toNat ∧
       s.peerAccepts 3 { hdrTo 3 9 with etype := 1 } false = false) ∧
    (link9.unacked = 0 ∧ ({ link9 with unacked := 3 } : Link).unacked ≠ 0 ∧ link9.replay = []) ∧
    (let l : Link := { link9 with replay := [⟨0, .coll default, true⟩] }
     let t : Link := { l with retries := 15 }
     (linked l).link? 3 9 = some l ∧ l.retries < (linked l).field .cePort 3 0x1C 8 4 ∧
       ((linked l).port 3).paused.contains ((linked l).pcpData 3) = false ∧ (linked t).field .cePort 3 0x1C 8 4 ≤ t.retries ∧
       portsUp.link? 3 9 = none) ∧
    (let s : State := { portsUp with fab := { portsUp.fab with ports := [(3, { phy := true, paused := [portsUp.pcpData 3], pfcSent := true })] } }
     s.portUp 3 = true ∧ portsUp.pcpData 3 ∈ (s.port 3).paused ∧ portsUp.pcpData 3 ∉ (portsUp.port 3).paused ∧ portsUp.pcpData 3 < 8 ∧
       (s.port 3).pfcSent = true ∧ (s.port 3).held = false ∧ (s.port 3).paused.contains (s.pcpData 3) = true ∧
       s.field .cePort 3 0x20 16 8 ≠ 0 ∧ (s.setReg .cePort 3 0x20 0).field .cePort 3 0x20 16 8 = 0) := by
  decide +kernel

/-! ## Tarn, copies and the twin: witnesses -/

/-- The wellhead with an attempt, stack 0 as given, and the plain program. -/
def tarnOn (k : Stack) : State := { opened plain att0 with tarns := [(0, { k with trained := true })] }

/-- Requester 11 is the hub bulk engine, 0 a strand's. -/
theorem witness_TarnTransfers :
    (∀ req ∈ [0, 11], let s := tarnOn {}
      (s.stack 0).trained = true ∧ stackOf 0x10000000 = 0 ∧ knownReq req = true ∧ s.barredAt 0 (chanOf 0x10000000) req = false ∧
        chanLine 0x10000000 + 1 ≤ 2 ^ 26 ∧
        s.accessFault req (chanAddr 0 (chanOf 0x10000000) (chanLine 0x10000000 + 0)) =
          none ∧
        s.step.committing = false ∧ s.grantOf 0 (chanOf 0x10000000) = none ∧
        s.hasDown 0xF = false ∧ (∀ w : Bool, s.progressOf 0 (chanOf 0x10000000) ⟨req, lineOf 0x10000000, 1, 0, w⟩ = 0) ∧
        s.decodeLine (s.physLine req (chanAddr 0 (chanOf 0x10000000) (chanLine 0x10000000 + 0))) noError = .good ∧
        s.vRegion (chanAddr 0 (chanOf 0x10000000) (chanLine 0x10000000 + 0)) = none ∧ s.canonical = true) ∧
    ((tarnOn { grants := [(chanOf 0x10000000, ⟨2, 0, 4, 1, false⟩)] }).grantOf 0 (chanOf 0x10000000) = some ⟨2, 0, 4, 1, false⟩ ∧
      (2 : Nat) ≠ 0 ∧ staticReq 2 = true) ∧
    (∀ req ∈ [0, 10], (tarnOn {}).accessFault req (chanAddr 0 (chanOf 0) (chanLine 0 + 0)) = some 0) := by
  decide +kernel

/-- A program with a copy or a fill of one row, its data moved or not. -/
def copying (fill : Bool) (moved : List (Nat × Bool)) : State :=
  let d : CopyStrand := { (default : CopyStrand) with fill := fill, src := 0x10000000, dst := 0x10001000, len := 64, rows := 1 }
  { opened (progOf [strandOf 1 (.copy d)]) { att0 with started := [1] } with
      tarns := [(0, { trained := true })], units := { copied := moved } }

theorem witness_TarnHousekeepingAndCopies :
    (let s := tarnOn { grants := [(4, ⟨2, 0, 4, 1, false⟩)] }
     s.canonical = true ∧ s.grantOf 0 4 = some ⟨2, 0, 4, 1, false⟩ ∧ s.grantLimit 0 2 < 100000 ∧ 0 ≤ s.grantLimit 0 2) ∧
    ((tarnOn { barred := [66] }).barredAt 0 4 2 = true) ∧
    (let s := tarnOn { wb := [9] }
     (s.stack 0).wb = [9] ∧ s.channelFree 0 (64 * 9) = true ∧ (s.stack 0).poison.contains 9 = false ∧
       ((tarnOn { wb := [9], poison := [9] }).stack 0).poison.contains 9 = true) ∧
    (let s := (tarnOn {}).setReg .trn 0 0x14 1
     s.canonical = true ∧ s.scrubbing 0 = true ∧ s.channelFree 0 0 = true ∧ s.decodeLine 0 noError = .good ∧ 0 + 1 < 2 ^ 31 ∧
       (∃ d, s.decodeLine 0 ⟨1, false, none⟩ = .corrected 1 d)) ∧
    (let s := (tarnOn { scrubNext := 2 ^ 31 - 1 }).setReg .trn 0 0x14 1
     s.canonical = true ∧ s.scrubbing 0 = true ∧ s.channelFree 0 (64 * (2 ^ 31 - 1)) = true ∧ s.decodeLine (2 ^ 31 - 1) noError = .good ∧
       (2 ^ 31 - 1) + 1 = 2 ^ 31) ∧
    (∀ fill : Bool,
      let s := copying fill []
      let d : CopyStrand := { (default : CopyStrand) with fill := fill, src := 0x10000000, dst := 0x10001000, len := 64, rows := 1 }
      s.running false 1 = some ({ att0 with started := [1] }, strandOf 1 (.copy d)) ∧ (1, false) ∉ s.units.copied ∧
        ((s.copyPlan d).any fun r => s.spanWaits r.2 d.len) = false ∧ s.step.committing = false ∧
        s.badLines (s.strandLines d.src (copyReadLen d) ++ s.mergeLines d.dst d.len) = [] ∧ (State.copyRows false d (s.copyPlan d) s).2 = true ∧
        (1, false) ∈ (copying fill [(1, false)]).units.copied) := by
  refine ⟨by decide +kernel, by decide +kernel, by decide +kernel, ⟨by decide +kernel, by decide +kernel, by decide +kernel,
    by decide +kernel, by decide +kernel, _, rfl⟩, by decide +kernel, by decide +kernel⟩

/-- A frame from the twin waits: link 0 leads to it. -/
def fromTwin' (s : State) (f : CopyFrame) : State :=
  { s with fab := { s.fab with links := [twinLinkUp], inbox := [⟨0, 2, 0, .copy f⟩] } }

/-- A copy frame. -/
def copyF (op : CopyOp) (use tag addr step mark : Nat) (l : List Byte) : CopyFrame := ⟨op, use, tag, addr, l.length, step, 0, mark, l⟩

/-- A checkpoint mark of a stack waits, and the state without it meets `p`. -/
def marked (s : State) (code : Nat) (p : Nat → Nat → State → Bool) : Bool := (s.takeCkptMark code).any fun r => p r.1 r.2.1 r.2.2

theorem witness_CheckpointEpochs :
    (∀ here : Bool,
      let s : State := (tarnOn { due := some 3 }).setReg .trn 0 0x60 0x80000000
      let s : State := { s with twin := { mode := 1 }, fab := { s.fab with links := if here then [twinLinkUp] else [] } }
      s.canonical = true ∧ (s.stack 0).due = some 3 ∧ s.ckptSend 0 = true ∧ (s.stack 0).epoch = none ∧ s.step.committing = false ∧
        s.partnerPresent = here ∧ (s.tarns.all fun x => x.2.poison.isEmpty) = true ∧ (s.vPages 0)[0]? = some 0x40000 ∧ (s.stack 0).fullNext = true) ∧
    (∀ bad : Bool, marked (fromTwin' ((tarnOn { recvFailed := bad }).setReg .trn 0 0x60 0x40000000) (copyF .mark 1 0 0 3 markCkend [])) markCkend
      (fun i n t => decide (i = 0 ∧ n = 3 ∧ t.ckptArea 0 ≠ none ∧ (t.stack 0).recvFailed = bad)) = true) ∧
    (∀ n ∈ [3, 4], marked (fromTwin' (tarnOn { epoch := some ⟨3, [], [], true⟩ }) (copyF .mark 1 0 0 n markHeld [])) markHeld
      (fun i m t => decide (i = 0 ∧ m = n ∧ (t.stack 0).epoch = some ⟨3, [], [], true⟩)) = true) ∧
    (up.takeCkptMark markCkend = none ∧ up.takeCkptMark markHeld = none) := by
  decide +kernel

/-- A copy frame of an operation waits (for a WRITE, a MARK that closes a stack goes with it), and the frame it came in, it and the state without it meet `p`. -/
def copied' (s : State) (op : CopyOp) (p : RxFrame → CopyFrame → State → Bool) : Bool :=
  (s.takeCopy fun f => f.cop == op || (op == .write && closesStack f)).any fun r => p r.1 r.2.1 r.2.2

/-- The Spillway area is open to the twin, with 1 MiB at 0. -/
def spillway : State := ((tarnOn {}).setReg .twn 0 0x48 1).setReg .twn 0 0x4C 0xC0000000

/-- Stack 0 receives checkpoints into a page at 0. -/
def receiver : State := ((tarnOn {}).setReg .trn 0 0x60 0x40000000).setReg .trn 0 0x74 1

/-- A block in the Spillway area of `n` pages is coming back. -/
def returning' (n : Nat) (pages : List Nat) (crc : Word) : State :=
  { tarnOn {} with stash := { spilled := [⟨1, 0, false, false, 0, 0, 4096 * n, List.replicate n crc, 0x20000000, [], some (0x20000000, pages)⟩] } }

def tx0 : RestoreTx := ⟨15, pkt 0x0404 [], 1, 1, [], []⟩

theorem witness_CopyFrames :
    (copied' (fromTwin' spillway (copyF .write 0 0 0 0 0 (z 8))) .write (fun x f t =>
        f.use == 0 && t.spillwayOpen x f f.data.length && (t.badLines (t.mergeLines (t.spillwayArea.1 + f.addr) f.data.length)).isEmpty) = true ∧
      copied' (fromTwin' (tarnOn {}) (copyF .write 0 0 0 0 0 (z 8))) .write
        (fun x f t => f.use == 0 && !t.spillwayOpen x f f.data.length) = true) ∧
    (copied' (fromTwin' receiver (copyF .write 1 0 0 0 0 (z 4096))) .write (fun x f t => f.use == 1 && t.areaOpen x f && t.canonical) = true ∧
      copied' (fromTwin' (tarnOn {}) (copyF .write 1 0 0 0 0 (z 8))) .write (fun x f t => f.use == 1 && !t.areaOpen x f) = true) ∧
    (copied' (fromTwin' up (copyF .write 2 0 0 0 0 (z 8))) .write
        (fun x f t => f.use == 2 && t.fromTwin x && tagPage f.tag == 0 && t.restoreFault f.data == some 3) = true ∧
      copied' (fromTwin' up (copyF .write 2 1 0 0 0 (z 8))) .write
        (fun x f t => t.fromTwin x && tagPage f.tag != 0 && !(t.twin.receiving.any fun r => r.1 == tagStack f.tag)) = true ∧
      (let s := fromTwin' (wellhead plain) (copyF .write 2 0 0 0 0 (z 112))
       copied' s .write (fun x f t => f.use == 2 && t.fromTwin x && tagPage f.tag == 0 && t.restoreFault f.data == none) = true) ∧
      (let s := fromTwin' { wellhead plain with twin := { receiving := [(0, 1)] } } (copyF .write 2 1 0x40000000 0 0 (z 4096))
       copied' s .write (fun x f t => f.use == 2 && t.fromTwin x && tagPage f.tag != 0 && (t.twin.receiving.any fun r => r.1 == tagStack f.tag) &&
         decide (t.step.att = none ∧ f.addr % 4096 = 0 ∧ f.data.length = 4096) && stackOf f.addr == tagStack f.tag && t.vRegion f.addr == some (0x10000, false)) = true) ∧
      copied' { up with fab := { inbox := [⟨0, 2, 0, .copy (copyF .write 2 0 0 0 0 [])⟩] } } .write (fun x _ t => !t.fromTwin x) = true) ∧
    (copied' (fromTwin' spillway (copyF .readReq 0 0 64 0 0 (z 8))) .readReq
        (fun x f t => t.spillwayOpen x f f.len && (t.poisoned (t.spillwayArea.1 + f.addr) (t.spillwayArea.1 + f.addr + f.len)).isEmpty) = true ∧
      copied' (fromTwin' (spillway.setStack 0 { spillway.stack 0 with poison := [1] }) (copyF .readReq 0 0 64 0 0 (z 8))) .readReq
        (fun x f t => t.spillwayOpen x f f.len && !(t.poisoned (t.spillwayArea.1 + f.addr) (t.spillwayArea.1 + f.addr + f.len)).isEmpty) = true ∧
      copied' (fromTwin' spillway (copyF .readReq 1 0 64 0 0 (z 8))) .readReq (fun _ f _ => f.use != 0) = true) ∧
    ((up.takeCopy fun f => f.cop == .write || closesStack f) = none ∧ (up.takeCopy fun f => f.cop == .readReq) = none) ∧
    (∀ n ∈ [1, 2], copied' (fromTwin' (returning' n [] (crc32c (z 8))) (copyF .readData 0 0 0 0 0 (z 8))) .readData (fun _ f t =>
      (t.stash.blockOf f.tag).any fun r => decide (r.2 = 0 ∧ r.1.returning = some (0x20000000, []) ∧
        r.1.crcs[0]? = some (crc32c f.data) ∧ r.1.size / 4096 = n)) = true) ∧
    (copied' (fromTwin' (returning' 1 [] 0) (copyF .readData 0 0 0 0 0 (z 8))) .readData (fun _ f t =>
      (t.stash.blockOf f.tag).any fun r => decide (r.1.returning = some (0x20000000, []) ∧ r.1.crcs[0]? ≠ some (crc32c f.data)) &&
        (t.attempt r.1.ra).isSome) = true) ∧
    (∀ un ∈ [[0], [0, 1]], copied' (fromTwin' { tarnOn {} with stash := { spilled := [⟨1, 0, false, false, 0, 0, 8192, [0, 0], 0x20000000, un, none⟩] } }
        (copyF .ack 0 0 0 0 0 [])) .ack (fun _ f t =>
      f.use == 0 && decide (f.tag < 2 ^ 31) && (t.stash.blockOf f.tag).any fun r => decide (r.2 = 0 ∧
        (r.1.unacked.filter (· != 0) = [] ↔ un = [0]))) = true) ∧
    (copied' (fromTwin' (returning' 1 [] 0) (copyF .ack 0 (2 ^ 31) 0 0 0 [])) .ack (fun _ f t =>
      f.use == 0 && decide (2 ^ 31 ≤ f.tag) && (t.stash.blockOf (f.tag - 2 ^ 31)).any fun r => (t.attempt r.1.ra).isSome) = true) ∧
    (copied' (fromTwin' (tarnOn { epoch := some ⟨3, [], [1], true⟩ }) (copyF .ack 1 1 0 0 0 [])) .ack (fun _ f t =>
      decide (f.use = 1 ∧ f.tag < 2 ^ 31 ∧ tagStack f.tag < 8 ∧ tagPage f.tag = 0 + 1 ∧ t.canonical = true ∧ (t.vPages 0)[0]? = some 0x40000 ∧
        (t.stack (tagStack f.tag)).epoch = some ⟨3, [], [1], true⟩)) = true) ∧
    (∀ tag ∈ [0, 2 ^ 31], copied' (fromTwin' (tarnOn { epoch := some ⟨3, [], [0], true⟩ }) (copyF .ack 1 tag 0 0 0 [])) .ack (fun _ f t =>
      decide (f.use = 1 ∧ f.tag = tag ∧ tagStack f.tag < 8 ∧ tagPage f.tag = 0 ∧ t.canonical = true ∧
        (t.stack (tagStack f.tag)).epoch = some ⟨3, [], [0], true⟩)) = true) ∧
    (copied' (fromTwin' { up with twin := { sending := some tx0 } } (copyF .ack 2 (2 ^ 31) 0 1 0 [])) .ack
        (fun _ f t => decide (2 ≤ f.use ∧ 2 ^ 31 ≤ f.tag ∧ f.step = 1 ∧ t.twin.sending = some tx0)) = true ∧
      copied' (fromTwin' { up with twin := { sending := some tx0 } } (copyF .ack 2 1 0 1 0 [])) .ack
        (fun _ f t => decide (2 ≤ f.use ∧ f.tag < 2 ^ 31 ∧ tagPage f.tag ≠ 0 ∧ t.twin.sending = some tx0)) = true ∧
      copied' (fromTwin' up (copyF .ack 2 0 0 1 0 [])) .ack (fun _ f t => decide (2 ≤ f.use ∧ t.twin.sending = none)) = true) ∧
    (∀ b ∈ [(1 : Byte), 2], ((fromTwin' { up with twin := { sending := some tx0 } } (copyF .mark 2 0 0 0 6 [b])).takeMark 6).any (fun r =>
      decide (r.2.twin.sending = some tx0 ∧ (leAt 0 1 r.1.data = tx0.mask ↔ b = 1))) = true) := by
  decide +kernel

/-- A twin mark waits. -/
def twinMark (s : State) (code k step : Nat) (l : List Byte) : State := fromTwin' s (copyF .mark 2 0 0 step (code + 2 ^ 8 * k) l)

/-- A checkpointing pair is set up on this module. -/
def pairing : State := { opened plain att0 with twin := { mode := 1 } }

/-- What the partner's HELLO names: mode 1 and this part's features. -/
def helloBytes : List Byte := [1, 0, 0, 0] ++ leBytes 4 (sysCaps up.part).toNat ++ z 56

theorem witness_TwinMarksAndPartnerLoss :
    ((twinMark pairing 1 0 0 helloBytes).takeMark 1).any (fun r => r.2.agrees (helloOf r.1.data)) = true ∧
    ((twinMark pairing 1 0 0 []).takeMark 1).any (fun r => !r.2.agrees (helloOf r.1.data)) = true ∧
    (∀ l ∈ [z 16, [1]], ((twinMark { pairing with twin := { mode := 2, mine := some (1, 0, z 16) } } 2 0 1 l).takeMark 2).any (fun r =>
      decide (r.1.step = att0.step ∧ min 255 (r.1.mark / 2 ^ 8) = min 255 att0.number ∧ (r.1.data.take 16 = z 16 ↔ l = z 16))) = true) ∧
    (∀ n ∈ [1, 2], ((twinMark pairing 3 0 n []).takeMark 3).any (fun r =>
      decide (r.1.step = n ∧ att0.number % 2 ^ 24 = r.1.mark / 2 ^ 8)) = true) ∧
    ((twinMark pairing 4 0 0 []).takeMark 4).any (fun r => decide (r.2.step.halted = none)) = true ∧
    ((twinMark { pairing with step := { halted := some 1 } } 4 0 0 []).takeMark 4).any (fun r => decide (r.2.step.halted ≠ none)) = true ∧
    ((twinMark pairing 5 0 0 (z 48)).takeMark 5).any (fun r => decide (r.2.twin.loadWait = none)) = true ∧
    ((fromTwin' up default).partnerPresent = true) ∧ (up.umc.phase = .dies ∧ up.partnerPresent = false ∧ up.twin.lost = false) := by
  decide +kernel

/-! ## The domain and collectives: witnesses -/

/-- A message for this module waits, from rank `origin`. -/
def heard (s : State) (mtype : Nat) (down : Bool) (origin arg : Nat) (l : List Nat) : State :=
  { s with fab := { s.fab with inbox := [⟨255, 0, origin, .dom ⟨mtype, down, origin, 1, 0, s.dom.wgen % 256, arg, encN l⟩⟩] } }

/-- An upward message of a type waits, and it and the state without it meet `p`. -/
def upOk (s : State) (mtype : Nat) (p : DomFrame → State → Bool) : Bool := (s.takeUp mtype).any fun r => p r.2.1 r.2.2

/-- The wellhead of two ranks; rank 1 in a state. -/
def pairOf (st : Nat) : State :=
  { loadedWith plain with dom := { size := 2, wgen := 1, rankValid := true, ranks := [(0, ⟨1, 5, 0⟩), (1, ⟨st, 5, 0⟩)] } }

/-- Rank 1 of two; rank 0 in a state. -/
def memberOf (st : Nat) : State := { pairOf 1 with dom := { (pairOf 1).dom with rank := 1, ranks := [(0, ⟨st, 5, 0⟩), (1, ⟨1, 5, 0⟩)] } }

theorem witness_RanksJoinAndAreLost :
    (upOk (heard (memberOf 1) 1 false 1 0 []) 1 (fun _ t => !t.isWellhead) = true ∧
      upOk (heard (pairOf 0) 1 false 1 0 [(sysCaps up.part).toNat]) 1 (fun f t => t.isWellhead && t.joinFault f == 0) = true ∧
      upOk (heard (pairOf 0) 1 false 1 0 [0]) 1 (fun f t => t.isWellhead && t.joinFault f != 0) = true) ∧
    (∀ c, c < 2 → hears (heard (pairOf 0) 2 true 1 0 [c]) 2 (fun f _ => fld f 0 == c) = true) ∧
    (∀ g, g < 3 → hears (heard (memberOf 1) 3 true 0 0 [2, g, 0]) 3 (fun f t => t.dom.rankValid &&
      t.claimWins (fld f 1) (fld f 2) == decide (0 < g)) = true) ∧
    ((pairOf 1).dom.rankValid = true ∧ 1 < (pairOf 1).dom.size ∧ (pairOf 1).neighbours = [1] ∧ up.dom.rankValid = false) ∧
    ((heard (pairOf 1) 0x13 false 1 0 []).takeUp 0x13).isSome = true ∧ up.takeUp 0x13 = none ∧
    ((pairOf 1).dom.takeover = none ∧ (pairOf 1).rankLinkUp 1 = false ∧ (pairOf 1).isLost 1 = false ∧
      (pairOf 1).neighbours.contains 1 = true ∧ (pairOf 1).isWellhead = true ∧
      (memberOf 1).rankLinkUp 0 = false ∧ (memberOf 1).isLost 0 = false ∧ (memberOf 1).neighbours.contains 0 = true ∧
      (memberOf 1).canonical = true ∧ { linked link9 with dom := (pairOf 1).dom }.rankLinkUp 1 = true) ∧
    (let s : State := { memberOf 1 with dom := { (memberOf 1).dom with size := 4 } }
     s.neighbours.contains 3 = true ∧ s.isLost 3 = false ∧ (3 : Nat) ≠ s.dom.wh ∧ s.rankLinkUp 3 = false ∧ s.isWellhead = false) ∧
    (upOk (heard (memberOf 1) 0x14 false 1 0 [0]) 0x14 (fun _ t => !t.isWellhead) = true ∧
      upOk (heard (pairOf 2) 0x14 false 0 0 [1]) 0x14 (fun f t => t.isLost (fld f 0)) = true ∧
      upOk (heard (pairOf 1) 0x14 false 0 0 [1]) 0x14 (fun f t => t.isWellhead && decide (fld f 0 < t.dom.size) && !t.isLost (fld f 0)) = true ∧
      (pairOf 1).cp ≠ .faulted ∧ up.takeUp 0x14 = none) := by
  decide +kernel

/-- A handover message of an ARG waits, downward or not, and it and the state without it meet `p`. -/
def handing (s : State) (down : Bool) (args : List Nat) (p : DomFrame → State → Bool) : Bool :=
  (s.takeFrame fun x => match x.data with
    | .dom f => if f.mtype = 0x15 ∧ f.down = down ∧ f.arg ∈ args then some f else none
    | _ => none).any fun r => p r.2.1 r.2.2

theorem witness_WellheadHandover :
    (handing (heard (memberOf 1) 0x15 true 0 2 (List.replicate 20 0)) true [2] (fun _ _ => true) = true) ∧
    (let s : State := { pairOf 1 with dom := { (pairOf 1).dom with handover := some 1 } }
     handing s true [2] (fun _ _ => true) = false ∧ handing s false [1] (fun _ _ => true) = false ∧ s.isWellhead = true ∧
       s.mayHandOver = true ∧ ({ s with step := { att := some att0 } } : State).mayHandOver = false ∧ (pairOf 1).dom.handover = none) ∧
    (∀ g, g < 3 → handing (heard (memberOf 1) 0x15 true 0 0 [g]) true [0] (fun f t => t.dom.rankValid &&
      t.claimWins (fld f 0) f.origin == decide (0 < g)) = true) ∧
    (∀ a ∈ [0, 3], handing (heard (memberOf 1) 0x15 false 1 a []) false [0, 3] (fun f t => !t.isWellhead && f.arg == a) = true ∧
      handing (heard (pairOf 1) 0x15 false 1 a []) false [0, 3] (fun f t => t.isWellhead && !t.isLost f.origin && f.arg == a &&
        t.dom.takeover.isNone) = true) ∧
    (let s : State := { pairOf 1 with dom := { (pairOf 1).dom with size := 3, takeover := some ⟨[], 2⟩ } }
     handing (heard s 0x15 false 1 0 []) false [0, 3] (fun f t => t.isWellhead && !t.isLost f.origin && f.arg == 0 &&
       decide (t.dom.takeover = some ⟨[], 2⟩)) = true ∧ s.isLost 2 = false ∧ 2 < s.dom.size) := by
  decide +kernel

/-- A collective of one module on engine 0. -/
def coll0 (op : CollOp) (dseq : Nat) : Coll :=
  { die := 0, id := 1, dseq := dseq, step := 1, attempt := 0, ra := false, desc := arOf op, ranks := [0], me := 0, leaves := [[0]]
    aligned := true, packet := none }

/-- Its strand has started; engine 0 is as given. -/
def engineOn (op : CollOp) (e : Engine) : State :=
  { opened (progOf [strandOf 1 (.hosted (arOf op))]) { att0 with started := [1] } with fab := { engines := [(0, e)] } }

theorem witness_CollectivesAreIssued :
    (∀ op ∈ [CollOp.ag, .bc, .rs, .ar],
      let e : Engine := { waiting := [coll0 op 0] }
      let s := engineOn op e
      let t := (engineOn op { e with issuedAny := true }).setReg .ceEng 0 0x18 5
      s.canonical = true ∧ lowestColl ((s.readyColls false).filter fun c => c.die == 0) = some (coll0 op 0) ∧ (coll0 op 0).desc.op = op ∧
        (s.engine 0).active.length < 16 ∧ s.groupOrder (coll0 op 0) = true ∧ (s.engine 0).issuedAny = false ∧ t.canonical = true ∧
        lowestColl ((t.readyColls false).filter fun c => c.die == 0) = some (coll0 op 0) ∧ (t.engine 0).issuedAny = true ∧
        t.groupOrder (coll0 op 0) = true ∧ (t.engine 0).active = [] ∧
        2 ^ 31 ≤ (0 + 2 ^ 32 - (t.reg .ceEng 0 0x18).toNat) % 2 ^ 32) ∧
    (up.readyColls false = [] ∧ up.readyColls true = [] ∧ (up.engine 2).active = []) := by
  decide +kernel

/-- A collective frame of a type waits. -/
def collFrame (s : State) (ct : CollType) (dseq rgen : Nat) : State :=
  { s with fab := { s.fab with inbox := [⟨3, 9, 0, .coll { (default : CollFrame) with ctype := ct, dseq := dseq, rgen := rgen }⟩] } }

def taken' (s : State) (ct : CollType) (p : CollFrame → State → Bool) : Bool :=
  (s.takeFrame fun x => match x.data with
    | .coll f => if f.ctype = ct then some f else none
    | _ => none).any fun r => p r.2.1 r.2.2

def carriedB (t : State) (f : CollFrame) (c : Coll) : Bool :=
  decide ((t.allColls.find? fun c => c.dseq == f.dseq) = some c ∧ t.coll? (t.engineOf f.dseq) f.dseq = some c)

theorem witness_CollectiveFrames :
    (∀ ct ∈ [CollType.seg, .credit, .restart, .fin, .finq],
      (let c := coll0 .ar (2 ^ 32 - 1)
       taken' (collFrame (engineOn .ar { active := [c] }) ct (2 ^ 32 - 1) 0) ct (fun f t => carriedB t f c && t.beforeBase f.dseq) = true) ∧
      (let c : Coll := { coll0 .ar 0 with rgen := 1, finsTo := [0] }
       ∀ r, r < 3 → taken' (collFrame (engineOn .ar { active := [c] }) ct 0 r) ct (fun f t => carriedB t f c && !t.beforeBase f.dseq &&
         f.rgen == r && c.finsTo.contains f.level && !t.collSpent c) = true) ∧
      (let c : Coll := { coll0 .ar 0 with rgen := 1, count := 15 }
       taken' (collFrame (engineOn .ar { active := [c] }) ct 0 2) ct (fun f t => carriedB t f c && t.collSpent c) = true) ∧
      taken' (collFrame (engineOn .ar { finished := [⟨0, 0, 0, 1, [0], 0⟩] }) ct 0 0) ct (fun f t =>
        (t.allColls.find? fun c => c.dseq == f.dseq).isNone && ((t.engine (t.engineOf f.dseq)).finished.find? fun x => x.dseq == f.dseq).isSome) =
          true ∧
      taken' (collFrame (engineOn .ar {}) ct 0 0) ct (fun f t =>
        (t.allColls.find? fun c => c.dseq == f.dseq).isNone && !t.beforeBase f.dseq &&
          ((t.engine (t.engineOf f.dseq)).finished.find? fun x => x.dseq == f.dseq).isNone) = true) ∧
    (∀ c ∈ [coll0 .ar 0, { coll0 .ar 0 with finsTo := [0] }, { coll0 .ar 0 with count := 15 }],
      (engineOn .ar { active := [c] }).coll? 0 0 = some c) ∧
    ((engineOn .ar {}).collSpent (coll0 .ar 0) = false ∧ (engineOn .ar {}).collSpent { coll0 .ar 0 with count := 15 } = true ∧
      up.coll? 0 0 = none) := by
  decide +kernel

/-! ## The whole block: witnesses -/

theorem witness_StepRunsTheFrontCommand :
    step { up with pending := [.debugPort, .beat] } = exec .debugPort { up with pending := [.beat] } := rfl

theorem witness_EveryStepKeepsTheInvariant :
    up.canonical = true ∧ ∃ t, step { up with pending := [.debugPort] } = .next t := ⟨by decide +kernel, _, rfl⟩

theorem witness_FaultedIsLeftOnlyByReset :
    (inCp .faulted).cp = .faulted ∧ ∃ t, exec .debugPort (inCp .faulted) = .next t := ⟨rfl, _, rfl⟩

theorem vRegion_plain (s : State) (h : s.regions = plain.regions) (b : Nat) (hb : b / 4096 = 0x40000) : s.vRegion b = some (0x10000, false) := by
  have e : (plain.regions.find? fun r => r.versioned && decide (r.base ≤ b ∧ b < r.base + r.size)) = some ⟨0x40000000, 0x10000, true, .param⟩ := by
    simp only [plain, List.find?]
    rw [show (decide (0x40000000 ≤ b ∧ b < 0x40000000 + 0x10000)) = true from decide_eq_true (by omega)]
    rfl
  unfold State.vRegion
  rw [h, e]

theorem witness_VersionedPagesKeepTheCommittedCopy :
    let s := tarnOn {}
    s.canonical = true ∧ z 64 ≠ [] ∧ 0x40000040 % 4096 + (z 64).length ≤ 4096 ∧ 4096 ≤ 0x10000 ∧ 0x10000 % 4096 = 0 ∧
      (∀ b, b / 4096 = 0x40000040 / 4096 → s.vRegion b = some (0x10000, false)) ∧
      (∀ b, (b / 4096 = 0x40000040 / 4096 ∨ (0x40000040 + 0x10000) / 4096 = b / 4096) → b < tarnTop →
        (s.stack (stackOf b)).trained = true) := by
  refine ⟨by decide +kernel, by decide, by decide, by decide, by decide, fun b hb => vRegion_plain _ rfl b hb, fun b hb _ => ?_⟩
  have e : stackOf b = 0 := by
    simp only [stackOf]
    omega
  rw [e]
  decide

theorem witness_AbortsKeepVersionedRegions :
    let s := withDown (opened plain att0) 0x11 1 0 0 [0, 3, 0, 0, 1]
    (s.canonical = true ∧ s.inl.posts = [] ∧ s.hasDown 0xC = false ∧ s.hasDown 0xF = false ∧ s.step.committing = false ∧
      s.prog = some plain ∧ hearsOpen s 0x11 att0 = true ∧ s.step.att = some att0) ∧
    (0x40000040 < tarnTop ∧ s.vRegion 0x40000040 = some (0x10000, false) ∧ s.areaPage (stackOf 0x40000040) (0x40000040 / 4096) = false) ∧
    s.apart (s.committedAddr 0x40000040) ∧ ∃ t, exec .domainAbort s = .next t := by
  refine ⟨by decide +kernel, by decide +kernel, ⟨by decide +kernel, by decide +kernel⟩, _, rfl⟩

theorem witness_NumbersAreCanonical :
    (fl32 (fAdd 0x7F800000 0xFF800000) = .nan ∧ fl32 (fMul 0 0x7F800000) = .nan ∧ fl32 (fMa 0 0x7F800000 0) = .nan ∧
      fl32 (fDiv 0 0) = .nan ∧ fl32 (fSqrt 0xBF800000) = .nan) ∧
    (∀ f ∈ [logL4, logL6, logL8], 1 ≤ f.maxE ∧ 0 < (codeParts f 1).2 ∧ (decodeDy f 1 1).isSome = true ∧
      (narrowDy f ⟨-1, -9⟩ 127).1 % (f.top + 1) = 0 ∧ (narrowBlock f [0, 1] 127).poisoned = false) := by
  decide +kernel

theorem witness_ControlTree : (1024 : Nat) ≤ 1024 ∧ 1023 < 1024 := by decide

theorem witness_FlagsAreCounted : up.canonical = true ∧ (7 : Nat) < 8 ∧ (0 : Nat) ≠ 7 := by decide +kernel

/-! ## Ill-formed commands: each check of WellFormed refuses one -/

theorem wf_units :
    [Instr.modeChange 640, .kernelComplete 160, .loupeVerdict 16 false, .trimChoice 4, .scrubPeriodEnd 8, .peerPhyUp 12, .explainPassStart 2048,
      .nop .host 16, .nop .mgmt 1, .status 16, .thermTrip (.die 4 0) 0, .thermTrip (.die 0 4) 0, .thermTrip (.hub 2) 0, .thermTrip (.tarn 8) 0,
      .overstayBarEnd 0 0 6, .overstayBarEnd 0 0 15, .overstayBarEnd 0 32 0, .w1cClear .host (2 ^ 48) 0, .strandStart false (2 ^ 24),
      .lvote 1024, .memberSilenceTimeout 1024, .smbAddressWrite default (z 5), .smbBlockWrite default (z 5), .tempLow 2 0,
      .clkFault .crossing 256, .clkFault .silent 4, .clkFault .pll 1,
      .inlLrStepWrite 2 .host 0, .fctRowDlyWrite 0 5 .host 0, .pilotDone 0 128 0, .pilotDone 0 0 4097, .trnHpwWrite 0 4 false .host 0,
      .taskReplay ⟨0, 4⟩ false, .kGroupRescale 0 0 64 0 default, .kGroupRescale 0 0 0 64 default, .pfcFrame 0 8 0, .pfcFrame 0 0 65536,
      .ageReport 0 0 256].all (fun i => !i.wf) = true := by
  decide

theorem wf_frames :
    [Instr.commandPacket { frame .other with vid := some 4096 }, .commandPacket (frame (.ptp .udp4 256 true false false (.announce default))),
      .commandPacket (frame (.udp (.v4 0) (.v4 0) 65536 0 true false false [])), .linkAck 0 { hdrTo 3 9 with vid := some 4096 } 0,
      .linkAck 0 { hdrTo 3 9 with etype := 65536 } 0, .linkAck 0 (hdrTo 3 9) (2 ^ 32), .initFrame 0 (hdrTo 3 9) false 1024 0,
      .dataFrame 0 (hdrTo 3 9) 0 0 (.bad 2), .dataFrame 0 (hdrTo 3 9) 0 0 (.coll { (default : CollFrame) with rgen := 256 }),
      .dataFrame 0 (hdrTo 3 9) 0 0 (.coll { (default : CollFrame) with srcMember := 1024 }),
      .dataFrame 0 (hdrTo 3 9) 0 0 (.coll { (default : CollFrame) with payload := ⟨[256], [], [], false⟩ }),
      .dataFrame 0 (hdrTo 3 9) 0 0 (.copy { (default : CopyFrame) with tag := 2 ^ 32 }),
      .dataFrame 0 (hdrTo 3 9) 0 0 (.dom { (default : DomFrame) with mtype := 256 }),
      .dataFrame 0 (hdrTo 3 9) 0 0 (.dom { (default : DomFrame) with origin := 1024 })].all (fun i => !i.wf) = true ∧
    (Instr.linkAck 0 (hdrTo 3 9) 5).wf = true := by
  decide +kernel

theorem wf_descriptors :
    [{ tileD 1 with cluster := 160 }, { tileD 1 with facet := 4 }, { tileD 1 with kg := 3 }, { tileD 1 with pidx := 4 },
      { tileD 1 with k := 2 ^ 21 }, { tileD 1 with aBase := 2 ^ 17 }, { tileD 1 with aTag0 := 16 }, { tileD 1 with row0 := 64 }].all
        (fun d => !tileWf d) = true ∧ tileWf (tileD 1) = true ∧
    [{ quantD true with pr := 8192 }, { quantD true with tensor := 2 ^ 24 }, { quantD true with inclN := 256 },
      { quantD true with row := { (default : CopyDesc) with rot := 4 } }, { quantD true with col := { (default : CopyDesc) with blk := 3 } }].all
        (fun d => !quantWf d) = true ∧ quantWf (quantD true) = true ∧
    [Instr.collLaunch 0 { arOf .ar with eng := 4 }, .collLaunch 0 { arOf .ar with llog := 17 }, .collLaunch 0 { arOf .ar with pidx := 2 ^ 24 },
      .progLoad 0 { plain with regions := [⟨64, 4096, true, .param⟩] }, .progLoad 0 { plain with updates := [{ entry0 with cols := 64 }] },
      .progLoad 0 { plain with updates := [{ entry0 with rows := 0 }] }, .progLoad 0 { plain with groups := [⟨65536, [], []⟩] },
      .progLoad 0 { plain with layers := [{ (default : LayerEntry) with num := 1024 }] },
      .progLoad 0 (progOf [strandOf (2 ^ 24) (.copy default)]), .progLoad 0 (progOf [strandOf 1 (.statsPass 4 0)]),
      .progLoad 0 (progOf [strandOf 1 (.nsIter { (default : NsDesc) with pb := 3 })]),
      .progLoad 0 (progOf [strandOf 1 (.elem { (default : ElemDesc) with cluster := 160 })]),
      .progLoad 0 (progOf [strandOf 1 (.copy { (default : CopyStrand) with src := 2 ^ 48 })]),
      .progLoad 0 { stashing 0 with stash := [⟨1, 2, 0, 0, 64, 0, 0, 1, 2, 3, 2⟩] },
      .progLoad 0 { plain with copies := [{ (default : CopyEntry) with layer := 1024 }] },
      .modelLoad 0 { (default : Calib) with weights := [{ (default : WeightCopy) with tensor := 2 ^ 24 }] },
      .modelLoad 0 { (default : Calib) with rungs := [(1024, .l4)] },
      .tarnTransfer 0 0 0 0 0 [] .read [] false, .tarnTransfer 0 0 0 65 0 [] .read [] false, .tarnTransfer 0 0 0 1 2 [] .read [] false,
      .tarnTransfer 0 0 0 1 1 [7] .read [] false].all (fun i => !i.wf) = true ∧
    (Instr.progLoad 0 (stashing 4096)).wf = true ∧ (Instr.tarnTransfer 0 0 0 64 64 [14] .read [] false).wf = true := by
  decide +kernel

/-! ## The manual's own numbers -/

/-- R44: the sixteen L4 codes. -/
theorem test_l4_codes : (List.range 16).map (decode32 logL4 127) =
    [0, 0x3F800000, 0x3FB504F3, 0x40000000, 0x403504F3, 0x40800000, 0x40B504F3, 0x41000000,
      0, 0xBF800000, 0xBFB504F3, 0xC0000000, 0xC03504F3, 0xC0800000, 0xC0B504F3, 0xC1000000] := by
  decide +kernel

/-- R45: the boundary codes; 2^15.75 is 2^15 × T8[6]. -/
theorem test_l8_codes : [0x00, 0x01, 0x09, 0x7F, 0x80, 0x81, 0xFF].map (decode32 logL8 127) =
    [0, 0x3F800000, 0x40000000, 0x475744FD, 0, 0xBF800000, 0xC75744FD] := by
  decide +kernel

/-- "Narrowing an order-size feature block to L4": 3.0, -0.7, 11.0 and 0.1 at fit(11.0), and at the delayed scale 0x7F. -/
theorem test_narrow_block :
    fit32 logL4 0x41300000 0 = 0x80 ∧
    ([0x40400000, 0xBF333333, 0x41300000, 0x3DCCCCCD].map fun x => narrowDy logL4 (fl32 x).dy 0x80) =
      [(0x2, .none), (0, .flushed), (0x6, .none), (0, .flushed)] ∧
    ([0x40400000, 0xBF333333, 0x41300000, 0x3DCCCCCD].map fun x => narrowDy logL4 (fl32 x).dy 0x7F) =
      [(0x4, .none), (0x9, .none), (0x7, .saturated), (0, .flushed)] := by
  decide +kernel

/-- "Round to odd against double rounding": 1.4760 × 2^10 becomes 0x155, and in L8 0x55. -/
theorem test_round_to_odd : toL8g ⟨12381585, -13⟩ 127 = 0x155 ∧ (l8gToL8 0x155).1 = 0x55 := by decide +kernel

/-- "One K-group, rescaled and added": the sum, and the accumulator under both roundings. -/
theorem test_k_group :
    groupSum .l4 [(0x6, 0xB), (0x2, 0x3)] = -34758 ∧ rne32 (ofDy ⟨-34758, -14⟩ false) = 0xC007C600 ∧
    rne32 ((fl32 0x453B8000).add (ofDy ⟨-34758, -14⟩ false)) = 0x453B5E0E ∧
    rsr32 (2 ^ 23 - 1) ((fl32 0x453B8000).add (ofDy ⟨-34758, -14⟩ false)) = 0x453B5E0E ∧
    rsr32 (2 ^ 23) ((fl32 0x453B8000).add (ofDy ⟨-34758, -14⟩ false)) = 0x453B5E0F := by
  decide +kernel

/-- "One FAC element of a layer 12 projection". -/
theorem test_fac_element :
    let e : UpdateEntry := { entry0 with b1 := 0x3F600000, eps1 := 0x1F800000, eps2 := 0x2B800000, wd := 0x3D800000, lrm := fOne, gscale := fOne }
    let g := gradOf e 0x6A 0x99
    let m := decay e.b1 0xB6000000 g
    let d := facStep e m 0x35800000 0 500
    let o := updateElem e 0x3A800000 false 0x3D001234 0 0 ⟨m, 0, d⟩
    g = 0xB6800000 ∧ quadOf e g = 0x2D800000 ∧ m = 0xB6100000 ∧ d = 0xBB100000 ∧ o.w = 0x3D001274 ∧ o.badW = false ∧ o.badM = false ∧ o.badV = false ∧
      fit32 logL8 0x36C00000 0 = 0x5E ∧ (narrowDy logL8 (fl32 m).dy 0x5E).1 = 0xF2 := by
  decide +kernel

/-- "Reading SYS_CAPS": the values of a ZT4-40N and a ZT4-40M. -/
theorem test_sys_caps :
    sysCaps { (default : Part) with variant := .n, stepping := 1 } = 0x4E11E924 ∧
    sysCaps { (default : Part) with variant := .m, stepping := 1 } = 0x4D11EFFF := by
  decide

/-- "Decoding a device address": 0x0046_9ABC_D240. -/
theorem test_device_address : stackOf 0x00469ABCD240 = 2 ∧ stackDie 2 = 1 ∧ chanOf 0x00469ABCD240 = 18 := by decide

/-- "Locating and acknowledging a Facet's SKEW flag": the pages of Facet 517, and three SKEWs with a fourth as the clear lands. -/
theorem test_skew_flag :
    [regAddr .fct 517 0x008, regAddr .fct 517 0x00C, regAddr .cut 129 0, regAddr .inc 129 0, regAddr .lpe 12 0, regAddr .inl 3 0] =
      [0x020000605008, 0x02000060500C, 0x020000181000, 0x020000281000, 0x02000004C000, 0x020000013000] ∧
    (let s := ((up.raiseFlag .fct 517 0).raiseFlag .fct 517 0).raiseFlag .fct 517 0
     let t := (s.writeReg .host (regAddr .fct 517 8) 1).1
     s.reg .fct 517 8 = 1 ∧ s.setCount .fct 517 0 = 3 ∧ t.reg .fct 517 8 = 0 ∧ t.setCount .fct 517 0 = 0 ∧
       (t.raiseFlag .fct 517 0).reg .fct 517 8 = 1 ∧ (t.raiseFlag .fct 517 0).setCount .fct 517 0 = 1) := by
  decide +kernel

/-- SHA-384 of "abc" (FIPS 180-4) and CRC-32C of "123456789" (its standard check value). -/
theorem test_digests :
    sha384 [0x61, 0x62, 0x63] =
      0xCB00753F45A35E8BB5A03D699AC65007272C32AB0EDED1631A8B605A43FF5BED8086072BA1E7CC2358BAECA134C825A7 ∧
    crc32c [0x31, 0x32, 0x33, 0x34, 0x35, 0x36, 0x37, 0x38, 0x39] = 0xE3069283 := by
  decide +kernel

/-- "Reading SYS_CAPS over a lossy path": the header of the reply. -/
theorem test_reply_header :
    (replyHeader 0x0201 0xA001 2 12 0x108 false).take 20 =
      [0x5A, 0x54, 0x43, 0x50, 1, 0, 0x82, 1, 0, 0, 0xA0, 1, 0, 2, 0, 12, 0, 0, 1, 8] := by
  decide +kernel

/-- R266: a line's codeword, check symbols below message, has α^0 to α^7 for roots. -/
theorem test_line_code :
    let d : List Byte := (List.range 64).map fun i => BitVec.ofNat 8 (7 * i + 3)
    let w := checkSymbols 0x123456789 d ++ lineMessage 0x123456789 d
    ∀ i, i < 8 → w.foldr (fun c acc => c.xor (gfMul acc (gfPow i))) 0 = 0 := by
  decide +kernel

/-- R67: 2.0 is L4 code 3 and L8 code 9; a tie on the index goes upward; the largest L8 code saturates. -/
theorem test_code_conversions :
    logToLog logL4 logL8 3 = (9, false) ∧ logToLog logL8 logL4 3 = (2, false) ∧ logToLog logL8 logL4 0x7F = (7, true) := by
  decide

/-! ## Poison lists: the witnesses' states have none, and states that have one -/

theorem clean_of_tarns (s : State) (h : (s.tarns.all fun x => x.2.poison.isEmpty) = true) : cleanTarn s := by
  intro i
  simp only [State.stack]
  generalize s.tarns = b at h
  induction b with
  | nil => rfl
  | cons x t ih =>
    obtain ⟨j, v⟩ := x
    simp only [List.all_cons, Bool.and_eq_true, List.isEmpty_iff] at h
    unfold Bank.get
    split
    · exact h.1
    · exact ih h.2

/-- The states of the witnesses above whose statements ask for a clean Tarn. -/
theorem witness_cleanTarn :
    (∀ e a i, cleanTarn (updating e a i)) ∧ (∀ g a, cleanTarn (opened g a)) ∧ (∀ k x, cleanTarn (cutterOn k x)) ∧
    (∀ g m n k a l, cleanTarn (withDown (wellhead g) m n k a l)) ∧ (∀ y b g, cleanTarn (judging y b g)) ∧
    cleanTarn (storing (opened plain att0) 0 (z 16)) ∧
    cleanTarn (storing (opened plain att0) 0 (z 14 ++ [0x80, 0x7F])) := by
  refine ⟨fun _ _ _ => clean_of_tarns _ rfl, fun _ _ => clean_of_tarns _ rfl, fun _ _ => clean_of_tarns _ ?_,
    fun _ _ _ _ _ _ => clean_of_tarns _ rfl, fun _ _ _ => clean_of_tarns _ ?_, clean_of_tarns _ (by decide +kernel),
    clean_of_tarns _ (by decide +kernel)⟩
  · rfl
  · rfl

/-- A loss and a history record that meet a line on the poison list. -/
theorem witness_poisonedLines :
    (let s := (opened plain att0).setStack 0 { (opened plain att0).stack 0 with poison := [0] }
     s.badLines (s.strandLines 0 (4 * 4)) = [0]) ∧
    (let k : StrandKind := .quant (quantD true)
     let g : Program := { progOf [strandOf 1 k] with serving := false }
     let s0 := (opened g { att0 with started := [1] }).setCutter 0 { queue := [(1, false)] }
     let s := s0.setStack 0 { s0.stack 0 with poison := [0] }
     s.headKernel 0 = some (false, strandOf 1 k) ∧ (s.cutter 0).kernel = none ∧
       s.badLines (s.historyLines g (strandOf 1 k)) ≠ []) := by
  decide +kernel

/-! ## Further clauses: witnesses -/

/-- The step number and its lock, a die that falls silent, and a synchronised management queue. -/
theorem witness_StepNumberClocksAndSync :
    ((wellhead plain).stepNumOpen = true ∧ up.hubUp = true ∧ (opened plain att0).hubUp = true ∧
      ((opened plain att0).stepHere = true ∨ (opened plain att0).stepOpen = true)) ∧
    ClkCause.pll ≠ .silent ∧
    (let s : State := { up with queues := [(16, { syncWait := some (pkt 1 []) })] }
     (s.queue (queueIdx .mgmt 0)).syncWait = some (pkt 1 []) ∧ (s.queue 16).running = 0 ∧ (s.queue 16).apart = [] ∧
       knownOpcode 16 1 = true ∧ s.canonical = true) ∧
    (let ds : PtpDataset := ⟨0, 0, 0, 0, 0, 7, 0⟩
     let s : State := { portUp' with host := { portUp'.host with master := some ds, syncRx := 4 } }
     s.hostPortUp = true ∧ s.hostAccepts (frame (.ptp .udp4 0 true false false (.followUp ds.identity 9 5))) = true ∧ s.host.master = some ds ∧
       s.host.syncOrigin = none ∧ s.host.syncRx = 4) ∧
    (let s : State := { portsUp with fab := { portsUp.fab with links := [link9, { link9 with mac := 8, up := false }] } }
     (s.fab.links.map fun l => (l.port, l.mac)).Nodup ∧ absent s.part .cePort 3 0x14 = false) := by
  refine ⟨by decide +kernel, by decide, by decide +kernel, by decide +kernel, by decide +kernel⟩

/-- A run-ahead strand that may start, a row for a fused kernel, and the copies of a model whose line is good or uncorrectable. -/
theorem witness_RunAheadFusedAndModel :
    (let c := strandOf 1 (.copy default)
     let g := progOf [c, strandOf 2 (.loss 0 4)]
     let s : State := { wellhead g with step := { ra := some att0 } }
     s.prog = some g ∧ s.attempt true = some att0 ∧ s.strand? 1 = some c ∧ (issuable true g.strands).any (·.id == 1) = true ∧
       active att0 c = true ∧ 1 ∉ att0.started ∧ depsDone att0 (issuable true g.strands) c = true ∧
       phasesDone att0 (issuable true g.strands) c = true ∧ s.inOrder att0 (issuable true g.strands) c = true ∧
       s.clearFor g att0 (issuable true g.strands) c = true ∧ s.waitsForReturn true g c = false ∧ s.firstBlocks g 1 = [] ∧
       s.windowsFinal = true) ∧
    (let d : TileDesc := { tileD 1 with fused := 1 }
     let s := facetOn d { mode := .q4, tasks := [drained 0] }
     (s.facet 0).live 0 = [drained 0] ∧ s.tileOf (drained 0) = some d ∧ (drained 0).next < partRows d.mode ∧
       s.attempt false = some { att0 with started := [1] } ∧ rowFolded (drained 0) d 0 = true ∧ d.incl = none ∧
       s.inLoupe 0 (drained 0) = false ∧ (s.drainRow 0 (drained 0) d (List.replicate 128 0)).any notFinite = false) ∧
    (∀ bad : Bool,
      let info : ServInfo := { info1 with params := [(1, 1, 1)] }
      let g : Program := { serving with serv := some info }
      let s0 : State := loadedWith g
      let s := s0.setStack 0 { s0.stack 0 with trained := true, poison := if bad then [64] else [] }
      let w : WeightCopy := ⟨1, false, { (default : CopyDesc) with en := true, fmt := .f16, codes := 4096 }, 0, false, [], 0, false, false, []⟩
      let l := z 12 ++ leBytes 4 1 ++ digestBytes (sha384 (z 2)) ++ leBytes 4 1 ++ z 4 ++ leBytes 8 64
      let es := modelEntries (leAt 12 4 l) l
      let u := s.take 15 []
      ready (withCmd s0 15 0x0501 l) 15 0x0501 l = true ∧ s.prog = some g ∧ g.serving = true ∧ s.serv.model = none ∧
        l.length = 64 + 16 * leAt 12 4 l ∧ es = [(1, 0, 64)] ∧ modelLoadFault info 0 0 1 es = none ∧
        u.ringIn .serv 0x20 (256 * u.prvSize) = true ∧ modelRanges info 0 0 es = [(0, 0), (64, 66)] ∧
        (match u.bulkReadAll [(0, 0), (64, 66)] [] with
          | (v, .ok bytes) => decide (bytes = z 2) && decide ((State.narrowWeights info es [w] v).2 = if bad then some (4096, 0) else none)
          | _ => false) = true ∧
        digestBytes (sha384 (z 2)) = slice 16 48 l) := by
  refine ⟨by decide +kernel, by decide +kernel, by decide +kernel⟩

/-- A peer port that holds its links down, a twin INIT on a port that is no Oxbow port, an inner discard and EN of the flow control. -/
theorem witness_PeerPortsFurther :
    (let s : State := { portsUp with fab := { portsUp.fab with ports := [(3, { phy := true, held := true })] } }
     s.portUp 3 = true ∧ s.peerAccepts 3 (hdrTo 3 9) false = true ∧ s.initOk 3 9 false 1 s.ceDomain = true ∧ (s.port 3).held = true) ∧
    (portsUp.linkRoom 3 9 = true ∧ portsUp.linkIsUp 3 9 = false ∧ (linked link9).linkRoom 3 9 = true) ∧
    (portsUp.portUp 3 = true ∧ portsUp.peerAccepts 3 (hdrTo 3 9) true = true ∧ oxbow 3 = false) ∧
    (portsUp.peerAccepts 3 { hdrTo 3 9 with len := 63 } false = false ∧ portsUp.peerAccepts 3 { hdrTo 3 9 with len := 8321 } false = false ∧
      portsUp.peerAccepts 3 { hdrTo 3 9 with fcsOk := false } false = false ∧
      (linked link9).peerAccepts 3 { hdrTo 3 9 with len := max 64 (frameBytes (.coll default)) } false = true) ∧
    ((linked link9).nakDue link9 = true ∧ ({ link9 with replay := [⟨0, .coll default, true⟩] } : Link).waiting = [] ∧
      ∀ f ∈ ({ link9 with replay := [⟨0, .coll default, true⟩] } : Link).replay, f.sent = true) ∧
    (let s := portsUp.setReg .cePort 3 0x20 0x80000000
     s.portUp 3 = true ∧ bit (s.lnk 3 0x20) 31 = true ∧ bit ((portsUp.setReg .cePort 3 0x20 0).lnk 3 0x20) 31 = false ∧
       portsUp.pcpCtrl 3 < 8) := by
  decide +kernel

/-- A collective of the run-ahead alone is ready, and one whose strand is done. -/
theorem witness_CollectivesFurther :
    (∀ op ∈ [CollOp.ag, .bc, .rs, .ar],
      let c : Coll := { coll0 op 0 with ra := true }
      let g := progOf [strandOf 1 (.hosted (arOf op))]
      let s : State :=
        { wellhead g with step := { ra := some { att0 with started := [1] } }, fab := { engines := [(0, { waiting := [c] })] } }
      s.canonical = true ∧ s.readyColls false = [] ∧ lowestColl ((s.readyColls true).filter fun c => c.die == 0) = some c ∧ c.desc.op = op ∧
        (s.engine 0).active.length < 16 ∧ s.groupOrder c = true ∧ (s.engine 0).issuedAny = false) ∧
    (∀ ct ∈ [CollType.seg, .credit, .restart, .fin, .finq],
      let s : State := opened (progOf [strandOf 1 (.hosted (arOf .ar))]) { att0 with started := [1], done := [1] }
      taken' (collFrame s ct 0 0) ct (fun f t => (t.allColls.find? fun c => c.dseq == f.dseq).isNone && t.collOver f.dseq &&
        ((t.engine (t.engineOf f.dseq)).finished.find? fun x => x.dseq == f.dseq).isNone) = true) := by
  decide +kernel

/-! ## Conditions that the second review brought: witnesses -/

/-- A MARK that closes a stack, a USE above 2, a page of a restore while a step is open, and an ABORTED for an attempt yet to open. -/
theorem witness_CopyFramesAndMarksFurther :
    copied' (fromTwin' up (copyF .mark 2 0 0 0 0x14 [])) .write (fun _ f _ => f.cop == .mark) = true ∧
    copied' (fromTwin' up (copyF .write 3 0 0 0 0 [])) .write (fun _ f _ => f.cop == .write && decide (3 ≤ f.use)) = true ∧
    copied' (fromTwin' { opened plain att0 with twin := { receiving := [(0, 1)] } } (copyF .write 2 1 0x40000000 0 0 (z 4096))) .write
      (fun x f t => f.use == 2 && t.fromTwin x && tagPage f.tag != 0 && decide (t.step.att ≠ none)) = true ∧
    (let s := fromTwin' (wellhead plain) (copyF .write 2 0 0 0 0 (z 112))
     copied' s .write (fun _ _ t => t.squash.takeStacks.2.twin.receiving.isEmpty) = true) ∧
    (∀ n ∈ [2, 3], ((twinMark pairing 3 1 n []).takeMark 3).any (fun r =>
      decide (r.1.step = n ∧ att0.step ≠ r.1.step ∧ (r.1.step ≠ att0.step + 1 ↔ n = 3))) = true) ∧
    ((twinMark pairing 3 1 1 []).takeMark 3).any (fun r => decide (att0.step = r.1.step ∧ att0.number < r.1.mark / 2 ^ 8)) = true := by
  decide +kernel

/-- Requests for a planned handover: at a member, at a wellhead that cannot pass its state yet, two that meet, and one turned down. -/
theorem witness_HandoverFurther :
    handing (heard (memberOf 1) 0x15 false 0 1 []) false [1] (fun _ t => !t.isWellhead && t.dom.handover.isNone) = true ∧
    (∀ h ∈ [none, some 1],
      let s : State := { opened plain att0 with dom := { (pairOf 1).dom with size := 3, handover := h } }
      handing (heard s 0x15 false 2 1 []) false [1] (fun f t => t.isWellhead && !t.mayHandOver && decide (t.dom.handover = h) &&
        f.origin != t.dom.rank) = true ∧ (1 : Nat) ≠ s.dom.rank) ∧
    handing (heard (memberOf 1) 0x15 true 0 4 []) true [4] (fun _ t => t.dom.handover.isNone) = true ∧
    handing (heard (pairOf 1) 0x15 false 1 5 []) false [0, 3, 5] (fun f t => t.isWellhead && !t.isLost f.origin && f.arg == 5) = true ∧
    ((memberOf 1).stash.spilled = [] ∧ (∀ b ∈ (memberOf 1).stash.spilled, b.toTwin = true ∨ b.peer ≠ 0)) := by
  decide +kernel

/-- What an ABORT waits for: an EXHAUSTED that it came with, and every module's halt; a decision that waits behind it; a COMMIT that
names no base. -/
theorem witness_StepsFurther :
    (∀ wellhead' : Bool,
      let s0 : State := if wellhead' then opened segProg att0 else { member segProg with step := { att := some att0 } }
      let s := withDown s0 0x11 1 0 0 [0, 7]
      let x : RxFrame := ⟨255, 0, 0, .dom (s.domFrame 7 true 1 0 0 (encN [0, 2, 0, 4]))⟩
      let t : State := { s with fab := { s.fab with inbox := s.fab.inbox ++ [x] } }
      t.hasDown 0x11 = true ∧ t.exhaustAbort = true ∧ t.exhaustWaits = true ∧ s.exhaustWaits = false ∧
        (withDown s0 0x11 1 0 0 [0, 3]).exhaustAbort = false ∧
        ((t.takeFrame (isDecision 4)).any fun r => r.2.2.isWellhead == wellhead' && decide ((r.2.2.passDown r.2.1).prog = some segProg ∧
          (r.2.2.passDown r.2.1).attemptOf r.2.1.step = some (false, att0) ∧ fld r.2.1 0 = att0.base)) = true) ∧
    ({ wellhead plain with step := { halted := some 1 }, dom := { (wellhead plain).dom with halting := [1] } } : State).dom.halting ≠ [] ∧
    (hears (withDown (opened voting att0) 0xF 1 0 0 [2 ^ 41]) 0xF fun f t => decide (fld f 0 = 2 ^ 41 ∧ t.step.att = some att0 ∧
      att0.step = f.step)) = true ∧
    ((wellhead plain).restoring = false ∧ ({ wellhead plain with twin := { receiving := [(0, 1)] } } : State).restoring = true ∧
      (wellhead plain).openWaits 1 = false ∧
      (let a : Attempt := { att0 with hold := [(0x40000000, [0])] }
       let s : State := { withDown (wellhead plain) 4 1 0 0 [0] with step := { ra := some a }, tarns := [(0, { due := some 0 })] }
       (s.takeDown 4).any (fun x => s.openWaits x.1.step) = true)) := by
  decide +kernel

/-- A spilled block that is not all acknowledged, and one that another of a lower identifier goes before. -/
theorem witness_StashFurther :
    let e (id : Nat) : StashEntry := ⟨id, 2, 0, 0, 4096, 4096, 4096, 1, 2, 3, 2⟩
    let g : Program := { stashing 8192 with stash := [e 1, e 2] }
    let s : State := { opened g { att0 with started := [3] } with stash := { spilled := [spilled0 1, spilled0 2] } }
    ({ spilled0 1 with unacked := [0] } : Spilled).unacked ≠ [] ∧ spilled0 1 ∈ s.stash.spilled ∧
      (s.stash.spilled.find? fun b => b.id == 2 && b.shard == 0) = some (spilled0 2) ∧ s.returnDue g (spilled0 1) = true ∧
      ((stashEntry g 1 0).any fun x => (stashEntry g 2 0).any fun y => x.die == y.die) = true := by
  decide +kernel

/-- A task whose operands do not fit and that has read them, a Facet gated below 8, and the first slice of a Facet. -/
theorem witness_FacetsFurther :
    (let d : TileDesc := { tileD 2 with k := 32 * 600 }
     let o : Operand := { (default : Operand) with codes := [1] }
     let t : FTask := { drained 0 with fetched := Bank.put operandDefault [] (operandKey false 3 0) o }
     operandsFit d = false ∧ o.codes ≠ [] ∧ Bank.get operandDefault t.fetched (operandKey false 3 0) = o ∧ operandsFit (tileD 2) = true) ∧
    (let s : State := { facetOn (tileD 2) { issuing := true, mode := .q4, tasks := [{ drained 0 with cells := [] }] } with pwr := { dSlow := 7 } }
     s.duty < 8 ∧ (s.facet 0).issuing = true ∧ s.hasSlice 0 = true) ∧
    ((up.facet 0).issuing = false ∧ up.canonical = true ∧ PFmt.f16 ≠ .cnm) := by
  decide +kernel

/-- The long message in two frames, and its end; the sums of a statistics pass on the tensor's die, and elsewhere. -/
theorem witness_PeerAndInletFurther :
    (let f (n : Nat) : DomFrame := ⟨3, false, 0, 1, 0, 0, 0, List.replicate n 0⟩
     (f 8192).payload.length = 8192 ∧ (f 7).payload.length ≠ 8192 ∧ max 64 (frameBytes (.dom (f 8192))) = 8246) ∧
    (let l : Link := { link9 with part := [1] }
     (linked l).link? 3 9 = some l ∧ (linked l).peerAccepts 3 { hdrTo 3 9 with len := 8246 } false = true) ∧
    (onDie 0 (tarnAddr 0) 4 = true ∧ onDie 0 (tarnAddr 0) (4 * 128) = true ∧
      (updating entry0 att0 {}).stops { plain with updates := [entry0] } att0 (some 2) = false ∧
      (let s := opened voting att0
       let t : State := { s with dom := { s.dom with held := [⟨2, 0, .at 0, 1, false⟩] } }
       t.stops voting att0 (some 2) = true)) := by
  refine ⟨⟨List.length_replicate .., by decide, ?_⟩, by decide +kernel, by decide +kernel⟩
  simp only [frameBytes, List.length_replicate]
  decide

/-- From FAULTED a reset row leads to BOOT. -/
theorem witness_FaultedToBoot : ∃ t, exec .standbyLost (inCp .faulted) = .next t ∧ t.cp = .boot ∧ t.prog = none := ⟨_, rfl, rfl, rfl⟩

end Sys2Proof.Tests
end

section
/-! PROOFS. Single register writes: which status `writeStatus` answers and why, what a refused write leaves, what an accepted one stores
and a later read answers, and what a write to a W1C register clears. -/
namespace Sys2Proof.Machine

/-! ## Where an address leads -/

theorem exec_plainRegisterWrite (s : State) (who : Requester) (a : Nat) (v : Word) :
    exec (.plainRegisterWrite who a v) s = s.accessWrite who a v := rfl

/-- An address on a page is that of a register offset of one of the page's instances. -/
theorem pageOf_eq_some {a : Nat} {b : Block} {i o : Nat} (h : pageOf a = some (b, i, o)) :
    i < instances b ∧ o < 0x1000 ∧ a = regAddr b i o := by
  unfold pageOf at h
  obtain ⟨x, hx, he⟩ := Option.map_eq_some_iff.1 h
  obtain ⟨h1, h2⟩ : pageBase x ≤ a ∧ a < pageBase x + 0x1000 * instances x := by
    simpa using List.find?_some hx
  simp only [Prod.mk.injEq] at he
  obtain ⟨rfl, rfl, rfl⟩ := he
  simp only [regAddr]
  omega

theorem offset_aligned {b : Block} {i o : Nat} (h : regAddr b i o % 4 = 0) : o % 4 = 0 := by
  have := pageBase_aligned b
  unfold regAddr at h
  omega

theorem hubSide_of_ne_umc {b : Block} (h : b ≠ .umc) : hubSide b = true := by
  revert h
  cases b <;> decide

/-! ## Writes that reach no register -/

theorem accessWrite_misaligned (s : State) (who : Requester) (a : Nat) (v : Word) (hr : s.reaches who = true) (h : a % 4 ≠ 0) :
    s.accessWrite who a v = .next { s with access := .badField } := by
  simp [State.accessWrite, State.writeReg, guarded, hr, h]

theorem accessWrite_unmapped (s : State) (who : Requester) (a : Nat) (v : Word) (hr : s.reaches who = true) (h : a % 4 = 0)
    (hp : pageOf a = none) : s.accessWrite who a v = .next { s with access := .unmapped } := by
  simp [State.accessWrite, State.writeReg, guarded, hr, h, hp]

theorem writeReg_hubDown (s : State) (who : Requester) (a : Nat) (v : Word) (b : Block) (i o : Nat) (h : a % 4 = 0)
    (hp : pageOf a = some (b, i, o)) (hb : b ≠ .umc) (hd : s.hubUp = false) : s.writeReg who a v = (s, .badState) := by
  simp [State.writeReg, h, hp, hubSide_of_ne_umc hb, hd]

theorem accessWrite_hubDown (s : State) (who : Requester) (a : Nat) (v : Word) (b : Block) (i o : Nat) (hr : s.reaches who = true)
    (h : a % 4 = 0) (hp : pageOf a = some (b, i, o)) (hb : b ≠ .umc) (hd : s.hubUp = false) :
    s.accessWrite who a v = .next { s with access := .badState } := by
  simp [State.accessWrite, writeReg_hubDown s who a v b i o h hp hb hd, guarded, hr]

/-- A write to a hub register that is accepted finds the hub up. -/
theorem hubUp_of_accepts (s : State) (who : Requester) (a : Nat) (v : Word) (b : Block) (i o : Nat) (h : a % 4 = 0)
    (hp : pageOf a = some (b, i, o)) (hb : b ≠ .umc) (ha : s.accepts who a v) : s.hubUp = true := by
  obtain ⟨-, hok⟩ := ha
  by_contra hd
  rw [writeReg_hubDown s who a v b i o h hp hb (by simpa using hd)] at hok
  cases hok

/-! ## The status of a write to a register, reason by reason -/

theorem writeStatus_owned (s : State) (b : Block) (i : Nat) (r : RegDesc) (v : Word) (h : r.urhild = true) :
    s.writeStatus .host b i r v = .owned := by
  simp [State.writeStatus, h]

section
variable (s : State) (who : Requester) (b : Block) (i : Nat) (r : RegDesc) (v : Word)
variable (hu : r.urhild = false) (ht : b = .trn → (s.stack i).trained = true)
include hu ht

/-- For a register that is not Urhild's, on a page that is in reach, the status is decided by the register's kind, its lock, its unit
and its ranges, in this order. -/
theorem writeStatus_inReach :
    s.writeStatus who b i r v =
      if r.kind = .ro ∨ r.kind = .rc then .ok
      else if r.kind = .w1c then .ok
      else if s.locked b i r then .locked
      else if s.unitRefuses b i r.off v then .badState
      else if !(inRanges v r.ranges && s.valueOk b i r.off v) then .badField
      else .ok := by
  have h1 : ¬(who = .host ∧ r.urhild = true) := by simp [hu]
  have h2 : ¬(b = .trn ∧ (s.stack i).trained = false) := fun ⟨hb, hf⟩ => by simp [ht hb] at hf
  unfold State.writeStatus
  rw [if_neg h1, if_neg h2]

theorem writeStatus_readOnly (hk : r.kind = .ro ∨ r.kind = .rc) : s.writeStatus who b i r v = .ok := by
  rw [writeStatus_inReach s who b i r v hu ht, if_pos hk]

theorem writeStatus_w1c (hk : r.kind = .w1c) : s.writeStatus who b i r v = .ok := by
  simp [writeStatus_inReach s who b i r v hu ht, hk]

theorem writeStatus_locked (hk : r.kind = .rw ∨ r.kind = .wo) (hl : s.locked b i r = true) : s.writeStatus who b i r v = .locked := by
  rw [writeStatus_inReach s who b i r v hu ht]
  rcases hk with hk | hk <;> simp [hk, hl]

theorem writeStatus_outOfRange (hk : r.kind = .rw) (hf : b ≠ .fct) (hl : s.locked b i r = false)
    (hv : inRanges v r.ranges = false) : s.writeStatus who b i r v = .badField := by
  have hr : s.unitRefuses b i r.off v = false := by
    unfold State.unitRefuses
    split
    · exact absurd rfl hf
    · exact absurd rfl hf
    · rfl
  simp [writeStatus_inReach s who b i r v hu ht, hk, hl, hr, hv]

end

/-! ## What a refused write leaves behind -/

theorem eventOnly_setAccess {s t : State} (x : Access) (h : eventOnly s t) :
    eventOnly { s with access := x } { t with access := x } := by
  obtain ⟨h1, h2, h3⟩ := h
  exact ⟨by rw [h1], h2, h3⟩

theorem refusedWrite_locked (s : State) (b : Block) (i o : Nat) : s.refusedWrite b i o .locked = s := by
  simp [State.refusedWrite]

/-- Only the low half held of a refused MAC address goes. -/
theorem refusedWrite_badField (s : State) (b : Block) (i o : Nat) :
    s.refusedWrite b i o .badField = { s with host := (s.refusedWrite b i o .badField).host } := by
  by_cases h : b = .host ∧ o = 0x18 <;> simp [State.refusedWrite, h]

theorem refusedWrite_owned_of_ne_trn (s : State) (b : Block) (i o : Nat) (h : b ≠ .trn) : s.refusedWrite b i o .owned = s := by
  simp [State.refusedWrite, h]

theorem eventOnly_refusedWrite_owned (s : State) (b : Block) (i o : Nat) : eventOnly s (s.refusedWrite b i o .owned) := by
  unfold State.refusedWrite
  rw [if_neg (by simp)]
  split
  · exact eventOnly_raiseEv s _ _ _
  · exact eventOnly_refl s

theorem writeAt_readOnly (s : State) (who : Requester) (b : Block) (i o : Nat) (r : RegDesc) (v : Word)
    (h : s.writeStatus who b i r v = .ok) (hk : r.kind = .ro ∨ r.kind = .rc) : s.writeAt who b i o r v = (s, .ok) := by
  rcases hk with hk | hk <;> simp [State.writeAt, h, hk]

theorem writeAt_w1c (s : State) (who : Requester) (b : Block) (i o : Nat) (r : RegDesc) (v : Word)
    (h : s.writeStatus who b i r v = .ok) (hk : r.kind = .w1c) : s.writeAt who b i o r v = (s.clearFlags b i v, .ok) := by
  simp [State.writeAt, h, hk]

section
variable {s : State} {who : Requester} {a : Nat} {v : Word} {b : Block} {i o : Nat} {r : RegDesc}
variable (hup : s.hubUp = true) (h4 : a % 4 = 0) (hp : pageOf a = some (b, i, o)) (hd : regDesc b o = some r)
variable (ha : absent s.part b i o = false)
include hup h4 hp hd ha

/-- A write to an address of a register that exists, with the hub up, comes down to the checks and the effect of that register. -/
theorem accessWrite_of_page (hr : s.reaches who = true) :
    s.accessWrite who a v = .next { (s.writeAt who b i o r v).1 with access := (s.writeAt who b i o r v).2 } := by
  obtain ⟨hi, ho, rfl⟩ := pageOf_eq_some hp
  exact accessWrite_regAddr s who b i o r v hi ho (offset_aligned h4) hr (by simp [hup]) hd ha

/-- A refused write leaves what `refusedWrite` says and the access status. -/
theorem accessWrite_refused_of_page (hr : s.reaches who = true) {why : Access} (h : s.writeStatus who b i r v = why) (hk : why ≠ .ok) :
    s.accessWrite who a v = .next { s.refusedWrite b i o why with access := why } := by
  rw [accessWrite_of_page hup h4 hp hd ha hr, writeAt_refused _ _ _ _ _ _ _ _ h hk]

end

/-- Settles O9: each status is a branch of `writeStatus`, and a refused write leaves what `refusedWrite` says. -/
theorem registerWriteStatus : Obligations.RegisterWriteStatus := by
  unfold Obligations.RegisterWriteStatus
  refine ⟨accessWrite_misaligned, accessWrite_unmapped, accessWrite_hubDown, ?owned, ?readOnly, ?locked, ?outOfRange⟩
  case owned =>
    intro s a v b i o r hup h4 hp hd ha hu
    have hw := accessWrite_refused_of_page hup h4 hp hd ha (who := .host) hup (writeStatus_owned s b i r v hu) (by decide)
    refine ⟨_, hw, rfl, fun hb => ?_, fun _ => ?_⟩
    · rw [refusedWrite_owned_of_ne_trn s b i o hb]
    · exact eventOnly_setAccess .owned (eventOnly_refusedWrite_owned s b i o)
  case readOnly =>
    intro s who a v b i o r hup hr h4 hp hd ha hu hk ht
    rw [exec_plainRegisterWrite, accessWrite_of_page hup h4 hp hd ha hr,
      writeAt_readOnly s who b i o r v (writeStatus_readOnly s who b i r v hu ht hk) hk]
  case locked =>
    intro s who a v b i o r hup hr h4 hp hd ha hu hk ht hl
    rw [exec_plainRegisterWrite,
      accessWrite_refused_of_page hup h4 hp hd ha hr (writeStatus_locked s who b i r v hu ht hk hl) (by decide), refusedWrite_locked]
  case outOfRange =>
    intro s who a v b i o r hup hr h4 hp hd ha hu hk hb hf hl hv
    have hs := writeStatus_outOfRange s who b i r v hu (fun h => absurd h hb) hk hf hl hv
    refine ⟨_, accessWrite_refused_of_page hup h4 hp hd ha hr hs (by decide), ?_⟩
    rw [refusedWrite_badField]
    exact ⟨rfl, rfl, rfl, rfl, rfl⟩

/-! ## The registers of the Cutter, Loupe and Twin pages -/

section
variable {b : Block} (hb : b = .cut ∨ b = .lpe ∨ b = .twn)
include hb

theorem storeReg_plain (s : State) {i : Nat} (hi : i < instances b) (o : Nat) (w : Word) : s.storeReg b i o w = s.setReg b i o w := by
  rcases hb with rfl | rfl | rfl
  · rfl
  · rfl
  · obtain rfl : i = 0 := Nat.lt_one_iff.1 hi
    rfl

variable {o : Nat} {r : RegDesc} (hd : regDesc b o = some r) (hk : r.kind = .rw)
include hd hk

/-- A read-write register of these pages is stored, not computed. -/
theorem viewNat_plain (s : State) (i : Nat) : s.viewNat b i o = none := by
  have computed (o' : Nat) (r' : RegDesc) (h : regDesc b o' = some r') (hk' : r'.kind = .ro) : o ≠ o' := by
    rintro rfl
    obtain rfl : r = r' := Option.some.inj (hd.symm.trans h)
    simp [hk] at hk'
  rcases hb with rfl | rfl | rfl
  · have h0 := computed 0 _ rfl rfl
    simp [State.viewNat, State.cutView]
  · have h0 := computed 0 _ rfl rfl
    simp [State.viewNat, State.lpeView]
  · have h0 := computed 0 _ rfl rfl
    have h1 := computed 0x14 _ rfl rfl
    have h2 := computed 0x64 _ rfl rfl
    simp [State.viewNat, State.twnView]

theorem regView_plain (s : State) (i : Nat) (ha : absent s.part b i o = false) : s.regView b i o = s.reg b i o := by
  have hp : pageDisabled s.part b i = false := by
    simp only [absent, Bool.or_eq_false_iff] at ha
    exact ha.1.1
  have hv := viewNat_plain hb hd hk s i
  unfold State.regView
  rcases hb with rfl | rfl | rfl <;> simp [hd, hp, hk, hv, onlyC0]

/-- A read of such a register answers the stored word. -/
theorem readAt_plain (s : State) (who : Requester) (i : Nat) (ha : absent s.part b i o = false) :
    (s.readAt who b i o).2 = s.reg b i o := by
  have hi : ¬(pairLo b = some (o - 4) ∧ 4 ≤ o) := by
    rintro ⟨h1, h2⟩
    rcases hb with rfl | rfl | rfl
    · obtain rfl : o = 0x48 := by simp [pairLo] at h1; omega
      cases hd
      cases hk
    · cases h1
    · cases h1
  rw [← regView_plain hb hd hk s i ha]
  unfold State.readAt
  by_cases hl : pairLo b = some o <;> simp [hl, hi]

theorem readReg_plain (s : State) (who : Requester) {a i : Nat} (h4 : a % 4 = 0) (hp : pageOf a = some (b, i, o))
    (hup : s.hubUp = true) (ha : absent s.part b i o = false) : (s.readReg who a).2 = (.ok, s.reg b i o) := by
  simp [State.readReg, h4, hp, hup, readAt_plain hb hd hk s who i ha]

end

/-! ## Set counts -/

theorem setByte_toNat (v : Word) (k n : Nat) (hk : k < 4) :
    (setByte v k n).toNat = v.toNat - v.toNat / 2 ^ (8 * k) % 256 * 2 ^ (8 * k) + n % 256 * 2 ^ (8 * k) := by
  have hv := v.isLt
  rw [setByte, BitVec.toNat_ofNat, Nat.mod_eq_of_lt]
  obtain rfl | rfl | rfl | rfl : k = 0 ∨ k = 1 ∨ k = 2 ∨ k = 3 := by omega
  all_goals simp only [Nat.reduceMul, Nat.reducePow] at hv ⊢; omega

theorem bits_setByte_same (v : Word) (k n : Nat) (hk : k < 4) : bits (setByte v k n) (8 * k) 8 = n % 256 := by
  rw [bits, setByte_toNat v k n hk]
  obtain rfl | rfl | rfl | rfl : k = 0 ∨ k = 1 ∨ k = 2 ∨ k = 3 := by omega
  all_goals simp only [Nat.reduceMul, Nat.reducePow]; omega

theorem bits_setByte_other (v : Word) (k j n : Nat) (hk : k < 4) (hj : j < 4) (h : j ≠ k) :
    bits (setByte v k n) (8 * j) 8 = bits v (8 * j) 8 := by
  rw [bits, bits, setByte_toNat v k n hk]
  obtain rfl | rfl | rfl | rfl : k = 0 ∨ k = 1 ∨ k = 2 ∨ k = 3 := by omega
  all_goals
    obtain rfl | rfl | rfl | rfl : j = 0 ∨ j = 1 ∨ j = 2 ∨ j = 3 := by omega
    all_goals simp only [Nat.reduceMul, Nat.reducePow] at h ⊢; omega

theorem setSetCount_regs_wf (s : State) (b : Block) (i n c : Nat) (h : Bank.wf regReset s.regs = true) :
    Bank.wf regReset (s.setSetCount b i n c).regs = true := Bank.put_wf _ _ _ _ h

/-- A set count lies outside the W1C register. -/
theorem evReg_ne_cntReg (b : Block) (i n : Nat) : regAddr b i (evReg b) ≠ regAddr b i (cntReg b n) := by
  unfold regAddr cntReg
  omega

theorem reg_setSetCount_evReg (s : State) (b : Block) (i n c : Nat) :
    (s.setSetCount b i n c).reg b i (evReg b) = s.reg b i (evReg b) :=
  State.regAt_setReg_other s b i _ _ _ (evReg_ne_cntReg b i n)

theorem setCount_setReg_evReg (s : State) (b : Block) (i n : Nat) (w : Word) :
    (s.setReg b i (evReg b) w).setCount b i n = s.setCount b i n := by
  have h : (s.setReg b i (evReg b) w).reg b i (cntReg b n) = s.reg b i (cntReg b n) :=
    State.regAt_setReg_other s b i _ _ w (evReg_ne_cntReg b i n).symm
  rw [State.setCount, State.setCount, State.field, State.field, h]

theorem setCount_setSetCount_same (s : State) (b : Block) (i n c : Nat) (h : Bank.wf regReset s.regs = true) :
    (s.setSetCount b i n c).setCount b i n = c % 256 := by
  have hw : (s.setSetCount b i n c).reg b i (cntReg b n) = setByte (s.reg b i (cntReg b n)) (n % 4) c :=
    State.reg_setReg_same s b i _ _ h
  rw [State.setCount, State.field, hw, bits_setByte_same _ _ _ (Nat.mod_lt _ (by decide))]

/-- Setting one count leaves the others, be they in the same word or in the other one. -/
theorem setCount_setSetCount_other (s : State) (b : Block) (i n m c : Nat) (h : Bank.wf regReset s.regs = true) (hm : m ≠ n) :
    (s.setSetCount b i n c).setCount b i m = s.setCount b i m := by
  rw [State.setCount, State.setCount, State.field, State.field]
  by_cases hw : m / 4 = n / 4
  · have hc : cntReg b m = cntReg b n := by rw [cntReg, cntReg, hw]
    have hs : (s.setSetCount b i n c).reg b i (cntReg b n) = setByte (s.reg b i (cntReg b n)) (n % 4) c :=
      State.reg_setReg_same s b i _ _ h
    rw [hc, hs, bits_setByte_other _ _ _ _ (Nat.mod_lt _ (by decide)) (Nat.mod_lt _ (by decide)) (by omega)]
  · have hs : (s.setSetCount b i n c).reg b i (cntReg b m) = s.reg b i (cntReg b m) :=
      State.regAt_setReg_other s b i _ _ _ (by unfold regAddr cntReg; omega)
    rw [hs]

/-! ## What a write to a W1C register clears -/

/-- The set counts of the bits of a list that are 1 in a word, cleared. -/
def State.clearCounts (s : State) (b : Block) (i : Nat) (w : Word) (l : List Nat) : State :=
  l.foldl (fun t n => if bit w n then t.setSetCount b i n 0 else t) s

theorem clearFlags_eq (s : State) (b : Block) (i : Nat) (v : Word) (r : RegDesc) (hd : regDesc b (evReg b) = some r) :
    s.clearFlags b i v =
      (s.setReg b i (evReg b) (s.reg b i (evReg b) &&& ~~~(v &&& BitVec.ofNat 32 r.mask))).clearCounts b i
        (v &&& BitVec.ofNat 32 r.mask) (List.range 8) := by
  simp [State.clearFlags, State.clearCounts, hd]

theorem clearCounts_cons (s : State) (b : Block) (i : Nat) (w : Word) (n : Nat) (l : List Nat) :
    s.clearCounts b i w (n :: l) = (if bit w n then s.setSetCount b i n 0 else s).clearCounts b i w l := rfl

theorem clearCounts_onlyRegs (s : State) (b : Block) (i : Nat) (w : Word) (l : List Nat) :
    s.clearCounts b i w l = { s with regs := (s.clearCounts b i w l).regs } := by
  induction l generalizing s with
  | nil => rfl
  | cons n l ih =>
    rw [clearCounts_cons, ih]
    split <;> rfl

theorem reg_clearCounts_evReg (s : State) (b : Block) (i : Nat) (w : Word) (l : List Nat) :
    (s.clearCounts b i w l).reg b i (evReg b) = s.reg b i (evReg b) := by
  induction l generalizing s with
  | nil => rfl
  | cons n l ih =>
    rw [clearCounts_cons, ih]
    split
    · exact reg_setSetCount_evReg s b i n 0
    · rfl

theorem setCount_clearCounts (s : State) (b : Block) (i : Nat) (w : Word) (l : List Nat) (m : Nat)
    (h : Bank.wf regReset s.regs = true) :
    (s.clearCounts b i w l).setCount b i m = if m ∈ l ∧ bit w m = true then 0 else s.setCount b i m := by
  induction l generalizing s with
  | nil => simp [State.clearCounts]
  | cons n l ih =>
    rw [clearCounts_cons]
    by_cases hn : bit w n = true
    · rw [if_pos hn, ih _ (setSetCount_regs_wf s b i n 0 h)]
      by_cases hm : m = n
      · subst hm
        simp [setCount_setSetCount_same s b i m 0 h, hn]
      · simp [setCount_setSetCount_other s b i n m 0 h hm, hm]
    · rw [if_neg hn, ih s h]
      by_cases hm : m = n
      · subst hm
        simp [hn]
      · simp [hm]

section
variable (s : State) (b : Block) (i : Nat) (v : Word) {r : RegDesc} (hd : regDesc b (evReg b) = some r)
include hd

theorem clearFlags_onlyRegs : s.clearFlags b i v = { s with regs := (s.clearFlags b i v).regs } := by
  rw [clearFlags_eq s b i v r hd, clearCounts_onlyRegs]
  rfl

theorem reg_clearFlags_evReg (h : Bank.wf regReset s.regs = true) :
    (s.clearFlags b i v).reg b i (evReg b) = s.reg b i (evReg b) &&& ~~~(v &&& BitVec.ofNat 32 r.mask) := by
  rw [clearFlags_eq s b i v r hd, reg_clearCounts_evReg, State.reg_setReg_same s b i _ _ h]

theorem setCount_clearFlags (h : Bank.wf regReset s.regs = true) (n : Nat) (hn : n < 8) :
    (s.clearFlags b i v).setCount b i n = if bit (v &&& BitVec.ofNat 32 r.mask) n = true then 0 else s.setCount b i n := by
  rw [clearFlags_eq s b i v r hd, setCount_clearCounts _ b i _ _ n (Bank.put_wf _ _ _ _ h), setCount_setReg_evReg]
  simp [hn]

end

/-- Urhild alone writes the W1C register of its own page, and of no other. -/
theorem evReg_not_urhild {b : Block} {r : RegDesc} (hb : b ≠ .umc) (hd : regDesc b (evReg b) = some r) : r.urhild = false := by
  have h : (regDesc b (evReg b)).all (fun r => !r.urhild) = true := by
    revert hb
    clear hd
    cases b <;> decide
  simpa [hd] using h

theorem evReg_lt_page (b : Block) : evReg b < 0x1000 := by cases b <;> decide

theorem evReg_aligned (b : Block) : evReg b % 4 = 0 := by cases b <;> rfl

/-- Settles O10: an accepted write of a plain register is one `setReg`, which a read shows; a W1C write is `clearFlags`. -/
theorem registerReadsAndWrites : Obligations.RegisterReadsAndWrites := by
  unfold Obligations.RegisterReadsAndWrites
  refine ⟨?plainWrite, ?clearFlags⟩
  case plainWrite =>
    intro s who a v b i o r h4 hp hb hd hk ha hacc
    have hup : s.hubUp = true := hubUp_of_accepts s who a v b i o h4 hp (by rintro rfl; simp at hb) hacc
    obtain ⟨hi, ho, rfl⟩ := pageOf_eq_some hp
    have hw := accessWrite_of_accepts s who b i o r v hi ho (offset_aligned h4) (by simp [hup]) hd ha hacc (.inl hk)
    rw [storeReg_plain hb s hi] at hw
    refine ⟨_, hw, rfl, rfl, fun hc => ?_, fun x hx => State.regAt_setReg_other s b i o x _ hx⟩
    have hreg := State.reg_setReg_same s b i o (v &&& BitVec.ofNat 32 r.mask) ((State.canonical_iff s).1 hc).2.1
    have hread := readReg_plain hb hd hk { s.setReg b i o (v &&& BitVec.ofNat 32 r.mask) with access := .ok } who h4 hp hup ha
    exact ⟨hreg, hread.trans (congrArg (Prod.mk _) hreg)⟩
  case clearFlags =>
    intro s who b i r v hb hi hd hk ha hup hr ht hc
    have hwf : Bank.wf regReset s.regs = true := ((State.canonical_iff s).1 hc).2.1
    have hok := writeStatus_w1c s who b i r v (evReg_not_urhild hb hd) ht hk
    have hw := accessWrite_regAddr s who b i (evReg b) r v hi (evReg_lt_page b) (evReg_aligned b) hr (by simp [hup]) hd ha
    rw [writeAt_w1c s who b i (evReg b) r v hok hk] at hw
    refine ⟨_, hw, rfl, reg_clearFlags_evReg s b i v hd hwf, fun n hn hbit => ?_, fun n hn hbit => ?_, ?_⟩
    · exact (setCount_clearFlags s b i v hd hwf n hn).trans (if_pos hbit)
    · exact (setCount_clearFlags s b i v hd hwf n hn).trans (if_neg (by simp [hbit]))
    · rw [clearFlags_onlyRegs s b i v hd]

end Sys2Proof.Machine
end

section
/-! PROOFS. Commands carried out under a condition, and the flags of events: a raised event leaves its flag set, and no later record
clears one. -/
namespace Sys2Proof.Machine

/-! ## Commands that are carried out where a condition holds -/

theorem guarded_of_true {c : Bool} (s t : State) (h : c = true) : guarded c s t = .next t := by
  rw [guarded, if_pos h]

theorem guarded_of_false {c : Bool} (s t : State) (h : c = false) : guarded c s t = .next s := by
  rw [guarded, h, if_neg Bool.false_ne_true]

/-- What a command answers, from the state that it leads to. -/
theorem answers_of_eq {c : Instr} {s t : State} {p : State → Prop} (h : exec c s = .next t) (hp : p t) : answers c s p := ⟨t, h, hp⟩

/-! ## Flags that events leave set -/

/-- Every bit of a register at offset 4 of a page, where the W1C registers of all blocks but the Facets lie, that was 1 stays 1. -/
def flagsGrow (s t : State) : Prop :=
  Bank.wf regReset s.regs = true →
    Bank.wf regReset t.regs = true ∧ ∀ a n, a % 0x1000 = 4 → bit (s.regAt a) n = true → bit (t.regAt a) n = true

theorem flagsGrow_trans {s t u : State} (h : flagsGrow s t) (k : flagsGrow t u) : flagsGrow s u := by
  intro hs
  obtain ⟨ht, h1⟩ := h hs
  obtain ⟨hu, k1⟩ := k ht
  exact ⟨hu, fun a n ha hb => k1 a n ha (h1 a n ha hb)⟩

theorem flagsGrow_of_regs {s t : State} (h : t.regs = s.regs) : flagsGrow s t := by
  intro hs
  refine ⟨h ▸ hs, fun a n _ hb => ?_⟩
  rwa [State.regAt, h]

theorem flagsGrow_refl (s : State) : flagsGrow s s := flagsGrow_of_regs rfl

theorem flagsGrow_setReg_apart (s : State) (b : Block) (i o : Nat) (v : Word) (ho : o < 0x1000) (h4 : o ≠ 4) :
    flagsGrow s (s.setReg b i o v) := by
  refine fun hs => ⟨Bank.put_wf _ _ _ _ hs, fun a n ha hb => ?_⟩
  have hne : a ≠ regAddr b i o := by
    rintro rfl
    exact h4 ((pageBase_mod b i o ho).symm.trans ha)
  rwa [State.regAt_setReg_other s b i o a v hne]

theorem bit_or (v w : Word) (n : Nat) : bit (v ||| w) n = (bit v n || bit w n) := BitVec.getLsbD_or

/-- A register is overwritten by itself with further bits set. -/
theorem flagsGrow_setReg_or (s : State) (b : Block) (i o : Nat) (v : Word) : flagsGrow s (s.setReg b i o (s.reg b i o ||| v)) := by
  refine fun hs => ⟨Bank.put_wf _ _ _ _ hs, fun a n _ hb => ?_⟩
  by_cases h : a = regAddr b i o
  · subst h
    have hr : (s.setReg b i o (s.reg b i o ||| v)).regAt (regAddr b i o) = s.reg b i o ||| v := State.reg_setReg_same s b i o _ hs
    rw [hr, bit_or]
    exact Bool.or_eq_true_iff.2 (.inl hb)
  · rwa [State.regAt_setReg_other s b i o a _ h]

theorem cntReg_apart (b : Block) (n : Nat) (h : n < 8) : cntReg b n < 0x1000 ∧ cntReg b n ≠ 4 := by
  have : evReg b = 4 ∨ evReg b = 8 := by cases b <;> simp [evReg]
  unfold cntReg
  omega

theorem flagsGrow_raiseFlag (s : State) (b : Block) (i n : Nat) (h : n < 8) : flagsGrow s (s.raiseFlag b i n) :=
  flagsGrow_trans (flagsGrow_setReg_or s b i (evReg b) _)
    (flagsGrow_setReg_apart _ b i _ _ (cntReg_apart b n h).1 (cntReg_apart b n h).2)

theorem flagsGrow_flagEvent (s : State) (code inst : Nat) : flagsGrow s (s.flagEvent code inst) := by
  unfold State.flagEvent
  split
  · rename_i b n h
    exact flagsGrow_raiseFlag s b inst n (evFlag_bit code b n h)
  · exact flagsGrow_refl s

theorem flagsGrow_foldl {α : Type} (f : State → α → State) (h : ∀ t x, flagsGrow t (f t x)) (l : List α) (s : State) :
    flagsGrow s (l.foldl f s) := by
  induction l generalizing s with
  | nil => exact flagsGrow_refl s
  | cons x r ih => exact flagsGrow_trans (h s x) (ih _)

theorem flagsGrow_log (s : State) (l : Log) : flagsGrow s { s with log := l } := flagsGrow_of_regs rfl

theorem flagsGrow_logDrop (s : State) : flagsGrow s s.logDrop :=
  flagsGrow_trans (flagsGrow_setReg_apart s .policy 0 0x54 _ (by decide) (by decide)) (flagsGrow_log _ _)

theorem flagsGrow_putBytes (s : State) (a : Nat) (l : List Byte) : flagsGrow s (s.putBytes a l) :=
  flagsGrow_of_regs (State.putBytes_regs s a l)

theorem flagsGrow_logWrite (s : State) (r : EventRec) (lost : Bool) : flagsGrow s (s.logWrite r lost) :=
  flagsGrow_trans (flagsGrow_trans (flagsGrow_putBytes s s.logPlace _)
    (flagsGrow_setReg_apart _ .policy 0 0x4C _ (by decide) (by decide))) (flagsGrow_log _ _)

theorem flagsGrow_setStack (s : State) (i : Nat) (x : Stack) : flagsGrow s (s.setStack i x) := flagsGrow_of_regs rfl

theorem flagsGrow_keepTrnError (s : State) (i l syms cls req : Nat) (ue addr : Bool) :
    flagsGrow s (s.keepTrnError i l syms cls req ue addr) := by
  unfold State.keepTrnError
  dsimp only
  split
  · exact flagsGrow_refl s
  · exact flagsGrow_trans (flagsGrow_trans (flagsGrow_trans (flagsGrow_setStack s i _)
      (flagsGrow_setReg_apart _ .trn i 0x30 _ (by decide) (by decide)))
      (flagsGrow_setReg_apart _ .trn i 0x34 _ (by decide) (by decide)))
      (flagsGrow_setReg_apart _ .trn i 0x38 _ (by decide) (by decide))

/-- An uncorrectable line that the log writer meets: its flag, its count and its address. -/
theorem flagsGrow_trnUE (s : State) (i l : Nat) :
    flagsGrow s (((s.flagEvent 0x0302 i).bump .trn i 0x94 1).keepTrnError i l 0 11 9 true false) :=
  flagsGrow_trans (flagsGrow_flagEvent s 0x0302 i) (flagsGrow_trans
    (flagsGrow_setReg_apart _ .trn i 0x94 _ (by decide) (by decide)) (flagsGrow_keepTrnError _ i l 0 11 9 true false))

theorem flagsGrow_logPut (s : State) (r : EventRec) : flagsGrow s (s.logPut r) := by
  unfold State.logPut
  dsimp only
  split
  · split
    · exact flagsGrow_logWrite s r false
    · rename_i l ls _
      have zeroed : flagsGrow s ((l :: ls).foldl (fun t x => t.putBytes (64 * x) (List.replicate 64 0)) s) :=
        flagsGrow_foldl _ (fun t x => flagsGrow_putBytes t (64 * x) _) _ s
      have marked (t : State) : flagsGrow t ((l :: ls).foldl (fun (t : State) x =>
          ((t.flagEvent 0x0302 (stackOf s.logPlace)).bump .trn (stackOf s.logPlace) 0x94 1).keepTrnError
            (stackOf s.logPlace) x 0 11 9 true false) t) :=
        flagsGrow_foldl _ (fun t x => flagsGrow_trnUE t (stackOf s.logPlace) x) _ t
      refine flagsGrow_trans (flagsGrow_trans zeroed ?_) (flagsGrow_foldl _ (fun t x => ?_) _ _)
      · exact flagsGrow_trans (flagsGrow_trans (flagsGrow_setStack _ (stackOf s.logPlace) _) (marked _)) (flagsGrow_logWrite _ r true)
      · split
        · exact flagsGrow_logWrite _ _ false
        · exact flagsGrow_logDrop _
  · have h := flagsGrow_trans (flagsGrow_flagEvent s 0x0305 (stackOf s.logPlace % 8)) (flagsGrow_logDrop _)
    split
    · exact flagsGrow_trans h (flagsGrow_log _ _)
    · exact flagsGrow_trans h (flagsGrow_logDrop _)

/-- A record is kept for later or counted as lost, written to the ring, or dropped with LOG_LOST. -/
theorem logRecord_cases {P : State → Prop} (s : State) (r : EventRec) (hlog : ∀ x, P { s with log := x }) (hput : P (s.logPut r))
    (hdrop : P s.logDrop) : P (s.logRecord r) := by
  unfold State.logRecord
  split
  · split
    · exact hlog _
    · split
      · exact hlog _
      · exact hlog _
  · split
    · split
      · exact hlog _
      · exact hdrop
    · split
      · exact hput
      · split
        · exact hlog _
        · exact hdrop

theorem flagsGrow_logRecord (s : State) (r : EventRec) : flagsGrow s (s.logRecord r) :=
  logRecord_cases s r (flagsGrow_log s) (flagsGrow_logPut s r) (flagsGrow_logDrop s)

theorem bit_two_pow (n : Nat) (h : n < 32) : bit (BitVec.ofNat 32 (2 ^ n)) n = true := by
  rw [bit, BitVec.getLsbD_ofNat, Nat.testBit_two_pow_self, decide_eq_true h, Bool.and_true]

theorem flagSet_raiseFlag (s : State) (b : Block) (i n : Nat) (hn : n < 8) (hw : Bank.wf regReset s.regs = true) :
    flagSet (s.raiseFlag b i n) b i n := by
  unfold flagSet State.raiseFlag
  rw [reg_setSetCount_evReg, State.reg_setReg_same s b i _ _ hw, bit_or, bit_two_pow n (by omega), Bool.or_true]

/-- A flag outside the Facets' pages that was set stays set. -/
theorem flagSet_of_grow {s t : State} {b : Block} {i n : Nat} (h : flagsGrow s t) (hw : Bank.wf regReset s.regs = true) (hb : b ≠ .fct)
    (hf : flagSet s b i n) : flagSet t b i n := by
  have hreg : evReg b = 4 := by simp [evReg]
  refine (h hw).2 _ n ?_ hf
  rw [pageBase_mod b i _ (evReg_lt_page b), hreg]

/-- An event raised with the main rails on leaves its flag set. -/
theorem flagSet_raiseCtx (s : State) (code inst unit : Nat) (c : EvCtx) (d : List Byte) {b : Block} {n : Nat}
    (he : evFlag code = some (b, n)) (hb : b ≠ .fct) (hra : c.ra = false) (hm : s.mainOn = true) (hc : s.canonical = true) :
    flagSet (s.raiseCtx code inst unit c d) b inst n := by
  have hw : Bank.wf regReset s.regs = true := ((State.canonical_iff s).1 hc).2.1
  have hn : n < 8 := evFlag_bit code b n he
  have hf : s.flagEvent code inst = s.raiseFlag b inst n := by simp [State.flagEvent, he]
  unfold State.raiseCtx
  rw [if_pos hm, hf, hra]
  exact flagSet_of_grow (flagsGrow_logRecord _ _) ((flagsGrow_raiseFlag s b inst n hn) hw).1 hb (flagSet_raiseFlag s b inst n hn hw)

theorem flagSet_raiseEv (s : State) (code inst : Nat) (d : List Byte) {b : Block} {n : Nat} (he : evFlag code = some (b, n))
    (hb : b ≠ .fct) (hm : s.mainOn = true) (hc : s.canonical = true) : flagSet (s.raiseEv code inst d) b inst n :=
  flagSet_raiseCtx s code inst _ {} d he hb rfl hm hc

end Sys2Proof.Machine
end

section
/-! PROOFS. Droop responses, margin trim, ageing, temperatures and clock faults: one equation per operation of the power state, and what
it leaves. -/
namespace Sys2Proof.Machine

/-! ## Droop, trim and ageing -/

theorem exec_trimChoice (s : State) (d : Nat) : exec (.trimChoice d) s = execTrimChoice d s := rfl
theorem exec_trimExit (s : State) (d : Nat) : exec (.trimExit d) s = execTrimExit d s := rfl
theorem exec_ageReport (s : State) (d r n : Nat) : exec (.ageReport d r n) s = execAgeReport d r n s := rfl
theorem exec_thermThrottle (s : State) (x : TempSensor) (c : Int) : exec (.thermThrottle x c) s = execThermThrottle x c s := rfl

/-- With the dies out of reset the main rails are on. -/
theorem mainOn_of_dies {s : State} (h : s.umc.phase = .dies) : s.mainOn = true := by
  rw [State.mainOn, h]

theorem mainOn_of_hubUp {s : State} (h : s.hubUp = true) : s.mainOn = true := by
  unfold State.hubUp at h
  unfold State.mainOn
  split <;> simp_all

/-- The entry that a die with its trims enabled chooses. -/
theorem trimChoice_of_not_aged (s : State) (d : Nat) (h : (s.die d).aged = false) :
    s.trimChoice d = bestTrim (s.covering d (max (s.die d).peak (s.dieActivity d))) := by
  rw [State.trimChoice, h, if_neg Bool.false_ne_true]

theorem trimmed_iff (s : State) (d : Nat) : s.trimmed d = true ↔ (s.die d).railMv < s.untrimmed := decide_eq_true_iff

/-- The rail of a trimmed die starts its way up. -/
theorem raiseRail_of_trimmed (s : State) (d : Nat) (h : s.trimmed d = true) :
    s.raiseRail d = s.setDie d { s.die d with rising := true } := by
  rw [State.raiseRail, if_pos h]

theorem recap_age (s : State) (d : Nat) : (s.recap d).pwr.age = s.pwr.age := by
  unfold State.recap
  generalize List.range 160 = l
  suffices h : ∀ t : State, (l.foldl (fun (t : State) i =>
      let f := 160 * d + i
      if s.activity f = 0 then t else t.setActivity f (s.width f (s.pwr.uncapped.contains f))) t).pwr.age = t.pwr.age from h s
  induction l with
  | nil => exact fun _ => rfl
  | cons i l ih =>
    intro t
    rw [List.foldl_cons, ih]
    dsimp only
    split <;> rfl

theorem raiseRail_age (s : State) (d : Nat) : (s.raiseRail d).pwr.age = s.pwr.age := by
  unfold State.raiseRail
  split
  · rfl
  · exact recap_age _ d

/-- The slack that a die reports is kept where it is the smallest so far (R435). -/
def State.keepAge (s : State) (d n : Nat) : State :=
  { s with pwr := { s.pwr with age := Bank.put (fun _ => 0xFF) s.pwr.age d (min (s.ageOf d) (min n 0xFF)) } }

/-- A die whose slack is too low is no longer trimmed nor forced, and its rail goes back (R435, R436). -/
def State.untrim (s : State) (d : Nat) : State :=
  if (s.die d).forced || s.trimmed d then
    (s.setDie d { s.die d with forced := false, aged := (s.die d).aged || s.trimmed d }).raiseRail d
  else s

/-- What AGE_LOW's record says of the die: forced, trimmed or neither (R441). -/
def State.ageHow (s : State) (d : Nat) : Nat := if (s.die d).forced then 2 else if s.trimmed d then 0 else 1

/-- AGE_REPORT keeps the slack, and one below the limit ends the trim and raises AGE_LOW. -/
theorem exec_ageReport_of_die (s : State) (d r n : Nat) (hp : s.umc.phase = .dies) (hd : d < 4) (hr : r / 4 = d) :
    exec (.ageReport d r n) s = .next (
      if n < s.field .pwr 0 0x28 0 8 then
        ((s.keepAge d n).untrim d).raiseEv 0x0607 0 (leBytes 1 d ++ leBytes 1 r ++ leBytes 1 n ++ leBytes 1 (s.ageHow d))
      else s.keepAge d n) := by
  rw [exec_ageReport, execAgeReport, guarded_of_true _ _ (by simp [hp, hd, hr])]
  by_cases h : n < s.field .pwr 0 0x28 0 8
  · rw [if_pos h, if_pos (decide_eq_true h)]
    rfl
  · rw [if_neg h, if_neg (by simp [h])]
    rfl

theorem ageOf_keepAge_same (s : State) (d n : Nat) (h : Bank.wf (fun _ => 0xFF) s.pwr.age = true) :
    (s.keepAge d n).ageOf d = min (s.ageOf d) (min n 0xFF) := Bank.get_put_same _ _ _ _ h

theorem ageOf_keepAge_other (s : State) (d e n : Nat) (h : e ≠ d) : (s.keepAge d n).ageOf e = s.ageOf e :=
  Bank.get_put_other _ _ _ _ _ h

theorem ageOf_untrim (s : State) (d e : Nat) : (s.untrim d).ageOf e = s.ageOf e := by
  have h : (s.untrim d).pwr.age = s.pwr.age := by
    unfold State.untrim
    split
    · exact raiseRail_age _ d
    · rfl
  rw [State.ageOf, State.ageOf, h]

theorem ageOf_raiseEv (s : State) (code inst : Nat) (l : List Byte) (d : Nat) : (s.raiseEv code inst l).ageOf d = s.ageOf d := by
  rw [State.ageOf, State.ageOf, State.raiseEv_pwr]

/-- The canonical form is that of the fields it speaks of. -/
theorem canonical_congr {s t : State} (h : s.canonical = true) (hm : t.mem = s.mem) (hr : t.regs = s.regs) (ht : t.tarns = s.tarns)
    (hq : t.queues = s.queues) : t.canonical = true := by
  rw [State.canonical_iff, hm, hr, ht, hq]
  exact (State.canonical_iff s).1 h

/-- The two states differ in the power state alone. -/
def pwrOnly (s t : State) : Prop := t = { s with pwr := t.pwr }

theorem pwrOnly_trans {s t u : State} (h : pwrOnly s t) (k : pwrOnly t u) : pwrOnly s u := by
  unfold pwrOnly at *
  rw [k, h]

theorem pwrOnly_recap (s : State) (d : Nat) : pwrOnly s (s.recap d) := by
  unfold State.recap
  generalize List.range 160 = l
  suffices h : ∀ t : State, pwrOnly s t → pwrOnly s (l.foldl (fun (t : State) i =>
      let f := 160 * d + i
      if s.activity f = 0 then t else t.setActivity f (s.width f (s.pwr.uncapped.contains f))) t) from h s rfl
  induction l with
  | nil => exact fun _ h => h
  | cons i l ih =>
    refine fun t h => ih _ (pwrOnly_trans h ?_)
    dsimp only
    split <;> rfl

theorem pwrOnly_raiseRail (s : State) (d : Nat) : pwrOnly s (s.raiseRail d) := by
  unfold State.raiseRail
  split
  · rfl
  · exact pwrOnly_trans (t := s.setDie d { s.die d with cap := 8, rising := false }) rfl (pwrOnly_recap _ d)

theorem pwrOnly_untrim (s : State) (d : Nat) : pwrOnly s (s.untrim d) := by
  unfold State.untrim
  split
  · exact pwrOnly_trans (t := s.setDie d { s.die d with forced := false, aged := (s.die d).aged || s.trimmed d }) rfl
      (pwrOnly_raiseRail _ d)
  · rfl

theorem pwrOnly_keepAge (s : State) (d n : Nat) : pwrOnly s (s.keepAge d n) := rfl

theorem mainOn_of_pwrOnly {s t : State} (h : pwrOnly s t) (hm : s.mainOn = true) : t.mainOn = true := by
  rw [h]
  exact hm

theorem canonical_of_pwrOnly {s t : State} (h : pwrOnly s t) (hc : s.canonical = true) : t.canonical = true := by
  rw [h]
  exact canonical_congr hc rfl rfl rfl rfl

theorem ageReport_answers (s : State) (d r n : Nat) (hp : s.umc.phase = .dies) (hd : d < 4) (hr : r / 4 = d)
    (hw : Bank.wf (fun _ => 0xFF) s.pwr.age = true) :
    answers (.ageReport d r n) s fun t => t.ageOf d = min (s.ageOf d) (min n 0xFF) ∧ (∀ e, e ≠ d → t.ageOf e = s.ageOf e) ∧
      (n < s.field .pwr 0 0x28 0 8 → s.canonical = true → flagSet t .pwr 0 6) ∧
      t.pending = s.pending ∧ t.units = s.units ∧ t.prog = s.prog := by
  refine answers_of_eq (exec_ageReport_of_die s d r n hp hd hr) ?_
  have hsame := ageOf_keepAge_same s d n hw
  have hother (e : Nat) (he : e ≠ d) := ageOf_keepAge_other s d e n he
  by_cases hlow : n < s.field .pwr 0 0x28 0 8
  · have hu : pwrOnly s ((s.keepAge d n).untrim d) := pwrOnly_trans (pwrOnly_keepAge s d n) (pwrOnly_untrim _ d)
    rw [if_pos hlow]
    refine ⟨?_, fun e he => ?_, fun _ hc => ?_, ?_, ?_, ?_⟩
    · rw [ageOf_raiseEv, ageOf_untrim, hsame]
    · rw [ageOf_raiseEv, ageOf_untrim, hother e he]
    · exact flagSet_raiseEv _ _ _ _ rfl (by decide) (mainOn_of_pwrOnly hu (mainOn_of_dies hp)) (canonical_of_pwrOnly hu hc)
    all_goals
      simp only [State.raiseEv_pending, State.raiseEv_units, State.raiseEv_prog]
      rw [hu]
  · rw [if_neg hlow]
    exact ⟨hsame, hother, fun h => absurd h hlow, rfl, rfl, rfl⟩

/-! ## Temperature -/

/-- The throttle condition begins, and a step up that no die has carried out is blocked (R437, R440). -/
def State.beginThrottle (s : State) : State := ({ s with pwr := { s.pwr with throttle := true } } : State).blockUp

theorem evalThrottle_of_tooHot (s : State) (h : s.pwr.throttle = false) (hot : s.tooHot = true) :
    s.evalThrottle =
      s.beginThrottle.raiseEv 0x0605 0 (leBytes 1 s.hotSensor ++ leBytes 1 (s.temp s.hotSensor).toNat) := by
  simp [State.evalThrottle, State.beginThrottle, h, hot]

theorem evalThrottle_of_cool (s : State) (h : s.pwr.throttle = true) (hc : s.cool = true) :
    s.evalThrottle = { s with pwr := { s.pwr with throttle := false } } := by
  simp [State.evalThrottle, h, hc]

/-- Readings that neither begin nor clear the condition leave the rest as it was. -/
theorem evalThrottle_of_steady (s : State) (h1 : s.pwr.throttle = false → s.tooHot = false)
    (h2 : s.pwr.throttle = true → s.cool = false) : s.evalThrottle = s := by
  unfold State.evalThrottle
  cases h : s.pwr.throttle
  · simp [h1 h]
  · simp [h2 h]

/-- Blocking a step up touches the switches alone. -/
theorem blockUp_switches (s : State) :
    s.blockUp = { s with pwr := { s.pwr with switching := s.blockUp.pwr.switching, fastPending := s.blockUp.pwr.fastPending } } := by
  unfold State.blockUp
  split
  · dsimp only
    split
    · unfold State.startSwitch
      split <;> rfl
    · rfl
  · rfl

theorem blockUp_of_noFast (s : State) (g : Nat) (h : s.pwr.switching = some (g, .up, [])) (hf : s.pwr.fastPending = false) :
    s.blockUp = { s with pwr := { s.pwr with switching := none, fastPending := false } } := by
  simp [State.blockUp, h, hf]

theorem beginThrottle_throttle (s : State) : s.beginThrottle.pwr.throttle = true := by
  rw [State.beginThrottle, blockUp_switches]

/-- The throttle condition changes neither the readings nor the refresh rates, and nothing of the program's. -/
theorem evalThrottle_keeps (s : State) : s.evalThrottle.pwr.temps = s.pwr.temps ∧ s.evalThrottle.pwr.refresh2 = s.pwr.refresh2 ∧
    s.evalThrottle.pending = s.pending ∧ s.evalThrottle.units = s.units ∧ s.evalThrottle.prog = s.prog := by
  by_cases hb : s.pwr.throttle = false ∧ s.tooHot = true
  · rw [evalThrottle_of_tooHot s hb.1 hb.2]
    simp only [State.raiseEv_pwr, State.raiseEv_pending, State.raiseEv_units, State.raiseEv_prog]
    rw [State.beginThrottle, blockUp_switches]
    exact ⟨rfl, rfl, rfl, rfl, rfl⟩
  · by_cases hc : s.pwr.throttle = true ∧ s.cool = true
    · rw [evalThrottle_of_cool s hc.1 hc.2]
      exact ⟨rfl, rfl, rfl, rfl, rfl⟩
    · rw [evalThrottle_of_steady s (by simpa using hb) (by simpa using hc)]
      exact ⟨rfl, rfl, rfl, rfl, rfl⟩

/-- Readings of several sensors change the temperatures alone. -/
theorem foldl_setTemp_temps (l : List (TempSensor × Int)) (s : State) :
    l.foldl (fun u r => u.setTemp r.1 r.2) s =
      { s with pwr := { s.pwr with temps := (l.foldl (fun u r => u.setTemp r.1 r.2) s).pwr.temps } } := by
  induction l generalizing s with
  | nil => rfl
  | cons r l ih =>
    rw [List.foldl_cons, ih]
    rfl

theorem throttleClear_answers (s : State) (l : List (TempSensor × Int)) (hp : s.umc.phase = .dies) (ht : s.pwr.throttle = true)
    (hl : ∀ r ∈ l, sensorOk r.1 = true) (hc : (l.foldl (fun u r => u.setTemp r.1 r.2) s).cool = true) :
    answers (.throttleClear l) s fun t => t.pwr.throttle = false ∧
      t.pwr.temps = (l.foldl (fun u r => u.setTemp r.1 r.2) s).pwr.temps ∧
      t = { s with pwr := { s.pwr with throttle := false, temps := t.pwr.temps } } := by
  have hs := foldl_setTemp_temps l s
  have ht' : (l.foldl (fun u r => u.setTemp r.1 r.2) s).pwr.throttle = true := by
    rw [hs]
    exact ht
  refine answers_of_eq (t := (l.foldl (fun u r => u.setTemp r.1 r.2) s).evalThrottle) ?_ ?_
  · exact guarded_of_true _ _ (by simpa [hp] using fun x c h => hl (x, c) h)
  · rw [evalThrottle_of_cool _ ht' hc]
    refine ⟨rfl, rfl, ?_⟩
    conv_lhs => rw [hs]

theorem tarnRefreshDoubling_answers (s : State) (i : Nat) (c : Int) (hp : s.umc.phase = .dies) (hi : i < 8) :
    answers (.tarnRefreshDoubling i c) s fun t => (i ∈ t.pwr.refresh2 ↔ 85 < c) ∧
      (∀ j, j ≠ i → (j ∈ t.pwr.refresh2 ↔ j ∈ s.pwr.refresh2)) ∧ t.pwr.temps = (s.setTemp (.tarn i) c).pwr.temps ∧
      t.pending = s.pending ∧ t.units = s.units ∧ t.prog = s.prog := by
  obtain ⟨htemps, hrefresh, hpend, hunits, hprog⟩ := evalThrottle_keeps (s.setTemp (.tarn i) c)
  refine answers_of_eq (guarded_of_true _ _ (by simp [hp, hi])) ⟨?_, fun j hj => ?_, htemps, hpend, hunits, hprog⟩
  · by_cases h : 85 < c <;> simp [h]
  · have hs : (s.setTemp (.tarn i) c).evalThrottle.pwr.refresh2 = s.pwr.refresh2 := hrefresh
    by_cases h : 85 < c <;> simp [h, hs, hj]

/-! ## Clock faults -/

/-- What raises CLK_FAULT, if anything (R419, R20). -/
def State.clkEvent (s : State) (c : ClkCause) (n : Nat) : State :=
  match c with
  | .pll => s.raiseEv 0x0608 0 (leBytes 1 0 ++ leBytes 1 0)
  | .crossing => s.raiseEv 0x0608 0 (leBytes 1 1 ++ leBytes 1 n)
  | .silent => s

theorem clkFault_eq (s : State) (c : ClkCause) (n : Nat) : s.clkFault c n = (s.clkEvent c n).markFaulted := by
  cases c <;> rfl

theorem clkEvent_keeps (s : State) (c : ClkCause) (n : Nat) : (s.clkEvent c n).step = s.step ∧ (s.clkEvent c n).units = s.units ∧
    (s.clkEvent c n).prog = s.prog ∧ (s.clkEvent c n).pending = s.pending ∧ (s.clkEvent c n).umc = s.umc ∧
    (s.clkEvent c n).queues = s.queues := by
  cases c <;> simp [State.clkEvent]

theorem flagSet_clkEvent (s : State) (c : ClkCause) (n : Nat) (hc : c ≠ .silent) (hm : s.mainOn = true) (hs : s.canonical = true) :
    flagSet (s.clkEvent c n) .pwr 0 7 := by
  cases c
  case silent => exact absurd rfl hc
  all_goals exact flagSet_raiseEv s _ _ _ rfl (by decide) hm hs

/-- Marking the module faulted touches the step and CPSTATE alone. -/
theorem markFaulted_eq (s : State) : s.markFaulted = { s with step := s.markFaulted.step, cp := .faulted } := by
  unfold State.markFaulted State.reqAbort
  split <;> rfl

theorem markFaulted_step_open (s : State) (a : Attempt) (h : s.step.att = some a) :
    s.markFaulted.step = { s.step with causes := s.step.causes ++ [⟨0x14, 0xFFFF, .outside, a.step, true⟩] } := by
  simp [State.markFaulted, State.reqAbort, State.addCause, h]

theorem markFaulted_step_closed (s : State) (h : s.step.att = none) : s.markFaulted.step = s.step := by
  simp [State.markFaulted, State.reqAbort, h]

theorem clkFault_answers (s : State) (c : ClkCause) (n : Nat) (hu : s.hubUp = true) :
    answers (.clkFault c n) s fun t => t.cp = .faulted ∧ (c ≠ .silent → s.canonical = true → flagSet t .pwr 0 7) ∧
      (∀ a, s.step.att = some a → t.step.causes = s.step.causes ++ [⟨0x14, 0xFFFF, .outside, a.step, true⟩]) ∧
      (s.step.att = none → t.step = s.step) ∧ t.units = s.units ∧ t.prog = s.prog ∧ t.pending = s.pending ∧ t.umc = s.umc ∧
      t.queues = s.queues := by
  obtain ⟨hstep, hunits, hprog, hpend, humc, hq⟩ := clkEvent_keeps s c n
  refine answers_of_eq ((guarded_of_true _ _ hu).trans (congrArg _ (clkFault_eq s c n))) ?_
  have hm := markFaulted_eq (s.clkEvent c n)
  refine ⟨rfl, fun hc hs => ?_, fun a ha => ?_, fun ha => ?_, ?_⟩
  · rw [hm]
    exact flagSet_clkEvent s c n hc (mainOn_of_hubUp hu) hs
  · rw [markFaulted_step_open _ a (by rw [hstep, ha]), hstep]
  · rw [markFaulted_step_closed _ (by rw [hstep, ha]), hstep]
  · rw [hm]
    exact ⟨hunits, hprog, hpend, humc, hq⟩

/-- Settles O8: each row's condition holds, and its effect is one change of the power state with the events it raises. -/
theorem droopTrimAgeTemperature : Obligations.DroopTrimAgeTemperature := by
  unfold Obligations.DroopTrimAgeTemperature
  refine ⟨⟨?response, ?noResponse, ?holdEnd, ?trimChoice, ?trimExit, ?railReached, ?ageReport⟩, ageReport_answers,
    ?throttle, ?steady, blockUp_of_noFast, throttleClear_answers, tarnRefreshDoubling_answers, clkFault_answers⟩
  case response =>
    intro s x hp hr hn hd
    exact answers_of_eq (guarded_of_true _ _ (by simp [hp, hr, hn, hd])) (eventOnly_raiseLimited _ _ _ _ _)
  case noResponse =>
    intro s x h
    have hd : s.drooped (x.region / 4) x.railMv = false := decide_eq_false (Nat.not_lt.2 h)
    exact guarded_of_false _ _ (by rw [hd, Bool.and_false])
  case holdEnd =>
    intro s r n hr hn
    exact guarded_of_true _ _ (by simp [hr, hn])
  case trimChoice =>
    intro s d m tag hp hd ha hf hb
    rw [exec_trimChoice, execTrimChoice, guarded_of_true _ _ (by simp [hp, hd]), trimChoice_of_not_aged s d ha, hb]
    simp [hf]
  case trimExit =>
    intro s d hp hd ht hf hc
    have htr : s.trimmed d = true := (trimmed_iff s d).2 ht
    rw [exec_trimExit, execTrimExit, guarded_of_true _ _ (by simp [hp, hd, htr, hf, hc]), raiseRail_of_trimmed s d htr]
  case railReached =>
    intro s d hd hr
    exact guarded_of_true _ _ (by simp [hd, hr])
  case ageReport =>
    intro s d r n hp hd hr hn _ _
    rw [exec_ageReport_of_die s d r n hp hd hr, if_neg (Nat.not_lt.2 hn)]
    rfl
  case throttle =>
    intro s x c hp hx ht hot
    refine answers_of_eq (guarded_of_true _ _ (by simp [hp, hx])) ?_
    rw [evalThrottle_of_tooHot (s.setTemp x c) ht hot]
    refine ⟨?_, eventOnly_raiseEv _ _ _ _⟩
    rw [State.raiseEv_pwr, beginThrottle_throttle]
  case steady =>
    intro s x c hp hx h1 h2
    rw [exec_thermThrottle, execThermThrottle, guarded_of_true _ _ (by simp [hp, hx]), evalThrottle_of_steady _ h1 h2]

end Sys2Proof.Machine
end

section
/-! PROOFS. The log writer trusts the length of a record's DETAIL: a state whose waiting record has a longer one. -/
namespace Sys2Proof.Machine

/-- A record whose DETAIL is longer than the 8 bytes that `mkRec` makes it (R190). -/
def longRecord : EventRec := { (default : EventRec) with detail := List.replicate 17 1 }

/-- That record waits for the last place of a ring of 256 records at address 0, which lies in a window of stack 0. -/
def longRecordHeld : State :=
  { regs := [(regAddr .policy 0 0x48, 8), (regAddr .policy 0 0x4C, 255), (regAddr .trn 0 0x44, 1)]
    tarns := [(0, { trained := true })]
    umc := { phase := .hub }
    log := { set := true, held := [longRecord] } }

/-- TAIL is stored there, and the record has not been written. -/
def longRecordRoom : State := { longRecordHeld.setReg .policy 0 0x50 255 with access := .ok }

/-- The ring ends at 48 × 256. -/
theorem longRecordRoom_ring : longRecordRoom.canonical = true ∧ longRecordRoom.inEventRing 12288 = false := by decide +kernel

/-- The byte a command leaves at an address. -/
def byteAfter (c : Instr) (s : State) (a : Nat) : Option Byte :=
  match exec c s with
  | .next t => some (t.byte a)
  | _ => none

theorem byteAfter_of_next {c : Instr} {s t : State} (h : exec c s = .next t) (a : Nat) : byteAfter c s a = some (t.byte a) := by
  rw [byteAfter, h]

/-- The last byte of the record goes beyond the ring. -/
theorem longRecordHeld_overruns :
    byteAfter (.hubLogTailWrite .host 255) longRecordHeld 12288 = some 1 ∧ longRecordRoom.byte 12288 = 0 := by decide +kernel

/-- Refutes O12: once TAIL makes room for a waiting record whose DETAIL has 17 bytes, its last byte is written behind the ring's end, which
`eventOnly` does not allow. -/
theorem not_ringStepServingRegisters : ¬ Obligations.RingStepServingRegisters := by
  unfold Obligations.RingStepServingRegisters
  rintro ⟨⟨-, -, tailWrite, -⟩, -⟩
  obtain ⟨t, hnext, -, hevents⟩ := tailWrite longRecordHeld 255 rfl (by decide +kernel)
  obtain ⟨hafter, hbefore⟩ := longRecordHeld_overruns
  rw [byteAfter_of_next hnext, Option.some_inj] at hafter
  obtain ⟨-, -, hkeeps⟩ := hevents
  obtain ⟨hcanonical, houtside⟩ := longRecordRoom_ring
  obtain ⟨-, hbytes, -⟩ := hkeeps hcanonical
  have hsame : t.byte 12288 = longRecordRoom.byte 12288 := hbytes 12288 houtside
  rw [hafter, hbefore] at hsame
  exact absurd hsame (by decide)

end Sys2Proof.Machine
end

section
/-! PROOFS. The commands that ask and the register commands: each runs its body on the queue without it and completes with the body's
answer. -/
namespace Sys2Proof.Machine

/-! ## One command at the front of its queue -/

/-- A body that ends at once completes the command from the state it leaves, by the addresses in use before it (R385). -/
theorem runCmd_of_done {s : State} {i op : Nat} {p : Packet} {rest : List Packet} {l : List Byte} {lenOk : Nat → Bool}
    {stateOk : State → Bool} {body : Packet → List Byte → State → State × Result} {t : State} {code detail : Nat} {payload : List Byte}
    (h : s.fronts i op p rest l) (hl : lenOk l.length = true) (hs : stateOk s = true)
    (hb : body p l (s.take i rest) = (t, .done code detail payload)) :
    s.runCmd i op lenOk stateOk body = t.closes i p code detail payload (s.replyVia p.src) := by
  rw [runCmd_of_fronts s i op p rest l lenOk stateOk body h hl hs, hb]

theorem runHost_of_done {s : State} {q op : Nat} {p : Packet} {rest : List Packet} {l : List Byte} {lenOk : Nat → Bool}
    {stateOk : State → Bool} {body : Packet → List Byte → State → State × Result} {t : State} {code detail : Nat} {payload : List Byte}
    (hq : q < 16) (h : s.fronts q op p rest l) (hl : lenOk l.length = true) (hs : stateOk s = true)
    (hb : body p l (s.take q rest) = (t, .done code detail payload)) :
    s.runHost q op lenOk stateOk body = t.closes q p code detail payload (s.replyVia p.src) := by
  rw [State.runHost, if_pos hq, runCmd_of_done h hl hs hb]

theorem lenIs_nil {l : List Byte} (h : l = []) : lenIs 0 l.length = true := by
  rw [h]
  rfl

theorem valueBytes_append (l m : List Word) : valueBytes (l ++ m) = valueBytes l ++ valueBytes m := List.flatMap_append

/-- Taking the command off its queue leaves those that are issued. -/
theorem issued_take (s : State) (q : Nat) (rest : List Packet) (hc : s.canonical = true) :
    ((s.take q rest).queue q).issued = (s.queue q).issued := by
  rw [State.take, queue_setQueue_same s q _ hc]

/-! ## Commands that change nothing -/

section
variable (s : State) (p : Packet) (rest : List Packet) (l : List Byte)

theorem exec_nop_fronts (port : CmdPort) (q : Nat) (h : s.fronts (queueIdx port q) 0x0001 p rest l) (hl : l = []) :
    exec (.nop port q) s = .next ((s.take (queueIdx port q) rest).closes (queueIdx port q) p stOk 0 []) :=
  congrArg _ (runCmd_of_done h (lenIs_nil hl) rfl rfl)

theorem exec_ident_fronts (port : CmdPort) (q : Nat) (h : s.fronts (queueIdx port q) 0x0002 p rest l) (hl : l = []) :
    exec (.ident port q) s = .next ((s.take (queueIdx port q) rest).closes (queueIdx port q) p stOk 0
      (leBytes 4 (sysCaps s.part).toNat ++ leBytes 1 s.cpByte ++ leBytes 3 0 ++ beBytes 6 s.host.mac.toNat ++ leBytes 2 0 ++
        digestBytes s.keyHash ++ digestBytes (if s.cp = .boot then 0 else s.sec.fwDigest))) :=
  congrArg _ (runCmd_of_done h (lenIs_nil hl) rfl rfl)

variable (q : Nat) (hq : q < 16)
include hq

theorem exec_sizeTable_fronts (h : s.fronts q 0x0003 p rest l) (hl : l = []) (hs : s.cp = .ready ∨ s.cp = .loaded) :
    exec (.sizeTable q) s = .next ((s.take q rest).closes q p stOk 0
      (s.sizeTable.zipIdx.flatMap fun e => leBytes 4 e.2 ++ leBytes 4 e.1)) := by
  have hin : inState [.ready, .loaded] s = true := by rcases hs with hs | hs <;> rw [inState, hs] <;> rfl
  exact congrArg _ (runHost_of_done hq h (lenIs_nil hl) hin rfl)

theorem exec_status_fronts (h : s.fronts q 0x0004 p rest l) (hl : l = []) :
    exec (.status q) s = .next ((s.take q rest).closes q p stOk 0 (valueBytes ([(s.take q rest).regView .host 0 0,
      (s.take q rest).regView .step 0 0, (s.take q rest).regView .step 0 0x18, (s.take q rest).regView .serv 0 0] ++
        (List.range 16).map fun i => ((s.take q rest).queue i).next))) := by
  rw [valueBytes_append]
  exact congrArg _ (runHost_of_done hq h (lenIs_nil hl) rfl rfl)

theorem exec_fence_of_idle (hc : s.canonical = true) (h : s.fronts q 0x0005 p rest l) (hl : l = []) (hi : (s.queue q).issued = []) :
    exec (.fence q) s = .next ((s.take q rest).closes q p stOk 0 []) := by
  refine congrArg _ (runHost_of_done hq h (lenIs_nil hl) rfl ?_)
  rw [issued_take s q rest hc, hi]
  rfl

theorem exec_fence_of_issued (hc : s.canonical = true) (h : s.fronts q 0x0005 p rest l) (hl : l = []) (hi : (s.queue q).issued ≠ []) :
    exec (.fence q) s = .next ((s.take q rest).waits q p) := by
  have hne : (s.queue q).issued.isEmpty = false := by simpa using hi
  refine congrArg _ ((runHost_of_fronts s q 0x0005 p rest l _ _ _ hq h (lenIs_nil hl) rfl).trans ?_)
  dsimp only
  rw [issued_take s q rest hc, hne]
  rfl

theorem exec_fenceComplete_of_idle (hi : (s.queue q).issued = []) (hb : (s.queue q).busy = some p) (ho : p.opcode = 0x0005) :
    exec (.fenceComplete q) s = .next ((s.setQueue q { s.queue q with busy := none }).closes q p stOk 0 []) := by
  refine (guarded_of_true _ _ (by simp [hq, hi])).trans (congrArg _ ?_)
  unfold State.finishBusy
  rw [hb]
  exact if_pos ho

end

/-! ## Register commands -/

theorem entryLen_iff (n most l : Nat) : entryLen n most l = true ↔ l % n = 0 ∧ n ≤ l ∧ l ≤ n * most := decide_eq_true_iff

/-- A payload of one entry. -/
theorem entriesOf_single (n : Nat) (l : List Byte) (hn : 0 < n) (h : l.length = n) : entriesOf n l = [l] := by
  rw [entriesOf, h, Nat.div_self hn]
  simp [slice, List.take_of_length_le h.le]

theorem writeEntries_single (who : Requester) (e : List Byte) (s : State) :
    State.writeEntries who [e] s = ((s.writeEntry who e).1, [(s.writeEntry who e).2]) := rfl

theorem writeEntry_of_clear (s : State) (who : Requester) (e : List Byte) (h : leAt 6 2 e = 0) :
    s.writeEntry who e = s.writeReg who (leAt 0 6 e) (BitVec.ofNat 32 (leAt 8 4 e)) := by
  simp [State.writeEntry, h]

theorem firstBadAccess_single (a : Access) : firstBadAccess [a] = accessCode a := by cases a <;> rfl

/-- DETAIL of an entry whose bits 63:48 are clear (R382): of BAD_FIELD the offset of the address or of the value, of BAD_STATE CPSTATE. -/
def State.writeDetail (s : State) (e : List Byte) : Access → Nat
  | .badField => if leAt 0 6 e % 4 ≠ 0 then 0 else 8
  | .badState => cpCode s.cp
  | _ => 0

theorem firstBadDetail_single (s : State) (e : List Byte) (a : Access) (h : leAt 6 2 e = 0) :
    s.firstBadDetail 12 writeField [(e, a)] = s.writeDetail e a := by
  cases a <;> simp [State.firstBadDetail, State.writeDetail, writeField, h]

theorem exec_regWrite_fronts (s : State) (port : CmdPort) (q : Nat) (p : Packet) (rest : List Packet) (l : List Byte)
    (h : s.fronts (queueIdx port q) 0x0202 p rest l) (hlo : 12 ≤ l.length) (hhi : l.length ≤ 8160) (hm : l.length % 12 = 0) :
    let r := State.writeEntries (requesterOf port) (entriesOf 12 l) (s.take (queueIdx port q) rest)
    exec (.regWrite port q) s = .next (r.1.closes (queueIdx port q) p (firstBadAccess r.2)
      (r.1.firstBadDetail 12 writeField ((entriesOf 12 l).zip r.2))
      (r.2.flatMap fun x => leBytes 4 (accessCode x)) (s.replyVia p.src)) :=
  congrArg _ (runCmd_of_done h ((entryLen_iff ..).2 ⟨hm, hlo, hhi⟩) rfl rfl)

/-- Settles O20: each row is `runCmd` with its body's answer. -/
theorem queryAndRegisterCommands : Obligations.QueryAndRegisterCommands := by
  unfold Obligations.QueryAndRegisterCommands
  refine ⟨⟨?nop, ?ident, ?sizeTable, ?status, ?fence, ?fenceComplete⟩, ?regRead, exec_regWrite_fronts, ?regWriteOne⟩
  case nop => exact fun s port q p rest l => exec_nop_fronts s p rest l port q
  case ident => exact fun s port q p rest l => exec_ident_fronts s p rest l port q
  case sizeTable => exact fun s q p rest l hq => exec_sizeTable_fronts s p rest l q hq
  case status => exact fun s q p rest l hq => exec_status_fronts s p rest l q hq
  case fence =>
    exact fun s q p rest l hq hc h hl =>
      ⟨exec_fence_of_idle s p rest l q hq hc h hl, exec_fence_of_issued s p rest l q hq hc h hl⟩
  case fenceComplete => exact fun s q p hq => exec_fenceComplete_of_idle s p q hq
  case regRead =>
    intro s port q p rest l h hlo hhi hm
    exact congrArg _ (runCmd_of_done h ((entryLen_iff ..).2 ⟨hm, hlo, hhi⟩) rfl rfl)
  case regWriteOne =>
    intro s port q p rest l h hl h6
    have hw := exec_regWrite_fronts s port q p rest l h (by omega) (by omega) (by omega)
    rw [entriesOf_single 12 l (by decide) hl, writeEntries_single, writeEntry_of_clear _ _ l h6] at hw
    dsimp only [List.zip_cons_cons, List.zip_nil_left] at hw
    rw [firstBadAccess_single, firstBadDetail_single _ l _ h6] at hw
    rw [List.flatMap_singleton] at hw
    exact hw

end Sys2Proof.Machine
end

section
/-! PROOFS. How strands start and phases close: the row in terms of its conditions, what issuing a kernel and a loss does, and what the
completion of a strand leaves. -/
namespace Sys2Proof.Machine

/-! ## The attempt of a row -/

/-- What a strand reads does not depend on the attempt's record. -/
theorem loadWords_setAttempt (s : State) (ra : Bool) (a : Attempt) (x n : Nat) : (s.setAttempt ra a).loadWords x n = s.loadWords x n := by
  cases ra <;> rfl

theorem eventOnly_step {s t : State} (h : eventOnly s t) : t.step = s.step := by rw [h.1]

theorem eventOnly_prog {s t : State} (h : eventOnly s t) : t.prog = s.prog := by rw [h.1]

/-- The strand that follows a started one in the attempt's list. -/
def Attempt.start (a : Attempt) (id : Nat) : Attempt := { a with started := a.started ++ [id] }

/-! ## What completion leaves -/

theorem releaseAt_step (s : State) (ra : Bool) (p : Program) (id : Nat) : (s.releaseAt ra p id).step = s.step :=
  State.foldl_step _ _ s fun _ _ => rfl

/-- Completion of a strand of the open attempt that was not done. -/
theorem completeStrand_step (s : State) (g : Program) (a : Attempt) (id : Nat) (hg : s.prog = some g) (ha : s.step.att = some a)
    (hd : id ∉ a.done) : (s.completeStrand false id).step = { s.step with att := some { a with done := a.done ++ [id] } } := by
  have hm : s.markDone false id = s.setAttempt false { a with done := a.done ++ [id] } := by
    simp [State.markDone, State.attempt, ha, hd]
  rw [State.completeStrand, hg]
  dsimp only
  rw [releaseAt_step, hm]
  rfl

/-! ## The loss -/

/-- A loss veto of the open attempt (R215): its vote, its event and its cause. -/
theorem vetoIn_loss (s : State) (a : Attempt) (l : Nat) (cut : Cut) (ha : s.step.att = some a) :
    (s.vetoIn false true l cut).step =
      { s.step with att := some { a with vetoes := a.vetoes ++ [0xFFFF] }
                    causes := s.step.causes ++ [⟨1, 0xFFFF, cut, a.step, false⟩] } ∧
    (s.vetoIn false true l cut).prog = s.prog := by
  have hveto : s.vetoIn false true l cut =
      ((s.setAttempt false { a with vetoes := a.vetoes ++ [0xFFFF] }).raiseCtx 0x0130 0 7 { ctxOf false a with layer := 0xFFFF }
        (leBytes 2 0xFFFF)).addCause ⟨1, 0xFFFF, cut, a.step, false⟩ := by
    have h : s.attempt false = some a := ha
    rw [State.vetoIn, h]
    rfl
  have hev := eventOnly_raiseCtx (s.setAttempt false { a with vetoes := a.vetoes ++ [0xFFFF] }) 0x0130 0 7
    { ctxOf false a with layer := 0xFFFF } (leBytes 2 0xFFFF) rfl
  have hprog := eventOnly_prog hev
  rw [hveto]
  refine ⟨?_, hprog⟩
  rw [State.addCause, eventOnly_step hev]
  rfl

section
variable (s : State) (t : Strand) (x n : Nat) (hk : t.kind = .loss x n)
include hk

theorem issueStrand_loss (ra : Bool) (hb : s.badLines (s.strandLines x (4 * n)) = []) :
    s.issueStrand ra t =
      (if (s.loadWords x n).any notFinite then s.vetoIn ra true 0 .beforeAll else s).completeStrand ra t.id := by
  rw [State.issueStrand, hk]
  dsimp only
  rw [State.strandIO_of_none _ _ _ _ _ _ (by simpa using hb)]

theorem issueStrand_loss_bad (ra : Bool) (hb : s.badLines (s.strandLines x (4 * n)) ≠ []) :
    s.issueStrand ra t = (s.badLines (s.strandLines x (4 * n))).foldl (fun u l => u.lineUEFor ra l 0 false) s := by
  rw [State.issueStrand, hk]
  dsimp only
  rw [State.strandIO_of_bad _ _ _ _ _ _ (by simpa using hb)]
  simp only [List.flatMap_nil, List.append_nil]

end

theorem issueStrand_kernel (s : State) (ra : Bool) (t : Strand) (hk : ∀ x n, t.kind ≠ .loss x n) :
    s.issueStrand ra t = s.queueKernel ra t := by
  unfold State.issueStrand
  split
  · rename_i x n h
    exact absurd h (hk x n)
  · rfl

/-! ## STRAND_START -/

/-- Every condition of a strand's start but that it waits for no room in the Pond (R26). -/
def State.mayStart (s : State) (ra : Bool) (g : Program) (a : Attempt) (t : Strand) (id : Nat) : Bool :=
  (issuable ra g.strands).any (·.id == id) && active a t && !a.started.contains id && depsDone a (issuable ra g.strands) t &&
    phasesDone a (issuable ra g.strands) t && s.inOrder a (issuable ra g.strands) t && s.clearFor g a (issuable ra g.strands) t &&
    !s.waitsForReturn ra g t && (if ra then s.windowsFinal else !s.heldBack g a t)

section
variable {s : State} {ra : Bool} {g : Program} {a : Attempt} {t : Strand} {id : Nat}
variable (hg : s.prog = some g) (ha : s.attempt ra = some a) (hs : s.strand? id = some t)
include hg ha hs

theorem exec_strandStart_of_not_ready (h : s.mayStart ra g a t id = false) : exec (.strandStart ra id) s = .next s := by
  show execStrandStart ra id s = _
  rw [execStrandStart, hg, ha, hs]
  exact guarded_of_false _ _ h

theorem exec_strandStart_of_ready (h : s.mayStart ra g a t id = true) (hb : s.firstBlocks g id = []) :
    exec (.strandStart ra id) s = .next ((s.setAttempt ra (a.start id)).issueStrand ra t) := by
  show execStrandStart ra id s = _
  rw [execStrandStart, hg, ha, hs]
  dsimp only
  rw [hb]
  refine (guarded_of_true _ _ h).trans ?_
  simp only [State.allocAll, ha]
  rfl

end

/-! ## PHASE_BARRIER -/

/-- The active strands of a phase. -/
def phaseStrands (a : Attempt) (ts : List Strand) (ph : Nat) : List Strand := ts.filter fun t => t.phase == ph && active a t

theorem mem_phaseStrands {a : Attempt} {ts : List Strand} {ph : Nat} {t : Strand} :
    t ∈ phaseStrands a ts ph ↔ t ∈ ts ∧ t.phase = ph ∧ active a t = true := by
  simp [phaseStrands]

theorem phaseStrands_nonempty {a : Attempt} {ts : List Strand} {ph : Nat} (h : ∃ t ∈ ts, t.phase = ph ∧ active a t = true) :
    (phaseStrands a ts ph).isEmpty = false := by
  obtain ⟨t, ht, hph, hact⟩ := h
  exact List.isEmpty_eq_false_iff.2 (List.ne_nil_of_mem (mem_phaseStrands.2 ⟨ht, hph, hact⟩))

theorem exec_phaseBarrier {s : State} {ra : Bool} {g : Program} {a : Attempt} (hg : s.prog = some g) (ha : s.attempt ra = some a)
    (ph : Nat) : exec (.phaseBarrier ra ph) s = guarded (!(phaseStrands a g.strands ph).isEmpty &&
      (phaseStrands a g.strands ph).all (fun t => a.done.contains t.id) && !a.phases.contains ph) s
      (s.setAttempt ra { a with phases := a.phases ++ [ph] }) := by
  show execPhaseBarrier ra ph s = _
  rw [execPhaseBarrier, hg, ha]
  rfl

/-- Settles O29: a strand starts exactly where `mayStart` holds, and a phase closes when its strands are done. -/
theorem strandsStartInOrder : Obligations.StrandsStartInOrder := by
  unfold Obligations.StrandsStartInOrder
  intro ready
  have start (s : State) (ra : Bool) (g : Program) (a : Attempt) (t : Strand) (h : ready s ra g a t) :
      exec (.strandStart ra t.id) s = .next ((s.setAttempt ra (a.start t.id)).issueStrand ra t) := by
    obtain ⟨hg, ha, hs, hi, hact, hnew, hdeps, hph, hord, hclr, hret, hfirst, hwin, hheld⟩ := h
    refine exec_strandStart_of_ready hg ha hs ?_ hfirst
    cases ra
    · simp [State.mayStart, hi, hact, hnew, hdeps, hph, hord, hclr, hret, hheld rfl]
    · simp [State.mayStart, hi, hact, hnew, hdeps, hph, hord, hclr, hret, hwin rfl]
  refine ⟨?kernel, ?loss, ?held, ?cut, ?waits, ?phase⟩
  case kernel =>
    intro s ra g a t h hk
    rw [start s ra g a t h, issueStrand_kernel _ ra t hk]
    rfl
  case loss =>
    intro s g a t x n h hk hd
    have hstart := start s false g a t h
    have hg : s.prog = some g := h.1
    refine ⟨fun hclean => ?_, fun hbad => ?_⟩
    · have hissue := issueStrand_loss (s.setAttempt false (a.start t.id)) t x n hk false hclean
      rw [loadWords_setAttempt] at hissue
      refine ⟨fun hfin => ?_, fun hnan => ?_⟩
      · rw [hissue, if_neg (by simpa using hfin)] at hstart
        have hstep := completeStrand_step (s.setAttempt false (a.start t.id)) g (a.start t.id) t.id hg rfl hd
        refine answers_of_eq hstart ?_
        rw [hstep]
        exact ⟨rfl, rfl⟩
      · rw [hissue, if_pos hnan] at hstart
        obtain ⟨hveto, hprog⟩ := vetoIn_loss (s.setAttempt false (a.start t.id)) (a.start t.id) 0 .beforeAll rfl
        have hstep := completeStrand_step ((s.setAttempt false (a.start t.id)).vetoIn false true 0 .beforeAll) g
          { a.start t.id with vetoes := a.vetoes ++ [0xFFFF] } t.id (hprog.trans hg) (by rw [hveto]; rfl) hd
        refine answers_of_eq hstart ?_
        rw [hstep, hveto]
        exact ⟨rfl, rfl⟩
    · rw [hstart, issueStrand_loss_bad (s.setAttempt false (a.start t.id)) t x n hk false hbad]
      rfl
  case held =>
    intro s g a id t hg ha hs hheld
    exact exec_strandStart_of_not_ready hg ha hs (by simp [State.mayStart, hheld])
  case cut =>
    intro s g a t c hc htc hcoll hstats hns
    have hl : cutLayer g t.kind = none := by
      unfold cutLayer
      split
      case h_1 d hk => exact absurd hk (hcoll d).1
      case h_2 d hk => exact absurd hk (hcoll d).2
      case h_3 x n hk => exact absurd hk (hstats x n)
      case h_4 d hk => exact absurd hk (hns d)
      case h_5 => rfl
    simp [State.heldBack, State.stops, hl, hc, htc]
  case waits =>
    intro s ra g a id t hg ha hs h
    refine exec_strandStart_of_not_ready hg ha hs ?_
    rcases h with h | h | h <;> simp [State.mayStart, h]
  case phase =>
    intro s ra g a ph hg ha hnew hsome
    have hne := phaseStrands_nonempty hsome
    refine ⟨fun hall => ?_, fun ⟨t, ht, hph, hact, hopen⟩ => ?_⟩
    · have hdone : (phaseStrands a g.strands ph).all (fun t => a.done.contains t.id) = true := by
        refine List.all_eq_true.2 fun t ht => ?_
        obtain ⟨hmem, hph, hact⟩ := mem_phaseStrands.1 ht
        simpa using hall t hmem hph hact
      rw [exec_phaseBarrier hg ha ph, hne, hdone, guarded_of_true _ _ (by simp [hnew])]
    · have hdone : (phaseStrands a g.strands ph).all (fun t => a.done.contains t.id) = false :=
        List.all_eq_false.2 ⟨t, mem_phaseStrands.2 ⟨ht, hph, hact⟩, by simpa using hopen⟩
      rw [exec_phaseBarrier hg ha ph, hne, hdone]
      exact guarded_of_false _ _ rfl

end Sys2Proof.Machine
end

section
/-! PROOFS. What frames that arrive and leave do to the rest of the module: only the fabric, the frames sent and the ports' frame counters
change. -/
namespace Sys2Proof.Machine

/-! ## Frames change the fabric alone -/

/-- From `s` to `t` frames were taken and sent: the fabric, the frames sent and the counters at offset 0x30 of a port's page change. -/
def framesOnly (s t : State) : Prop :=
  t = { s with regs := t.regs, fab := t.fab, out := t.out } ∧ (∀ a, a % 0x1000 ≠ 0x30 → t.regAt a = s.regAt a) ∧
    (Bank.wf regReset s.regs = true → Bank.wf regReset t.regs = true)

theorem framesOnly_trans {s t u : State} (h : framesOnly s t) (k : framesOnly t u) : framesOnly s u := by
  obtain ⟨h1, h2, h3⟩ := h
  obtain ⟨k1, k2, k3⟩ := k
  exact ⟨by rw [k1, h1], fun a ha => (k2 a ha).trans (h2 a ha), fun hw => k3 (h3 hw)⟩

/-- A change of the fabric and of the frames sent. -/
theorem framesOnly_fab (s : State) (x : Fabric) (l : List Sent) : framesOnly s { s with fab := x, out := l } :=
  ⟨rfl, fun _ _ => rfl, id⟩

theorem framesOnly_refl (s : State) : framesOnly s s := framesOnly_fab s s.fab s.out

theorem framesOnly_count (s : State) (n k : Nat) : framesOnly s (s.bump .cePort n 0x30 k) := by
  refine ⟨rfl, fun a ha => State.regAt_bump_other s .cePort n 0x30 k a ?_, fun hw => Bank.put_wf _ _ _ _ hw⟩
  rintro rfl
  exact ha (pageBase_mod .cePort n 0x30 (by decide))

theorem framesOnly_foldl {α : Type} (f : State → α → State) (h : ∀ t x, framesOnly t (f t x)) (l : List α) (s : State) :
    framesOnly s (l.foldl f s) := by
  induction l generalizing s with
  | nil => exact framesOnly_refl s
  | cons x r ih => exact framesOnly_trans (h s x) (ih _)

theorem framesOnly_transmit (s : State) (n : Nat) : framesOnly s (s.transmit n) := by
  unfold State.transmit
  split
  · exact framesOnly_refl s
  · exact framesOnly_trans (framesOnly_fab s _ _) (framesOnly_count _ n _)

theorem framesOnly_linkSend (s : State) (l : Link) (d : LinkData) : framesOnly s (s.linkSend l d) :=
  framesOnly_trans (framesOnly_fab s _ _) (framesOnly_transmit _ _)

theorem framesOnly_loseColls (s : State) (ds : List Nat) : framesOnly s (s.loseColls ds) :=
  framesOnly_foldl _ (fun t _ => framesOnly_fab t _ _) _ s

theorem framesOnly_sendRoute (s : State) (r k : Nat) (d : LinkData) : framesOnly s (s.sendRoute r k d) := by
  unfold State.sendRoute
  split
  · exact framesOnly_linkSend s _ d
  · exact framesOnly_loseColls s _

theorem framesOnly_sendRank (s : State) (r k : Nat) (d : LinkData) : framesOnly s (s.sendRank r k d) := by
  unfold State.sendRank
  split
  · exact framesOnly_fab s _ _
  · exact framesOnly_sendRoute s r k d

theorem framesOnly_passDown (s : State) (f : DomFrame) : framesOnly s (s.passDown f) :=
  framesOnly_foldl _ (fun t r => framesOnly_sendRank t r 0 _) _ s

theorem framesOnly_txPfc (s : State) (n : Nat) (pause : Bool) : framesOnly s (s.txPfc n pause) := by
  unfold State.txPfc
  split
  · exact framesOnly_trans (framesOnly_fab s _ _) (framesOnly_count _ n 1)
  · exact framesOnly_refl s

theorem framesOnly_xonCheck (s : State) (n : Nat) : framesOnly s (s.xonCheck n) := by
  unfold State.xonCheck
  dsimp only
  split
  · exact framesOnly_trans (framesOnly_txPfc s n false) (framesOnly_fab _ _ _)
  · exact framesOnly_refl s

theorem framesOnly_dropFrame (s : State) (i : Nat) : framesOnly s (s.dropFrame i) := by
  unfold State.dropFrame
  split
  · exact framesOnly_refl s
  · exact framesOnly_trans (framesOnly_fab s _ _) (framesOnly_xonCheck _ _)

theorem framesOnly_takeFrame {α : Type} {s t : State} {p : RxFrame → Option α} {x : RxFrame} {a : α}
    (h : s.takeFrame p = some (x, a, t)) : framesOnly s t := by
  obtain ⟨e, -, he⟩ := List.exists_of_findSome?_eq_some h
  obtain ⟨b, -, hb⟩ := Option.map_eq_some_iff.1 he
  simp only [Prod.mk.injEq] at hb
  obtain ⟨-, -, rfl⟩ := hb
  exact framesOnly_dropFrame s _

theorem framesOnly_takeDown {s t : State} {mtype : Nat} {f : DomFrame} (h : s.takeDown mtype = some (f, t)) : framesOnly s t := by
  obtain ⟨⟨x, g, u⟩, hx, he⟩ := Option.map_eq_some_iff.1 h
  simp only [Prod.mk.injEq] at he
  obtain ⟨-, rfl⟩ := he
  exact framesOnly_takeFrame hx

/-- The state that a downward message is acted on. -/
theorem framesOnly_receives {s t : State} {mtype : Nat} {f : DomFrame} (h : s.receives mtype f t) : framesOnly s t := by
  obtain ⟨u, hu, rfl⟩ := h
  split
  · exact framesOnly_takeDown hu
  · exact framesOnly_trans (framesOnly_takeDown hu) (framesOnly_passDown u f)

/-! ## What frames leave as it was -/

section
variable {s t : State} (h : framesOnly s t)
include h

theorem framesOnly_step : t.step = s.step := by rw [h.1]
theorem framesOnly_mem : t.mem = s.mem := by rw [h.1]
theorem framesOnly_tarns : t.tarns = s.tarns := by rw [h.1]

theorem framesOnly_byte (a : Nat) : t.byte a = s.byte a := by
  rw [h.1]
  rfl

theorem framesOnly_reg (b : Block) (i o : Nat) (ho : o < 0x1000) (h30 : o ≠ 0x30) : t.reg b i o = s.reg b i o :=
  h.2.1 _ (by rwa [pageBase_mod b i o ho])

theorem framesOnly_ckptArea (i : Nat) : t.ckptArea i = s.ckptArea i := by
  have h60 := framesOnly_reg h .trn i 0x60 (by decide) (by decide)
  have h6C := framesOnly_reg h .trn i 0x6C (by decide) (by decide)
  have h70 := framesOnly_reg h .trn i 0x70 (by decide) (by decide)
  have h74 := framesOnly_reg h .trn i 0x74 (by decide) (by decide)
  unfold State.ckptArea State.field
  rw [h60, h6C, h70, h74]

theorem framesOnly_committedAddr (a : Nat) : t.committedAddr a = s.committedAddr a := by
  have hr : t.regions = s.regions := by
    rw [h.1]
    rfl
  have hv : t.vtOf a = s.vtOf a := by
    rw [h.1]
    rfl
  simp only [State.committedAddr, State.vRegion, hr, hv, framesOnly_ckptArea h]

/-- The committed policy records. -/
theorem framesOnly_committedPol (p : Program) : t.committedPol p = s.committedPol p := by
  funext l
  simp only [State.committedPol, State.loadCommitted, framesOnly_committedAddr h, framesOnly_byte h]

end

/-! ## Messages to this module stay in its inbox -/

theorem transmit_inbox (s : State) (n : Nat) : (s.transmit n).fab.inbox = s.fab.inbox := by
  unfold State.transmit
  split <;> rfl

theorem loseColls_inbox (s : State) (ds : List Nat) : (s.loseColls ds).fab.inbox = s.fab.inbox := by
  unfold State.loseColls
  generalize List.range 4 = l
  induction l generalizing s with
  | nil => rfl
  | cons d l ih => exact (ih _).trans rfl

theorem sendRank_inbox (s : State) (r k : Nat) (d : LinkData) : s.fab.inbox <+: (s.sendRank r k d).fab.inbox := by
  unfold State.sendRank State.sendRoute
  split
  · exact List.prefix_append _ _
  · split
    · rw [State.linkSend, transmit_inbox]
      exact List.prefix_rfl
    · rw [loseColls_inbox]

theorem passDown_inbox (s : State) (f : DomFrame) : s.fab.inbox <+: (s.passDown f).fab.inbox := by
  unfold State.passDown
  generalize s.children = l
  induction l generalizing s with
  | nil => exact List.prefix_rfl
  | cons r l ih => exact (sendRank_inbox s r 0 _).trans (ih _)

/-- What the wellhead sends downward waits on its own module. -/
theorem hasDown_sendDown (s : State) (f : DomFrame) (h : f.down = true) : (s.sendDown f).hasDown f.mtype = true := by
  have hmem : (⟨255, 0, s.dom.rank, .dom f⟩ : RxFrame) ∈ (s.sendDown f).fab.inbox :=
    (passDown_inbox (s.toSelf (.dom f)) f).subset (List.mem_append_right _ (List.mem_singleton.2 rfl))
  exact List.any_eq_true.2 ⟨_, hmem, by simp [h]⟩

end Sys2Proof.Machine
end

section
/-! PROOFS. What the writes of an opening step leave, where no line of Tarn is uncorrectable: the step and the registers, and
a Tarn that is as clean as before. -/
namespace Sys2Proof.Machine

/-! ## Tables with every value changed -/

theorem Bank.above_mapV {α : Type} [DecidableEq α] (d : Nat → α) (f : α → α) (b : Bank α) (lo : Nat) (h : Bank.above lo b = true) :
    Bank.above lo (Bank.mapV d f b) = true := by
  induction b with
  | nil => rfl
  | cons e t ih =>
    obtain ⟨j, v⟩ := e
    obtain ⟨hlo, ht⟩ : lo < j ∧ Bank.above lo t = true := by simpa [Bank.above] using h
    unfold Bank.mapV at ih ⊢
    rw [List.map_cons, List.filter_cons]
    split
    · simpa [Bank.above, hlo] using ih ht
    · exact ih ht

theorem Bank.mapV_cons {α : Type} [DecidableEq α] (d : Nat → α) (f : α → α) (j : Nat) (v : α) (t : Bank α) :
    Bank.mapV d f ((j, v) :: t) = if f v ≠ d j then (j, f v) :: Bank.mapV d f t else Bank.mapV d f t := by
  simp [Bank.mapV, List.filter_cons]

theorem Bank.mapV_wf {α : Type} [DecidableEq α] (d : Nat → α) (f : α → α) (b : Bank α) (h : Bank.wf d b = true) :
    Bank.wf d (Bank.mapV d f b) = true := by
  induction b with
  | nil => rfl
  | cons e t ih =>
    obtain ⟨j, v⟩ := e
    obtain ⟨⟨habove, -⟩, ht⟩ : (Bank.above j t = true ∧ v ≠ d j) ∧ Bank.wf d t = true := by simpa [Bank.wf] using h
    rw [Bank.mapV_cons]
    split
    · rename_i hv
      simp [Bank.wf, Bank.above_mapV d f t j habove, hv, ih ht]
    · exact ih ht

/-- A read after every value was changed, by a function that keeps what an unlisted key reads as. -/
theorem Bank.get_mapV {α : Type} [DecidableEq α] (d : Nat → α) (f : α → α) (b : Bank α) (k : Nat) (hf : f (d k) = d k)
    (h : Bank.wf d b = true) : Bank.get d (Bank.mapV d f b) k = f (Bank.get d b k) := by
  induction b with
  | nil => exact hf.symm
  | cons e t ih =>
    obtain ⟨j, v⟩ := e
    obtain ⟨⟨habove, -⟩, ht⟩ : (Bank.above j t = true ∧ v ≠ d j) ∧ Bank.wf d t = true := by simpa [Bank.wf] using h
    rw [Bank.mapV_cons, Bank.get]
    by_cases hk : k = j
    · subst hk
      rw [if_pos rfl]
      split
      · rw [Bank.get, if_pos rfl]
      · rename_i hv
        rw [Bank.get_of_above d _ k (Bank.above_mapV d f t k habove)]
        exact (not_not.1 hv).symm
    · rw [if_neg hk, ← ih ht]
      split
      · rw [Bank.get, if_neg hk]
      · rfl

/-! ## A clean Tarn -/

/-- The bases are in canonical form and no line is on a poison list. -/
def tarnsClean (s : State) : Prop := Bank.wf stackDefault s.tarns = true ∧ cleanTarn s

theorem tarnsClean_of_tarns {s t : State} (h : t.tarns = s.tarns) (hs : tarnsClean s) : tarnsClean t := by
  unfold tarnsClean cleanTarn State.stack at *
  rwa [h]

theorem tarnsClean_setStack (s : State) (i : Nat) (x : Stack) (hs : tarnsClean s) (hx : x.poison = []) : tarnsClean (s.setStack i x) := by
  obtain ⟨hw, hc⟩ := hs
  refine ⟨Bank.put_wf _ _ _ _ hw, fun j => ?_⟩
  rw [State.stack_setStack_keeps (·.poison) s i j x hw (hx.trans (hc i).symm), hc j]

theorem tarnsClean_setVt (s : State) (a : Nat) (e : VtEntry) (hs : tarnsClean s) : tarnsClean (s.setVt a e) :=
  tarnsClean_setStack s _ _ hs (hs.2 _)

/-- Writes to a clean Tarn change no base. -/
theorem putBytes_tarns_of_clean (s : State) (a : Nat) (l : List Byte) (hs : cleanTarn s) : (s.putBytes a l).tarns = s.tarns := by
  show (s.freshen a l.length).tarns = s.tarns
  rw [State.freshen, if_neg fun h => h.2 (hs _)]

theorem tarnsClean_putBytes (s : State) (a : Nat) (l : List Byte) (hs : tarnsClean s) : tarnsClean (s.putBytes a l) :=
  tarnsClean_of_tarns (putBytes_tarns_of_clean s a l hs.2) hs

theorem tarnsClean_touch (s : State) (a : Nat) (whole : Bool) (hs : tarnsClean s) : tarnsClean (s.touch a whole) := by
  unfold State.touch
  split
  · exact hs
  · dsimp only
    split
    · exact hs
    · refine tarnsClean_setVt _ _ _ ?_
      split
      · exact hs
      · exact tarnsClean_putBytes s _ _ hs

theorem tarnsClean_storeAux (n : Nat) (s : State) (a : Nat) (l : List Byte) (hs : tarnsClean s) : tarnsClean (State.storeAux n s a l) := by
  induction n generalizing s a l with
  | zero => exact hs
  | succ n ih =>
    unfold State.storeAux
    split
    · exact hs
    · exact ih _ _ _ (tarnsClean_putBytes _ _ _ (tarnsClean_touch _ _ _ hs))

theorem tarnsClean_store (s : State) (a : Nat) (l : List Byte) (hs : tarnsClean s) : tarnsClean (s.store a l) :=
  tarnsClean_storeAux _ s a l hs

/-- A base whose error on record may be overwritten (R124). -/
def forgetError (k : Stack) : Stack := { k with ueHeld := false }

theorem tarnsClean_freshErrors (s : State) (hs : tarnsClean s) : tarnsClean s.freshErrors := by
  obtain ⟨hw, hc⟩ := hs
  have htarns : s.freshErrors.tarns = Bank.mapV stackDefault forgetError s.tarns := rfl
  refine ⟨by rw [htarns]; exact Bank.mapV_wf _ _ _ hw, fun i => ?_⟩
  rw [State.stack, htarns, Bank.get_mapV stackDefault forgetError s.tarns i rfl hw]
  exact hc i

theorem logWrite_tarns_of_clean (s : State) (r : EventRec) (lost : Bool) (hs : cleanTarn s) : (s.logWrite r lost).tarns = s.tarns := by
  simp [State.logWrite, putBytes_tarns_of_clean s _ _ hs]

/-- The log writer finds no uncorrectable line. -/
theorem logPut_tarns_of_clean (s : State) (r : EventRec) (hs : cleanTarn s) : (s.logPut r).tarns = s.tarns := by
  have hp : s.poisoned s.logPlace (s.logPlace + 48) = [] := by simp [State.poisoned, hs _]
  unfold State.logPut
  dsimp only
  rw [hp]
  split
  · exact logWrite_tarns_of_clean s r false hs
  · split <;> simp

theorem tarnsClean_logRecord (s : State) (r : EventRec) (hs : tarnsClean s) : tarnsClean (s.logRecord r) := by
  have same (t : State) (h : t.tarns = s.tarns) : tarnsClean t := tarnsClean_of_tarns h hs
  exact logRecord_cases s r (fun x => same { s with log := x } rfl) (same _ (logPut_tarns_of_clean s r hs.2))
    (same _ (State.logDrop_tarns s))

/-! ## Writes of strands -/

/-- From `s` to `t` strands wrote Tarn: a clean one stays clean, and the step and the registers are as before. -/
def writesKeep (s t : State) : Prop := tarnsClean s → tarnsClean t ∧ t.step = s.step ∧ t.regs = s.regs

theorem writesKeep_refl (s : State) : writesKeep s s := fun h => ⟨h, rfl, rfl⟩

theorem writesKeep_trans {s t u : State} (h : writesKeep s t) (k : writesKeep t u) : writesKeep s u := by
  intro hs
  obtain ⟨ht, h1, h2⟩ := h hs
  obtain ⟨hu, k1, k2⟩ := k ht
  exact ⟨hu, k1.trans h1, k2.trans h2⟩

theorem writesKeep_foldl {α : Type} (f : State → α → State) (h : ∀ t x, writesKeep t (f t x)) (l : List α) (s : State) :
    writesKeep s (l.foldl f s) := by
  induction l generalizing s with
  | nil => exact writesKeep_refl s
  | cons x r ih => exact writesKeep_trans (h s x) (ih _)

/-- A unit's write with the lines it reads. -/
theorem writesKeep_strandStore (s : State) (ra : Bool) (req a : Nat) (reads : List Nat) (writes : List (Nat × Nat)) (l : List Byte) :
    writesKeep s (s.strandIO ra req reads writes (s.store a l)) := by
  intro hs
  rw [State.strandIO_of_clean _ _ _ _ _ _ hs.2]
  exact ⟨tarnsClean_store s a l hs, State.store_step s a l, State.store_regs s a l⟩

theorem writesKeep_clearBitmaps (s : State) (p : Program) (n : Nat) : writesKeep s (s.clearBitmaps p n) :=
  writesKeep_foldl _ (fun t _ => writesKeep_foldl _ (fun u _ => writesKeep_strandStore u false 2 _ _ _ _) _ t) _ s

theorem clearBitmaps_of_no_updates (s : State) (g : Program) (n : Nat) (h : g.updates = []) : s.clearBitmaps g n = s := by
  rw [State.clearBitmaps, h]
  rfl

/-! ## What the run-ahead holds -/

theorem tarnsClean_logRecords (l : List EventRec) (s : State) (hs : tarnsClean s) :
    tarnsClean (l.foldl (fun (t : State) (x : EventRec) => t.logRecord x) s) := by
  induction l generalizing s with
  | nil => exact hs
  | cons r l ih => exact ih _ (tarnsClean_logRecord s r hs)

theorem setAttempt_true_step (s : State) (a : Attempt) : (s.setAttempt true a).step = { s.step with ra := some a } := rfl

/-- The records of the run-ahead are written. -/
theorem flushRecords_keeps (s : State) (r : Attempt) (hr : s.step.ra = some r) (hs : tarnsClean s)
    (hw : Bank.wf regReset s.regs = true) :
    tarnsClean s.flushRecords ∧ s.flushRecords.step = { s.step with ra := some { r with records := [] } } ∧
      Bank.wf regReset s.flushRecords.regs = true := by
  have hkept : tarnsClean (s.setAttempt true { r with records := [] }) := tarnsClean_of_tarns (s := s) rfl hs
  have hregs : Bank.wf regReset (s.setAttempt true { r with records := [] }).regs = true := hw
  unfold State.flushRecords
  rw [hr]
  dsimp only
  refine ⟨tarnsClean_logRecords _ _ hkept, ?_, (flagsGrow_foldl _ flagsGrow_logRecord r.records _ hregs).1⟩
  rw [State.foldl_step _ _ _ fun t x => State.logRecord_step t x, setAttempt_true_step]

/-- What the run-ahead holds is written, and only its hold and its records leave the step's record. -/
theorem flushHold_keeps (s : State) (r : Attempt) (hr : s.step.ra = some r) (hs : tarnsClean s) (hw : Bank.wf regReset s.regs = true) :
    tarnsClean s.flushHold ∧ s.flushHold.step = { s.step with ra := some { r with hold := [], records := [] } } ∧
      Bank.wf regReset s.flushHold.regs = true := by
  obtain ⟨hclean, hstep, hregs⟩ := writesKeep_foldl
    (fun (t : State) (h : Nat × List Byte) => t.strandIO true 0 [] [(h.1, h.2.length)] (t.store h.1 h.2))
    (fun t h => writesKeep_strandStore t true 0 h.1 [] _ h.2) r.hold (s.setAttempt true { r with hold := [] })
    (tarnsClean_of_tarns (s := s) rfl hs)
  unfold State.flushHold
  rw [hr]
  dsimp only
  generalize List.foldl _ _ r.hold = v at hclean hstep hregs ⊢
  rw [setAttempt_true_step] at hstep
  obtain ⟨hclean', hstep', hregs'⟩ := flushRecords_keeps v { r with hold := [] } (by rw [hstep]) hclean (hregs ▸ hw)
  refine ⟨hclean', ?_, hregs'⟩
  rw [hstep', hstep]

end Sys2Proof.Machine
end

section
/-! PROOFS. How a step opens: the wellhead's latch and OPEN, and what OPEN makes of a module's attempt. -/
namespace Sys2Proof.Machine

/-! ## STEP_OPEN -/

theorem exec_stepOpen_of_closed (s : State) (h : s.mayOpen = false) : exec .stepOpen s = .next s := by
  show execStepOpen s = _
  unfold execStepOpen
  split
  · exact guarded_of_false _ _ (by rw [h, Bool.false_and])
  · rfl

/-- The step size is latched for the step, and nothing else of the step or the program changes. -/
theorem latchFor_keeps {s t : State} {n : Nat} (h : s.latchFor n = some t) :
    t.inl.latched = some n ∧ t.step = s.step ∧ t.prog = s.prog ∧ t.cp = s.cp := by
  unfold State.latchFor at h
  split at h
  · rename_i hl
    obtain rfl := Option.some.inj h
    exact ⟨hl, rfl, rfl, rfl⟩
  · split at h
    · obtain rfl := Option.some.inj h
      exact ⟨rfl, rfl, rfl, rfl⟩
    · split at h
      · obtain rfl := Option.some.inj h
        exact ⟨rfl, rfl, rfl, rfl⟩
      · cases h

section
variable {s : State} {g : Program} (hg : s.prog = some g) (hserv : g.serving = false) (hmay : s.mayOpen = true)
include hg hserv hmay

/-- With a step size the wellhead sends one OPEN from the state in which the size is latched and the base taken. -/
theorem exec_stepOpen_of_latch {t : State} (ht : s.latchFor s.stepNum = some t) :
    ∃ d u n k b l, exec .stepOpen s = .next (({ t with dom := d } : State).sendDown (State.domFrame u 4 true n k b l)) := by
  have hnext : exec .stepOpen s = execStepOpen s := rfl
  unfold execStepOpen at hnext
  rw [hg] at hnext
  dsimp only at hnext
  rw [ht] at hnext
  dsimp only at hnext
  rw [guarded_of_true _ _ (by simp [hmay, hserv])] at hnext
  exact ⟨_, _, _, _, _, _, hnext⟩

theorem stepOpen_answers_latch (hl : s.latchFor s.stepNum ≠ none) :
    answers .stepOpen s fun u => u.hasDown 4 = true ∧ u.inl.latched = some s.stepNum ∧ u.step = s.step ∧ u.prog = s.prog ∧
      u.cp = s.cp := by
  obtain ⟨t, ht⟩ := Option.ne_none_iff_exists'.1 hl
  obtain ⟨hlatched, hstep, hprog, hcp⟩ := latchFor_keeps ht
  obtain ⟨d, w, n, k, b, l, hnext⟩ := exec_stepOpen_of_latch hg hserv hmay ht
  refine answers_of_eq hnext ⟨?_, ?_, ?_, ?_, ?_⟩
  · exact hasDown_sendDown _ (w.domFrame 4 true n k b l) rfl
  · rw [State.sendDown_inl, hlatched]
  · rw [State.sendDown_step, hstep]
  · rw [State.sendDown_prog, hprog]
  · rw [State.sendDown_cp, hcp]

variable (hnone : s.latchFor s.stepNum = none)
include hnone

theorem exec_stepOpen_of_blocked (hb : s.dom.blocked = some s.stepNum) : exec .stepOpen s = .next s := by
  show execStepOpen s = _
  unfold execStepOpen
  rw [hg]
  dsimp only
  rw [hnone]
  dsimp only
  rw [if_pos hb]
  exact guarded_of_true _ _ (by simp [hmay, hserv])

/-- Without a step size the step blocks, with one LR_MISSING. -/
theorem stepOpen_answers_missing (hb : s.dom.blocked ≠ some s.stepNum) :
    answers .stepOpen s fun u => u.dom = { s.dom with blocked := some s.stepNum } ∧ eventOnly { s with dom := u.dom } u ∧
      (s.mainOn = true → s.canonical = true → flagSet u .inl 0 0) := by
  have hnext : exec .stepOpen s = .next (({ s with dom := { s.dom with blocked := some s.stepNum } } : State).raiseCtx 0x0501 0 5
      { step := some s.stepNum } (leBytes 4 s.stepNum)) := by
    show execStepOpen s = _
    unfold execStepOpen
    rw [hg]
    dsimp only
    rw [hnone]
    dsimp only
    rw [if_neg hb]
    exact guarded_of_true _ _ (by simp [hmay, hserv])
  refine answers_of_eq hnext ⟨State.raiseCtx_dom .., ?_, fun hm hc => ?_⟩
  · rw [State.raiseCtx_dom]
    exact eventOnly_raiseCtx _ _ _ _ _ _ rfl
  · exact flagSet_raiseCtx _ _ _ _ _ _ rfl (by decide) rfl hm hc

end

/-! ## What every OPEN leaves -/

theorem openCommon_tarns (s : State) (n : Nat) : (s.openCommon n).tarns = s.freshErrors.tarns := rfl

theorem openCommon_regs (s : State) (n : Nat) : (s.openCommon n).regs = (s.setStepNum n).regs := rfl

theorem tarnsClean_openCommon (s : State) (n : Nat) (h : tarnsClean s) : tarnsClean (s.openCommon n) :=
  tarnsClean_of_tarns (openCommon_tarns s n) (tarnsClean_freshErrors s h)

/-- The step number and the sequence base are those of the message. -/
theorem opened_registers {s v : State} (n b : Nat) (hw : Bank.wf regReset s.regs = true)
    (hv : v.regs = ((s.setStepNum n).setBase b).regs) : v.stepNum = n % 2 ^ 32 ∧ v.reg .twn 0 0x18 = BitVec.ofNat 32 b := by
  have hreg (k i o : Nat) (bl : Block) : v.reg bl i o = ((s.setStepNum n).setBase b).reg bl i o := by
    rw [State.reg, State.regAt, hv]
    rfl
  have hstep : ((s.setStepNum n).setBase b).reg .step 0 0x18 = BitVec.ofNat 32 n :=
    (State.regAt_setReg_other _ .twn 0 0x18 _ _ (by decide)).trans (State.reg_setReg_same s .step 0 0x18 _ hw)
  refine ⟨?_, ?_⟩
  · rw [State.stepNum, hreg 0, hstep, BitVec.toNat_ofNat]
  · rw [hreg 0]
    exact State.reg_setReg_same _ .twn 0 0x18 _ (Bank.put_wf _ _ _ _ hw)

/-! ## OPEN on a module -/

/-- The attempt that OPEN starts where no run-ahead is kept. -/
def State.openedAttempt (s : State) (f : DomFrame) (g : Program) : Attempt :=
  { step := f.step, number := f.attempt, base := f.arg, lr := some (BitVec.ofNat 32 (fld f 0)), wide := fld f 1 == 1
    rerun := fld f 2 == 1, skip := s.step.skipNext, layers := openLayers g (fld f 1 == 1) (s.committedPol g) }

/-- The state in which the new attempt is open and its applied bitmaps are not yet cleared. -/
def State.openFresh (s : State) (f : DomFrame) (g : Program) : State :=
  { s.openCommon f.step with step := { (s.openCommon f.step).step with att := some (s.openedAttempt f g), causes := [] } }

theorem tarnsClean_openFresh (s : State) (f : DomFrame) (g : Program) (hs : tarnsClean s) :
    tarnsClean ((s.openFresh f g).setBase f.arg) :=
  tarnsClean_of_tarns (s := s.openCommon f.step) rfl (tarnsClean_openCommon s f.step hs)

section
variable {s : State} {g : Program} {f : DomFrame} (hg : s.prog = some g) (hs : tarnsClean s)
include hg hs

/-- OPEN without a run-ahead starts a new attempt from the committed policy records. -/
theorem onOpen_of_none (hra : s.step.ra = none) :
    s.onOpen f = ((s.openFresh f g).setBase f.arg).clearBitmaps g f.step := by
  obtain ⟨hclean, -, -⟩ := writesKeep_clearBitmaps ((s.openFresh f g).setBase f.arg) g f.step (tarnsClean_openFresh s f g hs)
  unfold State.onOpen
  rw [hg]
  dsimp only
  rw [hra]
  exact State.strandIO_of_clean _ _ _ _ _ _ hclean.2

end

/-! ## The run-ahead becomes the attempt -/

/-- OPEN of the step and base of the run-ahead makes it the attempt: up to the bitmaps and the base, the units, the stash and the engines
apart, this is what is left of the step. -/
theorem onOpen_of_runAhead {s : State} {g : Program} {f : DomFrame} {a : Attempt} (hg : s.prog = some g) (hra : s.step.ra = some a)
    (hstep : a.step = f.step) (hbase : a.base = f.arg) (hrerun : fld f 2 ≠ 1) :
    ∃ v : State, s.onOpen f = (v.setBase f.arg).clearBitmaps g f.step ∧
      v.tarns = (s.flushHold.openCommon f.step).tarns ∧ v.regs = (s.flushHold.openCommon f.step).regs ∧
      v.step = { (s.flushHold.openCommon f.step).step with
        att := some { a with lr := some (BitVec.ofNat 32 (fld f 0)), heldCauses := [], hold := [], records := [] }
        ra := none
        causes := ((s.flushHold.openCommon f.step).step.ra.map (·.heldCauses)).getD [] } := by
  have hopen : s.onOpen f = s.onOpen f := rfl
  conv_rhs at hopen => unfold State.onOpen
  rw [hg] at hopen
  dsimp only at hopen
  rw [hra] at hopen
  dsimp only at hopen
  rw [if_pos ⟨hstep, hbase, by simpa using hrerun⟩] at hopen
  refine ⟨_, hopen, ?_, ?_, ?_⟩
  · exact State.foldl_tarns _ _ _ fun _ _ => rfl
  · exact State.foldl_regs _ _ _ fun _ _ => rfl
  · exact State.foldl_step _ _ _ fun _ _ => rfl

/-! ## The row OPEN -/

/-- OPEN waits while an attempt is open, a restore is in progress, or a write of its own waits for an epoch (R287, R385). -/
theorem exec_openAttempt_of_waits (s : State) (h : s.step.att ≠ none ∨ s.restoring = true ∨
    ∃ f t, s.takeDown 4 = some (f, t) ∧ s.openWaits f.step = true) : exec .openAttempt s = .next s := by
  refine guarded_of_false _ _ ?_
  rcases h with h | h | ⟨f, t, ht, hw⟩
  · have hsome : s.step.att.isNone = false := Option.isNone_eq_false_iff.2 (Option.isSome_iff_ne_none.2 h)
    rw [hsome]
    rfl
  · simp [h]
  · simp [ht, hw]

/-- An OPEN that waits for nothing is acted on from the state that it leaves once taken and passed on. -/
theorem exec_openAttempt_of_receives {s t : State} {f : DomFrame} (hatt : s.step.att = none) (hcom : s.step.committing = false)
    (habort : s.hasDown 0x11 = false) (hrec : s.receives 4 f t) (hhalt : s.step.halted = none ∨ fld f 4 = 1)
    (hrest : s.restoring = false) (hwait : s.openWaits f.step = false) : exec .openAttempt s = .next (t.onOpen f) := by
  have hstep := framesOnly_step (framesOnly_receives hrec)
  obtain ⟨u, hu, rfl⟩ := hrec
  refine (guarded_of_true _ _ (by simp [hatt, hcom, habort, hrest, hu, hwait])).trans (congrArg _ ?_)
  rw [State.onDown, hu]
  dsimp only
  rw [hstep]
  refine if_neg ?_
  rcases hhalt with h | h <;> simp [h]

section
variable {s t : State} {g : Program} {f : DomFrame} (hrec : s.receives 4 f t) (hg : t.prog = some g) (hc : s.canonical = true)
variable (hclean : cleanTarn s)
include hrec hc

theorem receives_regs_wf : Bank.wf regReset t.regs = true :=
  (framesOnly_receives hrec).2.2 ((State.canonical_iff s).1 hc).2.1

include hclean

theorem receives_tarnsClean : tarnsClean t :=
  tarnsClean_of_tarns (framesOnly_tarns (framesOnly_receives hrec)) ⟨((State.canonical_iff s).1 hc).2.2.1, hclean⟩

include hg

/-- What OPEN makes of a module without a run-ahead. -/
theorem onOpen_fresh_keeps (hra : s.step.ra = none) : (t.onOpen f).step.att = some (s.openedAttempt f g) ∧
    (t.onOpen f).step.halted = none ∧ (t.onOpen f).step.exhausted = false ∧ (t.onOpen f).step.causes = [] ∧
    (t.onOpen f).stepNum = f.step % 2 ^ 32 ∧ (t.onOpen f).reg .twn 0 0x18 = BitVec.ofNat 32 f.arg ∧
    (g.updates = [] → (t.onOpen f).mem = s.mem) := by
  have hframes := framesOnly_receives hrec
  have hstep := framesOnly_step hframes
  have htarns := receives_tarnsClean hrec hc hclean
  have hattempt : t.openedAttempt f g = s.openedAttempt f g := by
    rw [State.openedAttempt, State.openedAttempt, framesOnly_committedPol hframes, hstep]
  obtain ⟨-, hkept, hregs⟩ :=
    writesKeep_clearBitmaps ((t.openFresh f g).setBase f.arg) g f.step (tarnsClean_openFresh t f g htarns)
  rw [onOpen_of_none hg htarns (by rw [hstep, hra])]
  obtain ⟨hnum, hbase⟩ := opened_registers f.step f.arg (receives_regs_wf hrec hc) hregs
  refine ⟨?_, ?_, ?_, ?_, hnum, hbase, fun hup => ?_⟩
  · rw [hkept, ← hattempt]
    rfl
  · rw [hkept]
    rfl
  · rw [hkept]
    rfl
  · rw [hkept]
    rfl
  · have hmem : t.mem = s.mem := framesOnly_mem hframes
    rw [clearBitmaps_of_no_updates _ g _ hup, ← hmem]
    rfl

/-- What OPEN of its step and base makes of a run-ahead. -/
theorem onOpen_runAhead_keeps {a : Attempt} (hra : s.step.ra = some a) (hnum : a.step = f.step) (hbase : a.base = f.arg)
    (hrerun : fld f 2 ≠ 1) :
    (t.onOpen f).step.att = some { a with lr := some (BitVec.ofNat 32 (fld f 0)), heldCauses := [], hold := [], records := [] } ∧
      (t.onOpen f).step.ra = none ∧ (t.onOpen f).step.halted = none ∧ (t.onOpen f).step.exhausted = false ∧
      (t.onOpen f).step.causes = a.heldCauses ∧ (t.onOpen f).stepNum = f.step % 2 ^ 32 ∧
      (t.onOpen f).reg .twn 0 0x18 = BitVec.ofNat 32 f.arg := by
  have hra' : t.step.ra = some a := by rw [framesOnly_step (framesOnly_receives hrec), hra]
  obtain ⟨hflushed, hstep, hwf⟩ := flushHold_keeps t a hra' (receives_tarnsClean hrec hc hclean) (receives_regs_wf hrec hc)
  obtain ⟨v, hopen, hvtarns, hvregs, hvstep⟩ := onOpen_of_runAhead hg hra' hnum hbase hrerun
  have hvclean : tarnsClean (v.setBase f.arg) :=
    tarnsClean_of_tarns (s := t.flushHold.openCommon f.step) hvtarns (tarnsClean_openCommon _ _ hflushed)
  obtain ⟨-, hkept, hregs⟩ := writesKeep_clearBitmaps (v.setBase f.arg) g f.step hvclean
  have hcauses : (t.flushHold.openCommon f.step).step.ra = some { a with hold := [], records := [] } := by
    show t.flushHold.step.ra = _
    rw [hstep]
  have hbaseRegs : (v.setBase f.arg).regs = ((t.flushHold.setStepNum f.step).setBase f.arg).regs := by
    show Bank.put regReset v.regs _ _ = Bank.put regReset (t.flushHold.setStepNum f.step).regs _ _
    rw [hvregs, openCommon_regs]
  have hend : (t.onOpen f).step = v.step := by rw [hopen, hkept]; rfl
  rw [hend, hvstep]
  obtain ⟨hn, hb⟩ := opened_registers (v := t.onOpen f) f.step f.arg hwf (by rw [hopen, hregs, hbaseRegs])
  refine ⟨rfl, rfl, rfl, rfl, ?_, hn, hb⟩
  rw [hcauses]
  rfl

end

/-- Settles O36: the latch and OPEN at the wellhead, and what `onOpen` leaves of the step on a clean Tarn. -/
theorem stepsOpen : Obligations.StepsOpen := by
  unfold Obligations.StepsOpen
  refine ⟨exec_stepOpen_of_closed, ?latch, ?missing, ?opened, exec_openAttempt_of_waits⟩
  case latch => exact fun s g hg hserv hmay hl => stepOpen_answers_latch hg hserv hmay hl
  case missing =>
    exact fun s g hg hserv hmay hnone =>
      ⟨stepOpen_answers_missing hg hserv hmay hnone, exec_stepOpen_of_blocked hg hserv hmay hnone⟩
  case opened =>
    intro s t g f hatt hcom habort hrec hg hhalt hc hclean hrest hwait
    have hnext := exec_openAttempt_of_receives hatt hcom habort hrec hhalt hrest hwait
    exact ⟨fun hra => answers_of_eq hnext (onOpen_fresh_keeps hrec hg hc hclean hra),
      fun a hra hnum hbase hrerun => answers_of_eq hnext (onOpen_runAhead_keeps hrec hg hc hclean hra hnum hbase hrerun)⟩

end Sys2Proof.Machine
end

section
/-! PROOFS. The Facets: what folding a K-group, reading a row with the drain, replaying a task and completing one leave. -/
namespace Sys2Proof.Machine

/-! ## Tasks and their events -/

theorem facet_setFacet_congr {s t : State} (f : Nat) (h : t.units = s.units) : t.facet f = s.facet f := by
  rw [State.facet, State.facet, h]

/-- Outside a run-ahead no event of a task is held back (R223). -/
theorem taskCtx_ra_false (s : State) (id pidx : Nat) : (s.taskCtx false id pidx).ra = false := by
  unfold State.taskCtx
  split
  · split
    · rw [strandCtx]
      split <;> rfl
    · rfl
  · rfl

/-- Events raised before a Facet's change and after it come to the same. -/
theorem eventOnly_setFacet {s t : State} (f : Nat) (x : FacetSt) (h : eventOnly s t) : eventOnly (s.setFacet f x) (t.setFacet f x) := by
  obtain ⟨h1, h2, h3⟩ := h
  exact ⟨by rw [h1]; rfl, h2, h3⟩

/-! ## K_GROUP_RESCALE -/

/-- A task after the next K-group of a cell (R72, R87, R96). -/
def State.foldedTask (s : State) (g : Program) (a : Attempt) (f : Nat) (t : FTask) (d : TileDesc) (r c : Nat) : FTask :=
  let k := (t.cell r c).1
  let oa := s.operand f t d false (partRow0 d.mode d.pidx + r) k
  let ob := s.operand f t d true (partCol0 d.mode d.pidx + c) k
  { t with
    cells := Bank.put cellDefault t.cells (64 * r + c)
      (k + 1, foldGroup d oa ob (t.cell r c).2 (s.drawFor g a.step f d k (d.row0 + r) (d.col0 + c)))
    fetched := if operandsFit d then t.fetched
      else Bank.put operandDefault (Bank.put operandDefault t.fetched (operandKey false (partRow0 d.mode d.pidx + r) k) oa)
        (operandKey true (partCol0 d.mode d.pidx + c) k) ob }

/-- Binary16 operands carry no tags (R112). -/
theorem tagsOk_of_f16 (s : State) (f : Nat) (t : FTask) (d : TileDesc) (k : Nat) (h : d.format = .f16) : s.tagsOk f t d k = true := by
  simp [State.tagsOk, h]

/-- Binary16 operands have no E8 that could be illegal. -/
theorem illegalBlocks_of_f16 (s : State) (f : Nat) (t : FTask) (d : TileDesc) (k r c : Nat) (h : d.format = .f16) :
    s.illegalBlocks f t d k r c = s := by
  simp [State.illegalBlocks, h]

/-- Without an illegal block, and without a Loupe that samples the task, folding changes the task alone. -/
theorem foldCell_of_quiet (s : State) (g : Program) (a : Attempt) (f : Nat) (t : FTask) (d : TileDesc) (r c : Nat)
    (hlegal : s.illegalBlocks f t d (t.cell r c).1 r c = s) (hkeep : d.format = .f16 ∨ s.inLoupe f t = false) :
    s.foldCell g a f t d r c = s.setFacet f ((s.facet f).putTask (s.foldedTask g a f t d r c)) := by
  have hk : (s.inLoupe f t && d.format != .f16) = false := by
    rcases hkeep with h | h <;> simp [h]
  simp only [State.foldCell, hlegal, hk]
  rfl

section
variable {s : State} {f pidx r c : Nat} {g : Program} {t : FTask} {d : TileDesc} {a : Attempt}
variable (hg : s.prog = some g) (hfold : s.foldTask f pidx r c = some (t, d)) (hatt : s.attempt t.ra = some a)
variable (hr : r < partRows d.mode) (hc : c < partCols d.mode)
include hg hfold hatt hr hc

/-- A K-group whose tags match is folded, once issue has resumed where it was at rest. -/
theorem exec_kGroupRescale_of_tagsOk (ramping : Bool) {u : State}
    (hu : (if (s.facet f).issuing then s else s.beginIssue f ramping d.format) = u) (htags : u.tagsOk f t d (t.cell r c).1 = true) :
    exec (.kGroupRescale f pidx r c ⟨.none, ramping⟩) s = .next (u.foldCell g a f t d r c) := by
  show execKGroupRescale f pidx r c ⟨.none, ramping⟩ s = _
  unfold execKGroupRescale
  rw [hg, hfold]
  dsimp only
  rw [hatt]
  dsimp only
  rw [guarded_of_true _ _ (decide_eq_true ⟨hr, hc⟩), hu, if_pos htags]

theorem exec_kGroupRescale_of_skew (ramping : Bool) :
    exec (.kGroupRescale f pidx r c ⟨.skew, ramping⟩) s = .next (s.strike f t 0x0201) := by
  show execKGroupRescale f pidx r c ⟨.skew, ramping⟩ s = _
  unfold execKGroupRescale
  rw [hg, hfold]
  dsimp only
  rw [hatt]
  exact guarded_of_true _ _ (decide_eq_true ⟨hr, hc⟩)

end

/-- A start ramp is counted; a stop ramp that still runs is widened and not counted (R109, R110). -/
theorem beginIssue_ramps (s : State) (f : Nat) (ramping : Bool) (fmt : PFmt) (hrest : (s.facet f).issuing = false)
    (hw : Bank.wf regReset s.regs = true) (hfmt : fmt ≠ .cnm) :
    ((s.beginIssue f ramping fmt).reg .fct f 0x70).toNat =
      if ramping then (s.reg .fct f 0x70).toNat else ((s.reg .fct f 0x70).toNat + 1) % 2 ^ 32 := by
  have hregs (u : State) (b : Bool) : (u.issueWide f b).reg .fct f 0x70 = u.reg .fct f 0x70 := by
    rw [State.reg, State.regAt, State.issueWide, State.setActivity_regs]
    rfl
  have hcnm : (fmt == .cnm) = false := by simpa using hfmt
  cases ramping with
  | true =>
    simp only [State.beginIssue, hregs, hrest, Bool.false_or, Bool.true_or, if_true]
    rfl
  | false =>
    simp only [State.beginIssue, hregs, hrest, hcnm, Bool.or_false, Bool.false_eq_true, if_false]
    rw [State.bump, State.reg_setReg_same (s.setFacet f _) _ _ _ _ hw, BitVec.toNat_add]
    rfl

/-- A fault has struck a task: its event is raised, and it waits, discarded, for its replay (R97). -/
def State.struck (s : State) (f : Nat) (t : FTask) (code : Nat) : State :=
  (s.raiseCtx code f 0 (s.taskCtx t.ra t.id t.pidx) []).setFacet f ((s.facet f).putTask { t.discard with faulted := true })

theorem eventOnly_struck (s : State) (f : Nat) (t : FTask) (code : Nat) (hra : t.ra = false) :
    eventOnly (s.setFacet f ((s.facet f).putTask { t.discard with faulted := true })) (s.struck f t code) :=
  eventOnly_setFacet f _ (eventOnly_raiseCtx s code f 0 _ [] (by rw [hra]; exact taskCtx_ra_false s t.id t.pidx))

/-- A first fault in the attempt does no more. -/
theorem strike_of_replay_left (s : State) (f : Nat) (t : FTask) (code : Nat)
    (h : ((s.struck f t code).facet f).replayed.contains (t.id, t.ra) = false) : s.strike f t code = s.struck f t code := by
  unfold State.strike
  dsimp only
  rw [facet_setFacet_congr (s := s) f (State.raiseCtx_units ..), if_neg]
  · rfl
  · exact ne_true_of_eq_false h

/-! ## Completion of a strand -/

theorem attempt_of_step {s t : State} {a : Attempt} {ra : Bool} (h : t.step = s.step) (hatt : s.attempt ra = some a) :
    t.attempt ra = some a := by
  rw [State.attempt, h]
  exact hatt

theorem attempt_markDone {s : State} {a : Attempt} {ra : Bool} {id : Nat} (hatt : s.attempt ra = some a) :
    (s.markDone ra id).attempt ra = some { a with done := if a.done.contains id then a.done else a.done ++ [id] } := by
  rw [State.markDone, hatt]
  cases ra <;> rfl

theorem mem_done_markDone (a : Attempt) (id : Nat) : id ∈ (if a.done.contains id then a.done else a.done ++ [id]) := by
  split
  · next h => simpa using h
  · simp

theorem releaseAt_keeps (s : State) (ra : Bool) (p : Program) (id : Nat) :
    (s.releaseAt ra p id).units = s.units ∧ (s.releaseAt ra p id).mem = s.mem ∧ (s.releaseAt ra p id).prog = s.prog ∧
      (s.releaseAt ra p id).queues = s.queues :=
  ⟨State.foldl_units _ _ s fun _ _ => rfl, State.foldl_mem _ _ s fun _ _ => rfl, State.foldl_prog _ _ s fun _ _ => rfl,
    State.foldl_queues _ _ s fun _ _ => rfl⟩

/-- A strand that completes is done in its attempt; units, memory, program and queues stay. -/
theorem completeStrand_keeps {s : State} {g : Program} {a : Attempt} {ra : Bool} {id : Nat} (hg : s.prog = some g)
    (hatt : s.attempt ra = some a) :
    (s.completeStrand ra id).units = s.units ∧ (∃ b, (s.completeStrand ra id).attempt ra = some b ∧ id ∈ b.done) ∧
      (s.completeStrand ra id).mem = s.mem ∧ (s.completeStrand ra id).prog = s.prog ∧ (s.completeStrand ra id).queues = s.queues := by
  have hend : s.completeStrand ra id = (s.markDone ra id).releaseAt ra g id := by rw [State.completeStrand, hg]
  have hstep : (s.completeStrand ra id).step = (s.markDone ra id).step := by rw [hend, releaseAt_step]
  obtain ⟨hunits, hmem, hprog, hqueues⟩ := releaseAt_keeps (s.markDone ra id) ra g id
  refine ⟨?_, ⟨_, attempt_of_step hstep (attempt_markDone hatt), mem_done_markDone a id⟩, ?_, ?_, ?_⟩ <;> rw [hend]
  · rw [hunits, State.markDone_units]
  · rw [hmem, State.markDone_mem]
  · rw [hprog, State.markDone_prog]
  · rw [hqueues, State.markDone_queues]

/-! ## DRAIN_ROW_READ -/

/-- A task whose next row the drain has read (R90). -/
def FTask.drained (t : FTask) : FTask :=
  { t with next := t.next + 1, cells := Bank.drop (fun k => k / 64 == t.next) t.cells }

theorem putWords_length (l : List Word) : (l.flatMap fun v => leBytes 4 v.toNat).length = 4 * l.length := by
  simp [leBytes, List.length_flatMap, Nat.mul_comm]

theorem drainRow_length (s : State) (f : Nat) (t : FTask) (d : TileDesc) (v : List Word) : (s.drainRow f t d v).length = partCols d.mode := by
  simp [State.drainRow]

/-- Words leave every byte outside them as it was. -/
theorem byte_putWords_other (s : State) (k : Nat) (l : List Word) (b : Nat) (h : Bank.wf stackDefault s.tarns = true)
    (hb : b < k ∨ k + 4 * l.length ≤ b) : (s.putWords k l).byte b = s.byte b :=
  State.byte_putBytes_other s k _ b h (by rwa [putWords_length])

theorem drainEvents_of_finite (s : State) (a : Attempt) (f : Nat) (t : FTask) (ys : List Word) (h : ys.any notFinite = false) :
    s.drainEvents a f t ys = s := by
  have hnone : ys.filter notFinite = [] := by
    rw [List.filter_eq_nil_iff]
    exact List.any_eq_false.1 h
  unfold State.drainEvents
  rw [hnone, h]
  dsimp only [List.foldl_nil]
  split <;> simp

section
variable {s : State} {f pidx : Nat} {t : FTask} {ts : List FTask} {d : TileDesc}
variable (hlive : (s.facet f).live pidx = t :: ts) (htile : s.tileOf t = some d)
include hlive htile

/-- The first live task is the one a search finds that accepts it. -/
theorem findSome_live (p : FTask → TileDesc → Prop) [∀ t d, Decidable (p t d)] (hp : p t d) :
    (((s.facet f).live pidx).findSome? fun t => (s.tileOf t).bind fun d => if p t d then some (t, d) else none) = some (t, d) := by
  rw [hlive, List.findSome?_cons, htile, Option.bind_some, if_pos hp]

section
variable (hnext : t.next < partRows d.mode)
include hnext

/-- A row that is not folded is not read. -/
theorem exec_drainRowRead_of_unfolded (parity : Bool) (hfold : rowFolded t d t.next = false) :
    exec (.drainRowRead f pidx parity) s = .next s := by
  show execDrainRowRead f pidx parity s = _
  unfold execDrainRowRead
  rw [findSome_live hlive htile (fun t d => t.next < partRows d.mode) hnext]
  dsimp only
  split
  · exact guarded_of_false _ _ (by rw [hfold, Bool.false_and])
  · rfl

/-- A folded row of finite values, of a task that no Loupe samples, goes to DEST or to the fused drain kernel, and no event is raised. -/
theorem exec_drainRowRead_of_folded {a : Attempt} {v : List Word} (hatt : s.attempt t.ra = some a) (hscales : t.scales = some v)
    (hfold : rowFolded t d t.next = true) (hincl : d.incl = none) (hloupe : s.inLoupe f t = false)
    (hfinite : (s.drainRow f t d v).any notFinite = false) :
    exec (.drainRowRead f pidx false) s =
      .next ((if d.fused = 0 then s.putWords (s.destOf f d t.next) (s.drainRow f t d v) else s).setFacet f ((s.facet f).putTask
        { t.drained with chunks := if d.fused = 0 then t.chunks else t.chunks ++ [(t.next, s.drainRow f t d v)] })) := by
  show execDrainRowRead f pidx false s = _
  unfold execDrainRowRead
  rw [findSome_live hlive htile (fun t d => t.next < partRows d.mode) hnext]
  dsimp only
  rw [hatt, hscales]
  dsimp only
  have hunits : (if d.fused = 0 then s.putWords (s.destOf f d t.next) (s.drainRow f t d v) else s).units = s.units := by
    split
    · exact State.putWords_units ..
    · rfl
  rw [guarded_of_true _ _ (by simp [hfold, hincl]), if_neg Bool.false_ne_true, drainEvents_of_finite _ _ _ _ _ hfinite, hloupe,
    facet_setFacet_congr f hunits, ← hscales]
  rfl

end

/-! ## TASK_COMPLETE -/


/-- A task without a fused drain kernel whose rows are delivered leaves its Facet; its strand completes. -/
theorem taskComplete_answers {g : Program} {a : Attempt} (hg : s.prog = some g) (hnext : partRows d.mode ≤ t.next) (hfused : d.fused = 0)
    (hatt : s.attempt t.ra = some a) :
    answers (.taskComplete f pidx) s fun u =>
      u.units.facets = (s.setFacet f { s.facet f with
        tasks := (s.facet f).tasks.filter fun q => !(q.id == t.id && q.ra == t.ra) }).units.facets ∧
      (∃ b, u.attempt t.ra = some b ∧ t.id ∈ b.done) ∧ u.mem = s.mem ∧ u.prog = s.prog ∧ u.queues = s.queues := by
  have hexec : exec (.taskComplete f pidx) s = execTaskComplete f pidx s := rfl
  unfold execTaskComplete at hexec
  rw [findSome_live hlive htile (fun t d => partRows d.mode ≤ t.next) hnext] at hexec
  dsimp only at hexec
  rw [guarded_of_true _ _ (by simp [hfused])] at hexec
  obtain ⟨w, hw, hfacets, hstep, hmem, hprog, hqueues⟩ : ∃ w : State, exec (.taskComplete f pidx) s = .next (w.completeStrand t.ra t.id) ∧
      w.units.facets = (s.setFacet f { s.facet f with
        tasks := (s.facet f).tasks.filter fun q => !(q.id == t.id && q.ra == t.ra) }).units.facets ∧
      w.step = s.step ∧ w.mem = s.mem ∧ w.prog = s.prog ∧ w.queues = s.queues := by
    refine ⟨_, hexec, ?_, ?_, ?_, ?_, ?_⟩
    · rw [State.bump64_units, State.bump_units]
      rfl
    · rw [State.bump64_step, State.bump_step]
      rfl
    · rw [State.bump64_mem, State.bump_mem]
      rfl
    · rw [State.bump64_prog, State.bump_prog]
      rfl
    · rw [State.bump64_queues, State.bump_queues]
      rfl
  obtain ⟨hunits', hdone, hmem', hprog', hqueues'⟩ :=
    completeStrand_keeps (id := t.id) (hprog.trans hg) (attempt_of_step hstep hatt)
  exact answers_of_eq hw ⟨by rw [hunits', hfacets], hdone, hmem'.trans hmem, hprog'.trans hprog, hqueues'.trans hqueues⟩

end

/-! ## TASK_REPLAY -/

/-- Where its operands do not fit in the halves, a task reads what it has read before (R96). -/
theorem operand_of_fetched (s : State) (f : Nat) (t : FTask) (d : TileDesc) (half : Bool) (i k : Nat) {o : Operand}
    (hread : Bank.get operandDefault t.fetched (operandKey half i k) = o) (ho : o.codes ≠ []) : s.operand f t d half i k = o := by
  rw [State.operand, hread]
  exact if_neg (by simpa using ho)

/-- Without a struck task that has its replay left, nothing is issued again. -/
theorem exec_taskReplay_of_none (s : State) (f pidx : Nat) (ramping : Bool)
    (h : ∀ t ∈ (s.facet f).tasks, t.faulted = false ∨ (s.facet f).replayed.contains (t.id, t.ra) = true) :
    exec (.taskReplay ⟨f, pidx⟩ ramping) s = .next s := by
  have hnone : ((s.facet f).tasks.find? fun t => t.pidx == pidx && t.faulted && !(s.facet f).replayed.contains (t.id, t.ra)) = none := by
    refine List.find?_eq_none.2 fun t ht => ?_
    rcases h t ht with h | h <;> rw [h] <;> simp
  show execTaskReplay ⟨f, pidx⟩ ramping s = _
  unfold execTaskReplay
  dsimp only
  rw [hnone]

/-- The struck task of a Facet that holds no other is issued again, discarded and in its bank. -/
theorem exec_taskReplay_of_single {s : State} {f pidx : Nat} {t : FTask} {d : TileDesc} (ramping : Bool) (hts : (s.facet f).tasks = [t])
    (hp : t.pidx = pidx) (hstruck : t.faulted = true) (hleft : (s.facet f).replayed.contains (t.id, t.ra) = false)
    (htile : s.tileOf t = some d) :
    exec (.taskReplay ⟨f, pidx⟩ ramping) s = .next (((s.setFacet f { s.facet f with
      tasks := [{ t.discard with faulted := false }]
      banks := Bank.put (fun _ => 0) (s.facet f).banks pidx ((t.bank + 1) % 2)
      replayed := (s.facet f).replayed ++ [(t.id, t.ra)] }).bump .fct f 0x6C 1).beginIssue f ramping d.format) := by
  have hfind : ((s.facet f).tasks.find? fun t => t.pidx == pidx && t.faulted && !(s.facet f).replayed.contains (t.id, t.ra)) = some t := by
    rw [hts]
    exact List.find?_cons_of_pos (by rw [hp, hstruck, hleft]; simp)
  have hothers : ((s.facet f).tasks.filter fun q => !(q.id == t.id && q.ra == t.ra)) = [] := by simp [hts]
  have hformat : s.sameFormat f d = true := by simp [State.sameFormat, hts, hstruck]
  show execTaskReplay ⟨f, pidx⟩ ramping s = _
  unfold execTaskReplay
  dsimp only
  rw [hfind]
  dsimp only
  rw [htile, hothers]
  dsimp only
  rw [guarded_of_true _ _ (by simpa using hformat)]
  rfl

/-- Settles O31: each row is carried out on the one task that its search finds. -/
theorem facetFoldsDrainsCompletes : Obligations.FacetFoldsDrainsCompletes := by
  unfold Obligations.FacetFoldsDrainsCompletes
  refine ⟨⟨?fold, ?ramp, ?skew, ?deliver, ?fuse, ?unfolded⟩, ⟨?replay, ?reads, exec_taskReplay_of_none, ?complete⟩⟩
  case fold =>
    intro s f pidx r c ramping g t d a hg hfold hatt hr hc k u oa ob hquiet
    obtain ⟨htags, hlegal, hkeep⟩ : u.tagsOk f t d k = true ∧ u.illegalBlocks f t d k r c = u ∧
        (d.format = .f16 ∨ u.inLoupe f t = false) := by
      rcases hquiet with h | ⟨htags, hlegal, hloupe⟩
      · exact ⟨tagsOk_of_f16 u f t d k h, illegalBlocks_of_f16 u f t d k r c h, .inl h⟩
      · exact ⟨htags, hlegal, .inr hloupe⟩
    rw [exec_kGroupRescale_of_tagsOk hg hfold hatt hr hc ramping rfl htags]
    exact congrArg _ (foldCell_of_quiet u g a f t d r c hlegal hkeep)
  case ramp =>
    exact fun s f ramping fmt hrest hcan hfmt => beginIssue_ramps s f ramping fmt hrest ((State.canonical_iff s).1 hcan).2.1 hfmt
  case skew =>
    intro s f pidx r c g t d a hg hfold hatt hra hr hc
    refine ⟨_, eventOnly_struck s f t 0x0201 hra, fun hleft b => ?_⟩
    rw [exec_kGroupRescale_of_skew hg hfold hatt hr hc, strike_of_replay_left s f t 0x0201 hleft]
  case deliver =>
    intro s f pidx t ts d a v hcan hlive htile hnext hatt hscales hfold hincl hloupe hfinite hfused
    have hnx := exec_drainRowRead_of_folded hlive htile hnext hatt hscales hfold hincl hloupe hfinite
    rw [if_pos hfused, if_pos hfused] at hnx
    refine answers_of_eq hnx ⟨rfl, ?_, State.putWords_regs .., State.putWords_step .., State.putWords_log .., fun b hb => ?_⟩
    · rw [State.setFacet, State.putWords_units]
      rfl
    · exact byte_putWords_other s _ _ b ((State.canonical_iff s).1 hcan).2.2.1 (by rwa [drainRow_length])
  case fuse =>
    intro s f pidx t ts d a v hlive htile hnext hatt hscales hfold hincl hloupe hfinite hfused
    rw [exec_drainRowRead_of_folded hlive htile hnext hatt hscales hfold hincl hloupe hfinite, if_neg hfused, if_neg hfused]
    rfl
  case unfolded => exact fun s f pidx parity t ts d hlive htile hnext hfold => exec_drainRowRead_of_unfolded hlive htile hnext parity hfold
  case replay => exact fun s f pidx ramping t d hts hp hstruck hleft htile => exec_taskReplay_of_single ramping hts hp hstruck hleft htile
  case reads => exact fun s f i k half t d o ho hread => operand_of_fetched s f t.discard d half i k hread ho
  case complete =>
    exact fun s f pidx g t ts d a hg hlive htile hnext hfused hatt => taskComplete_answers hlive htile hg hnext hfused hatt

end Sys2Proof.Machine
end

section
/-! PROOFS. Number formats: the zero codes and zero blocks of the log formats, the canonical NaN, operands that commute, and codes that
survive widening and narrowing. -/
namespace Sys2Proof.Machine

/-! ## Zero codes (R43) -/

/-- A code whose magnitude is zero only where it is the positive zero code is not the code with only the sign bit set. -/
theorem ne_negZero {top c : Nat} (h : c % (top + 1) = 0 → c = 0) : c ≠ top + 1 := by
  rintro rfl
  cases h (Nat.mod_self _)

/-- A sign and a magnitude from 1 to the largest one have that magnitude. -/
theorem signed_mod {top n : Nat} (p : Prop) [Decidable p] (hn : n ≤ top) : ((if p then top + 1 else 0) + n) % (top + 1) = n := by
  split
  · rw [Nat.add_mod_left, Nat.mod_eq_of_lt (by omega)]
  · rw [Nat.zero_add, Nat.mod_eq_of_lt (by omega)]

/-- The sign of a code of a sign and a magnitude. -/
theorem signed_div {top n : Nat} (p : Prop) [Decidable p] (hn : n ≤ top) :
    ((if p then top + 1 else 0) + n) / (top + 1) % 2 = 1 ↔ p := by
  have h0 : n / (top + 1) = 0 := Nat.div_eq_of_lt (by omega)
  split
  · next hp => simp [Nat.add_div_left, h0, hp]
  · next hp => simp [h0, hp]

/-- A code is its sign and its magnitude. -/
theorem signed_of_lt {top c : Nat} (hc : c < 2 * (top + 1)) :
    (if c / (top + 1) % 2 = 1 then top + 1 else 0) + c % (top + 1) = c := by
  have hdiv := Nat.div_add_mod c (top + 1)
  have hlt : c / (top + 1) < 2 := (Nat.div_lt_iff_lt_mul (Nat.succ_pos _)).2 hc
  obtain h | h : c / (top + 1) = 0 ∨ c / (top + 1) = 1 := Nat.le_one_iff_eq_zero_or_eq_one.1 (Nat.lt_succ_iff.1 hlt)
  · rw [h, Nat.mul_zero] at hdiv
    rw [h, if_neg (by decide), hdiv]
  · rw [h, Nat.mul_one] at hdiv
    rw [h, if_pos (by decide), hdiv]

/-- Narrowing gives no negative zero: a value that narrows to zero has the positive zero code. -/
theorem narrowDy_mod_eq_zero {f : LogFmt} (htop : 0 < f.top) (x : Dy) (e : Nat) (h : (narrowDy f x e).1 % (f.top + 1) = 0) :
    (narrowDy f x e).1 = 0 := by
  revert h
  unfold narrowDy
  dsimp only
  generalize (if (x.m.natAbs.log2 : Int) + x.e + 127 - e < 0 then 0 else _ : Nat) = n
  split
  · exact fun _ => rfl
  · split
    · exact fun _ => rfl
    · split
      · intro h
        rw [signed_mod _ (Nat.le_refl _)] at h
        omega
      · intro h
        rw [signed_mod _ (by omega)] at h
        cases h

/-- Under an E8 that is neither zero nor poisoned the code with only the sign bit set reads as zero. -/
theorem decodeDy_negZero {f : LogFmt} {e : Nat} (h0 : 0 < e) (he : e ≤ f.maxE) : ∃ d, decodeDy f e (f.top + 1) = some d ∧ d.m = 0 := by
  obtain ⟨neg, hn⟩ : ∃ neg, codeParts f (f.top + 1) = (neg, 0) :=
    ⟨(f.top + 1) / (f.top + 1) % 2 == 1, by simp [codeParts]⟩
  have hp : poisonedE f e = false := decide_eq_false (by omega)
  unfold decodeDy
  rw [hp, if_neg Bool.false_ne_true, if_neg (by omega), hn]
  refine ⟨_, rfl, ?_⟩
  cases neg <;> rfl

/-! ## Zero blocks (R50) -/

/-- The E8 of a block that is zero where all codes are: it is not 0xFF, and zero in no other case. -/
theorem blockE8_iff {cs : List Nat} {e : Nat} (p : Nat → Bool) (hp : ∀ c ∈ cs, p c = true ↔ c = 0) (h0 : 0 < e) (he : e < 0xFF) :
    ((if cs.all p then 0 else e) = 0 ↔ ∀ c ∈ cs, c = 0) ∧ (if cs.all p then 0 else e) ≠ 0xFF := by
  have hall : cs.all p = true ↔ ∀ c ∈ cs, c = 0 := by
    rw [List.all_eq_true]
    exact forall₂_congr hp
  split
  · next h => exact ⟨⟨fun _ => hall.1 h, fun _ => rfl⟩, by decide⟩
  · next h => exact ⟨⟨fun h' => absurd h' (by omega), fun h' => absurd (hall.2 h') h⟩, by omega⟩

theorem narrowBlockDy_e8 (f : LogFmt) (xs : List Dy) {e : Nat} (h0 : 0 < e) (he : e < 0xFF) :
    ((narrowBlockDy f xs e).e8 = 0 ↔ ∀ c ∈ (narrowBlockDy f xs e).codes, c = 0) ∧ (narrowBlockDy f xs e).e8 ≠ 0xFF :=
  blockE8_iff _ (fun _ _ => beq_iff_eq) h0 he

theorem zeros_iff_of_e8 {cs : List Nat} {e : Nat} (h : (e = 0 ↔ ∀ c ∈ cs, c = 0) ∧ e ≠ 0xFF) : (∀ c ∈ cs, c = 0) ↔ e = 0 ∨ e = 0xFF := by
  obtain ⟨hiff, hne⟩ := h
  rw [← hiff, or_iff_left hne]

/-- A block of zeros, as a poisoned block or a zero one has it. -/
theorem zeros_iff_of_map {α : Type} (xs : List α) {e : Nat} (he : e = 0 ∨ e = 0xFF) :
    (∀ c ∈ xs.map fun _ => 0, c = 0) ↔ e = 0 ∨ e = 0xFF :=
  iff_of_true (by simp) he

theorem narrowBlock_zeros (f : LogFmt) (xs : List Word) {e : Nat} (h0 : 0 < e) (he : e < 0xFF) :
    ((narrowBlock f xs e).poisoned = false → ((narrowBlock f xs e).e8 = 0 ↔ ∀ c ∈ (narrowBlock f xs e).codes, c = 0)) ∧
      ((∀ c ∈ (narrowBlock f xs e).codes, c = 0) ↔ (narrowBlock f xs e).e8 = 0 ∨ (narrowBlock f xs e).e8 = 0xFF) := by
  unfold narrowBlock
  split
  · exact ⟨fun h => (Bool.noConfusion h), zeros_iff_of_map xs (.inr rfl)⟩
  · have h := narrowBlockDy_e8 f (xs.map fun x => (fl32 x).dy) h0 he
    exact ⟨fun _ => h.1, zeros_iff_of_e8 h⟩

/-- The codes of a zero block and of a poisoned one are ignored. -/
theorem decodeDy_codes_ignored (f : LogFmt) (hmax : f.maxE < 0xFF) (c d : Nat) :
    decodeDy f 0 c = decodeDy f 0 d ∧ decodeDy f 0xFF c = decodeDy f 0xFF d := by
  have hp : poisonedE f 0xFF = true := decide_eq_true hmax
  constructor
  · unfold decodeDy
    rw [if_pos (c := 0 = 0) rfl]
    rfl
  · unfold decodeDy
    rw [hp]
    rfl

/-! ## L8G (R46, R59) and nodes of the canonical tree -/

/-- Below 1 an L8G magnitude counts quarters. -/
theorem quarters_lt (m : Nat) (e : Int) (h : (m.log2 : Int) + e < 0) :
    (if e + 2 < 0 then m / 2 ^ (-(e + 2)).toNat else m * 2 ^ (e + 2).toNat) < 4 := by
  have hm : m < 2 ^ (m.log2 + 1) := Nat.lt_log2_self
  split
  · refine Nat.div_lt_of_lt_mul (lt_of_lt_of_le hm ?_)
    calc 2 ^ (m.log2 + 1) ≤ 2 ^ ((-(e + 2)).toNat + 2) := Nat.pow_le_pow_right (by decide) (by omega)
      _ = 2 ^ (-(e + 2)).toNat * 4 := by rw [Nat.pow_add]
  · calc m * 2 ^ (e + 2).toNat < 2 ^ (m.log2 + 1) * 2 ^ (e + 2).toNat := Nat.mul_lt_mul_of_pos_right hm (Nat.two_pow_pos _)
      _ = 2 ^ (m.log2 + 1 + (e + 2).toNat) := (Nat.pow_add ..).symm
      _ ≤ 2 ^ 2 := Nat.pow_le_pow_right (by decide) (by omega)

/-- Rounding to odd stays below an even bound. -/
theorem roundOdd_lt {n k : Nat} (exact' : Bool) (hn : n < 2 * k) :
    (if exact' = true then n else if n % 2 = 0 then n + 1 else n) < 2 * k := by
  split
  · exact hn
  · split <;> omega

/-- An L8G code is a sign, which a zero magnitude does not have, and a magnitude of 9 bits. -/
theorem toL8g_signed (v : Dy) (e : Nat) : ∃ g, g ≤ 511 ∧ toL8g v e = g + if v.m < 0 ∧ g ≠ 0 then 512 else 0 := by
  unfold toL8g
  dsimp only
  split
  · exact ⟨0, by decide, by simp⟩
  · refine ⟨_, ?_, rfl⟩
    split
    · next hk => exact Nat.le_of_lt (lt_of_lt_of_le (roundOdd_lt (k := 2) _ (quarters_lt _ _ hk)) (by decide))
    · exact Nat.min_le_left _ _

theorem toL8g_mod_eq_zero (v : Dy) (e : Nat) : toL8g v e % 512 = 0 ↔ toL8g v e = 0 := by
  obtain ⟨g, hg, h⟩ := toL8g_signed v e
  rw [h]
  split <;> omega

theorem l8gToL8_mod_eq_zero (c : Nat) (h : (l8gToL8 c).1 % (127 + 1) = 0) : (l8gToL8 c).1 = 0 := by
  revert h
  unfold l8gToL8
  dsimp only
  have hr := Nat.min_le_right (c % 512 / 4 + if 2 ≤ c % 512 % 4 then 1 else 0) 127
  generalize min (c % 512 / 4 + if 2 ≤ c % 512 % 4 then 1 else 0) 127 = r at hr ⊢
  split <;> omega

/-- The fit exponent of a magnitude that is not zero is a legal E8 of a block that is not zero (R64). -/
theorem fitDy_legal {f : LogFmt} (hmax : 0 < f.maxE) {x : Dy} (hx : x.m ≠ 0) : 0 < fitDy f x ∧ fitDy f x ≤ f.maxE := by
  unfold fitDy
  dsimp only
  rw [if_neg (by omega)]
  omega

/-- In a node of the canonical tree all codes are zero exactly when its E8 is 0x00 or 0xFF. -/
theorem sumBlock_zeros (root ga gb : Bool) (a b : Nat × List Nat) :
    (∀ c ∈ (sumBlock root ga gb a b).1.2, c = 0) ↔ (sumBlock root ga gb a b).1.1 = 0 ∨ (sumBlock root ga gb a b).1.1 = 0xFF := by
  unfold sumBlock
  dsimp only
  split
  · split
    · exact zeros_iff_of_map a.2 (.inl rfl)
    · next hne =>
      obtain ⟨h0, he⟩ := fitDy_legal (f := logL8) (by decide) hne
      have he' : _ < 0xFF := lt_of_le_of_lt he (by decide)
      split
      · exact zeros_iff_of_map a.2 (.inr rfl)
      · split
        · exact zeros_iff_of_e8 (narrowBlockDy_e8 logL8 _ h0 he')
        · refine zeros_iff_of_e8 (blockE8_iff _ (fun c hc => ?_) h0 he')
          obtain ⟨d, -, rfl⟩ := List.mem_map.1 hc
          rw [beq_iff_eq, toL8g_mod_eq_zero]
  · exact zeros_iff_of_map a.2 (.inr rfl)

/-! ## The canonical NaN (R52) -/

/-- A sign and a magnitude up to the infinity's are no NaN. -/
theorem fl32_word32_ne_nan (n : Bool) {mag : Nat} (h : mag ≤ 0x7F800000) : fl32 (word32 n mag) ≠ .nan := by
  obtain ⟨sg, hsg, hv⟩ : ∃ sg, (sg = 0 ∨ sg = 2 ^ 31) ∧ (word32 n mag).toNat = mag + sg := by
    refine ⟨if n then 2 ^ 31 else 0, by cases n <;> simp, ?_⟩
    rw [word32, BitVec.toNat_ofNat, Nat.mod_eq_of_lt]
    split <;> omega
  unfold fl32 decodeFl
  dsimp only
  rw [hv]
  split
  · next hex =>
    rw [if_pos (by omega)]
    exact Fl.noConfusion
  · split <;> exact Fl.noConfusion

theorem rneMag_le (f : Ieee) (m : Nat) (e : Int) (sticky : Bool) : rneMag f m e sticky ≤ f.inf := by
  unfold rneMag
  split
  · exact Nat.zero_le _
  · exact Nat.min_le_left _ _

theorem word32_rneMag_ne_nan (n : Bool) (m : Nat) (e : Int) (sticky : Bool) : fl32 (word32 n (rneMag ieee32 m e sticky)) ≠ .nan :=
  fl32_word32_ne_nan n (rneMag_le ieee32 m e sticky)

theorem rne32_nan {x : Fl} (h : fl32 (rne32 x) = .nan) : rne32 x = nan32 := by
  cases x with
  | nan => rfl
  | inf n => exact absurd h (fl32_word32_ne_nan n (Nat.le_refl _))
  | fin n m e => exact absurd h (word32_rneMag_ne_nan n m e false)

theorem fDiv_nan {a b : Word} (h : fl32 (fDiv a b) = .nan) : fDiv a b = nan32 := by
  revert h
  unfold fDiv
  split
  · exact fun _ => rfl
  · exact fun _ => rfl
  · exact fun _ => rfl
  · exact fun h => absurd h (fl32_word32_ne_nan _ (Nat.le_refl _))
  · exact fun h => absurd h (fl32_word32_ne_nan _ (Nat.zero_le _))
  · split
    · split
      · exact fun _ => rfl
      · exact fun h => absurd h (fl32_word32_ne_nan _ (Nat.le_refl _))
    · exact fun h => absurd h (word32_rneMag_ne_nan _ _ _ _)

theorem fSqrt_nan {a : Word} (h : fl32 (fSqrt a) = .nan) : fSqrt a = nan32 := by
  revert h
  unfold fSqrt
  split
  · exact fun _ => rfl
  · split
    · exact fun _ => rfl
    · exact fun h => absurd h (fl32_word32_ne_nan false (Nat.le_refl _))
  · next hfin =>
    split
    · intro h
      rw [hfin] at h
      cases h
    · split
      · exact fun _ => rfl
      · exact fun h => absurd h (word32_rneMag_ne_nan _ _ _ _)

/-! ## Operands that commute -/

theorem Dy.add_comm (a b : Dy) : a.add b = b.add a := by
  unfold Dy.add
  dsimp only
  rw [min_comm, Int.add_comm]

theorem Fl.add_comm (a b : Fl) : a.add b = b.add a := by
  cases a with
  | nan => cases b <;> rfl
  | inf p =>
    cases b with
    | nan => rfl
    | inf q =>
      rw [Fl.add, Fl.add]
      by_cases h : p = q
      · rw [h]
      · rw [if_neg h, if_neg (Ne.symm h)]
    | fin q n k => rfl
  | fin p m e =>
    cases b with
    | nan => rfl
    | inf q => rfl
    | fin q n k => rw [Fl.add, Fl.add, Dy.add_comm, Bool.and_comm]

theorem Fl.mul_comm (a b : Fl) : a.mul b = b.mul a := by
  cases a with
  | nan => cases b <;> rfl
  | inf p =>
    cases b with
    | nan => rfl
    | inf q => rw [Fl.mul, Fl.mul, bne_comm]
    | fin q n k => rw [Fl.mul, Fl.mul, bne_comm]
  | fin p m e =>
    cases b with
    | nan => rfl
    | inf q => rw [Fl.mul, Fl.mul, bne_comm]
    | fin q n k => rw [Fl.mul, Fl.mul, bne_comm, Nat.mul_comm, Int.add_comm]

/-! ## Codes that survive widening and narrowing (R65) -/

/-- The thresholds W of a format separate the significands of its codes (R57): below that of place `j` in the octave lie `j` of them. -/
theorem thresholds_below {f : LogFmt} (hf : f = logL4 ∨ f = logL6 ∨ f = logL8) : ∀ j < f.q,
    ((t8[8 / f.q * j]?).getD 0).log2 = 23 ∧
      (f.w.filter fun w => decide (w * 2 ^ 23 ≤ (t8[8 / f.q * j]?).getD 0 * 2 ^ 23)).length = j := by
  rcases hf with rfl | rfl | rfl <;> decide

/-- A value of octave `i` that has `j` thresholds at or below its significand narrows to the code of that place. -/
theorem narrowDy_of_place {f : LogFmt} {x : Dy} {e i j : Nat} (hlog : x.m.natAbs.log2 = 23) (hexp : x.e = (i : Int) - 23 + e - 127)
    (hcount : (f.w.filter fun w => decide (w * 2 ^ 23 ≤ x.m.natAbs * 2 ^ 23)).length = j) (hlt : f.q * i + j < f.top) :
    (narrowDy f x e).1 = (if x.m < 0 then f.top + 1 else 0) + (f.q * i + j + 1) := by
  have hm : x.m.natAbs ≠ 0 := by
    intro h
    rw [h] at hlog
    cases hlog
  have hk : ((23 : Nat) : Int) + x.e + 127 - e = i := by omega
  unfold narrowDy
  dsimp only
  rw [if_neg hm, hlog, hk, if_neg (show ¬(i : Int) < -1 by omega), if_neg (show ¬(i : Int) < 0 by omega), hcount,
    Int.toNat_natCast, if_neg (Nat.not_le.2 hlt)]

/-- The place of a code's magnitude in the octaves of L8 is that in the octaves of its own format. -/
theorem place_of_code {f : LogFmt} (hf : f = logL4 ∨ f = logL6 ∨ f = logL8) (h : Nat) :
    8 / f.q * h / 8 = h / f.q ∧ 8 / f.q * h % 8 = 8 / f.q * (h % f.q) ∧ h % f.q < f.q := by
  rcases hf with rfl | rfl | rfl <;> simp only [logL4, logL6, logL8, Nat.reduceDiv] <;> omega

/-- What a code of a magnitude that is not zero reads as, where its block is not poisoned. -/
theorem decodeDy_of_pos {f : LogFmt} {e c : Nat} {x : Dy} (h0 : 0 < e) (hmag : c % (f.top + 1) ≠ 0) (hx : decodeDy f e c = some x) :
    x.m = (if c / (f.top + 1) % 2 = 1 then -1 else 1) * ((t8[8 / f.q * (c % (f.top + 1) - 1) % 8]?).getD 0 : Nat) ∧
      x.e = ((8 / f.q * (c % (f.top + 1) - 1) / 8 : Nat) : Int) - 23 + e - 127 := by
  have hparts : codeParts f c = (c / (f.top + 1) % 2 == 1, 8 / f.q * (c % (f.top + 1) - 1) + 1) := by
    unfold codeParts
    dsimp only
    rw [if_neg hmag]
  unfold decodeDy at hx
  rw [hparts] at hx
  split at hx
  · cases hx
  · rw [if_neg (by omega)] at hx
    obtain rfl := Option.some.inj hx
    refine ⟨?_, rfl⟩
    by_cases hs : c / (f.top + 1) % 2 = 1 <;> simp [hs, l8Value]

/-- Narrowing a decoded value under its own exponent gives its code back. -/
theorem narrowDy_decodeDy {f : LogFmt} (hf : f = logL4 ∨ f = logL6 ∨ f = logL8) {e c : Nat} {x : Dy} (h0 : 0 < e)
    (hc : c < 2 * (f.top + 1)) (hn : 0 < (codeParts f c).2) (hx : decodeDy f e c = some x) : (narrowDy f x e).1 = c := by
  have hmag : c % (f.top + 1) ≠ 0 := by
    intro h
    simp [codeParts, h] at hn
  obtain ⟨hi, hj, hjlt⟩ := place_of_code hf (c % (f.top + 1) - 1)
  obtain ⟨hlog, hcount⟩ := thresholds_below hf _ hjlt
  obtain ⟨hm, he⟩ := decodeDy_of_pos h0 hmag hx
  rw [hj] at hm
  rw [hi] at he
  generalize (t8[8 / f.q * ((c % (f.top + 1) - 1) % f.q)]?).getD 0 = M at hlog hcount hm
  have hM : 0 < M := Nat.pos_of_ne_zero fun h => by rw [h] at hlog; cases hlog
  have habs : x.m.natAbs = M := by
    rw [hm]
    split <;> simp
  have hneg : x.m < 0 ↔ c / (f.top + 1) % 2 = 1 := by
    rw [hm]
    split
    · next hs => exact iff_of_true (by omega) hs
    · next hs => exact iff_of_false (by omega) hs
  have hplace := Nat.div_add_mod (c % (f.top + 1) - 1) f.q
  have hlt := Nat.mod_lt c (show 0 < f.top + 1 from Nat.succ_pos _)
  rw [narrowDy_of_place (by rw [habs, hlog]) he (by rw [habs, hcount]) (by omega), hplace,
    Nat.sub_add_cancel (Nat.pos_of_ne_zero hmag)]
  simp only [hneg, signed_of_lt hc]

/-! ## Codes that survive a finer format (R67) -/

section
variable {f g : LogFmt} {c : Nat}

/-- A code goes to its sign and the magnitude spread over the finer format's steps. -/
theorem logToLog_finer (hq : f.q ≤ g.q) (hmag : c % (f.top + 1) ≠ 0) (hfit : codeRatio f g * (c % (f.top + 1) - 1) + 1 ≤ g.top) :
    logToLog f g c = ((if c / (f.top + 1) % 2 = 1 then g.top + 1 else 0) + (codeRatio f g * (c % (f.top + 1) - 1) + 1), false) := by
  unfold logToLog
  dsimp only
  rw [if_neg hmag, if_pos hq, Nat.min_eq_left hfit, decide_eq_false (Nat.not_lt.2 hfit)]

/-- A magnitude that is spread over the finer format's steps goes back to where it came from: the tie upward does not reach the next. -/
theorem logToLog_coarser (hq : f.q ≤ g.q) (hr : 0 < codeRatio f g) (heq : f.q = g.q → codeRatio f g = 1) {h : Nat} (hh : h + 1 ≤ f.top)
    (hmag : c % (g.top + 1) = codeRatio f g * h + 1) :
    logToLog g f c = ((if c / (g.top + 1) % 2 = 1 then f.top + 1 else 0) + (h + 1), false) := by
  have hsym : codeRatio g f = codeRatio f g := by rw [codeRatio, codeRatio, max_comm, min_comm]
  have hx : (if g.q ≤ f.q then codeRatio f g * (codeRatio f g * h) else (codeRatio f g * h + codeRatio f g / 2) / codeRatio f g) = h := by
    split
    · next hle => rw [heq (Nat.le_antisymm hq hle), Nat.one_mul, Nat.one_mul]
    · rw [Nat.mul_add_div hr, Nat.div_eq_of_lt (Nat.div_lt_self hr (by decide)), Nat.add_zero]
  unfold logToLog
  dsimp only
  rw [hmag, if_neg (Nat.succ_ne_zero _), Nat.add_sub_cancel, hsym, hx, Nat.min_eq_left hh, decide_eq_false (Nat.not_lt.2 hh)]

/-- A code of another format gives no negative zero. -/
theorem logToLog_mod_eq_zero (htop : 0 < g.top) (h : (logToLog f g c).1 % (g.top + 1) = 0) : (logToLog f g c).1 = 0 := by
  revert h
  unfold logToLog
  dsimp only
  generalize (if f.q ≤ g.q then _ else _ : Nat) = x
  split
  · exact fun _ => rfl
  · intro h
    rw [signed_mod _ (Nat.min_le_right _ _)] at h
    omega

end

/-- A format's codes spread over those of a finer one do not exceed it. -/
theorem codeRatio_fits : ∀ f ∈ [logL4, logL6, logL8], ∀ g ∈ [logL4, logL6, logL8], 0 < codeRatio f g ∧
    (f.q = g.q → codeRatio f g = 1) ∧ (f.q ≤ g.q → codeRatio f g * (f.top - 1) + 1 ≤ g.top) := by
  decide

theorem logToLog_roundtrip {f g : LogFmt} (hf : f ∈ [logL4, logL6, logL8]) (hg : g ∈ [logL4, logL6, logL8]) (hq : f.q ≤ g.q) {c : Nat}
    (hc : c < 2 * (f.top + 1)) (hmag : c % (f.top + 1) ≠ 0) : logToLog g f (logToLog f g c).1 = (c, false) := by
  obtain ⟨hr, heq, hfit⟩ := codeRatio_fits f hf g hg
  have hle : c % (f.top + 1) - 1 + 1 ≤ f.top := by
    have := Nat.mod_lt c (show 0 < f.top + 1 from Nat.succ_pos _)
    omega
  have hfit' : codeRatio f g * (c % (f.top + 1) - 1) + 1 ≤ g.top :=
    le_trans (Nat.succ_le_succ (Nat.mul_le_mul_left _ (by omega))) (hfit hq)
  rw [logToLog_finer hq hmag hfit', logToLog_coarser hq hr heq hle (signed_mod _ hfit')]
  simp only [signed_div _ hfit', Nat.sub_add_cancel (Nat.pos_of_ne_zero hmag), signed_of_lt hc]

/-- What the three log formats have in common: a largest magnitude code, a largest legal E8 below 0xFF, and codes of a sign and a
magnitude (R42). -/
theorem logFmt_bounds {f : LogFmt} (hf : f = logL4 ∨ f = logL6 ∨ f = logL8) :
    0 < f.top ∧ f.maxE < 0xFF ∧ 2 ^ f.width = 2 * (f.top + 1) := by
  rcases hf with rfl | rfl | rfl <;> decide

theorem mem_logFmts {f : LogFmt} : f ∈ [logL4, logL6, logL8] ↔ f = logL4 ∨ f = logL6 ∨ f = logL8 := by simp

/-- Settles O58: each conversion's codes are a zero or a sign and a magnitude, and the roundings lead to no other NaN. -/
theorem numbersAreCanonical : Obligations.NumbersAreCanonical := by
  unfold Obligations.NumbersAreCanonical
  refine ⟨?log, ⟨rfl, ?toL8g, ?toL8, sumBlock_zeros⟩, ?nan, ?commute, ?widen, ?convert⟩
  case log =>
    intro f hf
    obtain ⟨htop, hmax, -⟩ := logFmt_bounds hf
    exact ⟨fun e h0 he => decodeDy_negZero h0 he, fun x e => ne_negZero (narrowDy_mod_eq_zero htop x e), narrowDy_mod_eq_zero htop,
      fun xs e h0 he => narrowBlock_zeros f xs h0 (lt_of_le_of_lt he hmax), decodeDy_codes_ignored f hmax⟩
  case toL8g => exact fun v e => ne_negZero (top := 511) (toL8g_mod_eq_zero v e).1
  case toL8 => exact fun c => ne_negZero (top := 127) (l8gToL8_mod_eq_zero c)
  case nan => exact fun a b c => ⟨rne32_nan, rne32_nan, rne32_nan, fDiv_nan, fSqrt_nan⟩
  case commute =>
    exact fun a b c => ⟨congrArg rne32 (Fl.add_comm _ _), congrArg rne32 (Fl.mul_comm _ _),
      congrArg (fun x : Fl => rne32 (x.add (fl32 c))) (Fl.mul_comm _ _)⟩
  case widen =>
    intro f e c x hf h0 _ hc hn hx
    rw [(logFmt_bounds hf).2.2] at hc
    exact narrowDy_decodeDy hf h0 hc hn hx
  case convert =>
    intro f hf g hg c
    obtain ⟨-, -, hwidth⟩ := logFmt_bounds (mem_logFmts.1 hf)
    obtain ⟨htop, -, -⟩ := logFmt_bounds (mem_logFmts.1 hg)
    refine ⟨ne_negZero (logToLog_mod_eq_zero htop), fun hq hc hmag => ?_⟩
    rw [hwidth] at hc
    exact logToLog_roundtrip hf hg hq hc hmag

end Sys2Proof.Machine
end

section
/-! PROOFS. A Facet's map, delays, pilot test and enable bit: what a write to a register of its page that CONFIG_END locks does, and how
a pilot test ends. -/
namespace Sys2Proof.Machine

/-! ## Registers of a Facet that CONFIG_END locks (R108) -/

/-- A writable register that CONFIG_END locks, for both requesters and of any value. -/
def lockedByConfig (r : RegDesc) : Prop := r.urhild = false ∧ (r.kind = .rw ∨ r.kind = .wo) ∧ r.lock = .config ∧ r.ranges = []

section
variable {s : State} {f o : Nat} {v : Word} {r : RegDesc}
variable (hup : s.hubUp = true) (hf : f < 640) (hcfg : s.sec.cfgFormed = false) (ha : absent s.part .fct f o = false)
variable (hd : regDesc .fct o = some r) (hr : lockedByConfig r) (ho : o < 0x1000 ∧ o % 4 = 0)

include hcfg hd hr in
/-- Before CONFIG_END only the Facet itself can refuse such a write. -/
theorem writeStatus_fct : s.writeStatus .host .fct f r v = if s.unitRefuses .fct f o v then .badState else .ok := by
  obtain ⟨hu, hk, hl, hranges⟩ := hr
  have hoff : r.off = o := by simpa using List.find?_some hd
  have hlocked : s.locked .fct f r = false := by simp [State.locked, hl, hcfg]
  have hvalue : (inRanges v r.ranges && s.valueOk .fct f o v) = true := by
    rw [hranges]
    rfl
  rw [writeStatus_inReach s .host .fct f r v hu (by simp), hlocked, hoff, hvalue]
  rcases hk with hk | hk <;> simp [hk]

include hup hf hcfg ha hd hr ho

/-- A write that the Facet takes is stored. -/
theorem accessWrite_fct_taken {w : Word} (hw : v &&& BitVec.ofNat 32 r.mask = w) (h : s.unitRefuses .fct f o v = false) :
    s.accessWrite .host (regAddr .fct f o) v = .next { s.fctStore f o w with access := .ok } := by
  have hok : s.writeStatus .host .fct f r v = .ok := by rw [writeStatus_fct hcfg hd hr, h]; rfl
  rw [accessWrite_of_status s .host .fct f o r v hf ho.1 ho.2 hup (by simp [hup]) hd ha hok hr.2.1, hw]
  rfl

/-- A write that the Facet refuses leaves its status alone. -/
theorem accessWrite_fct_refused (h : s.unitRefuses .fct f o v = true) :
    s.accessWrite .host (regAddr .fct f o) v = .next { s with access := .badState } := by
  have hbad : s.writeStatus .host .fct f r v = .badState := by rw [writeStatus_fct hcfg hd hr, h]; rfl
  rw [accessWrite_refused s .host .fct f o r v .badState hf ho.1 ho.2 hup (by simp [hup]) hd ha hbad (by decide)]
  simp [State.refusedWrite]

end

/-! ## The map and the delays -/

section
variable {s : State} {f o : Nat} (w : Word) (ho : 0x20 ≤ o ∧ o ≤ 0x34)
include ho

/-- A new map or delay changes no bit of the pilot status but DONE and PASS. -/
theorem fctStore_map : s.fctStore f o w = (s.setReg .fct f o w).mapChanged f ∧
    (s.setReg .fct f o w).reg .fct f 0x44 = s.reg .fct f 0x44 := by
  refine ⟨by rw [State.fctStore, if_neg (by omega), if_pos ho], State.regAt_setReg_other s .fct f o _ w ?_⟩
  unfold regAddr
  omega

theorem fctStore_map_of_idle (hp : (s.facet f).pilot = none) :
    s.fctStore f o w = (s.setReg .fct f o w).setReg .fct f 0x44 (s.reg .fct f 0x44 &&& 0x3FFFFFFF) := by
  obtain ⟨hstore, hstat⟩ := fctStore_map (s := s) (f := f) w ho
  have hpilot : ((s.setReg .fct f o w).facet f).pilot = none := hp
  rw [hstore, State.mapChanged, hstat, hpilot]

/-- A test that runs is spoiled. -/
theorem fctStore_map_of_running {m : Word} {d : List Word} {z : Bool} (hp : (s.facet f).pilot = some (m, d, z)) :
    s.fctStore f o w = ((s.setReg .fct f o w).setReg .fct f 0x44 (s.reg .fct f 0x44 &&& 0x3FFFFFFF)).setFacet f
      { s.facet f with pilot := some (m, d, true) } := by
  obtain ⟨hstore, hstat⟩ := fctStore_map (s := s) (f := f) w ho
  have hpilot : ((s.setReg .fct f o w).facet f).pilot = some (m, d, z) := hp
  rw [hstore, State.mapChanged, hstat, hpilot]
  rfl

/-- No Facet refuses a new map or delay. -/
theorem unitRefuses_map (i : Nat) (v : Word) : s.unitRefuses .fct i o v = false := by
  unfold State.unitRefuses
  split
  · omega
  · omega
  · rfl

end

/-- A write of the map or of a delay, without a test that runs and with one. -/
theorem accessWrite_map {s : State} {f o : Nat} {v w : Word} {r : RegDesc} (hup : s.hubUp = true) (hf : f < 640)
    (hcfg : s.sec.cfgFormed = false) (ha : absent s.part .fct f o = false) (ho : 0x20 ≤ o ∧ o ≤ 0x34) (h4 : o % 4 = 0)
    (hd : regDesc .fct o = some r) (hr : lockedByConfig r)
    (hw : v &&& BitVec.ofNat 32 r.mask = w) :
    ((s.facet f).pilot = none → s.accessWrite .host (regAddr .fct f o) v =
      .next { (s.setReg .fct f o w).setReg .fct f 0x44 (s.reg .fct f 0x44 &&& 0x3FFFFFFF) with access := .ok }) ∧
    (∀ (m : Word) (d : List Word) (z : Bool), (s.facet f).pilot = some (m, d, z) → s.accessWrite .host (regAddr .fct f o) v =
      .next { ((s.setReg .fct f o w).setReg .fct f 0x44 (s.reg .fct f 0x44 &&& 0x3FFFFFFF)).setFacet f
                { s.facet f with pilot := some (m, d, true) } with access := .ok }) := by
  rw [accessWrite_fct_taken hup hf hcfg ha hd hr ⟨by omega, h4⟩ hw (unitRefuses_map ho f v)]
  exact ⟨fun hp => by rw [fctStore_map_of_idle w ho hp], fun m d z hp => by rw [fctStore_map_of_running w ho hp]⟩

/-- The first four delay registers hold a full word. -/
theorem regDesc_rowDelay {k : Nat} (hk : k < 4) : ∃ r, regDesc .fct (0x24 + 4 * k) = some r ∧ lockedByConfig r ∧
    r.mask = 0xFFFFFFFF := by
  obtain rfl | rfl | rfl | rfl : k = 0 ∨ k = 1 ∨ k = 2 ∨ k = 3 := by omega
  all_goals exact ⟨_, rfl, ⟨rfl, .inl rfl, rfl, rfl⟩, rfl⟩

/-! ## The pilot test (R106, R108) -/

/-- START sets the test going. -/
theorem fctStore_start (s : State) (f : Nat) (w : Word) (h : bit w 0 = true) : s.fctStore f 0x40 w = s.startPilot f := by
  rw [State.fctStore, if_pos rfl, if_pos h]

/-- A Facet that is not enabled and runs no test takes START. -/
theorem unitRefuses_start (s : State) (f : Nat) (v : Word) (hu : s.usable f = false) (hp : (s.facet f).pilot = none) :
    s.unitRefuses .fct f 0x40 v = false := by
  simp [State.unitRefuses, hu, hp]

/-- Only EN = 1 without PASS is refused. -/
theorem unitRefuses_enable (s : State) (f : Nat) (v : Word) : s.unitRefuses .fct f 0 v = (bit v 0 && !s.passHolds f) := rfl

theorem bit_and_one (v : Word) : bit (v &&& 1) 0 = bit v 0 := by
  simp [bit]

/-- The end of a test of a valid map with aligned delays: DONE, and PASS unless an output mismatched or the test was spoiled. -/
theorem exec_pilotDone_of_aligned {s : State} {f : Nat} {m : Word} {d : List Word} {z : Bool} (first count : Nat)
    (hp : (s.facet f).pilot = some (m, d, z)) (hm : mapValid m = true) (hd : misaligned m d = []) :
    exec (.pilotDone f first count) s = .next (
      if min 4096 count = 0 then
        (s.setFacet f { s.facet f with pilot := none }).setReg .fct f 0x44 (BitVec.ofNat 32 (2 ^ 31 + b2n (!z) * 2 ^ 30 + 0x7F * 2 ^ 16))
      else
        ((s.setFacet f { s.facet f with pilot := none }).setReg .fct f 0x44
          (BitVec.ofNat 32 (2 ^ 31 + min 0x7F first * 2 ^ 16 + min 4096 count))).raiseCtx 0x0203 f 0 {} []) := by
  show execPilotDone f first count s = _
  unfold execPilotDone
  dsimp only
  rw [hp]
  simp [hm, hd, b2n]

/-- Settles O13: each write is the store of a register that CONFIG_END locks, and a test without wrong columns finds no row misaligned. -/
theorem facetRegistersAndPilot : Obligations.FacetRegistersAndPilot := by
  unfold Obligations.FacetRegistersAndPilot
  refine ⟨?spare, ?delay, ?start, ?pass, ?fail, ?enable⟩
  case spare =>
    exact fun s f v hup hf hcfg ha => accessWrite_map hup hf hcfg ha ⟨by decide, by decide⟩ rfl rfl ⟨rfl, .inl rfl, rfl, rfl⟩ rfl
  case delay =>
    intro s f k v hup hf hk hcfg ha
    obtain ⟨r, hd, hr, hmask⟩ := regDesc_rowDelay hk
    have haddr : exec (.fctRowDlyWrite f k .host v) s = s.accessWrite .host (regAddr .fct f (0x24 + 4 * k)) v := by
      show s.accessWrite .host (regAddr .fct f (0x24 + 4 * (k % 5))) v = _
      rw [Nat.mod_eq_of_lt (by omega)]
    rw [haddr]
    exact accessWrite_map hup hf hcfg ha (by omega) (by omega) hd hr (by rw [hmask]; exact and_full v)
  case start =>
    intro s f v hup hf hcfg ha hu hp hv
    have hw := accessWrite_fct_taken (w := v &&& 1) hup hf hcfg ha rfl ⟨rfl, .inr rfl, rfl, rfl⟩ ⟨by decide, rfl⟩ rfl
      (unitRefuses_start s f v hu hp)
    rwa [fctStore_start s f _ ((bit_and_one v).trans hv)] at hw
  case pass =>
    intro s f m d z hp hm hd
    rw [exec_pilotDone_of_aligned _ _ hp hm hd]
    cases z <;> rfl
  case fail =>
    intro s f n m d z hp hm hd hf hn hpos
    have hx := exec_pilotDone_of_aligned 3 n hp hm hd
    rw [Nat.min_eq_right (by omega), if_neg (by omega)] at hx
    exact answers_of_eq hx (eventOnly_raiseCtx _ _ _ _ _ _ rfl)
  case enable =>
    intro s f v hup hf hcfg ha
    refine ⟨fun h => ?_, fun hv hpass => ?_⟩
    · refine accessWrite_fct_taken hup hf hcfg ha rfl ⟨rfl, .inl rfl, rfl, rfl⟩ ⟨by decide, rfl⟩ rfl ?_
      rw [unitRefuses_enable]
      cases hv : bit v 0
      · rfl
      · rw [h hv]
        rfl
    · refine accessWrite_fct_refused hup hf hcfg ha rfl ⟨rfl, .inl rfl, rfl, rfl⟩ ⟨by decide, rfl⟩ ?_
      rw [unitRefuses_enable, hv, hpass]
      rfl

end Sys2Proof.Machine
end

section
/-! PROOFS. The Facets: how a task is issued, takes its scales and its inclusion sums, and how issuing ends. -/
namespace Sys2Proof.Machine

/-! ## Facets after a change -/

/-- A value that is not the default is read back, in any table. -/
theorem Bank.get_put_of_ne_default {α : Type} [DecidableEq α] (d : Nat → α) (b : Bank α) (k : Nat) {v : α} (hv : v ≠ d k) :
    Bank.get d (Bank.put d b k v) k = v := by
  induction b with
  | nil => simp [Bank.put, Bank.get, hv]
  | cons e t ih =>
    obtain ⟨j, w⟩ := e
    rw [Bank.put, if_neg hv, if_neg hv]
    split
    · simp [Bank.get]
    · split
      · simp [Bank.get]
      · next hne => simp [Bank.get, hne, ih]

/-- The second of two writes to a key is left, where the first is not the default. -/
theorem Bank.put_put_of_ne_default {α : Type} [DecidableEq α] (d : Nat → α) (b : Bank α) (k : Nat) {v : α} (w : α) (hv : v ≠ d k) :
    Bank.put d (Bank.put d b k v) k w = Bank.put d b k w := by
  induction b with
  | nil => simp [Bank.put, hv]
  | cons e t ih =>
    obtain ⟨j, u⟩ := e
    rw [Bank.put, if_neg hv, if_neg hv]
    split
    · next hlt => simp [Bank.put, hlt]
    · next hlt =>
      split
      · next heq => simp [Bank.put, heq]
      · next hne => simp [Bank.put, hlt, hne, ih]

/-- A Facet that holds a task is not at its reset value. -/
theorem ne_facetDefault_of_tasks {x : FacetSt} (f : Nat) (h : x.tasks ≠ []) : x ≠ facetDefault f := by
  rintro rfl
  exact h rfl

theorem facet_setFacet_of_tasks (s : State) (f : Nat) {x : FacetSt} (h : x.tasks ≠ []) : (s.setFacet f x).facet f = x :=
  Bank.get_put_of_ne_default _ _ _ (ne_facetDefault_of_tasks f h)

theorem setFacet_setFacet_of_tasks (s : State) (f : Nat) {x : FacetSt} (y : FacetSt) (h : x.tasks ≠ []) :
    (s.setFacet f x).setFacet f y = s.setFacet f y := by
  simp [State.setFacet, Bank.put_put_of_ne_default _ _ _ y (ne_facetDefault_of_tasks f h)]

/-- The descriptor of a task is that of its strand. -/
theorem strand_of_tileOf {s : State} {t : FTask} {d : TileDesc} (h : s.tileOf t = some d) : ∃ x, s.strand? t.id = some x := by
  obtain ⟨x, hx, -⟩ := Option.bind_eq_some_iff.1 h
  exact ⟨x, hx⟩

/-! ## MODE_CHANGE and STOP_RAMP -/

theorem exec_modeChange_of_next {s : State} {f : Nat} {r : Bool} {a : Attempt} {t : Strand} {d : TileDesc}
    (hnext : s.nextTask f = some (r, a, t, d)) (hidle : (s.facet f).tasks = []) (husable : s.usable f = true) :
    exec (.modeChange f) s = .next (s.setFacet f { s.facet f with mode := d.mode, banks := [] }) := by
  show execModeChange f s = _
  unfold execModeChange
  dsimp only
  rw [hnext]
  exact guarded_of_true _ _ (by simp [hidle, husable])

/-- Issuing ends where no slice is left, or where the issue gate ends it (R425). -/
theorem exec_stopRamp_of_end {s : State} {f : Nat} (hissuing : (s.facet f).issuing = true) (hend : s.hasSlice f = false ∨ s.duty < 8) :
    exec (.stopRamp f) s = .next ((s.setFacet f { s.facet f with issuing := false }).setActivity f 0) := by
  refine guarded_of_true _ _ ?_
  rcases hend with h | h <;> simp [hissuing, h]

/-! ## TASK_DESCRIPTOR -/

/-- Beginning to issue changes the Facet, its count of ramps and the power state. -/
theorem beginIssue_keeps (s : State) (f : Nat) (ramping : Bool) (fmt : PFmt) :
    (s.beginIssue f ramping fmt).units = (s.setFacet f { s.facet f with issuing := true }).units ∧
      (s.beginIssue f ramping fmt).mem = s.mem ∧ (s.beginIssue f ramping fmt).step = s.step ∧
      (s.beginIssue f ramping fmt).prog = s.prog ∧ (s.beginIssue f ramping fmt).queues = s.queues ∧
      ∀ x, x ≠ regAddr .fct f 0x70 → (s.beginIssue f ramping fmt).regAt x = s.regAt x := by
  unfold State.beginIssue
  dsimp only
  split
  · refine ⟨?_, ?_, ?_, ?_, ?_, fun x _ => ?_⟩ <;> simp [State.issueWide, State.regAt]
  · refine ⟨?_, ?_, ?_, ?_, ?_, fun x hx => ?regs⟩
    case regs =>
      refine Eq.trans ?_ (State.regAt_bump_other (s.setFacet f { s.facet f with issuing := true }) .fct f 0x70 1 x hx)
      simp [State.issueWide, State.regAt]
    all_goals simp [State.issueWide]

/-- A Facet with one more task issued (R83, R88). -/
def State.issuedFacet (s : State) (f : Nat) (ra : Bool) (id pidx : Nat) : FacetSt :=
  let n := Bank.get (fun _ => 0) (s.facet f).banks pidx
  { s.facet f with
    tasks := (s.facet f).tasks ++ [{ id := id, ra := ra, pidx := pidx, bank := n, turn := s.nextTurn (facetCluster f) }]
    banks := Bank.put (fun _ => 0) (s.facet f).banks pidx ((n + 1) % 2) }

/-- The descriptor at the head of a Facet's queue is issued where the Facet is in its mode and no task of another format accumulates;
without a Loupe that samples it nothing else happens. -/
theorem exec_taskDescriptor_of_ready {s : State} {g : Program} {ra : Bool} {a : Attempt} {t : Strand} {d : TileDesc} (ramping : Bool)
    (hg : s.prog = some g) (hstrand : s.strand? t.id = some t) (hkind : t.kind = .tile d)
    (hnext : s.nextTask (s.physFacet d) = some (ra, a, t, d)) (husable : s.usable (s.physFacet d) = true)
    (hmode : (s.facet (s.physFacet d)).mode = d.mode) (hformat : s.sameFormat (s.physFacet d) d = true)
    (hrun : s.stopped ra t = false) (hquiet : s.sampled g a d (s.physFacet d) = false) :
    exec (.taskDescriptor ra t.id ramping) s =
      .next ((s.setFacet (s.physFacet d) (s.issuedFacet (s.physFacet d) ra t.id d.pidx)).beginIssue (s.physFacet d) ramping d.format) := by
  show execTaskDescriptor ra t.id ramping s = _
  unfold execTaskDescriptor
  rw [hg, hstrand]
  dsimp only
  rw [hkind]
  dsimp only
  rw [hnext]
  dsimp only
  rw [hquiet, guarded_of_true _ _ (by simp [hrun, husable, hmode, hformat])]
  rfl

/-! ## SCALE_LOAD -/

/-- The first task of a partition loads its scales at once: no task before it can hold a set (R92). -/
theorem exec_scaleLoad_of_first {s : State} {f pidx : Nat} {t : FTask} {ts : List FTask} {d : TileDesc}
    (hts : ((s.facet f).tasks.filter fun t => t.pidx == pidx) = t :: ts) (hnone : t.scales = none) (htile : s.tileOf t = some d) :
    exec (.scaleLoad f pidx) s =
      .next (s.setFacet f ((s.facet f).putTask { t with scales := some (s.words (poolAddr (facetCluster f) d.scales) 128) })) := by
  show execScaleLoad f pidx s = _
  unfold execScaleLoad
  dsimp only
  rw [hts, List.zipIdx_cons, List.find?_cons_of_pos (by simp [hnone])]
  dsimp only
  rw [htile]
  exact guarded_of_true _ _ rfl

/-! ## The inclusion path (R151, R152) -/

/-- What a choice among the elements of a list answers is one of them. -/
theorem mem_of_foldl_choice {α : Type} (choose : Option α → α → Option α) (hc : ∀ b t, choose b t = some t ∨ choose b t = b) {l : List α}
    {b : Option α} {x : α} (h : l.foldl choose b = some x) : b = some x ∨ x ∈ l := by
  induction l generalizing b with
  | nil => exact .inl h
  | cons t l ih =>
    rcases ih h with hb | hx
    · rcases hc b t with ht | ht <;> rw [ht] at hb
      · exact .inr (by simp [Option.some.inj hb])
      · exact .inl hb
    · exact .inr (List.mem_cons_of_mem t hx)

/-- The task that the inclusion path serves next is one of its cluster's. -/
theorem mem_inclTasks_of_inclHead {s : State} {c : Nat} {x : Nat × FTask × TileDesc} (h : s.inclHead c = some x) : x ∈ s.inclTasks c := by
  refine (mem_of_foldl_choice _ (fun b t => ?_) h).resolve_left (by simp)
  split
  · exact .inl rfl
  · split
    · exact .inl rfl
    · exact .inr rfl

theorem tileOf_of_inclHead {s : State} {c j : Nat} {t : FTask} {d : TileDesc} (h : s.inclHead c = some (j, t, d)) : s.tileOf t = some d := by
  have hmem : (j, t, d) ∈ s.clusterTasks c := List.mem_of_mem_filter (mem_inclTasks_of_inclHead h)
  obtain ⟨i, -, hi⟩ := List.mem_flatMap.1 hmem
  obtain ⟨q, -, hq⟩ := List.mem_filterMap.1 hi
  obtain ⟨e, he, hx⟩ := Option.map_eq_some_iff.1 hq
  obtain ⟨-, rfl, rfl⟩ : i = j ∧ q = t ∧ e = d := by simpa using hx
  exact he

theorem inclNext_eq_some_iff (s : State) (f pidx : Nat) (t : FTask) (d : TileDesc) (n : InclDesc) :
    s.inclNext f pidx = some (t, d, n) ↔ s.inclHead (facetCluster f) = some (f % 4, t, d) ∧ t.pidx = pidx ∧ d.incl = some n := by
  unfold State.inclNext
  constructor
  · intro h
    obtain ⟨⟨j, t', d'⟩, hhead, hif⟩ := Option.bind_eq_some_iff.1 h
    by_cases hc : j = f % 4 ∧ t'.pidx = pidx
    · rw [if_pos hc] at hif
      obtain ⟨n', hn, he⟩ := Option.map_eq_some_iff.1 hif
      obtain ⟨rfl, rfl, rfl⟩ : t' = t ∧ d' = d ∧ n' = n := by simpa using he
      exact ⟨hc.1 ▸ hhead, hc.2, hn⟩
    · rw [if_neg hc] at hif
      cases hif
  · rintro ⟨hhead, hp, hn⟩
    rw [hhead, Option.bind_some, if_pos ⟨rfl, hp⟩, hn]
    rfl

/-- Without a task to serve, or before its operands are in place, the inclusion path does nothing. -/
theorem exec_inclusionTask_of_waits {s : State} {f pidx : Nat} (fault : CutFault)
    (h : s.inclNext f pidx = none ∨ ∃ t d n, s.inclNext f pidx = some (t, d, n) ∧ s.inclWaits (facetCluster f) t n = true) :
    exec (.inclusionTask ⟨f, pidx⟩ fault) s = .next s := by
  show execInclusionTask ⟨f, pidx⟩ fault s = _
  unfold execInclusionTask
  dsimp only
  rcases h with h | ⟨t, d, n, h, hwait⟩ <;> rw [h]
  dsimp only
  split
  · exact guarded_of_false _ _ (by rw [hwait]; rfl)
  · rfl

/-- The sums of a task, in its INCL area (log 30). -/
def State.putSums (s : State) (c : Nat) (d : TileDesc) (n : InclDesc) : State :=
  (List.range (partRows d.mode)).foldl (fun v r =>
    v.putWords (poolAddr c n.result + 4 * (64 * (d.row0 + r) + d.col0))
      ((List.range (partCols d.mode)).map fun k => s.inclSum c n (d.row0 + r) (d.col0 + k))) s

theorem putSums_units (s : State) (c : Nat) (d : TileDesc) (n : InclDesc) : (s.putSums c d n).units = s.units :=
  State.foldl_units _ _ s fun _ _ => State.putWords_units ..

theorem putSums_step (s : State) (c : Nat) (d : TileDesc) (n : InclDesc) : (s.putSums c d n).step = s.step :=
  State.foldl_step _ _ s fun _ _ => State.putWords_step ..

theorem putSums_regs (s : State) (c : Nat) (d : TileDesc) (n : InclDesc) : (s.putSums c d n).regs = s.regs :=
  State.foldl_regs _ _ s fun _ _ => State.putWords_regs ..

/-- Runs of words, each at its place, leave every byte outside all of them as it was. -/
theorem byte_foldl_putWords_other (place : Nat → Nat) (ws : Nat → List Word) (l : List Nat) (s : State) (b : Nat)
    (hw : Bank.wf stackDefault s.tarns = true) (hb : ∀ r ∈ l, b < place r ∨ place r + 4 * (ws r).length ≤ b) :
    (l.foldl (fun v r => v.putWords (place r) (ws r)) s).byte b = s.byte b := by
  induction l generalizing s with
  | nil => rfl
  | cons r l ih =>
    rw [List.foldl_cons, ih (s.putWords _ _) (State.putBytes_stacks_wf s _ _ hw) fun q hq => hb q (List.mem_cons_of_mem r hq)]
    exact byte_putWords_other s _ _ b hw (hb r List.mem_cons_self)

/-- The sums end with the last row of the partition. -/
theorem byte_putSums_other (s : State) (c : Nat) (d : TileDesc) (n : InclDesc) (b : Nat) (hw : Bank.wf stackDefault s.tarns = true)
    (hb : b < poolAddr c n.result + 4 * (64 * d.row0 + d.col0) ∨
      poolAddr c n.result + 4 * (64 * (d.row0 + partRows d.mode) + d.col0 + partCols d.mode) ≤ b) :
    (s.putSums c d n).byte b = s.byte b := by
  refine byte_foldl_putWords_other _ _ _ s b hw fun r hr => ?_
  have hlt : r < partRows d.mode := List.mem_range.1 hr
  rw [List.length_map, List.length_range]
  omega

/-- A task whose inclusion sums are in place; the path has counted it and its inclusions. -/
def State.included (s : State) (f : Nat) (t : FTask) (d : TileDesc) (n : InclDesc) : State :=
  (((s.putSums (facetCluster f) d n).setFacet f ((s.facet f).putTask { t with incl := true })).bump
    .inc (facetCluster f) 0x10 1).bump .inc (facetCluster f) 0x14 n.count

theorem exec_inclusionTask_of_ready {s : State} {f pidx : Nat} {t : FTask} {d : TileDesc} {n : InclDesc} {a : Attempt}
    (hnext : s.inclNext f pidx = some (t, d, n)) (hatt : s.attempt t.ra = some a) (hwait : s.inclWaits (facetCluster f) t n = false) :
    exec (.inclusionTask ⟨f, pidx⟩ .none) s = .next (s.included f t d n) := by
  obtain ⟨x, hx⟩ := strand_of_tileOf (tileOf_of_inclHead ((inclNext_eq_some_iff s f pidx t d n).1 hnext).1)
  have hfacet : (s.putSums (facetCluster f) d n).facet f = s.facet f := facet_setFacet_congr f (putSums_units s _ d n)
  show execInclusionTask ⟨f, pidx⟩ .none s = _
  unfold execInclusionTask
  dsimp only
  rw [hnext]
  dsimp only
  rw [hatt, hx]
  dsimp only
  rw [guarded_of_true _ _ (by rw [hwait]; rfl), State.included, ← hfacet]
  rfl

/-- The first counter of the path advances by one; the second lies apart. -/
theorem included_count (s : State) (f : Nat) (t : FTask) (d : TileDesc) (n : InclDesc) (hw : Bank.wf regReset s.regs = true) :
    ((s.included f t d n).reg .inc (facetCluster f) 0x10).toNat = ((s.reg .inc (facetCluster f) 0x10).toNat + 1) % 2 ^ 32 := by
  have hregs : (s.putSums (facetCluster f) d n).reg .inc (facetCluster f) 0x10 = s.reg .inc (facetCluster f) 0x10 := by
    rw [State.reg, State.reg, State.regAt, State.regAt, putSums_regs]
  have hbump (u : State) (hu : Bank.wf regReset u.regs = true) :
      ((u.bump .inc (facetCluster f) 0x10 1).bump .inc (facetCluster f) 0x14 n.count).reg .inc (facetCluster f) 0x10 =
        u.reg .inc (facetCluster f) 0x10 + 1 := by
    refine (State.regAt_bump_other _ _ _ _ _ _ (by unfold regAddr; omega)).trans ?_
    exact State.reg_setReg_same u .inc (facetCluster f) 0x10 _ hu
  rw [State.included, hbump _ (by rw [State.setFacet_regs, putSums_regs]; exact hw), BitVec.toNat_add]
  exact congrArg (fun v : Word => (v.toNat + 1) % 2 ^ 32) hregs

/-- Settles O30: each row has one equation, and the frames are those of `beginIssue`, `setActivity` and `putSums`. -/
theorem facetTakesTasks : Obligations.FacetTakesTasks := by
  unfold Obligations.FacetTakesTasks
  refine ⟨?mode, ?descriptor, ?stop, ?scales, ?waits, inclNext_eq_some_iff, ?inclusion⟩
  case mode => exact fun s f r a t d hnext hidle husable => exec_modeChange_of_next hnext hidle husable
  case descriptor =>
    intro s g ra ramping a t d hg hstrand hkind hnext husable hmode hformat hrun hquiet
    have hx := exec_taskDescriptor_of_ready ramping hg hstrand hkind hnext husable hmode hformat hrun hquiet
    have htasks : (s.issuedFacet (s.physFacet d) ra t.id d.pidx).tasks ≠ [] := by simp [State.issuedFacet]
    obtain ⟨hunits, hrest⟩ := beginIssue_keeps (s.setFacet (s.physFacet d) (s.issuedFacet (s.physFacet d) ra t.id d.pidx))
      (s.physFacet d) ramping d.format
    rw [facet_setFacet_of_tasks s _ htasks, setFacet_setFacet_of_tasks s _ _ htasks] at hunits
    exact answers_of_eq hx ⟨hunits, hrest⟩
  case stop =>
    intro s f hissuing hend
    refine answers_of_eq (exec_stopRamp_of_end hissuing hend) ⟨?_, ?_, ?_, ?_⟩ <;> simp
  case scales => exact fun s f pidx t ts d hts hnone htile => exec_scaleLoad_of_first hts hnone htile
  case waits => exact fun s f pidx fault h => exec_inclusionTask_of_waits fault h
  case inclusion =>
    intro s f pidx t d n a hcan hnext hatt hwait
    obtain ⟨-, hregs, htarns, -⟩ := (State.canonical_iff s).1 hcan
    refine answers_of_eq (exec_inclusionTask_of_ready hnext hatt hwait) ⟨rfl, ?_, ?_, included_count s f t d n hregs, fun b hb => ?_⟩
    · simp [State.included, State.setFacet, putSums_units]
    · simp [State.included, putSums_step]
    · exact byte_putSums_other s _ d n b htarns hb

end Sys2Proof.Machine
end

section
/-! PROOFS. The Cutters: what a fused drain kernel does with the row delivered to it, what the first pass of the kernel at the head of a
queue leaves, and how a kernel completes. -/
namespace Sys2Proof.Machine

/-! ## Fused drain kernels (R156 to R160) -/

/-- A row has been reduced: its statistic is in its place, the row is off the task's chunks, and a backward segment vetoes a statistic that
is not finite (R156, R215). -/
def State.reduced (s : State) (f row : Nat) (t : FTask) (d : TileDesc) (x : Strand) (v : List Word) : State :=
  let w := s.putWords (statAddr (facetCluster f) d row v.length) v
  (w.setFacet f ((w.facet f).putTask
    { t with chunks := t.chunks.filter fun e => e.1 != row, stats := t.stats ++ [row] })).backwardVeto t.ra x (v.any notFinite)

section
variable {s : State} {f pidx n row : Nat} {fault : CutFault} {named : FusedDesc → Bool} {red : Nat → TileDesc → List Word → List Word}
variable {side : Bool → Attempt → Strand → Nat → TileDesc → List Word → State → State}

theorem fused_of_no_row (h : s.fusedTask f pidx n row = none) : s.fused f pidx n row fault named red side = .next s := by
  rw [State.fused, h]

variable {t : FTask} {d : TileDesc} {z : List Word} {a : Attempt} {x : Strand}
variable (hrow : s.fusedTask f pidx n row = some (t, d, z)) (hatt : s.attempt t.ra = some a) (hstrand : s.strand? t.id = some x)
include hrow hatt hstrand

/-- Operands that are not those of the task's descriptor name no kernel of it. -/
theorem fused_of_unnamed (hname : named d.fk = false) : s.fused f pidx n row fault named red side = .next s := by
  rw [State.fused, hrow]
  dsimp only
  rw [hatt, hstrand]
  exact guarded_of_false _ _ (by rw [hname, Bool.false_and])

variable (hrun : (s.cutter (facetCluster f)).halted = false) (hname : named d.fk = true)
include hrun hname

theorem fused_of_row : s.fused f pidx n row .none named red side =
    .next ((side t.ra a x (facetCluster f) d z s).reduced f row t d x (red (facetCluster f) d z)) := by
  rw [State.fused, hrow]
  dsimp only
  rw [hatt, hstrand]
  exact guarded_of_true _ _ (by rw [hname, hrun]; rfl)

/-- A fatal fault takes the place of the reduction. -/
theorem fused_of_fatal (hf : fatalFault fault = true) :
    s.fused f pidx n row fault named red side = .next (s.cutFaulted t.ra a x (facetCluster f) fault) := by
  rw [State.fused, hrow]
  dsimp only
  rw [hatt, hstrand]
  dsimp only
  rw [guarded_of_true _ _ (by rw [hname, hrun]; rfl), if_pos hf]

end

/-- The chunk statistic of R158, with the mask's excluded elements named. -/
theorem chunkSoftmax_eq (keep : Nat → Bool) (z : List Word) :
    let m := (z.zipIdx.filter fun e => keep e.2).foldl (fun b e => smxMax b e.1) ninf32
    chunkSoftmax keep z = [m, sum64 (z.zipIdx.map fun e => if !keep e.2 then 0 else fExp (fSub e.1 m))] := by
  intro m
  have hflip (e : Word × Nat) : (if keep e.2 then fExp (fSub e.1 m) else 0) = if !keep e.2 then 0 else fExp (fSub e.1 m) := by
    cases keep e.2 <;> rfl
  simp only [chunkSoftmax, m, hflip]

/-- Events for the elements that `p` picks, where it picks none. -/
theorem foldl_if_of_none {p : Nat → Bool} (e : State → State) {l : List Nat} (s : State) (h : ∀ i ∈ l, p i = false) :
    l.foldl (fun v i => if p i then e v else v) s = s := by
  induction l with
  | nil => rfl
  | cons i l ih =>
    rw [List.foldl_cons, h i List.mem_cons_self]
    exact ih fun j hj => h j (List.mem_cons_of_mem i hj)

/-! ## The kernel at the head of a Cutter's queue (R126, R131, R140) -/

/-- A queued kernel may run its first pass on cluster `c`: it is at the head of the queue of a Cutter that works on none and is not halted,
no cut has stopped it, and a run-ahead's hold has room for its history entries. -/
def State.mayBegin (s : State) (ra : Bool) (g : Program) (a : Attempt) (t : Strand) (c : Nat) : Prop :=
  s.prog = some g ∧ s.attempt ra = some a ∧ s.strand? t.id = some t ∧ s.headKernel c = some (ra, t) ∧
    (s.cutter c).kernel = none ∧ (s.cutter c).halted = false ∧ s.stopped ra t = false ∧ (ra = true → s.holdRoom g a t = true)

section
variable {s : State} {ra : Bool} {g : Program} {a : Attempt} {t : Strand} {c : Nat} {isKind : StrandKind → Bool}
variable {pass : Program → Attempt → Strand → Nat → Bool → State → State}
variable (h : s.mayBegin ra g a t c) (hcl : s.kernelCluster t = some c) (hkind : isKind t.kind = true)
include h hcl hkind

/-- The first pass takes the place of nothing but a fatal fault and an uncorrectable line of its history. -/
theorem runKernel_of_mayBegin (fault : CutFault) :
    s.runKernel ra t.id fault isKind pass = .next (if fatalFault fault then s.cutFaulted ra a t c fault
      else (s.cutFaulted ra a t c fault).strandIO ra 0 ((s.cutFaulted ra a t c fault).historyLines g t) []
        (pass g a t c true (s.cutFaulted ra a t c fault))) := by
  obtain ⟨hg, hatt, hstrand, hhead, hfree, hrun, hgo, hroom⟩ := h
  rw [State.runKernel, hg, hatt, hstrand]
  dsimp only
  rw [hcl]
  dsimp only
  rw [guarded_of_true, hfree]
  · rfl
  · cases ra
    · simp [hkind, hhead, hgo, hrun, hfree]
    · simp [hkind, hhead, hgo, hrun, hfree, hroom rfl]

theorem runKernel_of_clean (hb : s.badLines (s.historyLines g t) = []) :
    s.runKernel ra t.id .none isKind pass = .next (pass g a t c true s) := by
  refine (runKernel_of_mayBegin h hcl hkind .none).trans (congrArg _ ?_)
  exact s.strandIO_of_none ra 0 _ [] _ ((congrArg s.badLines (List.append_nil _)).trans hb)

end

/-! ## The unquantised element kernels (R126 to R128, R131) -/

theorem historyLines_of_unquantised (s : State) (g : Program) (t : Strand) (h : quantOf t.kind = none) : s.historyLines g t = [] := by
  rw [State.historyLines, h]

/-- The panel of an element kernel is written and the kernel's outputs are in place. -/
def State.elemWritten (s : State) (ra : Bool) (t : Strand) (d : ElemDesc) (c : Nat) (l : List Word) : State :=
  let u := (s.putWords (poolAddr c d.dst) l).backwardVeto ra t (l.any notFinite)
  u.setCutter c { u.cutter c with kernel := some (t.id, ra, true), waiting := false }

theorem kernelPass_elem (s : State) (g : Program) (ra : Bool) (a : Attempt) (t : Strand) (c : Nat) (d : ElemDesc)
    (hk : t.kind = .elem d) (hq : d.quant = none) :
    s.kernelPass g ra a t c true = s.elemWritten ra t d c (s.elemOut c d) := by
  rw [State.kernelPass, hk]
  dsimp only
  rw [hq]
  rfl

section
variable {s : State} {ra : Bool} {g : Program} {a : Attempt} {t : Strand} {d : ElemDesc}
variable (h : s.mayBegin ra g a t (s.physCluster d.cluster)) (hk : t.kind = .elem d) (hq : d.quant = none)
include h hk hq

/-- An element kernel of one operation writes what `v` gives for each element. -/
theorem runKernel_elem {op : ElemOp} (hop : d.op = op) {v : Nat → Word}
    (hv : s.elemOut (s.physCluster d.cluster) d = (List.range d.n).map v) :
    s.runKernel ra t.id .none (isElem op) (fun g a t c first u => u.kernelPass g ra a t c first) =
      .next (s.elemWritten ra t d (s.physCluster d.cluster) ((List.range d.n).map v)) := by
  have hcl : s.kernelCluster t = some (s.physCluster d.cluster) := by rw [State.kernelCluster, hk]
  have hkind : isElem op t.kind = true := by rw [hk, isElem, hop]; exact beq_self_eq_true op
  have hhist : s.historyLines g t = [] := historyLines_of_unquantised s g t (by rw [hk, quantOf, hq])
  rw [runKernel_of_clean h hcl hkind (by rw [hhist]; rfl), kernelPass_elem s g ra a t _ d hk hq, hv]

end

/-! ## KERNEL_COMPLETE (R131) -/

theorem releaseAt_regs (s : State) (ra : Bool) (p : Program) (id : Nat) : (s.releaseAt ra p id).regs = s.regs :=
  State.foldl_regs _ _ s fun _ _ => rfl

theorem completeStrand_regs {s : State} {g : Program} (hg : s.prog = some g) (ra : Bool) (id : Nat) :
    (s.completeStrand ra id).regs = s.regs := by
  rw [State.completeStrand, hg]
  dsimp only
  rw [releaseAt_regs, State.markDone_regs]

/-- A Cutter whose kernel has completed. -/
def State.kernelDone (s : State) (c id : Nat) (ra : Bool) : State :=
  (s.setCutter c { s.cutter c with
    queue := (s.cutter c).queue.filter fun k => k != (id, ra), kernel := none, waiting := false }).bump .cut c 0x40 1

theorem exec_kernelComplete {s : State} {c id : Nat} {ra : Bool} (hk : (s.cutter c).kernel = some (id, ra, true))
    (hrun : (s.cutter c).halted = false) :
    exec (.kernelComplete c) s = .next ((s.kernelDone c id ra).completeStrand ra id) := by
  show execKernelComplete c s = _
  unfold execKernelComplete
  dsimp only
  rw [hk]
  exact guarded_of_true _ _ (by rw [hrun]; rfl)

theorem exec_rmsStat (s : State) (f pidx row : Nat) (fault : CutFault) :
    exec (.rmsStat f pidx row fault) s = execRmsStat f pidx row fault s := rfl

theorem exec_smxStat (s : State) (f pidx row : Nat) (fault : CutFault) (causal : Bool) (pos0 z : Nat) :
    exec (.smxStat f pidx row fault causal pos0 z) s = execSmxStat f pidx row fault causal pos0 z s := rfl

theorem exec_smxDot (s : State) (f pidx row : Nat) (fault : CutFault) (fmt : Option Fmt) (blk codes exps pitch : Nat) :
    exec (.smxDot f pidx row fault fmt blk codes exps pitch) s = execSmxDot f pidx row fault fmt blk codes exps pitch s := rfl

theorem exec_rmsDot (s : State) (f pidx row : Nat) (fault : CutFault) (gamma x : Nat) :
    exec (.rmsDot f pidx row fault gamma x) s = execRmsDot f pidx row fault gamma x s := rfl

/-- Settles O32: a fused kernel is `fused` with its reduction, an element kernel writes its operation of each element, and
KERNEL_COMPLETE is `completeStrand` on the Cutter without the kernel. -/
theorem fusedAndElementKernels : Obligations.FusedAndElementKernels := by
  unfold Obligations.FusedAndElementKernels
  refine ⟨⟨?rmsStat, ?smxStat, ?smxDot, ?rmsDot, ?fault, ?noRow, ?unnamed⟩, ?elem, ?complete⟩
  case rmsStat =>
    rintro s f pidx row t d z a x ⟨hrow, hatt, hstrand, hrun⟩
    rw [exec_rmsStat, execRmsStat, fused_of_row hrow hatt hstrand hrun rfl]
    rfl
  case smxStat =>
    rintro s f pidx row t d z a x ⟨hrow, hatt, hstrand, hrun⟩ keep m
    rw [exec_smxStat, execSmxStat, fused_of_row hrow hatt hstrand hrun (by simp), chunkSoftmax_eq]
    rfl
  case smxDot =>
    rintro s f pidx row t d z a x ⟨hrow, hatt, hstrand, hrun⟩ p hp
    rw [exec_smxDot, execSmxDot, fused_of_row hrow hatt hstrand hrun (by simp),
      foldl_if_of_none (p := fun i => (p i).2) _ s fun i hi => hp i (List.mem_range.1 hi)]
    rfl
  case rmsDot =>
    rintro s f pidx row t d z a x ⟨hrow, hatt, hstrand, hrun⟩
    rw [exec_rmsDot, execRmsDot, fused_of_row hrow hatt hstrand hrun (by simp)]
    rfl
  case fault =>
    rintro s f pidx n row fault t d z a x cmd ⟨hrow, hatt, hstrand, hrun⟩ hf (⟨rfl, rfl⟩ | ⟨rfl, rfl⟩ | ⟨rfl, rfl⟩ | ⟨rfl, rfl⟩)
    · rw [exec_rmsStat, execRmsStat, fused_of_fatal hrow hatt hstrand hrun rfl hf]
    · rw [exec_smxStat, execSmxStat, fused_of_fatal hrow hatt hstrand hrun (by simp) hf]
    · rw [exec_smxDot, execSmxDot, fused_of_fatal hrow hatt hstrand hrun (by simp) hf]
    · rw [exec_rmsDot, execRmsDot, fused_of_fatal hrow hatt hstrand hrun (by simp) hf]
  case noRow =>
    intro s f pidx row fault causal fmt i j k l h
    rw [exec_rmsStat, exec_smxStat, exec_smxDot, exec_rmsDot]
    exact ⟨fused_of_no_row (h 1), fused_of_no_row (h 2), fused_of_no_row (h 3), fused_of_no_row (h 4)⟩
  case unnamed =>
    rintro s f pidx n row fault t d z a x causal fmt i j k l ⟨hrow, hatt, hstrand, -⟩
    refine ⟨?_, ?_, ?_⟩
    · rintro rfl hne
      rw [exec_smxStat, execSmxStat, fused_of_unnamed hrow hatt hstrand (decide_eq_false hne)]
    · rintro rfl hne
      rw [exec_smxDot, execSmxDot, fused_of_unnamed hrow hatt hstrand (decide_eq_false hne)]
    · rintro rfl hne
      rw [exec_rmsDot, execRmsDot, fused_of_unnamed hrow hatt hstrand (decide_eq_false hne)]
  case elem =>
    intro s ra g a t d c x y put h hk hq
    have run {op : ElemOp} (hop : d.op = op) {v : Nat → Word} (hv : s.elemOut c d = (List.range d.n).map v) :=
      runKernel_elem (s := s) h hk hq hop hv
    refine ⟨fun hop => run hop ?_, fun hop => run hop ?_, fun hop => run hop ?_, fun hop => run hop ?_, fun hop => run hop ?_⟩
    all_goals
      rw [State.elemOut, hop]
      rfl
  case complete =>
    intro s c id ra g a hg hatt hk hrun
    have hprog : (s.kernelDone c id ra).prog = some g := hg
    obtain ⟨hunits, hdone, hmem, -, -⟩ := completeStrand_keeps (s := s.kernelDone c id ra) (ra := ra) (id := id) hprog hatt
    refine answers_of_eq (exec_kernelComplete hk hrun) ⟨?_, hdone, ?_, hmem⟩
    · rw [hunits]
      rfl
    · rw [completeStrand_regs hprog]
      rfl

end Sys2Proof.Machine
end

section
/-! PROOFS. Three states outside what a statement had in mind: a Cutter that keeps the mark of a run-ahead's halt, an empty RESTORE whose
SRC lies in the middle of an uncorrectable line, and a register table that lists a Loupe's counter out of order. -/
namespace Sys2Proof.Machine

/-- What a next state holds. -/
def valueAfter {α : Type} (view : State → α) : Host.Outcome State Fault Refusal → Option α
  | .next t => some (view t)
  | _ => none

theorem valueAfter_of_next {α : Type} {view : State → α} {o : Host.Outcome State Fault Refusal} {t : State} (h : o = .next t) :
    valueAfter view o = some (view t) := by
  rw [h]
  rfl

/-! ## The mark of a run-ahead's halt (R163) -/

/-- A QUANT kernel without copies. -/
def idleQuant : Strand := { (default : Strand) with id := 1, kind := .quant default }

/-- The kernel is at the head of the queue of a Cutter that is not halted and still carries the mark `haltRa`. -/
def quantBehindMark : State :=
  { prog := some { (default : Program) with strands := [idleQuant] }
    step := { att := some default }
    units := { cutters := [(0, { queue := [(1, false)], haltRa := true })] } }

/-- It may begin. -/
theorem quantBehindMark_head : quantBehindMark.strand? 1 = some idleQuant ∧ quantBehindMark.headKernel 0 = some (false, idleQuant) ∧
    quantBehindMark.stopped false idleQuant = false := by decide +kernel

/-- Halting the Cutter for the open attempt's kernel takes the mark away. -/
theorem quantBehindMark_halts :
    valueAfter (fun t => (t.cutter 0).haltRa) (exec (.quant false idleQuant.id .cutFault) quantBehindMark) = some false := by decide +kernel

/-- Refutes O33: a CUT_FAULT sets `haltRa` to whether the kernel is of the run-ahead, where the statement leaves it as it was. -/
theorem not_quantisingKernels : ¬ Obligations.QuantisingKernels := by
  unfold Obligations.QuantisingKernels
  rintro ⟨-, -, -, -, cutFault⟩
  obtain ⟨hstrand, hhead, hgo⟩ := quantBehindMark_head
  obtain ⟨u, hnext, hunits, -⟩ := cutFault quantBehindMark { (default : Program) with strands := [idleQuant] } default idleQuant default
    ⟨rfl, rfl, hstrand, hhead, rfl, rfl, hgo, nofun⟩ rfl
  have hmark : (u.cutter 0).haltRa = true := by
    rw [State.cutter, hunits]
    rfl
  have hafter := quantBehindMark_halts
  rw [valueAfter_of_next hnext, hmark] at hafter
  exact absurd hafter (by decide)

/-! ## An empty RESTORE (R212, R381) -/

/-- DST at 1 GiB, SRC one byte into a line, no pages. -/
def emptyRestore : List Byte := leBytes 8 0x40000000 ++ leBytes 8 4097 ++ leBytes 8 0

def emptyRestorePacket : Packet := ⟨false, false, 0x0307, 0, 0, 0, emptyRestore, ⟨0, .v4 0, 0, .v4 0, none⟩⟩

/-- The command is at the front of queue 0; SRC lies in a window of stack 0, whose line 64 is uncorrectable. -/
def restoreFromBadLine : State :=
  { cp := .loaded
    prog := some { (default : Program) with regions := [⟨0x40000000, 0x10000, true, .param⟩] }
    regs := [(regAddr .trn 0 0x44, 8)]
    tarns := [(0, { poison := [64] })]
    queues := [(0, { accepted := [emptyRestorePacket] })] }

theorem restoreFromBadLine_fields : leAt 20 4 emptyRestore = 0 ∧ leAt 16 4 emptyRestore = 0 ∧
    ((restoreFromBadLine.take 0 []).squash.restoreField (leAt 0 8 emptyRestore) (leAt 8 8 emptyRestore) (leAt 16 4 emptyRestore)) = none ∧
    (restoreFromBadLine.take 0 []).squash.bulk = [] := by decide +kernel

/-- The line that SRC lies in is read all the same. -/
theorem restoreFromBadLine_status :
    valueAfter (fun t => t.bulk.map (·.code)) (exec (.restore 0) restoreFromBadLine) = some [stUncorrectable] := by decide +kernel

theorem issues_bulk (t : State) (q : Nat) (p : Packet) : (t.issues q p).bulk = t.bulk := by
  rw [State.issues, State.advance_bulk]
  rfl

/-- Refutes O22: a RESTORE of no pages reads the line that an unaligned SRC lies in, and answers UNCORRECTABLE where that is on the poison
list. -/
theorem not_memoryAndRestoreCommands : ¬ Obligations.MemoryAndRestoreCommands := by
  unfold Obligations.MemoryAndRestoreCommands
  rintro ⟨-, restore, -⟩
  obtain ⟨hzero, hpages, hfield, hbulk⟩ := restoreFromBadLine_fields
  have hnext := (restore restoreFromBadLine 0 emptyRestorePacket [] emptyRestore (by decide) ⟨rfl, rfl, nofun⟩ rfl
    (.inr ⟨rfl, rfl, rfl⟩) rfl hzero hfield).1 hpages
  have hafter := restoreFromBadLine_status
  rw [valueAfter_of_next hnext, issues_bulk, hbulk] at hafter
  exact absurd hafter (by decide)

/-! ## A Loupe's counter (R177) -/

/-- A tile without K, whose operands are binary16 values. -/
def emptyTile : TileDesc := { (default : TileDesc) with tensor := 7, format := .f16 }

def emptyTileStrand : Strand := { (default : Strand) with id := 1, kind := .tile emptyTile, seg := some (2, false) }

/-- A ready sample of it whose element at the sub-tile's corner is 1. -/
def failingSample : LoupeTask :=
  { (default : LoupeTask) with id := 1, ready := true, ys := [(64 * (subTile 1 7 0).1 + (subTile 1 7 0).2, 0x3F800000)] }

def emptyTileProgram : Program :=
  { (default : Program) with strands := [emptyTileStrand], products := [⟨7, (0, false), (0, false), some (default, default), false⟩] }

def firstAttempt : Attempt := { (default : Attempt) with step := 1 }

/-- The sample waits in region 3, whose count of samples is at its last value and stands behind the count of failed ones. -/
def samplesOutOfOrder : State :=
  { regs := [(regAddr .lpe 3 0x24, 1), (regAddr .lpe 3 0x20, 0xFFFFFFFF)]
    prog := some emptyTileProgram
    step := { att := some firstAttempt }
    units := { loupes := [(3, { queue := [failingSample] })] } }

/-- What the Loupe finds. -/
def samplesOutOfOrder_judged : Option (List Judged) :=
  samplesOutOfOrder.judgeSample 3 firstAttempt.step (samplesOutOfOrder.physFacet emptyTile)
    (facetCluster (samplesOutOfOrder.physFacet emptyTile)) emptyTile (default, default) failingSample

theorem samplesOutOfOrder_fails : ∃ l, samplesOutOfOrder_judged = some l ∧ l.any (·.fails) = true := by
  have h : samplesOutOfOrder_judged.any (fun l => l.any (·.fails)) = true := by decide +kernel
  exact (Option.any_eq_true _ _).1 h

/-- The count does not go on to 0. -/
theorem samplesOutOfOrder_count :
    valueAfter (fun t => t.reg .lpe 3 0x20) (exec (.loupeVerdict 3 false) samplesOutOfOrder) = some 0xFFFFFFFF ∧
      samplesOutOfOrder.reg .lpe 3 0x20 = 0xFFFFFFFF := by decide +kernel

/-- Refutes O42: the statement does not ask for a canonical state, and in a register table that is not in order the count of samples that
wraps to its reset value is not found, so it does not advance. -/
theorem not_ratiosAmaxesVerdicts : ¬ Obligations.RatiosAmaxesVerdicts := by
  unfold Obligations.RatiosAmaxesVerdicts
  rintro ⟨-, -, -, verdict⟩
  obtain ⟨l, hjudged, hfails⟩ := samplesOutOfOrder_fails
  obtain ⟨-, counted, -⟩ := verdict samplesOutOfOrder 3 false emptyTileProgram firstAttempt failingSample emptyTileStrand emptyTile
    (default, default) rfl rfl rfl rfl rfl rfl rfl
  obtain ⟨u, hnext, -, hcount, -⟩ := (counted rfl rfl rfl rfl).2.2 l 2 false hjudged hfails rfl
  obtain ⟨hafter, hbefore⟩ := samplesOutOfOrder_count
  rw [valueAfter_of_next hnext, hcount, hbefore] at hafter
  exact absurd hafter (by decide)

end Sys2Proof.Machine
end

section
/-! PROOFS. POLICY, XMAP, LVOTE and GATE, and a host's ABORT: payloads read back field by field, what a downward message is acted on, and
what the wellhead's own decisions leave of the step. -/
namespace Sys2Proof.Machine

/-! ## Payloads -/

theorem leBytes_length (n v : Nat) : (leBytes n v).length = n := by
  induction n generalizing v with
  | zero => rfl
  | succ n ih => rw [leBytes, List.length_cons, ih]

theorem leNat_leBytes (n v : Nat) : leNat (leBytes n v) = v % 256 ^ n := by
  induction n generalizing v with
  | zero => simp [leBytes, leNat, Nat.mod_one]
  | succ n ih =>
    rw [leBytes, leNat, ih, BitVec.toNat_ofNat, pow_succ' 256, Nat.mod_mul]

theorem leNat_lt (l : List Byte) : leNat l < 256 ^ l.length := by
  induction l with
  | nil => simp [leNat]
  | cons b t ih =>
    have hb : b.toNat < 256 := b.isLt
    rw [leNat, List.length_cons, pow_succ]
    omega

theorem fld_lt (f : DomFrame) (i : Nat) : fld f i < 2 ^ 64 := by
  have hlen : (slice (8 * i) 8 f.payload).length ≤ 8 := by simp [slice]
  calc fld f i < 256 ^ (slice (8 * i) 8 f.payload).length := leNat_lt _
    _ ≤ 256 ^ 8 := Nat.pow_le_pow_right (by decide) hlen
    _ = 2 ^ 64 := by decide

theorem leBytes_append_drop (v : Nat) (l : List Byte) : (leBytes 8 v ++ l).drop 8 = l := by
  rw [List.drop_append_of_le_length (by rw [leBytes_length]), List.drop_eq_nil_of_le (by rw [leBytes_length]), List.nil_append]

/-- Field `i` of a payload made of fields. -/
theorem leAt_encN (l : List Nat) (i : Nat) : leAt (8 * i) 8 (encN l) = l.getD i 0 % 2 ^ 64 := by
  induction l generalizing i with
  | nil => simp [encN, leAt, slice, leNat]
  | cons v t ih =>
    cases i with
    | zero =>
      have hfirst : slice 0 8 (encN (v :: t)) = leBytes 8 v := by
        rw [slice, encN, List.flatMap_cons, List.drop_zero, List.take_append_of_le_length (by rw [leBytes_length]),
          List.take_of_length_le (by rw [leBytes_length])]
      rw [leAt, Nat.mul_zero, hfirst, leNat_leBytes]
      rfl
    | succ i =>
      have hrest : slice (8 * (i + 1)) 8 (encN (v :: t)) = slice (8 * i) 8 (encN t) := by
        rw [slice, Nat.mul_succ, Nat.add_comm, ← List.drop_drop, encN, List.flatMap_cons, leBytes_append_drop]
        rfl
      rw [leAt, hrest]
      exact ih i

theorem fld_encN (f : DomFrame) (l : List Nat) (i : Nat) (h : f.payload = encN l) : fld f i = l.getD i 0 % 2 ^ 64 := by
  rw [fld, h, leAt_encN]

/-- A vote that nobody else's joins sums to itself. -/
theorem sumFields_pair (f : DomFrame) (b v : Nat) (h : f.payload = encN [b, v]) :
    sumFields f [] = encN [b % 2 ^ 64, v % 2 ^ 64] := by
  have hlen : f.payload.length / 8 = 2 := by simp [h, encN, leBytes_length]
  have h0 : leAt (8 * 0) 8 f.payload = b % 2 ^ 64 := by rw [h, leAt_encN]; rfl
  have h1 : leAt (8 * 1) 8 f.payload = v % 2 ^ 64 := by rw [h, leAt_encN]; rfl
  have hfields : decN f.payload = [b % 2 ^ 64, v % 2 ^ 64] := by
    rw [decN, hlen]
    show [leAt (8 * 0) 8 f.payload, leAt (8 * 1) 8 f.payload] = _
    rw [h0, h1]
  have hsum : 0 + fld f 1 = v % 2 ^ 64 := by rw [Nat.zero_add, fld, h1]
  unfold sumFields
  rw [hfields]
  show encN [b % 2 ^ 64, 0 + fld f 1] = _
  rw [hsum]

/-! ## Messages that are acted on -/

theorem onDown_of_receives {s t : State} {mtype : Nat} {f : DomFrame} (act : DomFrame → State → State) (h : s.receives mtype f t) :
    s.onDown mtype act = act f t := by
  obtain ⟨u, hu, rfl⟩ := h
  rw [State.onDown, hu]

theorem combined_of_none {s : State} {mtype : Nat} (comb : DomFrame → List DomFrame → List Byte) (act : DomFrame → State → State)
    (h : s.takeCombined mtype (fun _ => true) = none) : s.combined mtype comb act = s := by
  rw [State.combined, State.combinedIf, h]

theorem combined_of_wellhead {s t : State} {mtype : Nat} {f : DomFrame} {l : List DomFrame}
    (comb : DomFrame → List DomFrame → List Byte) (act : DomFrame → State → State)
    (h : s.takeCombined mtype (fun _ => true) = some (f, l, t)) (hw : t.isWellhead = true) :
    s.combined mtype comb act = act { f with payload := comb f l } t := by
  rw [State.combined, State.combinedIf, h]
  exact if_pos hw

/-- A complete combined message is taken out of the inbox and of the module's own, and of the rest only the fabric changes. -/
theorem takeCombined_keeps {s t : State} {mtype : Nat} {f : DomFrame} {l : List DomFrame}
    (h : s.takeCombined mtype (fun _ => true) = some (f, l, t)) : t.step = s.step ∧ t.prog = s.prog := by
  obtain ⟨g, -, hg⟩ := List.exists_of_findSome?_eq_some h
  split at hg
  · obtain ⟨m, -, hm⟩ := Option.map_eq_some_iff.1 hg
    simp only [Prod.mk.injEq] at hm
    obtain ⟨-, -, rfl⟩ := hm
    exact ⟨State.dropKey_step s g, State.dropKey_prog s g⟩
  · cases hg

/-! ## POLICY (R155, R187, R223) -/

theorem tryPolicy_of_sent (s : State) (h : s.hasDown 9 = true) : s.tryPolicy = s := by
  unfold State.tryPolicy
  split
  · exact if_neg (by simp [h])
  · rfl

/-- Sending POLICY leaves the step and the program. -/
theorem tryPolicy_keeps (s : State) : s.tryPolicy.step = s.step ∧ s.tryPolicy.prog = s.prog := by
  unfold State.tryPolicy
  split
  · split
    · dsimp only
      rw [State.sendDown_step, State.sendDown_prog]
      split
      · exact ⟨rfl, rfl⟩
      · exact ⟨rfl, rfl⟩
    · exact ⟨rfl, rfl⟩
  · exact ⟨rfl, rfl⟩

/-- From `s` to `t` strands wrote Tarn: a clean one stays clean, and the step is as before. Unlike `writesKeep` it asks for no table in
canonical form. -/
def cleanWrites (s t : State) : Prop := cleanTarn s → cleanTarn t ∧ t.step = s.step

theorem cleanWrites_refl (s : State) : cleanWrites s s := fun h => ⟨h, rfl⟩

theorem cleanWrites_trans {s t u : State} (h : cleanWrites s t) (k : cleanWrites t u) : cleanWrites s u := by
  intro hs
  obtain ⟨ht, h1⟩ := h hs
  obtain ⟨hu, k1⟩ := k ht
  exact ⟨hu, k1.trans h1⟩

theorem cleanWrites_foldl {α : Type} (f : State → α → State) (h : ∀ t x, cleanWrites t (f t x)) (l : List α) (s : State) :
    cleanWrites s (l.foldl f s) := by
  induction l generalizing s with
  | nil => exact cleanWrites_refl s
  | cons x r ih => exact cleanWrites_trans (h s x) (ih _)

theorem cleanTarn_of_tarns {s t : State} (h : t.tarns = s.tarns) (hs : cleanTarn s) : cleanTarn t := by
  unfold cleanTarn State.stack at *
  rwa [h]

theorem Bank.put_ne_nil {α : Type} [DecidableEq α] (d : Nat → α) (b : Bank α) (k : Nat) {v : α} (hv : v ≠ d k) :
    Bank.put d b k v ≠ [] := by
  cases b with
  | nil => simp [Bank.put, hv]
  | cons e t =>
    obtain ⟨j, w⟩ := e
    unfold Bank.put
    repeat' split
    all_goals simp_all

/-- A page is marked as touched. -/
theorem cleanTarn_setVt (s : State) (a : Nat) (e : VtEntry) (hs : cleanTarn s) (ht : e.t = true) : cleanTarn (s.setVt a e) := by
  have hentry : e ≠ vtDefault (a / 4096) := by
    rintro rfl
    cases ht
  intro i
  by_cases hi : i = stackOf a
  · subst hi
    have hstack : { s.stack (stackOf a) with vt := Bank.put vtDefault (s.stack (stackOf a)).vt (a / 4096) e } ≠ stackDefault (stackOf a) :=
      fun h => Bank.put_ne_nil vtDefault _ _ hentry (congrArg Stack.vt h)
    exact (congrArg Stack.poison (Bank.get_put_of_ne_default _ _ _ hstack)).trans (hs _)
  · exact (congrArg Stack.poison (State.stack_setStack_other s _ i _ hi)).trans (hs i)

theorem cleanTarn_putBytes (s : State) (a : Nat) (l : List Byte) (hs : cleanTarn s) : cleanTarn (s.putBytes a l) :=
  cleanTarn_of_tarns (putBytes_tarns_of_clean s a l hs) hs

theorem cleanTarn_touch (s : State) (a : Nat) (whole : Bool) (hs : cleanTarn s) : cleanTarn (s.touch a whole) := by
  unfold State.touch
  split
  · exact hs
  · dsimp only
    split
    · exact hs
    · refine cleanTarn_setVt _ _ _ ?_ rfl
      split
      · exact hs
      · exact cleanTarn_putBytes s _ _ hs

theorem cleanTarn_storeAux (n : Nat) (s : State) (a : Nat) (l : List Byte) (hs : cleanTarn s) : cleanTarn (State.storeAux n s a l) := by
  induction n generalizing s a l with
  | zero => exact hs
  | succ n ih =>
    unfold State.storeAux
    split
    · exact hs
    · exact ih _ _ _ (cleanTarn_putBytes _ _ _ (cleanTarn_touch _ _ _ hs))

/-- A unit's write with the lines it reads. -/
theorem cleanWrites_strandStore (s : State) (ra : Bool) (req a : Nat) (reads : List Nat) (writes : List (Nat × Nat)) (l : List Byte) :
    cleanWrites s (s.strandIO ra req reads writes (s.store a l)) := by
  intro hs
  rw [State.strandIO_of_clean _ _ _ _ _ _ hs]
  exact ⟨cleanTarn_storeAux _ s a l hs, State.store_step s a l⟩

theorem cleanWrites_raiseShift (s : State) (vec k : Nat) : cleanWrites s (s.raiseShift vec k) :=
  cleanWrites_strandStore s false 0 _ _ _ _

/-- The run-ahead that POLICY starts. -/
def policyRunAhead (p : Program) (a : Attempt) (f : DomFrame) : Attempt :=
  { step := a.step + 1, number := 0, base := fld f 2, lr := none, wide := fld f 3 == 1, rerun := false, skip := false
    layers := openLayers p (fld f 3 == 1) fun l => (((policyRecords f).find? fun r => r.1 == l).map (·.2.1)).getD ⟨.l4, 0, 0⟩ }

/-- The records and shifts of POLICY in the shadow. -/
def State.policyShadow (s : State) (p : Program) (f : DomFrame) : State :=
  let t := (policyRecords f).foldl (fun (t : State) r =>
    t.strandIO false 0 [] [(p.policyBase + 8 * r.1, 8)] (t.store (p.policyBase + 8 * r.1) (polBytes r.2.1))) s
  if s.spillWiden then t else (shiftChannels p (policyXmap f)).foldl (fun t x => t.raiseShift x.1 x.2) t

/-- TRB_NARROW for each layer that narrowed. -/
def State.policyNarrows (s : State) (a : Attempt) (f : DomFrame) : State :=
  ((policyRecords f).filter (·.2.2)).foldl (fun (t : State) r =>
    t.raiseCtx 0x0127 0 7 { ctxOf false a with layer := r.1 } (leBytes 1 (rungCode r.2.1.rung))) s

theorem cleanWrites_policyShadow (s : State) (p : Program) (f : DomFrame) : cleanWrites s (s.policyShadow p f) := by
  have hrecords := cleanWrites_foldl (fun (t : State) (r : Nat × PolicyRec × Bool) =>
    t.strandIO false 0 [] [(p.policyBase + 8 * r.1, 8)] (t.store (p.policyBase + 8 * r.1) (polBytes r.2.1)))
    (fun t r => cleanWrites_strandStore t false 0 _ _ _ _) (policyRecords f) s
  unfold State.policyShadow
  dsimp only
  split
  · exact hrecords
  · exact cleanWrites_trans hrecords (cleanWrites_foldl (fun (t : State) (x : Nat × Nat) => t.raiseShift x.1 x.2)
      (fun t x => cleanWrites_raiseShift t x.1 x.2) _ _)

theorem policyNarrows_step (s : State) (a : Attempt) (f : DomFrame) : (s.policyNarrows a f).step = s.step :=
  eventOnly_step (eventOnly_foldl _ (fun t _ => eventOnly_raiseCtx t _ _ _ _ _ rfl) _ s)

/-- POLICY of the open attempt. -/
theorem onPolicy_of_match {s : State} {p : Program} {a : Attempt} {f : DomFrame} (hp : s.prog = some p) (ha : s.step.att = some a)
    (hmatch : a.step = f.step ∧ a.base = fld f 0) :
    s.onPolicy f =
      let t := ((s.policyShadow p f).policyNarrows a f).setAttempt false { a with policy := true }
      if fld f 1 = 1 then (t.setAttempt true (policyRunAhead p a f)).setBase (fld f 2) else t := by
  unfold State.onPolicy
  rw [hp, ha]
  exact if_pos hmatch

/-- What POLICY makes of the step, on a clean Tarn. -/
theorem onPolicy_step {s : State} {p : Program} {a : Attempt} {f : DomFrame} (hp : s.prog = some p) (ha : s.step.att = some a)
    (hmatch : a.step = f.step ∧ a.base = fld f 0) (hs : cleanTarn s) :
    (s.onPolicy f).step = { s.step with
      att := some { a with policy := true }
      ra := if fld f 1 = 1 then some (policyRunAhead p a f) else s.step.ra } := by
  have hwritten : ((s.policyShadow p f).policyNarrows a f).step = s.step :=
    (policyNarrows_step _ a f).trans (cleanWrites_policyShadow s p f hs).2
  rw [onPolicy_of_match hp ha hmatch, ← hwritten]
  dsimp only
  split
  · rfl
  · rfl

theorem exec_policy_of_waits (s : State) (h : s.hasDown 0x11 = true ∨ (s.hasDown 9 = true ∧ s.policyWaits = true)) :
    exec .policy s = .next s := by
  refine guarded_of_false _ _ ?_
  rcases h with h | ⟨h, hw⟩
  · simp [h]
  · simp [h, hw]

theorem policy_answers {s t : State} {g : Program} {a : Attempt} {f : DomFrame} (habort : s.hasDown 0x11 = false)
    (hwait : s.policyWaits = false) (hrec : s.receives 9 f t) (hsent : s.hasDown 9 = true) (hg : t.prog = some g)
    (ha : t.step.att = some a) (hstep : a.step = f.step) (hbase : a.base = fld f 0) (hclean : cleanTarn s) :
    answers .policy s fun u => u.step.att = some { a with policy := true } ∧
      (fld f 1 ≠ 1 → u.step.ra = s.step.ra) ∧
      (fld f 1 = 1 → ∃ r, u.step.ra = some r ∧ r.step = a.step + 1 ∧ r.base = fld f 2 ∧ r.number = 0 ∧ r.started = [] ∧
        r.wide = (fld f 3 == 1) ∧ r.lr = none) := by
  have hframes := framesOnly_receives hrec
  have hnext : exec .policy s = .next (t.onPolicy f) := by
    refine (guarded_of_true _ _ (by simp [habort, hwait])).trans (congrArg _ ?_)
    rw [tryPolicy_of_sent s hsent, onDown_of_receives _ hrec]
  have hu := onPolicy_step hg ha ⟨hstep, hbase⟩ (cleanTarn_of_tarns (framesOnly_tarns hframes) hclean)
  refine answers_of_eq hnext ⟨by rw [hu], fun h => ?_, fun h => ?_⟩
  · rw [hu, framesOnly_step hframes]
    exact if_neg h
  · refine ⟨policyRunAhead g a f, ?_, rfl, rfl, rfl, rfl, rfl, rfl⟩
    rw [hu]
    exact if_pos h

/-! ## XMAP (R155) -/

theorem xmap_answers {s t : State} {f : DomFrame} {l : List DomFrame} {a : Attempt}
    (htake : s.takeCombined 8 (fun _ => true) = some (f, l, t)) (hw : t.isWellhead = true) (ha : t.step.att = some a)
    (hstep : a.step = f.step) :
    answers .xmap s fun u => u.prog = s.prog ∧ u.step.ra = s.step.ra ∧
      ∃ b, u.step.att = some b ∧ b.started = a.started ∧ b.done = a.done ∧ b.segs = a.segs ∧ (a.base = fld f 0 → b.xmapAll ≠ none) := by
  obtain ⟨hts, htp⟩ := takeCombined_keeps htake
  have hra : t.step.ra = s.step.ra := congrArg StepSeq.ra hts
  have hkey (m : DomFrame) (r : List Nat) : fld { m with payload := encN (fld f 0 :: r) } 0 = fld f 0 :=
    (fld_encN _ (fld f 0 :: r) 0 rfl).trans (Nat.mod_eq_of_lt (fld_lt f 0))
  refine answers_of_eq (congrArg Host.Outcome.next (combined_of_wellhead _ _ htake hw)) ?_
  rw [ha]
  dsimp only
  rw [hkey f]
  split
  · obtain ⟨hkeepStep, hkeepProg⟩ := tryPolicy_keeps (t.setAttempt false { a with xmapAll := some _ })
    rw [hkeepStep, hkeepProg]
    exact ⟨htp, hra, _, rfl, rfl, rfl, rfl, fun _ => nofun⟩
  · rename_i hmatch
    exact ⟨htp, hra, a, ha, rfl, rfl, rfl, fun hb => absurd ⟨hstep, hb⟩ hmatch⟩

/-! ## LVOTE and GATE (R214, R215) -/

/-- This module's vote on a layer. -/
def State.voteFrame (s : State) (a : Attempt) (l : Nat) : DomFrame :=
  s.domFrame 0xB false a.step a.number l (encN [a.base, b2n (!a.vetoes.contains l)])

/-- The state in which a vote is cast and waits for those of the children. -/
def State.castVote (s : State) (a : Attempt) (l : Nat) : State :=
  (s.setAttempt false { a with lvoted := a.lvoted ++ [l] }).addOwn (s.voteFrame a l)

/-- A combined vote is counted at the wellhead. -/
def countVote (f : DomFrame) (t : State) : State :=
  match t.step.att with
  | some a =>
    if a.step = f.step ∧ a.base = fld f 0 then
      (if fld f 1 = t.dom.size then
        ({ t with dom := { t.dom with lvotes := t.dom.lvotes ++ [f.arg] } } : State)
       else { t with dom := { t.dom with lfailed := t.dom.lfailed ++ [f.arg] } }).wellheadVotes
    else t
  | none => t

section
variable {s : State} {g : Program} {a : Attempt} {l : Nat} (hg : s.prog = some g) (ha : s.step.att = some a) (hl : l ∈ g.updateOrder)
variable (hskip : a.skip = false) (hmay : a.mayVote g l = true) (hdone : s.updatesDone g a l = true)
include hg ha hl hskip hmay hdone

/-- A vote that is due is cast, and what is complete is combined. -/
theorem exec_lvote_of_due : exec (.lvote l) s = .next ((s.castVote a l).combined 0xB sumFields countVote) := by
  show execLvote l s = _
  unfold execLvote
  rw [hg, ha]
  dsimp only
  rw [if_pos (by simp [hl, hskip, hmay, hdone])]
  rfl

end

theorem castVote_own (s : State) (a : Attempt) (l : Nat) (h : s.dom.own = []) : (s.castVote a l).dom.own = [s.voteFrame a l] := by
  show s.dom.own ++ [s.voteFrame a l] = _
  rw [h, List.nil_append]

theorem castVote_children (s : State) (a : Attempt) (l : Nat) : (s.castVote a l).children = s.children := rfl

theorem childFrames_of_empty_inbox (s : State) (f : DomFrame) (l : List Nat) (h : s.fab.inbox = []) (hl : l ≠ []) :
    s.childFrames f l = none := by
  cases l with
  | nil => exact absurd rfl hl
  | cons r t =>
    have hnone : s.childFrame r f = none := by simp [State.childFrame, h]
    rw [State.childFrames, hnone]

/-- With children to wait for and nothing in, the vote waits. -/
theorem castVote_incomplete (s : State) (a : Attempt) (l : Nat) (hown : s.dom.own = []) (hinbox : s.fab.inbox = [])
    (hch : s.children ≠ []) : (s.castVote a l).takeCombined 0xB (fun _ => true) = none := by
  have hframes : (s.castVote a l).childFrames (s.voteFrame a l) s.children = none :=
    childFrames_of_empty_inbox _ _ _ hinbox hch
  rw [State.takeCombined, castVote_own s a l hown, castVote_children, List.findSome?_cons, hframes]
  rfl

/-- Without children it is complete at once. -/
theorem castVote_complete (s : State) (a : Attempt) (l : Nat) (hown : s.dom.own = []) (hch : s.children = []) :
    (s.castVote a l).takeCombined 0xB (fun _ => true) =
      some (s.voteFrame a l, [], (s.castVote a l).dropKey (s.voteFrame a l)) := by
  rw [State.takeCombined, castVote_own s a l hown, castVote_children, hch, List.findSome?_cons]
  rfl

/-- From `s` to `t` messages were sent and the attempt and the votes that are in stayed. -/
def votesStay (s t : State) : Prop := t.step.att = s.step.att ∧ t.dom.lvotes = s.dom.lvotes

theorem votesStay_sendDown (s : State) (f : DomFrame) : votesStay s (s.sendDown f) := by
  rw [votesStay, State.sendDown_step, State.sendDown_dom]
  exact ⟨rfl, rfl⟩

theorem votesStay_trans {s t u : State} (h : votesStay s t) (k : votesStay t u) : votesStay s u :=
  ⟨k.1.trans h.1, k.2.trans h.2⟩

theorem votesStay_issueGates (p : Program) (a : Attempt) (stop : Nat) (ls : List Nat) (i : Nat) (s : State) :
    votesStay s (State.issueGates p a stop ls i s) := by
  induction ls generalizing i s with
  | nil => exact ⟨rfl, rfl⟩
  | cons l r ih =>
    unfold State.issueGates
    split
    · have hgate : votesStay s (if gated p l && !s.gateIssued a l then
          s.sendDown (s.domFrame 0xC true a.step a.number l (encN [a.base])) else s) := by
        split
        · exact votesStay_sendDown s _
        · exact ⟨rfl, rfl⟩
      dsimp only
      split
      · exact votesStay_trans hgate (ih _ _)
      · exact hgate
    · exact ⟨rfl, rfl⟩

theorem votesStay_sendAbort (s : State) (c : Cause) (halt : Bool) : votesStay s (s.sendAbort c halt) := by
  unfold State.sendAbort
  dsimp only
  refine votesStay_trans ?_ (votesStay_sendDown _ _)
  split
  · exact ⟨rfl, rfl⟩
  · exact ⟨rfl, rfl⟩

/-- What the wellhead decides after a vote. -/
theorem votesStay_wellheadVotes (s : State) : votesStay s s.wellheadVotes := by
  unfold State.wellheadVotes
  split
  · rename_i p a _ _
    split
    · split
      · exact votesStay_issueGates p a _ _ _ s
      · dsimp only
        split
        · exact votesStay_trans (votesStay_issueGates p a _ _ _ s) (votesStay_sendAbort _ _ _)
        · exact votesStay_issueGates p a _ _ _ s
    · exact ⟨rfl, rfl⟩
  · exact ⟨rfl, rfl⟩

theorem countVote_of_match {f : DomFrame} {t : State} {a : Attempt} (ha : t.step.att = some a)
    (hmatch : a.step = f.step ∧ a.base = fld f 0) (hall : fld f 1 = t.dom.size) :
    (countVote f t).dom.lvotes = t.dom.lvotes ++ [f.arg] ∧ (countVote f t).step.att = some a := by
  obtain ⟨hatt, hvotes⟩ := votesStay_wellheadVotes { t with dom := { t.dom with lvotes := t.dom.lvotes ++ [f.arg] } }
  unfold countVote
  rw [ha]
  dsimp only
  rw [if_pos hmatch, if_pos hall]
  exact ⟨hvotes, hatt.trans ha⟩

/-- A vote that nobody else's joins is counted. -/
def State.countOwnVote (s : State) (a : Attempt) (l : Nat) : State :=
  countVote { s.voteFrame a l with payload := sumFields (s.voteFrame a l) [] } ((s.castVote a l).dropKey (s.voteFrame a l))

theorem voteFrame_sum (s : State) {a : Attempt} {l : Nat} (hveto : a.vetoes.contains l = false) (hbase : a.base < 2 ^ 64) :
    sumFields (s.voteFrame a l) [] = encN [a.base, 1] := by
  have hpay : (s.voteFrame a l).payload = encN [a.base, 1] := by
    show encN [a.base, b2n (!a.vetoes.contains l)] = _
    rw [hveto]
    rfl
  rw [sumFields_pair _ a.base 1 hpay, Nat.mod_eq_of_lt hbase]
  rfl

theorem State.dropKey_dom (s : State) (f : DomFrame) : (s.dropKey f).dom = { s.dom with own := s.dom.own.erase f } :=
  State.keepFrames_dom _ _

/-- The only module of a domain has voted. -/
theorem countOwnVote_keeps {s : State} {a : Attempt} {l : Nat} (hsize : s.dom.size = 1) (hveto : a.vetoes.contains l = false)
    (hbase : a.base < 2 ^ 64) :
    (s.countOwnVote a l).dom.lvotes = s.dom.lvotes ++ [l] ∧
      (s.countOwnVote a l).step.att = some { a with lvoted := a.lvoted ++ [l] } := by
  have hfield (i : Nat) : fld { s.voteFrame a l with payload := sumFields (s.voteFrame a l) [] } i = [a.base, 1].getD i 0 % 2 ^ 64 :=
    fld_encN _ _ i (voteFrame_sum s hveto hbase)
  have hatt : ((s.castVote a l).dropKey (s.voteFrame a l)).step.att = some { a with lvoted := a.lvoted ++ [l] } := by
    rw [State.dropKey_step]
    rfl
  have hall : fld { s.voteFrame a l with payload := sumFields (s.voteFrame a l) [] } 1 =
      ((s.castVote a l).dropKey (s.voteFrame a l)).dom.size := by
    rw [hfield, State.dropKey_dom]
    exact hsize.symm
  obtain ⟨hvotes, hkept⟩ := countVote_of_match hatt ⟨rfl, (Nat.mod_eq_of_lt hbase).symm.trans (hfield 0).symm⟩ hall
  have hbefore : ((s.castVote a l).dropKey (s.voteFrame a l)).dom.lvotes = s.dom.lvotes := by
    rw [State.dropKey_dom]
    rfl
  unfold State.countOwnVote
  rw [hvotes, hkept, hbefore]
  exact ⟨rfl, rfl⟩

theorem lvote_answers_alone {s : State} {g : Program} {a : Attempt} {l : Nat} (hg : s.prog = some g) (ha : s.step.att = some a)
    (hl : l ∈ g.updateOrder) (hskip : a.skip = false) (hmay : a.mayVote g l = true) (hdone : s.updatesDone g a l = true)
    (hown : s.dom.own = []) (hwell : s.isWellhead = true) (hch : s.children = []) (hsize : s.dom.size = 1)
    (hveto : a.vetoes.contains l = false) (hbase : a.base < 2 ^ 64) :
    answers (.lvote l) s fun u => u.dom.lvotes = s.dom.lvotes ++ [l] ∧ u.step.att = some { a with lvoted := a.lvoted ++ [l] } := by
  have hwell' : ((s.castVote a l).dropKey (s.voteFrame a l)).isWellhead = true := by
    rw [State.isWellhead, State.dropKey_dom]
    exact hwell
  have hnext : exec (.lvote l) s = .next (s.countOwnVote a l) :=
    (exec_lvote_of_due hg ha hl hskip hmay hdone).trans
      (congrArg _ (combined_of_wellhead sumFields countVote (castVote_complete s a l hown hch) hwell'))
  exact answers_of_eq hnext (countOwnVote_keeps hsize hveto hbase)

theorem issueGates_of_shut (g : Program) (a : Attempt) (l stop i : Nat) (r : List Nat) {s : State} (hissued : s.gateIssued a l = true)
    (hshut : s.layerClear g l = false) : State.issueGates g a stop (l :: r) i s = s := by
  rw [State.issueGates, hissued, hshut]
  split
  · simp
  · rfl

theorem exec_gate_of_receives {s t : State} {f : DomFrame} {a : Attempt} (hrec : s.receives 0xC f t) (ha : t.step.att = some a)
    (hstep : a.step = f.step) (hbase : a.base = fld f 0) :
    exec .gate s = .next { t with step := { t.step with att := some { a with gates := a.gates ++ [f.arg] }
                                                        lastGate := some f.arg } } := by
  show execGate s = _
  rw [execGate, onDown_of_receives _ hrec]
  dsimp only
  rw [ha]
  dsimp only
  rw [if_pos ⟨hstep, hbase⟩]
  rfl

/-! ## A host's ABORT (R381) -/

theorem sendAbort_keeps (s : State) (c : Cause) : (s.sendAbort c true).hasDown 0x11 = true ∧
    (s.sendAbort c true).step = { s.step with mismatchedAt := if c.mismatch then some c.step else none } ∧
    (s.sendAbort c true).prog = s.prog := by
  unfold State.sendAbort
  dsimp only
  rw [if_pos rfl, State.sendDown_step, State.sendDown_prog]
  exact ⟨hasDown_sendDown _ _ rfl, rfl, rfl⟩

theorem veto_answers_hostAbort {s : State} (hwait : s.hostAbortWaits = true) (hcom : s.step.committing = false)
    (hcommit : s.hasDown 0xF = false) (habort : s.hasDown 0x11 = false) (hopen : s.hasDown 4 = false) :
    answers .veto s fun u => u.hasDown 0x11 = true ∧ u.step = { s.step with mismatchedAt := none } ∧ u.prog = s.prog := by
  have hnext : exec .veto s = .next (s.sendAbort ⟨0x15, 0xFFFF, .outside, s.stepNum, true⟩ true) := by
    show execVeto s = _
    unfold execVeto
    exact if_pos (by simp [hwait, hcom, hcommit, habort, hopen])
  exact answers_of_eq hnext (sendAbort_keeps s _)

theorem exec_veto_of_idle (s : State) (hwait : s.hostAbortWaits = false) (hcauses : s.step.causes = []) (hmember : s.isWellhead = false) :
    exec .veto s = .next s := by
  show execVeto s = _
  unfold execVeto
  rw [hwait, hcauses, hmember]
  simp

end Sys2Proof.Machine
end

section
/-! PROOFS. What the abort of an attempt leaves: logging, replies and frames keep the step, the pages and the registers that an abort
counts in or reads; the discard resets the mark of every shadow page. -/
namespace Sys2Proof.Machine

/-! ## Work that goes on beside the step -/

/-- The registers that an abort counts in or reads: STEP_ABORTS, and those at the offsets of a checkpoint area's. -/
def keptReg (a : Nat) : Bool := a == regAddr .step 0 0x54 || [0x60, 0x6C, 0x70, 0x74].contains (a % 0x1000)

theorem keptReg_of_offset (b : Block) (i o : Nat) (ho : o < 0x1000) (h : o ∉ [0x54, 0x60, 0x6C, 0x70, 0x74]) :
    keptReg (regAddr b i o) = false := by
  have hmod := pageBase_mod b i o ho
  have hne : regAddr b i o ≠ regAddr .step 0 0x54 := fun he =>
    h (by rw [← hmod, he, pageBase_mod .step 0 0x54 (by decide)]; decide)
  have hnot : [0x60, 0x6C, 0x70, 0x74].contains o = false := by simpa using fun hm => h (List.mem_cons_of_mem _ hm)
  rw [keptReg, hmod, beq_eq_false_iff_ne.2 hne, hnot]
  rfl

theorem keptReg_trn (i o : Nat) (h : o ∈ [0x60, 0x6C, 0x70, 0x74]) : keptReg (regAddr .trn i o) = true := by
  have ho : o < 0x1000 := by
    simp only [List.mem_cons, List.not_mem_nil, or_false] at h
    omega
  rw [keptReg, pageBase_mod .trn i o ho, List.contains_iff_mem.2 h, Bool.or_true]

/-- From `s` to `t` the module logged, replied or sent, or dropped work: no flag is cleared, and the kept registers, the version tables and
the step are as before. -/
structure Aside (s t : State) : Prop where
  flags : flagsGrow s t
  regs : ∀ a, keptReg a = true → t.regAt a = s.regAt a
  pages : Bank.wf stackDefault s.tarns = true → Bank.wf stackDefault t.tarns = true ∧ ∀ i, (t.stack i).vt = (s.stack i).vt
  step : t.step = s.step

theorem Aside.of_fields {s t : State} (hregs : t.regs = s.regs) (htarns : t.tarns = s.tarns) (hstep : t.step = s.step) : Aside s t where
  flags := flagsGrow_of_regs hregs
  regs a _ := by rw [State.regAt, hregs, State.regAt]
  pages hw := ⟨htarns ▸ hw, fun i => by rw [State.stack, htarns, State.stack]⟩
  step := hstep

theorem Aside.refl (s : State) : Aside s s := .of_fields rfl rfl rfl

theorem Aside.dom (s : State) (d : Domain) : Aside s { s with dom := d } := .of_fields rfl rfl rfl

theorem Aside.trans {s t u : State} (h : Aside s t) (k : Aside t u) : Aside s u where
  flags := flagsGrow_trans h.flags k.flags
  regs a ha := (k.regs a ha).trans (h.regs a ha)
  pages hw := ⟨(k.pages (h.pages hw).1).1, fun i => ((k.pages (h.pages hw).1).2 i).trans ((h.pages hw).2 i)⟩
  step := k.step.trans h.step

theorem Aside.foldl {α : Type} {f : State → α → State} (h : ∀ t x, Aside t (f t x)) (l : List α) (s : State) : Aside s (l.foldl f s) := by
  induction l generalizing s with
  | nil => exact .refl s
  | cons x r ih => exact (h s x).trans (ih _)

theorem Aside.setReg (s : State) (b : Block) (i o : Nat) (v : Word) (ho : o < 0x1000) (h4 : o ≠ 4)
    (hk : keptReg (regAddr b i o) = false) : Aside s (s.setReg b i o v) where
  flags := flagsGrow_setReg_apart s b i o v ho h4
  regs a ha := State.regAt_setReg_other s b i o a v (by rintro rfl; rw [hk] at ha; cases ha)
  pages hw := ⟨hw, fun _ => rfl⟩
  step := rfl

theorem Aside.of_frames {s t : State} (h : framesOnly s t) : Aside s t where
  flags hw := ⟨h.2.2 hw, fun a n ha hb => by rwa [h.2.1 a (by omega)]⟩
  regs a ha := h.2.1 a (by
    intro h30
    rw [keptReg, h30] at ha
    have hne : a ≠ regAddr .step 0 0x54 := by
      rintro rfl
      exact absurd h30 (by decide)
    simp [hne] at ha)
  pages hw := ⟨framesOnly_tarns h ▸ hw, fun i => by rw [State.stack, framesOnly_tarns h, State.stack]⟩
  step := framesOnly_step h

/-- A base is overwritten by one with the same version table. -/
theorem Aside.setStack (s : State) (i : Nat) (x : Stack) (hx : x.vt = (s.stack i).vt) : Aside s (s.setStack i x) where
  flags := flagsGrow_setStack s i x
  regs _ _ := rfl
  pages hw := ⟨Bank.put_wf _ _ _ _ hw, fun j => State.stack_setStack_keeps (·.vt) s i j x hw hx⟩
  step := rfl

theorem Aside.putBytes (s : State) (a : Nat) (l : List Byte) : Aside s (s.putBytes a l) where
  flags := flagsGrow_putBytes s a l
  regs b _ := by rw [State.regAt, State.putBytes_regs, State.regAt]
  pages hw := ⟨State.putBytes_stacks_wf s a l hw, fun i => State.putBytes_stack_keeps (·.vt) s a l i hw fun _ _ => rfl⟩
  step := State.putBytes_step s a l

/-- The state with another record of the step. -/
def State.withStep (s : State) (x : StepSeq) : State := { s with step := x }

/-- Nothing that goes on beside the step reads it. -/
theorem Aside.withStep {s t : State} (h : Aside s t) (x : StepSeq) : Aside (s.withStep x) (t.withStep x) :=
  ⟨h.flags, h.regs, h.pages, rfl⟩

/-! ## The log -/

theorem Aside.raiseFlag (s : State) (b : Block) (i n : Nat) (h : n < 8) : Aside s (s.raiseFlag b i n) where
  flags := flagsGrow_raiseFlag s b i n h
  regs a ha := by
    have hev : evReg b = 4 ∨ evReg b = 8 := by cases b <;> simp [evReg]
    have hflag : keptReg (regAddr b i (evReg b)) = false := keptReg_of_offset b i _ (evReg_lt_page b) (by
      rcases hev with h | h <;> rw [h] <;> decide)
    have hcount : keptReg (regAddr b i (cntReg b n)) = false := keptReg_of_offset b i _ (cntReg_apart b n h).1 (by
      have hc : cntReg b n = 8 ∨ cntReg b n = 12 ∨ cntReg b n = 16 := by
        unfold cntReg
        omega
      rcases hc with h | h | h <;> rw [h] <;> decide)
    have apart {k : Nat} (hk : keptReg k = false) : a ≠ k := by
      rintro rfl
      rw [hk] at ha
      cases ha
    exact (State.regAt_setReg_other _ b i _ a _ (apart hcount)).trans (State.regAt_setReg_other s b i _ a _ (apart hflag))
  pages hw := ⟨hw, fun _ => rfl⟩
  step := rfl

theorem Aside.flagEvent (s : State) (code inst : Nat) : Aside s (s.flagEvent code inst) := by
  unfold State.flagEvent
  split
  · rename_i b n h
    exact .raiseFlag s b inst n (evFlag_bit code b n h)
  · exact .refl s

theorem Aside.log (s : State) (l : Log) : Aside s { s with log := l } := .of_fields rfl rfl rfl

theorem Aside.logDrop (s : State) : Aside s s.logDrop :=
  (Aside.setReg s .policy 0 0x54 _ (by decide) (by decide) (by decide)).trans (.log _ _)

theorem Aside.logWrite (s : State) (r : EventRec) (lost : Bool) : Aside s (s.logWrite r lost) :=
  ((Aside.putBytes s s.logPlace _).trans (.setReg _ .policy 0 0x4C _ (by decide) (by decide) (by decide))).trans (.log _ _)

/-- The registers of a base's errors. -/
theorem Aside.setTrnError (s : State) (i o : Nat) (v : Word) (h : o ∈ [0x30, 0x34, 0x38, 0x94]) : Aside s (s.setReg .trn i o v) := by
  simp only [List.mem_cons, List.not_mem_nil, or_false] at h
  refine .setReg s .trn i o v (by omega) (by omega) (keptReg_of_offset .trn i o (by omega) ?_)
  simp only [List.mem_cons, List.not_mem_nil, or_false]
  omega

theorem Aside.keepTrnError (s : State) (i l syms cls req : Nat) (ue addr : Bool) : Aside s (s.keepTrnError i l syms cls req ue addr) := by
  unfold State.keepTrnError
  dsimp only
  split
  · exact .refl s
  · exact (((Aside.setStack s i { s.stack i with ueHeld := ue } rfl).trans (.setTrnError _ i 0x30 _ (by decide))).trans
      (.setTrnError _ i 0x34 _ (by decide))).trans (.setTrnError _ i 0x38 _ (by decide))

theorem Aside.unpoison (s : State) (i : Nat) (ls : List Nat) : Aside s (s.unpoison i ls) :=
  .setStack s i { s.stack i with poison := (s.stack i).poison.filter fun l => !ls.contains l } rfl

/-- An uncorrectable line that the log writer meets: its flag, its count and its address. -/
theorem Aside.trnUE (s : State) (i l : Nat) :
    Aside s (((s.flagEvent 0x0302 i).bump .trn i 0x94 1).keepTrnError i l 0 11 9 true false) :=
  ((Aside.flagEvent s 0x0302 i).trans (.setTrnError _ i 0x94 _ (by decide))).trans (.keepTrnError _ i l 0 11 9 true false)

theorem Aside.logPut (s : State) (r : EventRec) : Aside s (s.logPut r) := by
  unfold State.logPut
  dsimp only
  split
  · split
    · exact .logWrite s r false
    · rename_i l ls _
      have zeroed : Aside s ((l :: ls).foldl (fun t x => t.putBytes (64 * x) (List.replicate 64 0)) s) :=
        .foldl (fun t x => .putBytes t (64 * x) _) _ s
      have marked (t : State) : Aside t ((l :: ls).foldl (fun (t : State) x =>
          ((t.flagEvent 0x0302 (stackOf s.logPlace)).bump .trn (stackOf s.logPlace) 0x94 1).keepTrnError
            (stackOf s.logPlace) x 0 11 9 true false) t) :=
        .foldl (fun t x => .trnUE t (stackOf s.logPlace) x) _ t
      refine ((zeroed.trans ((Aside.unpoison _ (stackOf s.logPlace) (l :: ls)).trans (marked _))).trans (.logWrite _ r true)).trans
        (.foldl (fun t x => ?_) _ _)
      split
      · exact .logWrite _ _ false
      · exact .logDrop _
  · have h := (Aside.flagEvent s 0x0305 (stackOf s.logPlace % 8)).trans (.logDrop _)
    split
    · exact h.trans (.log _ _)
    · exact h.trans (.logDrop _)

theorem Aside.logRecord (s : State) (r : EventRec) : Aside s (s.logRecord r) :=
  logRecord_cases s r (Aside.log s) (Aside.logPut s r) (Aside.logDrop s)

/-- An event that no run-ahead strand raises. -/
theorem Aside.raiseCtx (s : State) (code inst unit : Nat) (c : EvCtx) (d : List Byte) (h : c.ra = false) :
    Aside s (s.raiseCtx code inst unit c d) := by
  unfold State.raiseCtx
  split
  · rw [h]
    exact (Aside.flagEvent s code inst).trans (.logRecord _ _)
  · split
    · exact .flagEvent s code inst
    · exact .refl s

theorem Aside.raiseLimited (s : State) (code inst key : Nat) (d : Nat → List Byte) : Aside s (s.raiseLimited code inst key d) := by
  unfold State.raiseLimited
  dsimp only
  split
  · refine Aside.trans (t := if s.mainOn then s.flagEvent code inst else s) ?_ (.log _ _)
    split
    · exact .flagEvent s code inst
    · exact .refl s
  · exact (Aside.raiseCtx s code inst _ {} _ rfl).trans (.log _ _)

/-! ## Replies -/

theorem Aside.setQueue (s : State) (i : Nat) (q : Queue) : Aside s (s.setQueue i q) := .of_fields rfl rfl rfl

theorem Aside.txHost (s : State) (x : Sent) : Aside s (s.txHost x) :=
  (Aside.setReg s .host 0 0xA4 _ (by decide) (by decide) (by decide)).trans (.of_fields rfl rfl rfl)

theorem Aside.egressDrop (s : State) (why : Nat) : Aside s (s.egressDrop why) :=
  (Aside.setReg s .host 0 0xB4 _ (by decide) (by decide) (by decide)).trans (.raiseLimited _ _ _ _ _)

theorem Aside.sendReply (s : State) (port : CmdPort) (via : Mac × Ip) (dest : Sender) (data : List Byte) :
    Aside s (s.sendReply port via dest data) := by
  unfold State.sendReply
  split
  · exact .of_fields rfl rfl rfl
  · split
    · exact .refl s
    · split
      · exact .txHost s _
      · exact .egressDrop s 0

theorem Aside.reply (s : State) (i : Nat) (p : Packet) (code detail : Nat) (payload : List Byte) (via : Mac × Ip) :
    Aside s (s.reply i p code detail payload via) :=
  (Aside.setQueue s i _).trans (.sendReply _ _ _ _ _)

theorem Aside.drainUnknown (i n : Nat) (s : State) : Aside s (State.drainUnknown i n s) := by
  induction n generalizing s with
  | zero => exact .refl s
  | succ n ih =>
    unfold State.drainUnknown
    dsimp only
    split
    · split
      · exact .refl s
      · exact ((Aside.setQueue s i _).trans (.reply _ i _ _ _ _ _)).trans (ih _)
    · exact .refl s

theorem Aside.finishIssued (s : State) (i : Nat) (p : Packet) (code detail : Nat) (payload : List Byte) :
    Aside s (s.finishIssued i p code detail payload) := by
  unfold State.finishIssued
  split
  · exact (Aside.setQueue s i _).trans (.reply _ i p _ _ _ _)
  · exact .refl s

theorem Aside.finishBusy (s : State) (i op code detail : Nat) (payload : List Byte) : Aside s (s.finishBusy i op code detail payload) := by
  unfold State.finishBusy
  split
  · split
    · exact ((Aside.setQueue s i _).trans (.reply _ i _ _ _ _ _)).trans (.drainUnknown i _ _)
    · exact .refl s
  · exact .refl s

theorem Aside.finishEach (s : State) (op code detail : Nat) (payload : List Byte) : Aside s (s.finishEach op code detail payload) :=
  .foldl (fun t i => .finishBusy t i op code detail payload) _ s

theorem Aside.haltSettled (s : State) : Aside s s.haltSettled := by
  unfold State.haltSettled
  split
  · exact .finishEach s _ _ _ _
  · exact .refl s

/-! ## The work of an attempt is dropped -/

theorem Aside.releaseAll (s : State) (ra : Bool) : Aside s (s.releaseAll ra) := .of_fields rfl rfl rfl

theorem Aside.clearUnits (s : State) (all : Bool) : Aside s (s.clearUnits all) := .of_fields rfl rfl rfl

theorem Aside.setEngine (s : State) (d : Nat) (e : Engine) : Aside s (s.setEngine d e) := .of_fields rfl rfl rfl

theorem Aside.cancelColls (s : State) (p : Coll → Bool) : Aside s (s.cancelColls p) := by
  unfold State.cancelColls
  refine .foldl (fun t d => ?_) _ s
  dsimp only
  refine (Aside.setEngine t d _).trans (.foldl (fun u c => ?_) _ _)
  split
  · exact .finishIssued u _ _ _ _ _
  · exact .refl u

theorem Aside.keepFrames (s : State) (keep : RxFrame → Bool) : Aside s (s.keepFrames keep) :=
  .of_frames (framesOnly_trans (framesOnly_fab s { s.fab with inbox := s.fab.inbox.filter keep } s.out)
    (framesOnly_foldl _ framesOnly_xonCheck _ _))

theorem Aside.purgeDom (s : State) (step base : Nat) : Aside s (s.purgeDom step base) := by
  unfold State.purgeDom
  refine Aside.trans ?_ (.keepFrames _ _)
  exact .of_fields rfl rfl rfl

theorem Aside.dropEarly (s : State) (base : Nat) : Aside s (s.dropEarly base) :=
  .foldl (fun t d => .setEngine t d _) _ s

theorem Aside.scratchUndef (s : State) : Aside s s.scratchUndef :=
  .foldl (fun t _ => .of_fields (State.makeUndef_regs t _ _) (State.makeUndef_tarns t _ _) (State.makeUndef_step t _ _)) _ s

theorem Aside.tellTwin (s : State) (code n attempt cause : Nat) : Aside s (s.tellTwin code n attempt cause) := by
  unfold State.tellTwin State.sendTwin
  split
  · split
    · exact .of_frames (framesOnly_linkSend s _ _)
    · exact .refl s
  · exact .refl s

theorem squash_of_none (s : State) (h : s.step.ra = none) : s.squash = s := by
  rw [State.squash, h]

/-- Of the step a squash takes the run-ahead away. -/
theorem Aside.squash (s : State) : Aside (s.withStep { s.step with ra := none }) s.squash := by
  cases hra : s.step.ra with
  | none =>
    rw [squash_of_none s hra, ← hra]
    exact .refl s
  | some a =>
    rw [State.squash, hra]
    dsimp only
    refine .trans ?_ (.raiseCtx _ _ _ _ _ _ rfl)
    refine .trans ?_ (.setReg _ .step 0 0x58 _ (by decide) (by decide) (by decide))
    refine .trans (.trans ?_ (.foldl (fun t x => .logRecord t x) _ _)) (.dom _ _)
    exact (((Aside.releaseAll _ true).trans (.clearUnits _ false)).trans (.cancelColls _ _)).trans
      ((Aside.purgeDom _ _ _).trans (.dropEarly _ _))

/-! ## DISCARD on all bases (R278) -/

/-- The version table of base `i` once the marks of the program's shadow pages are taken away. -/
def State.discardedVt (s : State) (i : Nat) : Bank VtEntry :=
  Bank.mapK vtDefault (fun j e => if s.areaPage i j then e else { e with t := false }) (s.stack i).vt

theorem areaPage_congr {s t : State} (h : ∀ a, keptReg a = true → t.regAt a = s.regAt a) (i j : Nat) : t.areaPage i j = s.areaPage i j := by
  have hreg (o : Nat) (ho : o ∈ [0x60, 0x6C, 0x70, 0x74]) : t.reg .trn i o = s.reg .trn i o := h _ (keptReg_trn i o ho)
  have harea : t.ckptArea i = s.ckptArea i := by
    unfold State.ckptArea State.field
    rw [hreg 0x60 (by decide), hreg 0x6C (by decide), hreg 0x70 (by decide), hreg 0x74 (by decide)]
  rw [State.areaPage, harea, State.areaPage]

theorem discardedVt_congr {s t : State} {i : Nat} (h : ∀ a, keptReg a = true → t.regAt a = s.regAt a)
    (hv : (t.stack i).vt = (s.stack i).vt) : t.discardedVt i = s.discardedVt i := by
  have harea : (fun j (e : VtEntry) => if t.areaPage i j then e else { e with t := false }) =
      fun j e => if s.areaPage i j then e else { e with t := false } := by
    funext j e
    rw [areaPage_congr h]
  rw [State.discardedVt, hv, harea, State.discardedVt]

/-- DISCARD on one base. -/
def State.discardBase (s : State) (i : Nat) : State := s.mapProgPages i fun e => { e with t := false }

theorem discardBase_same (s : State) (i : Nat) (hw : Bank.wf stackDefault s.tarns = true) :
    ((s.discardBase i).stack i).vt = s.discardedVt i :=
  congrArg Stack.vt (State.stack_setStack_same s i { s.stack i with vt := s.discardedVt i } hw)

theorem discardBase_other (s : State) (i j : Nat) (h : j ≠ i) : (s.discardBase i).stack j = s.stack j :=
  State.stack_setStack_other s i j _ h

/-- Each base on a list without repetition is discarded once. -/
theorem foldl_discardBase (l : List Nat) (s : State) (hl : l.Nodup) (hw : Bank.wf stackDefault s.tarns = true) :
    Bank.wf stackDefault (l.foldl State.discardBase s).tarns = true ∧
      ∀ i, ((l.foldl State.discardBase s).stack i).vt = if i ∈ l then s.discardedVt i else (s.stack i).vt := by
  induction l generalizing s with
  | nil => exact ⟨hw, fun i => rfl⟩
  | cons k l ih =>
    obtain ⟨hk, hl⟩ := List.nodup_cons.1 hl
    obtain ⟨hwf, hvt⟩ := ih (s.discardBase k) hl (Bank.put_wf _ _ _ _ hw)
    refine ⟨hwf, fun i => (hvt i).trans ?_⟩
    by_cases hi : i = k
    · subst hi
      rw [if_neg hk, if_pos List.mem_cons_self, discardBase_same s i hw]
    · have hstack := congrArg Stack.vt (discardBase_other s k i hi)
      rw [hstack, discardedVt_congr (s := s) (t := s.discardBase k) (fun _ _ => rfl) hstack]
      simp only [List.mem_cons, hi, false_or]

/-- From `s` to `t` the shadow pages were discarded, and otherwise the module logged, replied, sent or dropped work. -/
structure Discards (s t : State) : Prop where
  flags : flagsGrow s t
  regs : ∀ a, keptReg a = true → t.regAt a = s.regAt a
  pages : Bank.wf stackDefault s.tarns = true → Bank.wf stackDefault t.tarns = true ∧ ∀ i < 8, (t.stack i).vt = s.discardedVt i
  step : t.step = s.step

theorem discards_discardAll (s : State) : Discards s s.discardAll where
  flags := flagsGrow_of_regs (State.foldl_regs _ _ _ fun _ _ => rfl)
  regs a _ := congrArg (Bank.get regReset · a) (State.foldl_regs _ _ _ fun _ _ => rfl)
  pages hw := by
    obtain ⟨hwf, hvt⟩ := foldl_discardBase (List.range 8) s List.nodup_range hw
    exact ⟨hwf, fun i hi => (hvt i).trans (if_pos (List.mem_range.2 hi))⟩
  step := State.foldl_step _ _ _ fun _ _ => rfl

theorem Discards.of_aside {s t u : State} (h : Aside s t) (k : Discards t u) : Discards s u where
  flags := flagsGrow_trans h.flags k.flags
  regs a ha := (k.regs a ha).trans (h.regs a ha)
  pages hw := by
    obtain ⟨ht, hvt⟩ := h.pages hw
    obtain ⟨hu, hdisc⟩ := k.pages ht
    exact ⟨hu, fun i hi => (hdisc i hi).trans (discardedVt_congr h.regs (hvt i))⟩
  step := k.step.trans h.step

theorem Discards.then_aside {s t u : State} (h : Discards s t) (k : Aside t u) : Discards s u where
  flags := flagsGrow_trans h.flags k.flags
  regs a ha := (k.regs a ha).trans (h.regs a ha)
  pages hw := by
    obtain ⟨ht, hdisc⟩ := h.pages hw
    obtain ⟨hu, hvt⟩ := k.pages ht
    exact ⟨hu, fun i hi => (hvt i).trans (hdisc i hi)⟩
  step := k.step.trans h.step

theorem Discards.withStep {s t : State} (h : Discards s t) (x : StepSeq) : Discards (s.withStep x) (t.withStep x) :=
  ⟨h.flags, h.regs, h.pages, rfl⟩

/-! ## The abort of an attempt (R220, R222) -/

/-- The step when an attempt is dropped. -/
def StepSeq.dropped (x : StepSeq) : StepSeq := { x with ra := none, att := none, causes := [] }

/-- The work of an attempt is dropped, its run-ahead and its pages with it. -/
def State.dropWork (s : State) (a : Attempt) : State :=
  (((((s.squash.discardAll.scratchUndef.releaseAll false).clearUnits true).cancelColls fun _ => true).purgeDom a.step a.base).dropEarly
    a.base)

theorem discards_dropWork (s : State) (a : Attempt) : Discards (s.withStep { s.step with ra := none }) (s.dropWork a) := by
  refine ((Discards.of_aside (.squash s) (discards_discardAll _)).then_aside (.scratchUndef _)).then_aside ?_
  exact (((Aside.releaseAll _ false).trans (.clearUnits _ true)).trans (.cancelColls _ _)).trans
    ((Aside.purgeDom _ _ _).trans (.dropEarly _ _))

theorem dropAttempt_eq (s : State) (a : Attempt) :
    s.dropAttempt a =
      let t := s.dropWork a
      { t with
        step := { t.step with att := none, causes := [] }
        dom := { t.dom with held := [], finiteClear := false, lvotes := [], lfailed := [], ratios := [] }
        inl := t.inl.fresh } := rfl

/-- Of the step, the run-ahead, the attempt and its causes go. -/
theorem discards_dropAttempt (s : State) (a : Attempt) :
    Discards (s.withStep s.step.dropped) (s.dropAttempt a) := by
  have hwork := discards_dropWork s a
  rw [dropAttempt_eq]
  refine (hwork.withStep _).then_aside (.of_fields rfl rfl ?_)
  exact congrArg (fun x : StepSeq => { x with att := none, causes := [] }) hwork.step

/-- What the abort of `s` leaves in `u`, apart from the step: its count, its flag and the version tables. -/
structure Aborted (s u : State) : Prop where
  count : u.reg .step 0 0x54 = s.reg .step 0 0x54 + 1
  flag : s.mainOn = true → flagSet u .step 0 5
  pages : ∀ i < 8, (u.stack i).vt = s.discardedVt i
  regsWf : Bank.wf regReset u.regs = true
  tarnsWf : Bank.wf stackDefault u.tarns = true

theorem Aborted.withStep {s u : State} (h : Aborted s u) (x : StepSeq) : Aborted s (u.withStep x) :=
  ⟨h.count, h.flag, h.pages, h.regsWf, h.tarnsWf⟩

theorem Aborted.then_aside {s u v : State} (h : Aborted s u) (k : Aside u v) : Aborted s v where
  count := (k.regs _ (by decide)).trans h.count
  flag hm := flagSet_of_grow k.flags h.regsWf (by decide) (h.flag hm)
  pages i hi := ((k.pages h.tarnsWf).2 i).trans (h.pages i hi)
  regsWf := (k.flags h.regsWf).1
  tarnsWf := (k.pages h.tarnsWf).1

/-- STEP_ABORTS counts the abort of an attempt that was dropped. -/
theorem Aborted.of_dropped {s t : State} {x : StepSeq} (hc : s.canonical = true) (h : Discards (s.withStep x) t)
    (hflag : s.mainOn = true → flagSet t .step 0 5) : Aborted s (t.bump .step 0 0x54 1) := by
  obtain ⟨-, hregs, htarns, -⟩ := (State.canonical_iff s).1 hc
  have hregs' := (h.flags hregs).1
  obtain ⟨htarns', hvt⟩ := h.pages htarns
  have hgrow := flagsGrow_setReg_apart t .step 0 0x54 (t.reg .step 0 0x54 + 1) (by decide) (by decide)
  exact {
    count := (State.reg_setReg_same t .step 0 0x54 _ hregs').trans (congrArg (· + (1 : Word)) (h.regs _ (by decide)))
    flag := fun hm => flagSet_of_grow hgrow hregs' (by decide) (hflag hm)
    pages := hvt
    regsWf := Bank.put_wf _ _ _ _ hregs'
    tarnsWf := htarns' }

/-- What an abort makes the next attempt (R222). -/
def StepSeq.retried (x : StepSeq) (p : Program) (a : Attempt) (c : Cause) (halt : Bool) : StepSeq :=
  { x with
    lastAbort := some ⟨c.inProgram, c.code, cutCode p c.cut⟩
    nextAttempt := a.number + 1
    retries := if halt ∨ decide (c.code = 1 ∨ c.code = 2) then x.retries else x.retries + 1
    skipNext := decide (c.code = 1 ∨ c.code = 2) && !halt
    rerunNext := false }

/-- STEP_ABORT is raised. -/
def State.abortRaised (s : State) (p : Program) (a : Attempt) (c : Cause) : State :=
  s.raiseCtx 0x0540 0 7 (ctxOf false a)
    (leBytes 1 c.code ++ [0] ++ leBytes 2 (cutCode p c.cut) ++ leBytes 2 (s.step.lastGate.getD 0xFFFF))

/-- The abort is counted. -/
def State.abortCounted (s : State) (p : Program) (a : Attempt) (c : Cause) : State :=
  ((s.abortRaised p a c).dropAttempt a).bump .step 0 0x54 1

theorem abortAttempt_eq (s : State) (p : Program) (a : Attempt) (c : Cause) (halt : Bool) :
    s.abortAttempt p a c halt =
      let t := s.abortCounted p a c
      (t.withStep (t.step.retried p a c halt)).tellTwin 3 a.step a.number c.code := by
  unfold State.abortAttempt State.abortCounted State.abortRaised State.withStep StepSeq.retried
  rfl

theorem aside_abortRaised (s : State) (p : Program) (a : Attempt) (c : Cause) : Aside s (s.abortRaised p a c) := .raiseCtx _ _ _ _ _ _ rfl

section
variable (s : State) (p : Program) (a : Attempt) (c : Cause)

theorem discards_abortDropped : Discards (s.withStep s.step.dropped) ((s.abortRaised p a c).dropAttempt a) := by
  have hdropped := discards_dropAttempt (s.abortRaised p a c) a
  rw [(aside_abortRaised s p a c).step] at hdropped
  exact .of_aside ((aside_abortRaised s p a c).withStep _) hdropped

theorem abortCounted_step : (s.abortCounted p a c).step = s.step.dropped := (discards_abortDropped s p a c).step

variable (hc : s.canonical = true)
include hc

theorem flagSet_abortDropped (hm : s.mainOn = true) : flagSet ((s.abortRaised p a c).dropAttempt a) .step 0 5 := by
  obtain ⟨-, hregs, -, -⟩ := (State.canonical_iff s).1 hc
  have hraised : flagSet (s.abortRaised p a c) .step 0 5 := flagSet_raiseCtx s _ _ _ _ _ rfl (by decide) rfl hm hc
  exact flagSet_of_grow (discards_dropAttempt (s.abortRaised p a c) a).flags ((aside_abortRaised s p a c).flags hregs).1 (by decide) hraised

theorem aborted_abortCounted : Aborted s (s.abortCounted p a c) :=
  .of_dropped hc (discards_abortDropped s p a c) (flagSet_abortDropped s p a c hc)

theorem aborted_abortAttempt (halt : Bool) : Aborted s (s.abortAttempt p a c halt) := by
  rw [abortAttempt_eq]
  exact ((aborted_abortCounted s p a c hc).withStep _).then_aside (.tellTwin _ _ _ _ _)

end

theorem abortAttempt_step (s : State) (p : Program) (a : Attempt) (c : Cause) (halt : Bool) :
    (s.abortAttempt p a c halt).step = s.step.dropped.retried p a c halt := by
  rw [abortAttempt_eq]
  exact (Aside.tellTwin _ _ _ _ _).step.trans (congrArg (·.retried p a c halt) (abortCounted_step s p a c))

/-- The domain is halted, as it was or by this cause. -/
theorem enterHalt_keeps (s : State) (code : Nat) :
    ∃ x, Aside (s.withStep x) (s.enterHalt code) ∧ x.halted ≠ none ∧ x = { s.step with halted := x.halted, exhausted := x.exhausted } := by
  unfold State.enterHalt
  split
  · rename_i h
    exact ⟨s.step, .refl s, Option.isSome_iff_ne_none.1 h, rfl⟩
  · refine ⟨{ s.step with halted := some code, exhausted := decide (code = 7) }, ?_, nofun, rfl⟩
    refine Aside.trans ?_ (.finishEach _ _ _ _ _)
    refine Aside.trans ?_ (.dom _ _)
    exact (Aside.raiseCtx _ _ _ _ _ _ rfl).trans (.tellTwin _ _ _ _ _)

/-- What a module does beyond the abort of an attempt where the domain halts. -/
def State.haltAfter (s : State) (c : Cause) : State :=
  let t := s.squash.enterHalt c.code
  if t.isWellhead then t.haltSettled
  else (t.sendDirect (t.domFrame 0x15 false t.stepNum 0 5 [])).finishEach 0x0305 stOk 0 []

theorem haltAfter_keeps (s : State) (c : Cause) (hra : s.step.ra = none) :
    ∃ x, Aside (s.withStep x) (s.haltAfter c) ∧ x.halted ≠ none ∧ x = { s.step with halted := x.halted, exhausted := x.exhausted } := by
  obtain ⟨x, haside, hhalted, hx⟩ := enterHalt_keeps s c.code
  refine ⟨x, haside.trans ?_, hhalted, hx⟩
  unfold State.haltAfter
  rw [squash_of_none s hra]
  dsimp only
  split
  · exact .haltSettled _
  · exact (Aside.of_frames (framesOnly_sendRank _ _ _ _)).trans (.finishEach _ _ _ _ _)

/-- The cause that an ABORT names. -/
def abortCause (f : DomFrame) : Cause := ⟨fld f 1, 0xFFFF, cutOf (fld f 2) (fld f 3), f.step, fld f 4 == 1⟩

/-- ABORT of the open attempt. -/
theorem onAbort_of_match {s : State} {p : Program} {a : Attempt} {f : DomFrame} (hp : s.prog = some p) (ha : s.step.att = some a)
    (hmatch : a.step = f.step ∧ a.base = fld f 0) :
    s.onAbort f =
      let t := s.abortAttempt p a (abortCause f) (fld f 4 == 1)
      if fld f 4 == 1 then t.haltAfter (abortCause f) else t := by
  unfold State.onAbort
  rw [hp, ha]
  dsimp only
  rw [if_pos hmatch]
  rfl

end Sys2Proof.Machine
end

section
/-! PROOFS. POLICY, the votes and the gates, vetoes and the abort of an attempt: the row ABORT, and the statement assembled. -/
namespace Sys2Proof.Machine

/-! ## The row ABORT (R185, R220) -/

theorem exec_domainAbort_of_waits (s : State) (h : s.step.committing = true ∨ s.hasDown 0xC = true ∨ s.hasDown 0xF = true ∨
    (s.exhaustAbort = true ∧ s.exhaustWaits = true)) : exec .domainAbort s = .next s := by
  refine guarded_of_false _ _ ?_
  rcases h with h | h | h | ⟨h, hw⟩
  · simp [h]
  · simp [h]
  · simp [h]
  · simp [h, hw]

theorem exec_domainAbort_of_receives {s t : State} {f : DomFrame} (hgate : s.hasDown 0xC = false) (hcommit : s.hasDown 0xF = false)
    (hcom : s.step.committing = false) (hexh : (s.exhaustAbort && s.exhaustWaits) = false) (hrec : s.receives 0x11 f t) :
    exec .domainAbort s = .next (t.onAbort f) := by
  refine (guarded_of_true _ _ (by simp [hgate, hcommit, hcom, hexh])).trans (congrArg _ ?_)
  exact onDown_of_receives _ hrec

theorem haltSettled_of_waits (s : State) (h : s.step.halted = none ∨ s.dom.halting ≠ []) : s.haltSettled = s := by
  refine if_neg ?_
  rcases h with h | h
  · simp [h]
  · simp [h]

theorem framesOnly_canonical {s t : State} (h : framesOnly s t) (hc : s.canonical = true) : t.canonical = true := by
  obtain ⟨hmem, hregs, htarns, hqueues⟩ := (State.canonical_iff s).1 hc
  have hq : t.queues = s.queues := by rw [h.1]
  exact (State.canonical_iff t).2 ⟨framesOnly_mem h ▸ hmem, h.2.2 hregs, framesOnly_tarns h ▸ htarns, hq ▸ hqueues⟩

/-- The frame that brought the abort makes no difference to what it leaves. -/
theorem Aborted.of_frames {s t u : State} (h : framesOnly s t) (k : Aborted t u) : Aborted s u where
  count := k.count.trans (congrArg (· + 1) (framesOnly_reg h .step 0 0x54 (by decide) (by decide)))
  flag hm := k.flag (by
    rw [h.1]
    exact hm)
  pages i hi := (k.pages i hi).trans (discardedVt_congr (Aside.of_frames h).regs (by
    rw [State.stack, framesOnly_tarns h, State.stack]))
  regsWf := k.regsWf
  tarnsWf := k.tarnsWf

section
variable {s : State} {p : Program} {a : Attempt} {f : DomFrame} (hc : s.canonical = true) (hp : s.prog = some p)
variable (ha : s.step.att = some a) (hmatch : a.step = f.step ∧ a.base = fld f 0)
include hc hp ha hmatch

/-- An abort that does not halt the domain. -/
theorem onAbort_retries (hhalt : fld f 4 ≠ 1) :
    Aborted s (s.onAbort f) ∧ (s.onAbort f).step = s.step.dropped.retried p a (abortCause f) false := by
  have hf : (fld f 4 == 1) = false := beq_eq_false_iff_ne.2 hhalt
  have heq := onAbort_of_match hp ha hmatch
  dsimp only at heq
  rw [hf, if_neg Bool.false_ne_true] at heq
  rw [heq]
  exact ⟨aborted_abortAttempt s p a _ hc false, abortAttempt_step s p a _ false⟩

/-- An abort that halts it. -/
theorem onAbort_halts (hhalt : fld f 4 = 1) :
    Aborted s (s.onAbort f) ∧ ∃ x : StepSeq, x.halted ≠ none ∧
      (s.onAbort f).step = { s.step.dropped.retried p a (abortCause f) true with halted := x.halted, exhausted := x.exhausted } := by
  have hf : (fld f 4 == 1) = true := beq_iff_eq.2 hhalt
  have hstep := abortAttempt_step s p a (abortCause f) true
  have heq := onAbort_of_match hp ha hmatch
  dsimp only at heq
  rw [hf, if_pos rfl] at heq
  rw [heq]
  obtain ⟨x, haside, hhalted, hx⟩ := haltAfter_keeps (s.abortAttempt p a (abortCause f) true) (abortCause f) (by rw [hstep]; rfl)
  refine ⟨((aborted_abortAttempt s p a _ hc true).withStep x).then_aside haside, x, hhalted, ?_⟩
  rw [← hstep, ← hx]
  exact haside.step

end

theorem domainAbort_answers {s t : State} {g : Program} {a : Attempt} {f : DomFrame} (hc : s.canonical = true) (hg : s.prog = some g)
    (hgate : s.hasDown 0xC = false) (hcommit : s.hasDown 0xF = false) (hcom : s.step.committing = false)
    (hexh : (s.exhaustAbort && s.exhaustWaits) = false) (hrec : s.receives 0x11 f t) (ha : t.step.att = some a)
    (hstep : a.step = f.step) (hbase : a.base = fld f 0) :
    answers .domainAbort s fun u => u.step.att = none ∧ u.step.ra = none ∧ u.step.causes = [] ∧ u.step.nextAttempt = a.number + 1 ∧
      u.reg .step 0 0x54 = s.reg .step 0 0x54 + 1 ∧ (s.mainOn = true → flagSet u .step 0 5) ∧
      (∀ i, i < 8 → (u.stack i).vt = Bank.mapK vtDefault (fun j e => if s.areaPage i j then e else { e with t := false }) (s.stack i).vt) ∧
      (fld f 4 = 1 → u.step.halted ≠ none ∧ u.step.skipNext = false) ∧
      (fld f 4 ≠ 1 → u.step.halted = s.step.halted ∧ u.step.skipNext = decide (fld f 1 = 1 ∨ fld f 1 = 2) ∧
        u.step.retries = if fld f 1 = 1 ∨ fld f 1 = 2 then s.step.retries else s.step.retries + 1) := by
  have hframes := framesOnly_receives hrec
  have hc' := framesOnly_canonical hframes hc
  have hg' : t.prog = some g := by
    rw [hframes.1]
    exact hg
  have hnext := exec_domainAbort_of_receives hgate hcommit hcom hexh hrec
  by_cases hhalt : fld f 4 = 1
  · obtain ⟨hab, x, hhalted, hx⟩ := onAbort_halts hc' hg' ha ⟨hstep, hbase⟩ hhalt
    obtain ⟨hcount, hflag, hpages, -, -⟩ := hab.of_frames hframes
    refine answers_of_eq hnext ⟨?_, ?_, ?_, ?_, hcount, hflag, hpages, fun _ => ⟨?_, ?_⟩, fun hn => absurd hhalt hn⟩
    · rw [hx]; rfl
    · rw [hx]; rfl
    · rw [hx]; rfl
    · rw [hx]; rfl
    · rw [hx]; exact hhalted
    · rw [hx]; exact Bool.and_false _
  · obtain ⟨hab, hx⟩ := onAbort_retries hc' hg' ha ⟨hstep, hbase⟩ hhalt
    obtain ⟨hcount, hflag, hpages, -, -⟩ := hab.of_frames hframes
    rw [framesOnly_step hframes] at hx
    refine answers_of_eq hnext ⟨?_, ?_, ?_, ?_, hcount, hflag, hpages, fun hn => absurd hn hhalt, fun _ => ⟨?_, ?_, ?_⟩⟩
    · rw [hx]; rfl
    · rw [hx]; rfl
    · rw [hx]; rfl
    · rw [hx]; rfl
    · rw [hx]; rfl
    · rw [hx]; exact Bool.and_true _
    · rw [hx]
      show (if false = true ∨ decide (fld f 1 = 1 ∨ fld f 1 = 2) = true then s.step.retries else s.step.retries + 1) = _
      simp

/-- Settles O37: what each message is acted on, and the abort as a chain of operations beside the step. -/
theorem policyVotesGatesAborts : Obligations.PolicyVotesGatesAborts := by
  unfold Obligations.PolicyVotesGatesAborts
  refine ⟨⟨?policyBehindAbort, ?policyHeld, ?policy, ?xmap, ?noXmap, ?voteWaits, ?voteAlone, ?gateShut, ?gate⟩,
    ?hostAbort, exec_veto_of_idle, ?abort, exec_domainAbort_of_waits, haltSettled_of_waits⟩
  case policyBehindAbort => exact fun s h => exec_policy_of_waits s (.inl h)
  case policyHeld => exact fun s h hw => exec_policy_of_waits s (.inr ⟨h, hw⟩)
  case policy =>
    exact fun s t g a f habort hwait hrec hsent hg ha hstep hbase hclean =>
      policy_answers habort hwait hrec hsent hg ha hstep hbase hclean
  case xmap => exact fun s t f l a htake hw ha hstep => xmap_answers htake hw ha hstep
  case noXmap => exact fun s h => congrArg Host.Outcome.next (combined_of_none _ _ h)
  case voteWaits =>
    intro s g a l hg ha hl hskip hmay hdone hown _ hch hinbox
    exact (exec_lvote_of_due hg ha hl hskip hmay hdone).trans
      (congrArg Host.Outcome.next (combined_of_none _ _ (castVote_incomplete s a l hown hinbox hch)))
  case voteAlone =>
    exact fun s g a l hg ha hl hskip hmay hdone hown hwell hch hsize hveto hbase =>
      lvote_answers_alone hg ha hl hskip hmay hdone hown hwell hch hsize hveto hbase
  case gateShut => exact fun s g a l stop i r hissued hshut => issueGates_of_shut g a l stop i r hissued hshut
  case gate => exact fun s t f a hrec ha hstep hbase => exec_gate_of_receives hrec ha hstep hbase
  case hostAbort => exact fun s hwait hcom hcommit habort hopen => veto_answers_hostAbort hwait hcom hcommit habort hopen
  case abort =>
    exact fun s t g a f hc hg hgate hcommit hcom hexh hrec ha hstep hbase =>
      domainAbort_answers hc hg hgate hcommit hcom hexh hrec ha hstep hbase

end Sys2Proof.Machine
end

section
/-! PROOFS. RUN, STOP, ABORT and RESUME: a domain-wide command is answered by its body at the wellhead and refused at a member. -/
namespace Sys2Proof.Machine

/-! ## RUN, STOP, ABORT and RESUME (R377, R381) -/

/-- A program that is not a serving program is loaded. -/
def State.trains (s : State) : Prop := s.cp = .loaded ∧ ∃ g, s.prog = some g ∧ g.serving = false

section
variable {s t : State} {q op n : Nat} {p : Packet} {rest : List Packet} {l : List Byte} (hq : q < 16)
variable (h : s.fronts q op p rest l) (ht : s.trains) (hl : l.length = n) {body : List Byte → State → State × Result}
include ht

theorem State.trains.inState : (s.cp == .loaded && s.prog.any fun p => !p.serving) = true := by
  obtain ⟨hcp, g, hg, hserv⟩ := ht
  simp [hcp, hg, hserv]

include hq h hl

/-- At the wellhead a domain-wide command that its body completes at once is answered from the state that the body leaves. -/
theorem domainCmd_of_done {code detail : Nat} (hw : s.isWellhead = true) (hb : body l (s.take q rest) = (t, .done code detail [])) :
    s.domainCmd q op n body = .next (t.closes q p code detail [] (s.replyVia p.src)) := by
  have hwell : (s.take q rest).isWellhead = true := hw
  refine congrArg _ (runHost_of_done hq h (by simp [lenIs, hl]) ht.inState ?_)
  rw [if_pos hwell, hb]

/-- One that its body leaves open waits. -/
theorem domainCmd_of_wait (hw : s.isWellhead = true) (hb : body l (s.take q rest) = (t, .wait)) :
    s.domainCmd q op n body = .next (t.waits q p) := by
  have hwell : (s.take q rest).isWellhead = true := hw
  refine congrArg _ ((runHost_of_fronts s q op p rest l _ _ _ hq h (by simp [lenIs, hl]) ht.inState).trans ?_)
  rw [if_pos hwell, hb]
  rfl

/-- A member refuses it. -/
theorem domainCmd_of_member (hw : s.isWellhead = false) :
    s.domainCmd q op n body = .next ((s.take q rest).closes q p stNotWellhead 0 []) := by
  have hwell : (s.take q rest).isWellhead = false := hw
  refine congrArg _ (runHost_of_done hq h (by simp [lenIs, hl]) ht.inState ?_)
  rw [hwell]
  rfl

end

section
variable {s : State} {q : Nat} {p : Packet} {rest : List Packet} {l : List Byte} (hq : q < 16) (ht : s.trains) (hw : s.isWellhead = true)
include hq ht hw

theorem exec_run_fronts (h : s.fronts q 0x0303 p rest l) (hl : l.length = 4) :
    (s.step.halted = none → s.allLoaded = true →
      exec (.run q) s = .next (State.closes
        { s.take q rest with
            dom := { s.dom with running := true, stopping := false
                                limit := if leAt 0 4 l = 0 then none else some (leAt 0 4 l) } } q p stOk 0 [])) ∧
    (s.step.halted ≠ none ∨ s.allLoaded = false →
      exec (.run q) s = .next ((s.take q rest).closes q p stBadState (cpCode s.cp) [])) := by
  refine ⟨fun hhalt hload => domainCmd_of_done hq h ht hl hw (if_neg ?_), fun hno => domainCmd_of_done hq h ht hl hw (if_pos ?_)⟩
  · show ¬(s.step.halted.isSome = true ∨ (!s.allLoaded) = true)
    simp [hhalt, hload]
  · show s.step.halted.isSome = true ∨ (!s.allLoaded) = true
    simpa [Option.isSome_iff_ne_none] using hno

theorem exec_stop_fronts (h : s.fronts q 0x0304 p rest l) (hl : l = []) :
    (s.step.halted = none → s.stepOpen = true →
      exec (.stop q) s = .next (State.waits { s.take q rest with dom := { s.dom with stopping := true } } q p)) ∧
    (s.step.halted ≠ none ∨ s.stepOpen = false →
      exec (.stop q) s = .next (State.closes { s.take q rest with dom := { s.dom with running := false } } q p stOk 0 [])) := by
  have hlen : l.length = 0 := by rw [hl]; rfl
  refine ⟨fun hhalt hopen => domainCmd_of_wait hq h ht hlen hw (if_pos ?_),
    fun hno => domainCmd_of_done hq h ht hlen hw (if_neg ?_)⟩
  · show s.step.halted.isNone = true ∧ s.stepOpen = true
    simp [hhalt, hopen]
  · show ¬(s.step.halted.isNone = true ∧ s.stepOpen = true)
    rcases hno with hno | hno
    · simp [hno]
    · simp [hno]

theorem exec_abort_fronts (h : s.fronts q 0x0305 p rest l) (hl : l = []) :
    (s.step.halted ≠ none → s.dom.halting = [] → exec (.abort q) s = .next ((s.take q rest).closes q p stOk 0 [])) ∧
    (s.step.halted = none ∨ s.dom.halting ≠ [] → exec (.abort q) s = .next ((s.take q rest).waits q p)) := by
  have hlen : l.length = 0 := by rw [hl]; rfl
  refine ⟨fun hhalt hnone => domainCmd_of_done hq h ht hlen hw (congrArg _ (if_pos ?_)),
    fun hno => domainCmd_of_wait hq h ht hlen hw (congrArg _ (if_neg ?_))⟩
  · show (s.step.halted.isSome && s.dom.halting.isEmpty) = true
    simp [Option.isSome_iff_ne_none, hhalt, hnone]
  · show ¬(s.step.halted.isSome && s.dom.halting.isEmpty) = true
    rcases hno with hno | hno
    · simp [hno]
    · simp [hno]

theorem exec_resume_fronts (h : s.fronts q 0x0306 p rest l) (hl : l = []) :
    (s.step.halted ≠ none → s.step.exhausted = false → s.allJoined = true →
      exec (.resume q) s = .next (State.closes
        { s.take q rest with
            step := { s.step with halted := none, retries := 0, resumed := true }
            dom := { s.dom with running := true, stopping := false } } q p stOk 0 [])) ∧
    (s.step.halted = none ∨ s.step.exhausted = true ∨ s.allJoined = false →
      exec (.resume q) s = .next ((s.take q rest).closes q p stBadState (cpCode s.cp) [])) := by
  have hlen : l.length = 0 := by rw [hl]; rfl
  refine ⟨fun hhalt hex hjoin => domainCmd_of_done hq h ht hlen hw (if_neg ?_),
    fun hno => domainCmd_of_done hq h ht hlen hw (if_pos ?_)⟩
  · show ¬(s.step.halted.isNone = true ∨ s.step.exhausted = true ∨ (!s.allJoined) = true)
    simp [hhalt, hex, hjoin]
  · show s.step.halted.isNone = true ∨ s.step.exhausted = true ∨ (!s.allJoined) = true
    simpa using hno

end

/-- Settles O25: each command is `domainCmd` with its body's answer. -/
theorem domainRunCommands : Obligations.DomainRunCommands := by
  unfold Obligations.DomainRunCommands
  refine ⟨?run, ?stop, ?abort, ?resume, ?member⟩
  case run => exact fun s q p rest l hq h ht hw hl => exec_run_fronts hq ht hw h hl
  case stop => exact fun s q p rest l hq h ht hw hl => exec_stop_fronts hq ht hw h hl
  case abort => exact fun s q p rest l hq h ht hw hl => exec_abort_fronts hq ht hw h hl
  case resume => exact fun s q p rest l hq h ht hw hl => exec_resume_fronts hq ht hw h hl
  case member =>
    intro s q p rest l hq ht hw
    have refused {op n : Nat} (body : List Byte → State → State × Result) (h : s.fronts q op p rest l) (hl : l.length = n) :
        s.domainCmd q op n body = .next ((s.take q rest).closes q p stNotWellhead 0 []) := domainCmd_of_member hq h ht hl hw
    exact ⟨fun h hl => refused _ h hl, fun h hl => refused _ h (congrArg List.length hl),
      fun h hl => refused _ h (congrArg List.length hl), fun h hl => refused _ h (congrArg List.length hl)⟩

end Sys2Proof.Machine
end

section
/-! PROOFS. The wellhead's decision on a segment's copies in trouble, row by row of its table. -/
namespace Sys2Proof.Machine

/-! ## The decision of R181 -/

theorem mem_addJ (j : List (Nat × Bool)) (ts : List Trouble) (e : Nat × Bool) :
    e ∈ addJ j ts ↔ e ∈ j ∨ ∃ t ∈ ts, (t.tensor, t.col) = e := by
  induction ts generalizing j with
  | nil => simp [addJ]
  | cons t ts ih =>
    have hcons : addJ j (t :: ts) = addJ (if j.contains (t.tensor, t.col) then j else j ++ [(t.tensor, t.col)]) ts := rfl
    rw [hcons, ih, List.exists_mem_cons_iff]
    split
    · rename_i hin
      have hmem : (t.tensor, t.col) ∈ j := List.contains_iff_mem.1 hin
      refine ⟨fun h => h.imp_right .inr, ?_⟩
      rintro (h | rfl | h)
      exacts [.inl h, .inl hmem, .inr h]
    · rw [List.mem_append, List.mem_singleton, or_assoc, eq_comm (a := e)]

theorem inJ_iff (g : Program) (x : LayerState) (t : Trouble) :
    inJ g x t = true ↔ (t.tensor, t.col) ∈ x.jit ∨ ∃ c ∈ g.copies, c.tensor = t.tensor ∧ c.col = t.col ∧ c.loc = true := by
  simp [inJ, and_assoc]

/-- A layer is widened on these copies in trouble, or can be no further: one is of the widen-now kind, all count as members of J, or the
layer's count is full. -/
def State.widens (s : State) (g : Program) (x : LayerState) (ts : List Trouble) : Bool :=
  ts.any (·.now) || ts.all (inJ g x) || decide (x.c = s.field .policy 0 0x10 0 4)

theorem widens_iff (s : State) (g : Program) (x : LayerState) (ts : List Trouble) :
    s.widens g x ts = true ↔ ts.any (·.now) = true ∨ ts.all (inJ g x) = true ∨ x.c = s.field .policy 0 0x10 0 4 := by
  rw [State.widens, Bool.or_eq_true, Bool.or_eq_true, decide_eq_true_iff, or_assoc]

section
variable (s : State) (g : Program) (a : Attempt) (l : Nat)

theorem judge_nil : s.judge g a l [] = ⟨.clear, a.layer l, a.w, 0, 0⟩ := rfl

variable {ts : List Trouble} (hne : ts ≠ [])
include hne

theorem judge_of_f16 (h : s.widens g (a.layer l) ts = true) (hr : (a.layer l).rung = .f16) :
    s.judge g a l ts = ⟨.exhausted, a.layer l, a.w, 0, 0⟩ :=
  (if_neg (by simpa using hne)).trans ((if_pos h).trans (if_pos hr))

/-- The layers that were widened in the step, this one with them. -/
def Attempt.widenedWith (a : Attempt) (l : Nat) : Nat := if (a.layer l).widened then a.w else a.w + 1

/-- The share of widened layers exceeds its limit, in a step that is neither wide nor a rerun. -/
def State.goesGlobal (s : State) (g : Program) (a : Attempt) (w : Nat) : Bool :=
  !a.wide && !a.rerun && decide (s.field .policy 0 0x10 8 8 * g.layers.length < 64 * w)

theorem judge_of_widens (h : s.widens g (a.layer l) ts = true) (hr : (a.layer l).rung ≠ .f16) :
    ∃ cause added, s.judge g a l ts = ⟨if s.goesGlobal g a (a.widenedWith l) then .global else .widen,
      { a.layer l with rung := Rung.up (a.layer l).rung, jit := addJ (a.layer l).jit ts, c := 0, widened := true },
      a.widenedWith l, cause, added⟩ :=
  ⟨_, _, (if_neg (by simpa using hne)).trans ((if_pos h).trans (if_neg hr))⟩

theorem judge_of_not_widens (h : s.widens g (a.layer l) ts = false) :
    ∃ added, s.judge g a l ts =
      ⟨.replay, { a.layer l with jit := addJ (a.layer l).jit ts, c := (a.layer l).c + 1, replayed := true }, a.w, 0, added⟩ :=
  ⟨_, (if_neg (by simpa using hne)).trans (if_neg (Bool.eq_false_iff.1 h))⟩

end

/-- Settles O34: the four rows of the table of R181, and what counts as a member of J. -/
theorem judgeFollowsTheTable : Obligations.JudgeFollowsTheTable := by
  unfold Obligations.JudgeFollowsTheTable
  intro s g a l ts
  dsimp only
  rw [← widens_iff]
  refine ⟨?clear, ?exhausted, ?widen, ?replay, inJ_iff g (a.layer l)⟩
  case clear =>
    rintro rfl
    exact ⟨rfl, rfl, rfl⟩
  case exhausted =>
    intro hne hworse hr
    rw [judge_of_f16 s g a l hne hworse hr]
    exact ⟨rfl, rfl, rfl⟩
  case widen =>
    intro hne hworse hr
    obtain ⟨cause, added, hj⟩ := judge_of_widens s g a l hne hworse hr
    rw [hj]
    refine ⟨rfl, rfl, rfl, rfl, ?_, ?_, mem_addJ _ _⟩
    · cases hbig : s.goesGlobal g a (a.widenedWith l) <;> simpa [State.goesGlobal, and_assoc] using hbig
    · cases s.goesGlobal g a (a.widenedWith l)
      exacts [.inl rfl, .inr rfl]
  case replay =>
    intro hne hworse
    obtain ⟨added, hj⟩ := judge_of_not_widens s g a l hne (Bool.eq_false_iff.2 hworse)
    rw [hj]
    exact ⟨rfl, rfl, rfl, rfl, rfl, mem_addJ _ _⟩

end Sys2Proof.Machine
end

section
/-! PROOFS. A replay counted in a register table that is not in order. -/
namespace Sys2Proof.Machine

theorem takeFrame_single {α : Type} (s : State) (p : RxFrame → Option α) (x : RxFrame) (a : α) (hinbox : s.fab.inbox = [x])
    (ha : p x = some a) : s.takeFrame p = some (x, a, s.dropFrame 0) := by
  simp [State.takeFrame, hinbox, ha]

/-- A DECISION of REPLAY on segment 0 of attempt 0 of step 0, with base 0. -/
def replayDecision : DomFrame := ⟨7, true, 0, 0, 0, 0, 0, encN [0, 0, 0, 1]⟩

theorem isDecision_replayDecision : isDecision 1 ⟨0, 0, 0, .dom replayDecision⟩ = some replayDecision := by decide +kernel

/-- It waits on a member, whose count of replays is at its last value and stands behind the count of widens. -/
def replaysOutOfOrder : State :=
  { regs := [(regAddr .policy 0 0x64, 1), (regAddr .policy 0 0x60, 0xFFFFFFFF)]
    prog := some default
    step := { att := some default }
    fab := { inbox := [⟨0, 0, 0, .dom replayDecision⟩] } }

theorem replaysOutOfOrder_decides :
    ∃ t, replaysOutOfOrder.decides 1 default false default replayDecision t := by
  have htake := takeFrame_single replaysOutOfOrder (isDecision 1) _ _ rfl isDecision_replayDecision
  exact ⟨(replaysOutOfOrder.dropFrame 0).passDown replayDecision, ⟨_, _, htake, rfl⟩, rfl, rfl, rfl, by decide +kernel⟩

/-- The count does not go on to 0. -/
theorem replaysOutOfOrder_count :
    valueAfter (fun t => t.reg .policy 0 0x60) (exec .decisionReplay replaysOutOfOrder) = some 0xFFFFFFFF ∧
      replaysOutOfOrder.reg .policy 0 0x60 = 0xFFFFFFFF := by decide +kernel

/-- Refutes O35: the statement asks for a canonical state for the flags and not for the counts, and in a register table that is not in
order the count of replays that wraps to its reset value is not found, so it does not advance. -/
theorem not_reportsAndDecisions : ¬ Obligations.ReportsAndDecisions := by
  unfold Obligations.ReportsAndDecisions
  rintro ⟨-, -, -, replay, -⟩
  obtain ⟨t, hdecides⟩ := replaysOutOfOrder_decides
  obtain ⟨u, hnext, -, -, -, -, hreg, -⟩ :=
    replay replaysOutOfOrder t default default replayDecision .decisionReplay 1 false (.inl ⟨rfl, rfl, rfl⟩) hdecides
  have hcount : u.reg .policy 0 0x60 = replaysOutOfOrder.reg .policy 0 0x60 + 1 := hreg
  obtain ⟨hafter, hbefore⟩ := replaysOutOfOrder_count
  rw [valueAfter_of_next hnext, hcount, hbefore] at hafter
  exact absurd hafter (by decide)

end Sys2Proof.Machine
end

section
/-! PROOFS. END, READY and DONE on their way up the tree, and PROGRAM_END: what a combined message is acted on and what it leaves. -/
namespace Sys2Proof.Machine

/-! ## Combined messages that are complete -/

theorem takeCombined_dropKey {s t : State} {mtype : Nat} {inTurn : DomFrame → Bool} {f : DomFrame} {l : List DomFrame}
    (h : s.takeCombined mtype inTurn = some (f, l, t)) : t = s.dropKey f := by
  obtain ⟨g, -, hg⟩ := List.exists_of_findSome?_eq_some h
  split at hg
  · obtain ⟨m, -, hm⟩ := Option.map_eq_some_iff.1 hg
    simp only [Prod.mk.injEq] at hm
    obtain ⟨rfl, -, rfl⟩ := hm
    rfl
  · cases hg

theorem combined_of_sums {s t : State} {mtype : Nat} {f : DomFrame} (act : DomFrame → State → State) (h : s.sums mtype f t) :
    s.combined mtype sumFields act = act f t := by
  obtain ⟨g, l, htake, hw, rfl⟩ := h
  exact combined_of_wellhead sumFields act htake hw

theorem combined_of_sumsBelow {s t : State} {mtype : Nat} {f : DomFrame} (act : DomFrame → State → State) (h : s.sumsBelow mtype f t) :
    s.combined mtype sumFields act = t.toParent f := by
  obtain ⟨g, l, htake, hw, rfl⟩ := h
  rw [State.combined, State.combinedIf, htake]
  exact if_neg (Bool.eq_false_iff.1 hw)

theorem isWellhead_dropKey (s : State) (f : DomFrame) : (s.dropKey f).isWellhead = s.isWellhead := by
  rw [State.isWellhead, State.dropKey_dom, State.isWellhead]

theorem sumsBelow_member {s t : State} {mtype : Nat} {f : DomFrame} (h : s.sumsBelow mtype f t) : s.isWellhead = false := by
  obtain ⟨g, l, htake, hw, -⟩ := h
  rwa [takeCombined_dropKey htake, isWellhead_dropKey] at hw

theorem framesOnly_keepFrames (s : State) (keep : RxFrame → Bool) : framesOnly s (s.keepFrames keep) :=
  framesOnly_trans (framesOnly_fab s _ _) (framesOnly_foldl _ framesOnly_xonCheck _ _)

theorem regs_wf_dropKey (s : State) (f : DomFrame) (hw : Bank.wf regReset s.regs = true) :
    Bank.wf regReset (s.dropKey f).regs = true :=
  (framesOnly_keepFrames { s with dom := { s.dom with own := s.dom.own.erase f } } _).2.2 hw

/-- Taking the parts of a message leaves the step, the queues and the order of the registers, and of the domain all but this module's own
contributions. -/
theorem sums_keeps {s t : State} {mtype : Nat} {f : DomFrame} (h : s.sums mtype f t) :
    t.step = s.step ∧ t.queues = s.queues ∧ (∃ own, t.dom = { s.dom with own := own }) ∧
      (Bank.wf regReset s.regs = true → Bank.wf regReset t.regs = true) := by
  obtain ⟨g, l, htake, -, -⟩ := h
  rw [takeCombined_dropKey htake]
  exact ⟨State.dropKey_step s g, State.dropKey_queues s g, ⟨_, State.dropKey_dom s g⟩, regs_wf_dropKey s g⟩

/-! ## END and READY (R217) -/

theorem exec_endCount_of_ratios (s : State) (h : s.hasUp 0x12 = true) : exec .endCount s = .next s :=
  guarded_of_false _ _ (by rw [h]; rfl)

theorem exec_readyCount_of_ratios (s : State) (h : s.hasUp 0x12 = true) : exec .readyCount s = .next s :=
  guarded_of_false _ _ (by rw [h]; rfl)

/-- A combined READY at the wellhead: of every module and of the open attempt it brings COMMIT. -/
def orderCommit (f : DomFrame) (t : State) : State :=
  match t.step.att with
  | some a =>
    if a.step = f.step ∧ a.base = fld f 0 ∧ fld f 1 = t.dom.size then
      let t1 : State := { t with dom := { t.dom with finiteClear := false, doneIn := false } }
      t1.sendDown (t1.domFrame 0xF true a.step a.number 0 (encN [a.base]))
    else t
  | none => t

theorem orderCommit_of_all {t : State} {f : DomFrame} {a : Attempt} (ha : t.step.att = some a) (hstep : a.step = f.step)
    (hbase : a.base = fld f 0) (hall : fld f 1 = t.dom.size) :
    orderCommit f t = State.sendDown { t with dom := { t.dom with finiteClear := false, doneIn := false } }
      (t.domFrame 0xF true a.step a.number 0 (encN [a.base])) := by
  unfold orderCommit
  split
  · rename_i b hb
    obtain rfl : b = a := Option.some.inj (hb.symm.trans ha)
    exact if_pos ⟨hstep, hbase, hall⟩
  · rename_i hnone
    exact absurd (hnone.symm.trans ha) nofun

section
variable {s t : State} {f : DomFrame} (hup : s.hasUp 0x12 = false)
include hup

theorem exec_endCount_below (h : s.sumsBelow 0xD f t) : exec .endCount s = .next (t.toParent f) :=
  (guarded_of_true _ _ (by rw [hup]; rfl)).trans (congrArg _ (combined_of_sumsBelow _ h))

theorem exec_readyCount_below (h : s.sumsBelow 0xE f t) : exec .readyCount s = .next (t.toParent f) :=
  (guarded_of_true _ _ (by rw [hup, sumsBelow_member h]; rfl)).trans (congrArg _ (combined_of_sumsBelow _ h))

/-- Every END is in: without a veto the finite vote is clear. -/
theorem exec_endCount_of_all {g : Program} {a : Attempt} (h : s.sums 0xD f t) (hg : t.prog = some g) (ha : t.step.att = some a)
    (hstep : a.step = f.step) (hbase : a.base = fld f 0) (hall : fld f 1 = t.dom.size) (hclear : troubleClear a g.strands = true) :
    exec .endCount s = .next (if fld f 2 = 0 then { t with dom := { t.dom with finiteClear := true } } else t) := by
  refine (guarded_of_true _ _ (by rw [hup]; rfl)).trans (congrArg _ ((combined_of_sums _ h).trans ?_))
  rw [hg, ha]
  simp [hstep, hbase, hall, hclear]

/-- Every READY is in: the wellhead sends COMMIT. -/
theorem readyCount_answers_of_all {a : Attempt} (h : s.sums 0xE f t) (ha : t.step.att = some a) (hstep : a.step = f.step)
    (hbase : a.base = fld f 0) (hall : fld f 1 = t.dom.size) (hmay : s.mayCommit = true) :
    answers .readyCount s fun u => u.hasDown 0xF = true ∧ u.dom.doneIn = false ∧ u.dom.finiteClear = false ∧ u.step = s.step := by
  obtain ⟨htstep, -⟩ := sums_keeps h
  have hnext : exec .readyCount s = .next (orderCommit f t) :=
    (guarded_of_true _ _ (by rw [hup, hmay, Bool.or_true]; rfl)).trans (congrArg _ (combined_of_sums orderCommit h))
  rw [orderCommit_of_all ha hstep hbase hall] at hnext
  refine answers_of_eq hnext ⟨hasDown_sendDown _ _ rfl, ?_, ?_, ?_⟩
  · rw [State.sendDown_dom]
  · rw [State.sendDown_dom]
  · rw [State.sendDown_step, htstep]

end

theorem exec_readyCount_of_held (s : State) (hw : s.isWellhead = true) (hmay : s.mayCommit = false) :
    exec .readyCount s = .next s := by
  refine guarded_of_false _ _ ?_
  rw [hw, hmay]
  exact Bool.and_false _

/-! ## PROGRAM_END (R217, R192) -/

theorem exec_programEnd_of_logHeld (s : State) (h : s.log.held.any (·.numerics) = true) : exec .programEnd s = .next s := by
  show execProgramEnd s = _
  unfold execProgramEnd
  split
  · refine guarded_of_false _ _ ?_
    rw [h]
    exact Bool.and_false _
  · rfl

/-- END and READY of an attempt without a veto: message types 0xD and 0xE. -/
def State.endFrame (s : State) (mtype : Nat) (a : Attempt) : DomFrame :=
  s.domFrame mtype false a.step a.number 0 (encN [a.base, 1, 0])

/-- The attempt has ended on this module and nothing is left to wait for; its contributions are `own`. -/
def State.ended (s : State) (a : Attempt) (own : List DomFrame) : State :=
  { s with
    step := { s.step with att := some { a with endSent := true, readySent := true } }
    dom := { s.dom with own := own } }

/-- Everything of the step is done on this module outside a lockstep pair, without a veto, and no record waits for the log. -/
structure State.stepDone (s : State) (g : Program) (a : Attempt) : Prop where
  trains : g.serving = false
  endDue : a.endSent = false
  policy : a.policy = true ∨ a.skip = true
  strands : ∀ t ∈ g.strands, active a t = true → t.id ∈ a.done
  posts : s.inl.posts = []
  seen : s.inl.seen = []
  parts : s.inl.parts = []
  passed : s.inl.passed = []
  amax : a.amax = []
  alone : s.twin.mode ≠ 2
  vetoes : a.vetoes = []
  log : s.log.held.any (·.numerics) = false

theorem exec_programEnd_of_done {s : State} {g : Program} {a : Attempt} (hg : s.prog = some g) (ha : s.step.att = some a)
    (h : s.stepDone g a) :
    exec .programEnd s = .next (s.ended a (s.dom.own ++ [s.endFrame 0xD a, s.endFrame 0xE a])) := by
  have hstrands : (g.strands.all fun t => !active a t || a.done.contains t.id) = true := by
    refine List.all_eq_true.2 fun t ht => ?_
    cases hact : active a t with
    | false => rfl
    | true => simpa using h.strands t ht hact
  have hpolicy : (a.policy || a.skip) = true := by simpa using h.policy
  have halone : decide (s.twin.mode = 2) = false := decide_eq_false h.alone
  have hnone : a.vetoes.isEmpty = true := by rw [h.vetoes]; rfl
  have hcount : a.vetoes.length = 0 := by rw [h.vetoes]; rfl
  show execProgramEnd s = _
  unfold execProgramEnd
  split
  · rename_i p b hp hb
    obtain rfl : p = g := Option.some.inj (hp.symm.trans hg)
    obtain rfl : b = a := Option.some.inj (hb.symm.trans ha)
    dsimp only
    rw [guarded_of_true _ _ (by
      rw [h.trains, h.endDue, hpolicy, hstrands, h.posts, h.seen, h.parts, h.passed, h.amax, h.log]
      rfl), halone, hnone, hcount]
    exact (congrArg _ (if_pos rfl)).trans (congrArg (fun own => Host.Outcome.next (s.ended b own))
      (List.append_assoc s.dom.own [s.endFrame 0xD b] [s.endFrame 0xE b]))
  · rename_i hno
    exact absurd ha (hno g a hg)

/-! ## DONE (R217) -/

theorem exec_doneCount_below {s t : State} {f : DomFrame} (h : s.sumsBelow 0x10 f t) : exec .doneCount s = .next (t.toParent f) :=
  congrArg _ (combined_of_sumsBelow _ h)

theorem finishBusy_of_idle (s : State) (i op code detail : Nat) (payload : List Byte)
    (h : (s.queue i).busy.any (·.opcode == op) = false) : s.finishBusy i op code detail payload = s := by
  unfold State.finishBusy
  split
  · rename_i p hp
    rw [hp] at h
    exact if_neg (by simpa using h)
  · rfl

/-- No queue has started such a command: none completes. -/
theorem finishEach_of_idle (s : State) (op code detail : Nat) (payload : List Byte) (h : s.busyWith op = none) :
    s.finishEach op code detail payload = s := by
  have hidle : ∀ i ∈ List.range 16, s.finishBusy i op code detail payload = s := fun i hi =>
    finishBusy_of_idle s i op code detail payload (by simpa using List.find?_eq_none.1 h i hi)
  unfold State.finishEach
  generalize List.range 16 = l at hidle
  induction l with
  | nil => rfl
  | cons i l ih =>
    rw [List.foldl_cons, hidle i List.mem_cons_self]
    exact ih fun j hj => hidle j (List.mem_cons_of_mem _ hj)

theorem busyWith_congr {s t : State} (h : t.queues = s.queues) (op : Nat) : t.busyWith op = s.busyWith op := by
  unfold State.busyWith State.queue
  rw [h]

/-- The epochs that a committed step owes are marks on the bases. -/
theorem oweEpochs_tarnsOnly (s : State) (n : Nat) : s.oweEpochs n = { s with tarns := (s.oweEpochs n).tarns } := by
  unfold State.oweEpochs
  generalize List.range 8 = l
  suffices h : ∀ t : State, ∃ x, l.foldl (fun t i => if t.ckptSend i then t.setStack i { t.stack i with due := some n } else t) t =
      { t with tarns := x } by
    obtain ⟨x, hx⟩ := h s
    rw [hx]
  induction l with
  | nil => exact fun t => ⟨t.tarns, rfl⟩
  | cons i l ih =>
    intro t
    obtain ⟨x, hx⟩ := ih (if t.ckptSend i then t.setStack i { t.stack i with due := some n } else t)
    refine ⟨x, ?_⟩
    rw [List.foldl_cons, hx]
    split
    · rfl
    · rfl

/-- When a step number advances, the next attempt is the first, no step size is latched, and the bases may owe their epochs. -/
theorem advanceStep_eq (s : State) (n : Nat) :
    s.advanceStep n = { s.setStepNum (n + 1) with
      tarns := (s.advanceStep n).tarns
      step := { s.step with nextAttempt := 0, retries := 0, mismatchedAt := none }
      inl := { s.inl with latched := none } } := by
  conv_lhs => unfold State.advanceStep
  rw [oweEpochs_tarnsOnly]
  rfl

theorem advanceStep_queues (s : State) (n : Nat) : (s.advanceStep n).queues = s.queues := by
  rw [advanceStep_eq]
  rfl

/-- A combined DONE at the wellhead: n advances, and a STOP that waited replies. -/
def countDone (f : DomFrame) (t : State) : State :=
  let t1 := t.advanceStep f.step
  let limit := t1.dom.limit.map (· - 1)
  let t2 : State := { t1 with dom := { t1.dom with
    doneIn := true
    limit := limit
    running := t1.dom.running && !t1.dom.stopping
    stopping := false } }
  t2.finishEach 0x0304 stOk 0 []

theorem countDone_of_idle (f : DomFrame) {t : State} (h : t.busyWith 0x0304 = none) :
    countDone f t = { t.advanceStep f.step with dom := { t.dom with
      doneIn := true, limit := t.dom.limit.map (· - 1), running := t.dom.running && !t.dom.stopping, stopping := false } } := by
  have hdom : (t.advanceStep f.step).dom = t.dom := by
    rw [advanceStep_eq]
    rfl
  unfold countDone
  dsimp only
  rw [finishEach_of_idle, hdom]
  refine Eq.trans (busyWith_congr ?_ _) h
  exact advanceStep_queues t f.step

theorem stepNum_advanceStep (s : State) (n : Nat) (hw : Bank.wf regReset s.regs = true) :
    (s.advanceStep n).stepNum = (n + 1) % 2 ^ 32 := by
  have hreg : (s.setStepNum (n + 1)).reg .step 0 0x18 = BitVec.ofNat 32 (n + 1) := State.reg_setReg_same s .step 0 0x18 _ hw
  rw [advanceStep_eq]
  exact (congrArg BitVec.toNat hreg).trans (BitVec.toNat_ofNat _ _)

theorem doneCount_answers {s t : State} {f : DomFrame} (hc : s.canonical = true) (h : s.sums 0x10 f t) (hstop : s.busyWith 0x0304 = none) :
    answers .doneCount s fun u => u.stepNum = (f.step + 1) % 2 ^ 32 ∧ u.dom.doneIn = true ∧ u.step.nextAttempt = 0 ∧
      u.step.retries = 0 ∧ u.dom.limit = s.dom.limit.map (· - 1) ∧ u.inl.latched = none ∧
      u.dom.running = (s.dom.running && !s.dom.stopping) := by
  have hnext : exec .doneCount s = .next (countDone f t) := congrArg Host.Outcome.next (combined_of_sums countDone h)
  obtain ⟨-, hqueues, ⟨own, hdom⟩, hwf⟩ := sums_keeps h
  obtain ⟨-, hregs, -, -⟩ := (State.canonical_iff s).1 hc
  rw [countDone_of_idle f ((busyWith_congr hqueues _).trans hstop), hdom] at hnext
  refine answers_of_eq hnext ⟨?_, rfl, ?_, ?_, rfl, ?_, rfl⟩
  · exact stepNum_advanceStep t f.step (hwf hregs)
  · rw [advanceStep_eq]
  · rw [advanceStep_eq]
  · rw [advanceStep_eq]

end Sys2Proof.Machine
end

section
/-! PROOFS. COMMIT flips every shadow page and FLIP_COMPLETE ends the attempt; the digest of a lockstep twin; the commit sequence
assembled. -/
namespace Sys2Proof.Machine

/-! ## The pages of a program, base by base (R278) -/

/-- The version table of base `i` with the entries of the program's pages changed. -/
def State.progVt (s : State) (i : Nat) (f : VtEntry → VtEntry) : Bank VtEntry :=
  Bank.mapK vtDefault (fun j e => if s.areaPage i j then e else f e) (s.stack i).vt

theorem progVt_congr {s t : State} {i : Nat} {f : VtEntry → VtEntry} (h : ∀ a, keptReg a = true → t.regAt a = s.regAt a)
    (hv : (t.stack i).vt = (s.stack i).vt) : t.progVt i f = s.progVt i f := by
  have harea : (fun j (e : VtEntry) => if t.areaPage i j then e else f e) = fun j e => if s.areaPage i j then e else f e := by
    funext j e
    rw [areaPage_congr h]
  rw [State.progVt, hv, harea, State.progVt]

theorem mapProgPages_same (s : State) (i : Nat) (f : VtEntry → VtEntry) (hw : Bank.wf stackDefault s.tarns = true) :
    ((s.mapProgPages i f).stack i).vt = s.progVt i f :=
  congrArg Stack.vt (State.stack_setStack_same s i { s.stack i with vt := s.progVt i f } hw)

theorem mapProgPages_other (s : State) (i j : Nat) (f : VtEntry → VtEntry) (h : j ≠ i) : (s.mapProgPages i f).stack j = s.stack j :=
  State.stack_setStack_other s i j _ h

/-- The pages of each base on a list without repetition are changed once. -/
theorem foldl_mapProgPages (f : Nat → VtEntry → VtEntry) (l : List Nat) (s : State) (hl : l.Nodup)
    (hw : Bank.wf stackDefault s.tarns = true) :
    Bank.wf stackDefault (l.foldl (fun t i => t.mapProgPages i (f i)) s).tarns = true ∧
      ∀ i, ((l.foldl (fun t i => t.mapProgPages i (f i)) s).stack i).vt = if i ∈ l then s.progVt i (f i) else (s.stack i).vt := by
  induction l generalizing s with
  | nil => exact ⟨hw, fun i => rfl⟩
  | cons k l ih =>
    obtain ⟨hk, hl⟩ := List.nodup_cons.1 hl
    obtain ⟨hwf, hvt⟩ := ih (s.mapProgPages k (f k)) hl (Bank.put_wf _ _ _ _ hw)
    refine ⟨hwf, fun i => (hvt i).trans ?_⟩
    by_cases hi : i = k
    · subst hi
      rw [if_neg hk, if_pos List.mem_cons_self, mapProgPages_same s i _ hw]
    · have hstack := congrArg Stack.vt (mapProgPages_other s k i (f k) hi)
      rw [hstack, progVt_congr (s := s) (t := s.mapProgPages k (f k)) (fun _ _ => rfl) hstack]
      simp only [List.mem_cons, hi, false_or]

/-! ## COMMIT (R218, R284) -/

/-- What FLIP makes of a page's entry on base `i`. -/
def State.flipEntry (s : State) (i : Nat) (e : VtEntry) : VtEntry :=
  if e.t then { vb := !e.vb, t := false, c := e.c || s.ckptSend i } else e

/-- The version table of base `i` once an attempt has committed: that of a skipped step as before. -/
def State.committedVt (s : State) (a : Attempt) (i : Nat) : Bank VtEntry :=
  if a.skip then (s.stack i).vt else s.progVt i (s.flipEntry i)

/-- The flip of the bases; a skip is logged. -/
def State.flipOrSkip (s : State) (a : Attempt) : State :=
  if a.skip then s.raiseCtx 0x0132 0 7 (ctxOf false a) [] else s.flipAll

theorem flipOrSkip_keeps (s : State) (a : Attempt) (hw : Bank.wf stackDefault s.tarns = true) :
    Bank.wf stackDefault (s.flipOrSkip a).tarns = true ∧ (s.flipOrSkip a).step = s.step ∧
      ∀ i < 8, ((s.flipOrSkip a).stack i).vt = s.committedVt a i := by
  unfold State.flipOrSkip State.committedVt
  cases hskip : a.skip
  · obtain ⟨hwf, hvt⟩ := foldl_mapProgPages s.flipEntry (List.range 8) s List.nodup_range hw
    exact ⟨hwf, State.foldl_step _ _ _ fun _ _ => rfl, fun i hi => (hvt i).trans (if_pos (List.mem_range.2 hi))⟩
  · have haside := Aside.raiseCtx s 0x0132 0 7 (ctxOf false a) [] rfl
    exact ⟨(haside.pages hw).1, haside.step, fun i _ => (haside.pages hw).2 i⟩

theorem Aside.writeRatio (s : State) (first : Bool) (data : List Byte) : Aside s (s.writeRatio first data) := by
  unfold State.writeRatio
  dsimp only
  split
  · refine Aside.trans ?_ (.dom _ _)
    refine Aside.trans ?_ (.setReg _ .inl 0 0x4C _ (by decide) (by decide) (by decide))
    exact .foldl (fun u j => (Aside.unpoison u _ _).trans (.putBytes _ _ _)) _ s
  · refine Aside.trans ?_ (.dom _ _)
    split
    · exact .raiseCtx s _ _ _ {} _ rfl
    · exact .refl s

theorem Aside.ratioEvents (s : State) (p : Program) (a : Attempt) : Aside s (s.ratioEvents p a) := by
  refine .foldl (fun t l => ?_) _ s
  dsimp only
  split
  · exact .raiseCtx t _ _ _ _ _ rfl
  · exact .refl t

/-- The step while an attempt commits. -/
def StepSeq.committingAs (x : StepSeq) (a : Attempt) : StepSeq := { x with committing := true, att := some { a with gotCommit := true } }

/-- Beyond the flip the wellhead writes the ratio record. -/
theorem aside_onCommit (s : State) (p : Program) (a : Attempt) :
    Aside ((s.flipOrSkip a).withStep ((s.flipOrSkip a).step.committingAs a)) (s.onCommit p a) := by
  have heq : s.onCommit p a =
      let t := (s.flipOrSkip a).withStep ((s.flipOrSkip a).step.committingAs a)
      let u := t.writeRatio true (t.ratioRecord p a)
      let v := if a.skip then u else u.ratioEvents p a
      if s.isWellhead then { v with dom := { v.dom with ratios := [] } } else t := rfl
  rw [heq]
  dsimp only
  split
  · refine Aside.trans ?_ (.dom _ _)
    split
    · exact .writeRatio _ _ _
    · exact (Aside.writeRatio _ _ _).trans (.ratioEvents _ p a)
  · exact .refl _

theorem onCommit_keeps (s : State) (p : Program) (a : Attempt) (hw : Bank.wf stackDefault s.tarns = true) :
    (s.onCommit p a).step = s.step.committingAs a ∧ ∀ i < 8, ((s.onCommit p a).stack i).vt = s.committedVt a i := by
  obtain ⟨hwf, hstep, hvt⟩ := flipOrSkip_keeps s a hw
  have haside := aside_onCommit s p a
  refine ⟨haside.step.trans (congrArg (·.committingAs a) hstep), fun i hi => ?_⟩
  exact ((haside.pages hwf).2 i).trans (hvt i hi)

theorem exec_commit_of_inFlight (s : State) (h : s.vInFlight = true) : exec .commit s = .next s :=
  guarded_of_false _ _ (by rw [h]; exact Bool.and_false _)

theorem framesOnly_committedVt {s t : State} (h : framesOnly s t) (a : Attempt) (i : Nat) : t.committedVt a i = s.committedVt a i := by
  have hregs := (Aside.of_frames h).regs
  have hstack : (t.stack i).vt = (s.stack i).vt := by rw [State.stack, framesOnly_tarns h, State.stack]
  have hmode : t.twin = s.twin := by rw [h.1]
  have hsend : t.ckptSend i = s.ckptSend i := by
    rw [State.ckptSend, State.reg, hregs _ (keptReg_trn i 0x60 (by decide)), hmode, State.ckptSend, State.reg]
  have hentry : t.flipEntry i = s.flipEntry i := by
    funext e
    rw [State.flipEntry, hsend, State.flipEntry]
  rw [State.committedVt, hstack, hentry, progVt_congr hregs hstack, State.committedVt]

theorem commit_answers {s t : State} {g : Program} {a : Attempt} {f : DomFrame} (hc : s.canonical = true)
    (hcom : s.step.committing = false) (hpol : s.hasDown 9 = false) (hv : s.vInFlight = false) (hrec : s.receives 0xF f t)
    (hg : t.prog = some g) (ha : t.step.att = some a) (hstep : a.step = f.step) (hbase : a.base = fld f 0 ∨ fld f 0 = anyBase) :
    answers .commit s fun u => u.step.committing = true ∧ u.step.att = some { a with gotCommit := true } ∧
      ∀ i < 8, (u.stack i).vt = s.committedVt a i := by
  have hframes := framesOnly_receives hrec
  have hnext : exec .commit s = .next (t.onCommit g a) := by
    refine (guarded_of_true _ _ (by rw [hcom, hpol, hv]; rfl)).trans (congrArg _ ((onDown_of_receives _ hrec).trans ?_))
    rw [hg, ha]
    exact if_pos ⟨hstep, hbase⟩
  obtain ⟨-, -, htarns, -⟩ := (State.canonical_iff s).1 hc
  obtain ⟨hkept, hvt⟩ := onCommit_keeps t g a (framesOnly_tarns hframes ▸ htarns)
  refine answers_of_eq hnext ⟨?_, ?_, fun i hi => (hvt i hi).trans (framesOnly_committedVt hframes a i)⟩
  · rw [hkept]
    rfl
  · rw [hkept]
    rfl

/-! ## FLIP_COMPLETE (R218, R226) -/

theorem exec_flipComplete_of_logHeld (s : State) (h : s.log.held.any (·.numerics) = true) : exec .flipComplete s = .next s := by
  show execFlipComplete s = _
  unfold execFlipComplete
  split
  · exact guarded_of_false _ _ (by rw [h]; exact Bool.and_false _)
  · rfl

/-- The attempt is over and its holds are released. -/
def State.flipped (s : State) : State :=
  { s with
    step := { s.step with att := none, committing := false }
    inl := s.inl.fresh
    dom := { s.dom with held := [], lvotes := [], lfailed := [] } }

/-- The records of the run-ahead are written, the commit is counted, and n advances but on a wellhead that waits for DONE. -/
def State.flipEnded (s : State) (n : Nat) : State :=
  let t := s.flipped.flushRecords.bump .step 0 0x50 1
  if t.isWellhead && !t.dom.doneIn then t else t.advanceStep n

theorem exec_flipComplete_of_committing {s : State} {a : Attempt} (ha : s.step.att = some a) (hcom : s.step.committing = true)
    (hlog : s.log.held.any (·.numerics) = false) :
    exec .flipComplete s = .next
      (let t := s.flipEnded a.step
       if t.isWellhead && t.dom.doneIn then t else t.addOwn (t.domFrame 0x10 false a.step a.number 0 (encN [a.base, 1]))) := by
  show execFlipComplete s = _
  unfold execFlipComplete
  split
  · rename_i b hb
    obtain rfl : b = a := Option.some.inj (hb.symm.trans ha)
    exact guarded_of_true _ _ (by rw [hcom, hlog]; rfl)
  · rename_i hnone
    exact absurd (hnone.symm.trans ha) nofun

theorem flushRecords_of_none {s : State} (h : s.step.ra = none) : s.flushRecords = s := by rw [State.flushRecords, h]

theorem flushRecords_step {s : State} {r : Attempt} (h : s.step.ra = some r) :
    s.flushRecords.step = { s.step with ra := some { r with records := [] } } := by
  rw [State.flushRecords, h]
  exact State.foldl_step _ _ _ fun t x => State.logRecord_step t x

/-- The run-ahead keeps all but its records. -/
theorem flipEnded_step {s : State} {r : Attempt} (n : Nat) (hr : s.step.ra = some r) :
    (s.flipEnded n).step.att = none ∧ (s.flipEnded n).step.committing = false ∧
      (s.flipEnded n).step.ra = some { r with records := [] } := by
  have hflushed : (s.flipped.flushRecords.bump .step 0 0x50 1).step =
      { s.step with att := none, committing := false, ra := some { r with records := [] } } :=
    flushRecords_step (s := s.flipped) hr
  unfold State.flipEnded
  dsimp only
  split
  · rw [hflushed]
    exact ⟨rfl, rfl, rfl⟩
  · rw [advanceStep_eq]
    dsimp only
    rw [hflushed]
    exact ⟨rfl, rfl, rfl⟩

theorem flipComplete_answers_runAhead {s : State} {a r : Attempt} (ha : s.step.att = some a) (hcom : s.step.committing = true)
    (hr : s.step.ra = some r) (hlog : s.log.held.any (·.numerics) = false) :
    answers .flipComplete s fun u => u.step.att = none ∧ u.step.committing = false ∧
      ∃ q, u.step.ra = some q ∧ q = { r with records := [], heldCauses := q.heldCauses } := by
  obtain ⟨hatt, hcommitting, hra⟩ := flipEnded_step a.step hr
  refine answers_of_eq (exec_flipComplete_of_committing ha hcom hlog) ?_
  dsimp only
  split
  · exact ⟨hatt, hcommitting, _, hra, rfl⟩
  · rw [State.addOwn_step]
    exact ⟨hatt, hcommitting, _, hra, rfl⟩

/-- On a wellhead that waits for DONE, without a run-ahead, the commit is counted and this module's DONE is sent. -/
theorem flipComplete_answers_wellhead {s : State} {a : Attempt} (ha : s.step.att = some a) (hcom : s.step.committing = true)
    (hr : s.step.ra = none) (hw : s.isWellhead = true) (hdone : s.dom.doneIn = false) (hlog : s.log.held.any (·.numerics) = false) :
    answers .flipComplete s fun u => u.step.att = none ∧ u.step.committing = false ∧ u.stepNum = s.stepNum ∧
      u.regs = (s.bump .step 0 0x50 1).regs ∧
      u.dom.own = s.dom.own ++ [s.domFrame 0x10 false a.step a.number 0 (encN [a.base, 1])] := by
  have hwell : (s.flipped.bump .step 0 0x50 1).isWellhead = true := hw
  have hwaits : (s.flipped.bump .step 0 0x50 1).dom.doneIn = false := hdone
  have hended : s.flipEnded a.step = s.flipped.bump .step 0 0x50 1 := by
    rw [State.flipEnded, flushRecords_of_none (s := s.flipped) hr]
    exact if_pos (by rw [hwell, hwaits]; rfl)
  have hnext := exec_flipComplete_of_committing ha hcom hlog
  rw [hended] at hnext
  dsimp only at hnext
  rw [hwaits, Bool.and_false, if_neg Bool.false_ne_true] at hnext
  have hnum : (s.bump .step 0 0x50 1).stepNum = s.stepNum :=
    congrArg BitVec.toNat (State.regAt_bump_other s .step 0 0x50 1 _ (by decide))
  exact answers_of_eq hnext ⟨rfl, rfl, hnum, rfl, rfl⟩

/-! ## TWIN_DIGEST (R395 to R397) -/

theorem exec_twinDigest_of_none (s : State) (h : s.step.att = none) : exec .twinDigest s = .next s := by
  show execTwinDigest s = _
  rw [execTwinDigest, h]

theorem exec_twinDigest_of_not_due {s : State} {a : Attempt} (ha : s.step.att = some a)
    (h : s.twin.mode ≠ 2 ∨ s.twin.paired = false ∨ a.endSent = false ∨ a.readySent = true) : exec .twinDigest s = .next s := by
  show execTwinDigest s = _
  rw [execTwinDigest, ha]
  refine guarded_of_false _ _ ?_
  rcases h with h | h | h | h
  · simp [h]
  · simp [h]
  · simp [h]
  · simp [h]

/-- The registers of the pages before the ports' keep their values while a frame leaves on a link. -/
theorem linkSend_regAt_before (s : State) (l : Link) (d : LinkData) (a : Nat) (h : a < pageBase .cePort) :
    (s.linkSend l d).regAt a = s.regAt a := by
  unfold State.linkSend State.transmit
  split
  · rfl
  · refine (State.regAt_bump_other _ .cePort l.port 0x30 _ a ?_).trans rfl
    unfold regAddr
    omega

theorem sendTwin_regAt_before (s : State) (d : LinkData) (a : Nat) (h : a < pageBase .cePort) : (s.sendTwin d).regAt a = s.regAt a := by
  unfold State.sendTwin
  split
  · exact linkSend_regAt_before s _ d a h
  · rfl

/-- A digest of step `n` is shown in the registers. -/
def State.showDigest (s : State) (n : Nat) (d : List Byte) : State :=
  ((List.range 4).foldl (fun t k => t.setReg .twn 0 (0x20 + 4 * k) (BitVec.ofNat 32 (leAt (4 * k) 4 d))) s).setReg .twn 0 0x30
    (BitVec.ofNat 32 n)

/-- Only registers change, and the last of them holds the step. -/
theorem showDigest_keeps (s : State) (n : Nat) (d : List Byte) :
    (s.showDigest n d).step = s.step ∧ (s.showDigest n d).twin = s.twin ∧ (s.showDigest n d).mem = s.mem ∧
      (Bank.wf regReset s.regs = true → (s.showDigest n d).reg .twn 0 0x30 = BitVec.ofNat 32 n) := by
  unfold State.showDigest
  generalize List.range 4 = l
  refine ⟨?_, ?_, ?_, fun hw => State.reg_setReg_same _ .twn 0 0x30 _ ?_⟩
  · rw [State.setReg_step]
    exact State.foldl_step _ _ _ fun _ _ => rfl
  · rw [State.setReg_twin]
    exact State.foldl_twin _ _ _ fun _ _ => rfl
  · rw [State.setReg_mem]
    exact State.foldl_mem _ _ _ fun _ _ => rfl
  · induction l generalizing s with
    | nil => exact hw
    | cons k l ih => exact ih _ (Bank.put_wf _ _ _ _ hw)

/-- The digest `d` of an attempt is this module's; it goes to the partner. -/
def State.sendDigest (s : State) (a : Attempt) (d : List Byte) : State :=
  let t := s.showDigest a.step d
  ({ t with twin := { t.twin with mine := some (a.step, a.number, d) } } : State).sendTwin (markFrame 2 a.number a.step d)

theorem sendDigest_keeps (s : State) (a : Attempt) (d : List Byte) :
    (s.sendDigest a d).step = s.step ∧ (s.sendDigest a d).twin = { s.twin with mine := some (a.step, a.number, d) } ∧
      (s.sendDigest a d).mem = s.mem ∧
      (Bank.wf regReset s.regs = true → (s.sendDigest a d).reg .twn 0 0x30 = BitVec.ofNat 32 a.step) := by
  obtain ⟨hstep, htwin, hmem, hreg⟩ := showDigest_keeps s a.step d
  unfold State.sendDigest
  dsimp only
  rw [State.sendTwin_step, State.sendTwin_twin, State.sendTwin_mem, htwin]
  exact ⟨hstep, rfl, hmem, fun hw => (sendTwin_regAt_before _ _ _ (by decide)).trans (hreg hw)⟩

theorem compareDigests_of_alone (s : State) (h : s.twin.theirs = none) : s.compareDigests = s := by
  rw [State.compareDigests, h]
  split
  · rename_i hsome
    cases hsome
  · rfl

/-- The lines that the digest reads. -/
def State.digestLines (s : State) : List Nat :=
  (List.range 8).flatMap fun i => (s.touchedPages i).flatMap fun p => (List.range 64).map fun j => s.shadowAddr (4096 * p + 64 * j) / 64

/-- The digest of an attempt is due on a paired lockstep twin: END is out, and nothing stands against READY. -/
structure State.digestDue (s : State) (a : Attempt) : Prop where
  lockstep : s.twin.mode = 2
  paired : s.twin.paired = true
  endSent : a.endSent = true
  readyDue : a.readySent = false
  vetoes : a.vetoes = []
  causes : s.step.causes = []
  unsent : s.twin.mine = none

section
variable {s : State} {a : Attempt} (ha : s.step.att = some a) (hdue : s.digestDue a) (hbad : s.badLines s.digestLines = [])
include ha hdue hbad

theorem exec_twinDigest_of_due : exec .twinDigest s = .next (s.sendDigest a (s.twinDigest a.step)).compareDigests := by
  show execTwinDigest s = _
  rw [execTwinDigest, ha]
  refine (guarded_of_true _ _ ?_).trans (congrArg _ ?_)
  · simp [hdue.lockstep, hdue.paired, hdue.endSent, hdue.readyDue, hdue.vetoes, hdue.causes, hdue.unsent]
  · split
    · rfl
    · rename_i hne
      exact absurd hbad hne

theorem twinDigest_answers (hc : s.canonical = true) (htheirs : s.twin.theirs = none) :
    answers .twinDigest s fun u => u.twin.mine = some (a.step, a.number, s.twinDigest a.step) ∧ u.step.att = some a ∧
      u.reg .twn 0 0x30 = BitVec.ofNat 32 a.step ∧ u.mem = s.mem := by
  have hnext := exec_twinDigest_of_due ha hdue hbad
  obtain ⟨-, hregs, -, -⟩ := (State.canonical_iff s).1 hc
  generalize s.twinDigest a.step = d at hnext ⊢
  obtain ⟨hstep, htwin, hmem, hreg⟩ := sendDigest_keeps s a d
  rw [compareDigests_of_alone _ (by rw [htwin, htheirs])] at hnext
  refine answers_of_eq hnext ⟨?_, ?_, hreg hregs, hmem⟩
  · rw [htwin]
  · rw [hstep, ha]

end

/-! ## The sequence -/

/-- Settles O38: each row of the sequence, in the order of the stages. -/
theorem commitSequence : Obligations.CommitSequence := by
  unfold Obligations.CommitSequence
  refine ⟨⟨?programEnd, exec_programEnd_of_logHeld, ?ratios, ?below, ?endAll, ?readyAll, exec_readyCount_of_held, ?commit,
    exec_commit_of_inFlight, exec_flipComplete_of_logHeld, ?flipRunAhead, ?flipWellhead, ?done⟩, ?digestNotDue, exec_twinDigest_of_none,
    ?digest⟩
  case programEnd =>
    exact fun s g a hg hserv ha hend hpol hdone hposts hseen hparts hpassed hamax hmode hveto hlog =>
      exec_programEnd_of_done hg ha ⟨hserv, hend, hpol, hdone, hposts, hseen, hparts, hpassed, hamax, hmode, hveto, hlog⟩
  case ratios => exact fun s h => ⟨exec_endCount_of_ratios s h, exec_readyCount_of_ratios s h⟩
  case below =>
    exact fun s t f => ⟨fun h hup => exec_endCount_below hup h, fun h hup => exec_readyCount_below hup h, exec_doneCount_below⟩
  case endAll =>
    intro s t g a f hup h hg ha hstep hbase hall hclear
    have hnext := exec_endCount_of_all hup h hg ha hstep hbase hall hclear
    exact ⟨fun hveto => hnext.trans (congrArg _ (if_pos hveto)), fun hveto => hnext.trans (congrArg _ (if_neg hveto))⟩
  case readyAll =>
    exact fun s t a f hup h ha hstep hbase hall hmay => readyCount_answers_of_all hup h ha hstep hbase hall hmay
  case commit =>
    exact fun s t g a f hc hcom hpol hv hrec hg ha hstep hbase => commit_answers hc hcom hpol hv hrec hg ha hstep hbase
  case flipRunAhead => exact fun s a r ha hcom hr hlog => flipComplete_answers_runAhead ha hcom hr hlog
  case flipWellhead => exact fun s a ha hcom hr hw hdone hlog => flipComplete_answers_wellhead ha hcom hr hw hdone hlog
  case done => exact fun s t f hc h hstop => doneCount_answers hc h hstop
  case digestNotDue => exact fun s a ha h => exec_twinDigest_of_not_due ha h
  case digest =>
    exact fun s a hc ha hmode hpaired hend hready hveto hcauses hmine htheirs hbad =>
      twinDigest_answers ha ⟨hmode, hpaired, hend, hready, hveto, hcauses, hmine⟩ hbad hc htheirs

end Sys2Proof.Machine
end

section
/-! PROOFS. Two states outside what a statement had in mind: a page of an epoch for a base that is not trained, and a version table that
lists a page twice. -/
namespace Sys2Proof.Machine

/-! ## A page for an untrained base (R288) -/

theorem framesOnly_answer (s : State) (x : RxFrame) (f : CopyFrame) : framesOnly s (s.answer x f) := by
  unfold State.answer State.onLink
  split
  · split
    · exact framesOnly_linkSend s _ _
    · exact framesOnly_refl s
  · exact framesOnly_refl s

/-- Every byte of a base that is not trained is a free value. -/
theorem byte_of_untrained {s : State} {a : Nat} (ha : a < tarnTop) (h : (s.stack (stackOf a)).trained = false) :
    s.byte a = Config.freeByte (s.stack (stackOf a)).token a := by
  rw [State.byte_eq, if_pos ⟨ha, h⟩]

/-- A page whose bytes differ from what address 4096 of an untrained base reads as. -/
def pageUnlike : List Byte := List.replicate 4096 (Config.freeByte 0 4096 + 1)

/-- It is sent as page 0 of an epoch. -/
def pageWrite : CopyFrame := ⟨.write, 1, 1, 0, 4096, 0, 0, 0, pageUnlike⟩

/-- The twin has sent the page; base 0 has an area of one page open to it, and is not trained. -/
def untrainedArea : State :=
  { regs := [(regAddr .trn 0 0x60, 0x40000000), (regAddr .trn 0 0x74, 1)]
    fab := { links := [{ port := 2, mac := 0, twin := true }], inbox := [⟨2, 0, 0, .copy pageWrite⟩] } }

/-- It is taken from the inbox. -/
theorem untrainedArea_takes : untrainedArea.takeCopy (fun f => f.cop == .write || closesStack f) =
    some (⟨2, 0, 0, .copy pageWrite⟩, pageWrite, untrainedArea.dropFrame 0) := takeFrame_single _ _ _ _ rfl rfl

theorem untrainedArea_open : (untrainedArea.dropFrame 0).canonical = true ∧
    (untrainedArea.dropFrame 0).areaOpen ⟨2, 0, 0, .copy pageWrite⟩ pageWrite = true ∧
    (untrainedArea.dropFrame 0).shadowAddr 0 = 4096 := by decide +kernel

theorem untrainedArea_stays :
    valueAfter (fun t => ((t.stack 0).trained, (t.stack 0).token)) (exec .copyWrite untrainedArea) = some (false, 0) := by decide +kernel

theorem pageUnlike_first : pageUnlike[0]? = some (Config.freeByte 0 4096 + 1) := rfl

/-- Refutes O48: nothing asks that the base of a receiving area is trained, and where it is not, the page that was written there does not
read back. -/
theorem not_copyFrames : ¬ Obligations.CopyFrames := by
  unfold Obligations.CopyFrames
  rintro ⟨⟨-, -, -, area, -⟩, -⟩
  obtain ⟨hcanon, hopen, hshadow⟩ := untrainedArea_open
  obtain ⟨v, hnext, -, -, hreads⟩ := (area _ _ _ _ ⟨untrainedArea_takes, rfl⟩ rfl).2 hopen
  have hpage : v.bytes 4096 4096 = pageUnlike := hshadow ▸ (hreads hcanon).1
  have hstack := untrainedArea_stays
  rw [valueAfter_of_next hnext, Option.some.injEq, Prod.mk.injEq] at hstack
  obtain ⟨huntrained, htoken⟩ := hstack
  have hfree : v.byte 4096 = Config.freeByte 0 4096 := by
    rw [← framesOnly_byte (framesOnly_answer v _ _), byte_of_untrained (by decide) huntrained]
    exact congrArg (Config.freeByte · 4096) htoken
  have hfirst : v.byte 4096 = Config.freeByte 0 4096 + 1 := by
    have h : (v.bytes 4096 4096)[0]? = some (v.byte 4096) := by simp [State.bytes]
    rw [hpage, pageUnlike_first] at h
    exact (Option.some.inj h).symm
  rw [hfree] at hfirst
  generalize Config.freeByte 0 4096 = b at hfirst
  bv_omega

/-! ## A version table that lists a page twice (R276, R278) -/

/-- A program with one V region of 16 pages. -/
def oneRegion : Program := { (default : Program) with regions := [⟨0x40000000, 0x10000, true, .param⟩] }

/-- An ABORT, without a halt, of attempt 0 of step 0. -/
def abortOfFirst : DomFrame := ⟨0x11, true, 0, 0, 0, 0, 0, encN [0, 3, 0, 0, 0]⟩

/-- The attempt is open, and its ABORT waits; the version table lists the first page of the region twice. -/
def pageListedTwice : State :=
  { prog := some oneRegion
    step := { att := some default }
    tarns := [(0, { vt := [(0x40000, { t := true }), (0x40000, { vb := true })] })]
    fab := { inbox := [⟨0, 0, 0, .dom abortOfFirst⟩] } }

theorem pageListedTwice_place : pageListedTwice.canonical = true ∧ pageListedTwice.vRegion 0x40000000 = some (0x10000, false) ∧
    pageListedTwice.committedAddr 0x40000000 = 0x40000000 := by decide +kernel

theorem pageListedTwice_apart : pageListedTwice.apart (pageListedTwice.committedAddr 0x40000000) :=
  ⟨by decide +kernel, by decide +kernel⟩

/-- DISCARD clears the mark of the first entry, which then goes, and the second one moves the committed copy to frame 1. -/
theorem pageListedTwice_moves :
    valueAfter (·.committedAddr 0x40000000) (exec .domainAbort pageListedTwice) = some 0x40010000 := by decide +kernel

/-- Refutes O57: a canonical state may hold a version table that is not in canonical form, and with a page listed twice DISCARD brings out
the second entry, whose committed copy lies in the other frame. -/
theorem not_abortsKeepVersionedRegions : ¬ Obligations.AbortsKeepVersionedRegions := by
  unfold Obligations.AbortsKeepVersionedRegions
  rintro ⟨keeps, -⟩
  obtain ⟨hcanon, hregion, haddr⟩ := pageListedTwice_place
  have hmoves := pageListedTwice_moves
  cases hnext : exec .domainAbort pageListedTwice with
  | next t =>
    have hkept := (keeps pageListedTwice t 0x40000000 0x10000 hcanon hnext (by decide) hregion pageListedTwice_apart).1
    rw [valueAfter_of_next hnext, hkept, haddr] at hmoves
    exact absurd hmoves (by decide)
  | fault r => cases r
  | refused r =>
    rw [hnext] at hmoves
    exact absurd hmoves nofun

end Sys2Proof.Machine
end

section
/-! PROOFS. Shadow pages: what a write of bytes reads back as, what touching a page of a V region leaves, and a strand's write within one
page. -/
namespace Sys2Proof.Machine

/-! ## Bytes read back -/

/-- A read after a write of a value that no unlisted key reads as, whatever the order of the table. -/
theorem Bank.get_put_same_of_ne {α : Type} [DecidableEq α] (d : Nat → α) (b : Bank α) (k : Nat) (v : α) (hv : v ≠ d k) :
    Bank.get d (Bank.put d b k v) k = v := by
  induction b with
  | nil => simp [Bank.put, hv, Bank.get]
  | cons e t ih =>
    obtain ⟨j, w⟩ := e
    unfold Bank.put
    split
    · simp [Bank.get]
    · split
      · simp [Bank.get]
      · next hne => rw [Bank.get, if_neg hne, ih]

/-- A range write reads back. -/
theorem Bank.get_putRange_same {α : Type} [DecidableEq α] (d : Nat → α) (l : List α) (b : Bank α) (k i : Nat) (hw : Bank.wf d b = true)
    (hi : i < l.length) : Bank.get d (Bank.putRange d b k l) (k + i) = l[i] := by
  induction l generalizing b k i with
  | nil => exact absurd hi (Nat.not_lt_zero i)
  | cons v t ih =>
    have hw' := Bank.put_wf d b k v hw
    cases i with
    | zero => exact (Bank.get_putRange_other d t _ (k + 1) k (.inl (by omega))).trans (Bank.get_put_same d b k v hw)
    | succ i =>
      have h := ih _ (k + 1) i hw' (Nat.lt_of_succ_lt_succ hi)
      rwa [Nat.add_right_comm] at h

/-- No byte of a range lies in an undefined run once the range is taken out. -/
theorem carve_find_inside (lo hi a : Nat) (us : List Undef) (hlo : lo ≤ a) (hhi : a < hi) :
    (carve lo hi us).find? (fun u => decide (u.lo ≤ a ∧ a < u.hi)) = none := by
  refine List.find?_eq_none.2 fun u hu => ?_
  obtain ⟨w, -, hw⟩ := List.mem_flatMap.1 hu
  rw [decide_eq_true_eq]
  split at hw
  · rw [List.mem_singleton.1 hw]
    omega
  · rcases List.mem_append.1 hw with hw | hw
    · split at hw
      · rw [List.mem_singleton.1 hw]
        dsimp only
        omega
      · cases hw
    · split at hw
      · rw [List.mem_singleton.1 hw]
        dsimp only
        omega
      · cases hw

/-- A byte written on a trained base reads back. -/
theorem State.byte_putBytes_same (s : State) (k : Nat) (l : List Byte) (i : Nat) (hi : i < l.length) (hm : Memory.wf s.mem = true)
    (ht : Bank.wf stackDefault s.tarns = true) (htr : k + i < tarnTop → (s.stack (stackOf (k + i))).trained = true) :
    (s.putBytes k l).byte (k + i) = l[i] := by
  have htrained : ¬ (k + i < tarnTop ∧ ((s.putBytes k l).stack (stackOf (k + i))).trained = false) := by
    rintro ⟨hlt, hun⟩
    rw [State.putBytes_stack_keeps (·.trained) s k l _ ht fun _ _ => rfl, htr hlt] at hun
    cases hun
  have hdefined : (s.putBytes k l).tokenAt (k + i) = none := by
    have h := carve_find_inside k (k + l.length) (k + i) (s.freshen k l.length).undef (by omega) (by omega)
    exact congrArg (Option.map Undef.token) h
  rw [State.byte_eq, if_neg htrained, hdefined]
  show Bank.get memDefault (Bank.putRange memDefault (s.freshen k l.length).mem k l) (k + i) = l[i]
  rw [State.freshen_mem]
  exact Bank.get_putRange_same _ _ _ _ _ hm hi

/-! ## A page of a V region (R275 to R277) -/

/-- Where V regions lie depends on the program and the registers. -/
theorem vRegion_congr {s t : State} (hp : t.prog = s.prog) (hr : t.regs = s.regs) (a : Nat) : t.vRegion a = s.vRegion a := by
  have hregions : t.regions = s.regions := by rw [State.regions, hp, State.regions]
  have hreg (o : Nat) : t.reg .trn (stackOf a) o = s.reg .trn (stackOf a) o := by rw [State.reg, State.regAt, hr, State.reg, State.regAt]
  have harea : t.ckptArea (stackOf a) = s.ckptArea (stackOf a) := by
    unfold State.ckptArea State.field
    rw [hreg, hreg, hreg, hreg]
  rw [State.vRegion, hregions, harea, State.vRegion]

/-- A byte of a V region of `z` bytes in one of its two frames. -/
def inFrame (z : Nat) (one : Bool) (b : Nat) : Nat := if one then b + z else b

theorem inFrame_add (z : Nat) (one : Bool) (b i : Nat) : inFrame z one (b + i) = inFrame z one b + i := by
  cases one
  · rfl
  · exact Nat.add_right_comm b i z

/-- Bytes of one page in different frames are different. -/
theorem inFrame_ne {z a b n : Nat} (hz : 4096 ≤ z) (one : Bool) (ha : a % 4096 + n ≤ 4096) (hb : b / 4096 = a / 4096) :
    inFrame z one b < inFrame z (!one) a ∨ inFrame z (!one) a + n ≤ inFrame z one b := by
  cases one
  · left
    show b < a + z
    omega
  · right
    show a + n ≤ b + z
    omega

theorem stackOf_of_page {a b : Nat} (h : b / 4096 = a / 4096) : stackOf b = stackOf a := by
  unfold stackOf
  omega

theorem vtOf_of_page (s : State) {a b : Nat} (h : b / 4096 = a / 4096) : s.vtOf b = s.vtOf a := by
  rw [State.vtOf, stackOf_of_page h, h, State.vtOf]

/-- The page of `a` lies whole in a V region of `z` bytes, whose frames are at least a page apart. -/
structure State.onVPage (s : State) (a z : Nat) : Prop where
  apart : 4096 ≤ z
  region : ∀ b, b / 4096 = a / 4096 → ∃ g, s.vRegion b = some (z, g)

section
variable {s : State} {a b z : Nat} (hv : s.onVPage a z) (hb : b / 4096 = a / 4096)
include hv hb

theorem committedAddr_onVPage : s.committedAddr b = inFrame z (s.vtOf a).vb b := by
  obtain ⟨g, hg⟩ := hv.region b hb
  rw [State.committedAddr, hg, ← vtOf_of_page s hb]
  rfl

theorem strandAddr_onVPage : s.strandAddr b = inFrame z ((s.vtOf a).vb != (s.vtOf a).t) b := by
  obtain ⟨g, hg⟩ := hv.region b hb
  rw [State.strandAddr, hg, ← vtOf_of_page s hb]
  rfl

theorem shadowAddr_onVPage : s.shadowAddr b = inFrame z (!(s.vtOf a).vb) b := by
  obtain ⟨g, hg⟩ := hv.region b hb
  rw [State.shadowAddr, hg, ← vtOf_of_page s hb]
  dsimp only
  cases (s.vtOf b).vb <;> rfl

end

theorem State.onVPage.congr {s t : State} {a z : Nat} (hv : s.onVPage a z) (hp : t.prog = s.prog) (hr : t.regs = s.regs) :
    t.onVPage a z :=
  ⟨hv.apart, fun b hb => (vRegion_congr hp hr b).symm ▸ hv.region b hb⟩

/-! ## The first write to a page -/

theorem vtOf_putBytes (s : State) (k : Nat) (l : List Byte) (a : Nat) (ht : Bank.wf stackDefault s.tarns = true) :
    (s.putBytes k l).vtOf a = s.vtOf a := by
  have h := State.putBytes_stack_keeps (·.vt) s k l (stackOf a) ht fun _ _ => rfl
  rw [State.vtOf, h, State.vtOf]

theorem vtOf_setVt_page (s : State) (a : Nat) (e : VtEntry) (he : e ≠ {}) (ht : Bank.wf stackDefault s.tarns = true) :
    (s.setVt (a / 4096 * 4096) e).vtOf a = e := by
  have hstack : stackOf (a / 4096 * 4096) = stackOf a := stackOf_of_page (by omega)
  have hpage : a / 4096 * 4096 / 4096 = a / 4096 := by omega
  rw [State.vtOf, State.setVt, hstack, State.stack_setStack_same _ _ _ ht, hpage]
  exact Bank.get_put_same_of_ne _ _ _ _ he

/-- A version table entry is all that changes in a base. -/
theorem setVt_stack_keeps {α : Type} (f : Stack → α) (s : State) (a : Nat) (e : VtEntry) (j : Nat) (ht : Bank.wf stackDefault s.tarns = true)
    (hf : ∀ (k : Stack) (v : Bank VtEntry), f { k with vt := v } = f k) : f ((s.setVt a e).stack j) = f (s.stack j) :=
  State.stack_setStack_keeps f s _ j _ ht (hf _ _)

theorem byte_setVt (s : State) (a : Nat) (e : VtEntry) (b : Nat) (ht : Bank.wf stackDefault s.tarns = true) :
    (s.setVt a e).byte b = s.byte b :=
  State.byte_congr _ _ _ (setVt_stack_keeps (·.trained) s a e _ ht fun _ _ => rfl) (setVt_stack_keeps (·.token) s a e _ ht fun _ _ => rfl)
    rfl rfl

/-- Tables of memory and of the bases in canonical form, with every base trained that a frame of the page lies on. -/
structure State.frameReady (s : State) (a z : Nat) : Prop where
  mem : Memory.wf s.mem = true
  tarns : Bank.wf stackDefault s.tarns = true
  trained : ∀ b, b / 4096 = a / 4096 → ∀ one, inFrame z one b < tarnTop → (s.stack (stackOf (inFrame z one b))).trained = true

theorem State.frameReady.putBytes {s : State} {a z : Nat} (h : s.frameReady a z) (k : Nat) (l : List Byte) :
    (s.putBytes k l).frameReady a z where
  mem := State.putBytes_mem_wf s k l h.mem
  tarns := State.putBytes_stacks_wf s k l h.tarns
  trained b hb one hlt := by
    rw [State.putBytes_stack_keeps (·.trained) s k l _ h.tarns fun _ _ => rfl]
    exact h.trained b hb one hlt

theorem State.frameReady.setVt {s : State} {a z : Nat} (h : s.frameReady a z) (k : Nat) (e : VtEntry) : (s.setVt k e).frameReady a z where
  mem := h.mem
  tarns := Bank.put_wf _ _ _ _ h.tarns
  trained b hb one hlt := by
    rw [setVt_stack_keeps (·.trained) s k e _ h.tarns fun _ _ => rfl]
    exact h.trained b hb one hlt

/-- What touching the page of `a` leaves in `u`: the mark, the committed frame, and unless the write covers the page (`whole`) in the shadow
frame what a strand has read. -/
structure State.touchedTo (s u : State) (a z : Nat) (whole : Bool) : Prop where
  ready : u.frameReady a z
  entry : u.vtOf a = { s.vtOf a with t := true }
  committed : ∀ b, b / 4096 = a / 4096 → u.byte (inFrame z (s.vtOf a).vb b) = s.byte (inFrame z (s.vtOf a).vb b)
  shadow : whole = false → ∀ b, b / 4096 = a / 4096 →
    u.byte (inFrame z (!(s.vtOf a).vb) b) = s.byte (inFrame z ((s.vtOf a).vb != (s.vtOf a).t) b)

section
variable {s : State} {a z : Nat} (hv : s.onVPage a z) (hr : s.frameReady a z)
include hv hr

/-- The committed page is copied into the shadow frame. -/
theorem touchedTo_copy (ht : (s.vtOf a).t = false) :
    s.touchedTo ((s.putBytes (s.shadowAddr (a / 4096 * 4096)) (s.bytes (s.committedAddr (a / 4096 * 4096)) 4096)).setVt
      (a / 4096 * 4096) { s.vtOf a with t := true }) a z false := by
  have hpage : a / 4096 * 4096 / 4096 = a / 4096 := by omega
  rw [shadowAddr_onVPage hv hpage, committedAddr_onVPage hv hpage]
  have hlen : (s.bytes (inFrame z (s.vtOf a).vb (a / 4096 * 4096)) 4096).length = 4096 := by simp [State.bytes]
  have hput := hr.putBytes (inFrame z (!(s.vtOf a).vb) (a / 4096 * 4096)) (s.bytes (inFrame z (s.vtOf a).vb (a / 4096 * 4096)) 4096)
  refine ⟨hput.setVt _ _, vtOf_setVt_page _ a _ (by simp) hput.tarns, fun b hb => ?_, fun _ b hb => ?_⟩
  · rw [byte_setVt _ _ _ _ hput.tarns, State.byte_putBytes_other s _ _ _ hr.tarns]
    rw [hlen]
    exact inFrame_ne hv.apart _ (by omega) (by omega)
  · obtain ⟨i, rfl⟩ : ∃ i, b = a / 4096 * 4096 + i := ⟨b - a / 4096 * 4096, by omega⟩
    have hi : i < 4096 := by omega
    rw [byte_setVt _ _ _ _ hput.tarns, inFrame_add, State.byte_putBytes_same s _ _ i (by rwa [hlen]) hr.mem hr.tarns, ht, Bool.bne_false,
      inFrame_add]
    · simp [State.bytes]
    · rw [← inFrame_add]
      exact hr.trained _ hb _

theorem touchedTo_touch (whole : Bool) : s.touchedTo (s.touch a whole) a z whole := by
  obtain ⟨g, hg⟩ := hv.region a rfl
  cases ht : (s.vtOf a).t with
  | true =>
    have htouch : s.touch a whole = s := by
      rw [State.touch, hg]
      exact if_pos ht
    rw [htouch]
    refine ⟨hr, by rw [← ht], fun _ _ => rfl, fun _ b _ => ?_⟩
    rw [ht, Bool.bne_true]
  | false =>
    have htouch : s.touch a whole = (if whole then s else s.putBytes (s.shadowAddr (a / 4096 * 4096))
        (s.bytes (s.committedAddr (a / 4096 * 4096)) 4096)).setVt (a / 4096 * 4096) { s.vtOf a with t := true } := by
      rw [State.touch, hg]
      exact if_neg (by rw [ht]; decide)
    rw [htouch]
    cases whole with
    | false => exact touchedTo_copy hv hr ht
    | true =>
      refine ⟨hr.setVt _ _, vtOf_setVt_page s a _ (by simp) hr.tarns, fun b _ => byte_setVt s _ _ _ hr.tarns, nofun⟩

end

/-! ## A strand's write within one page (R211, R277) -/

theorem storeAux_nil (n : Nat) (s : State) (a : Nat) : State.storeAux n s a [] = s := by
  cases n <;> rfl

/-- A write within one page of a V region touches the page and then goes to its shadow frame. -/
theorem store_onVPage {s : State} {a z : Nat} {l : List Byte} (hv : s.onVPage a z) (hl : l ≠ []) (hfit : a % 4096 + l.length ≤ 4096) :
    ∃ whole, (whole = true → a % 4096 = 0 ∧ l.length = 4096) ∧
      s.store a l = (s.touch a whole).putBytes ((s.touch a whole).shadowAddr a) l := by
  refine ⟨decide (4096 - a % 4096 = 4096 ∧ l.length = 4096), fun h => ?_, ?_⟩
  · have := of_decide_eq_true h
    omega
  · have htake : l.take (4096 - a % 4096) = l := List.take_of_length_le (by omega)
    have hdrop : l.drop (4096 - a % 4096) = [] := List.drop_of_length_le (by omega)
    obtain ⟨g, hg⟩ := hv.region a rfl
    rw [State.store, State.storeAux, if_neg (by simpa using hl)]
    dsimp only
    rw [htake, hdrop, storeAux_nil, vRegion_congr (State.touch_prog ..) (State.touch_regs ..), hg]
    rfl

/-- Settles O56: the page is touched, its committed frame stays, and the shadow frame holds what was written over what was read. -/
theorem versionedPagesKeepTheCommittedCopy : Obligations.VersionedPagesKeepTheCommittedCopy := by
  unfold Obligations.VersionedPagesKeepTheCommittedCopy
  intro s a z g l hc hl hfit hz hz0 hregion htrained
  obtain ⟨hmem, -, htarns, -⟩ := (State.canonical_iff s).1 hc
  have hv : s.onVPage a z := ⟨hz, fun b hb => ⟨g, hregion b hb⟩⟩
  have hr : s.frameReady a z := by
    refine ⟨hmem, htarns, fun b hb one hlt => htrained _ ?_ hlt⟩
    cases one
    · exact .inl hb
    · right
      show (a + z) / 4096 = (b + z) / 4096
      omega
  obtain ⟨whole, hwhole, hstore⟩ := store_onVPage hv hl hfit
  obtain ⟨hready, hentry, hcommitted, hshadow⟩ := touchedTo_touch hv hr whole
  have hvu : (s.touch a whole).onVPage a z := hv.congr (State.touch_prog ..) (State.touch_regs ..)
  rw [shadowAddr_onVPage hvu rfl, hentry] at hstore
  dsimp only at hstore
  generalize s.touch a whole = u at hready hentry hcommitted hshadow hvu hstore
  have hvt : (u.putBytes (inFrame z (!(s.vtOf a).vb) a) l).vtOf a = { s.vtOf a with t := true } :=
    (vtOf_putBytes u _ l a hready.tarns).trans hentry
  have hput : (u.putBytes (inFrame z (!(s.vtOf a).vb) a) l).onVPage a z :=
    hvu.congr (State.putBytes_prog ..) (State.putBytes_regs ..)
  rw [hstore]
  generalize hw : u.putBytes (inFrame z (!(s.vtOf a).vb) a) l = w at hvt hput
  have hstrand (b : Nat) (hb : b / 4096 = a / 4096) : w.strandAddr b = inFrame z (!(s.vtOf a).vb) b := by
    rw [strandAddr_onVPage hput hb, hvt, Bool.bne_true]
  have hother (k : Nat) (hk : k < inFrame z (!(s.vtOf a).vb) a ∨ inFrame z (!(s.vtOf a).vb) a + l.length ≤ k) : w.byte k = u.byte k :=
    hw ▸ State.byte_putBytes_other u _ l k hready.tarns hk
  refine ⟨by rw [hvt], by rw [hvt], fun b hb => ?_, ?_, fun b hb hout => ?_⟩
  · rw [committedAddr_onVPage hput hb, committedAddr_onVPage hv hb, hvt]
    dsimp only
    rw [hother _ (inFrame_ne hz _ hfit hb), hcommitted b hb]
  · refine List.ext_getElem (by simp [State.load]) fun i _ hi => ?_
    have hb : (a + i) / 4096 = a / 4096 := by omega
    have hread : w.byte (inFrame z (!(s.vtOf a).vb) a + i) = l[i] := by
      rw [← hw]
      refine State.byte_putBytes_same u _ l i hi hready.mem hready.tarns ?_
      rw [← inFrame_add]
      exact hready.trained _ hb _
    simp only [State.load, List.getElem_map, List.getElem_range]
    rw [hstrand _ hb, inFrame_add, hread]
  · rw [hstrand b hb, strandAddr_onVPage hv hb, hother, hshadow ?_ b hb]
    · exact Bool.eq_false_iff.2 fun h => by
        obtain ⟨h0, hlen⟩ := hwhole h
        omega
    · cases (s.vtOf a).vb <;> simp only [inFrame, Bool.not_true, Bool.not_false, if_true, if_false, Bool.false_eq_true] <;> omega

end Sys2Proof.Machine
end

section
/-! PROOFS. The stash: what the copies of a spill and of a return leave, when a block comes back, and STASH_FULL. -/
namespace Sys2Proof.Machine

/-! ## Events of any strand -/

/-- An event leaves the step's record but what a run-ahead holds. -/
theorem raiseCtx_step (s : State) (code inst unit : Nat) (c : EvCtx) (d : List Byte) :
    (s.raiseCtx code inst unit c d).step = { s.step with ra := (s.raiseCtx code inst unit c d).step.ra } := by
  have hold (t : State) (ra : Bool) (r : EventRec) (h : t.step = s.step) :
      (t.logOrHold ra r).step = { s.step with ra := (t.logOrHold ra r).step.ra } := by
    unfold State.logOrHold
    split
    · rw [← h]
    · rw [State.logRecord_step, h]
  unfold State.raiseCtx
  split
  · exact hold _ _ _ (State.flagEvent_step ..)
  · split
    · rw [State.flagEvent_step]
    · rfl

theorem flagsGrow_logOrHold (s : State) (ra : Bool) (r : EventRec) : flagsGrow s (s.logOrHold ra r) := by
  unfold State.logOrHold
  split
  · exact flagsGrow_of_regs rfl
  · exact flagsGrow_logRecord s r

/-- An event of any strand, of a run-ahead too, leaves its flag set. -/
theorem flagSet_raiseCtx_any (s : State) (code inst unit : Nat) (c : EvCtx) (d : List Byte) {b : Block} {n : Nat}
    (he : evFlag code = some (b, n)) (hb : b ≠ .fct) (hm : s.mainOn = true) (hc : s.canonical = true) :
    flagSet (s.raiseCtx code inst unit c d) b inst n := by
  obtain ⟨-, hw, -, -⟩ := (State.canonical_iff s).1 hc
  have hn : n < 8 := evFlag_bit code b n he
  have hf : s.flagEvent code inst = s.raiseFlag b inst n := by rw [State.flagEvent, he]
  rw [State.raiseCtx, if_pos hm, hf]
  exact flagSet_of_grow (flagsGrow_logOrHold _ _ _) ((flagsGrow_raiseFlag s b inst n hn) hw).1 hb (flagSet_raiseFlag s b inst n hn hw)

/-- A cause other than a veto is reported at once, whichever attempt it strikes. -/
theorem causeIn_of_no_veto (s : State) (ra : Bool) (c : Cause) (h1 : c.code ≠ 1) (h2 : c.code ≠ 2) : s.causeIn ra c = s.addCause c := by
  rw [State.causeIn, if_neg (by simp [h1, h2])]

/-! ## Copy frames to the Spillway -/

theorem framesOnly_sendTwin (s : State) (d : LinkData) : framesOnly s (s.sendTwin d) := by
  unfold State.sendTwin
  split
  · exact framesOnly_linkSend s _ d
  · exact framesOnly_refl s

theorem framesOnly_toSpillway (s : State) (b : Spilled) (f : CopyFrame) : framesOnly s (s.toSpillway b f) := by
  unfold State.toSpillway
  split
  · exact framesOnly_sendTwin s _
  · exact framesOnly_sendRank s _ _ _

theorem framesOnly_stash {s t : State} (h : framesOnly s t) : t.stash = s.stash := by rw [h.1]

theorem framesOnly_prog {s t : State} (h : framesOnly s t) : t.prog = s.prog := by rw [h.1]

/-! ## SPILL (R206) -/

/-- What the Spillway area holds of a block that is copied out to an offset. -/
def State.spilledAt (s : State) (b : Block4) (off : Nat) : Spilled :=
  ⟨b.id, b.shard, b.ra, s.stash.toTwin, s.stash.peer, off, b.size,
    (List.range (b.size / 4096)).map fun i => crc32c (s.bytes (b.addr + 4096 * i) 4096), b.addr, List.range (b.size / 4096), none⟩

/-- The module with the block listed as spilled, before its pages are sent. -/
def State.spillListed (s : State) (b : Block4) (off : Nat) : State :=
  ({ s with stash := { s.stash with spilled := s.stash.spilled ++ [s.spilledAt b off] } } : State).bump .step 0 0x5C 1

/-- Beside the list and the count, only frames are sent. -/
theorem spill_framesOnly (s : State) (b : Block4) (off : Nat) : framesOnly (s.spillListed b off) (s.spill b off) :=
  framesOnly_foldl _ (fun t _ => framesOnly_toSpillway t _ _) _ _

theorem spill_keeps (s : State) (b : Block4) (off : Nat) :
    (s.spill b off).stash = { s.stash with spilled := s.stash.spilled ++ [s.spilledAt b off] } ∧ (s.spill b off).mem = s.mem ∧
      (s.spill b off).step = s.step ∧ (s.spill b off).prog = s.prog :=
  have h := spill_framesOnly s b off
  ⟨framesOnly_stash h, (framesOnly_mem h).trans rfl, (framesOnly_step h).trans rfl, (framesOnly_prog h).trans rfl⟩

section
variable {s : State} {id shard : Nat} {g : Program} (hg : s.prog = some g)
include hg

theorem exec_spill_of_none (h : s.stash.resident.find? (s.spillReady g id shard) = none) : exec (.spill ⟨id, shard⟩) s = .next s := by
  show execSpill ⟨id, shard⟩ s = _
  rw [execSpill, hg]
  dsimp only
  rw [h]

variable {b : Block4} (h : s.stash.resident.find? (s.spillReady g id shard) = some b)
include h

/-- The block stays, and is not considered again. -/
theorem exec_spill_of_no_place (hp : s.stash.spillPlace b.size = none) :
    exec (.spill ⟨id, shard⟩) s = .next (s.setStash { s.stash with
      resident := s.stash.resident.map fun x => if x.isBlock id shard b.ra then { x with spillable := false } else x }) := by
  show execSpill ⟨id, shard⟩ s = _
  rw [execSpill, hg]
  dsimp only
  rw [h]
  dsimp only
  rw [hp]

theorem exec_spill_of_place {off : Nat} (hp : s.stash.spillPlace b.size = some off) :
    exec (.spill ⟨id, shard⟩) s = .next (s.spill b off) := by
  show execSpill ⟨id, shard⟩ s = _
  rw [execSpill, hg]
  dsimp only
  rw [h]
  dsimp only
  rw [hp]

end

theorem spillReady_names {s : State} {g : Program} {id shard : Nat} {b : Block4} (h : s.spillReady g id shard b = true) :
    b.id = id ∧ b.shard = shard := by
  simp only [State.spillReady, Bool.and_eq_true, beq_iff_eq] at h
  obtain ⟨⟨⟨⟨hid, hshard⟩, -⟩, -⟩, -⟩ := h
  exact ⟨hid, hshard⟩

/-! ## STASH_RETURN (R207, R209) -/

/-- A block of a lower identifier is to come back first to the same die. -/
def State.laterThanOther (s : State) (g : Program) (b : Spilled) (die : Nat) : Bool :=
  s.stash.spilled.any fun q => q.ra == b.ra && decide (q.id < b.id) && s.returnDue g q &&
    (stashEntry g q.id q.shard).any fun x => x.die == die

theorem laterThanOther_iff (s : State) (g : Program) (b : Spilled) (die : Nat) :
    s.laterThanOther g b die = true ↔ ∃ q ∈ s.stash.spilled, q.ra = b.ra ∧ q.id < b.id ∧ s.returnDue g q = true ∧
      ∃ x, stashEntry g q.id q.shard = some x ∧ x.die = die := by
  simp [State.laterThanOther, Option.any_eq_true, and_assoc]

/-- What a block that may come back meets. -/
def State.returnTo (s : State) (g : Program) (a : Attempt) (e : StashEntry) (b : Spilled) : State :=
  match firstFit (pondRegions g e.die) s.stash.used b.size with
  | some addr => s.startReturn b addr
  | none =>
    if s.stuck g b.ra a e.die then
      match s.strand? e.returnAt with
      | some t => s.stashFull b.ra a t e true
      | none => s
    else s

section
variable {s : State} {g : Program} {a : Attempt} {e : StashEntry} {b : Spilled} (hg : s.prog = some g)
  (hb : (s.stash.spilled.find? fun q => q.id == b.id && q.shard == b.shard) = some b)
  (he : stashEntry g b.id b.shard = some e) (ha : s.attempt b.ra = some a)
include hg hb he ha

theorem exec_stashReturn : exec (.stashReturn ⟨b.id, b.shard⟩) s =
    guarded (s.returnDue g b && b.unacked.isEmpty && !s.laterThanOther g b e.die) s (s.returnTo g a e b) := by
  show execStashReturn ⟨b.id, b.shard⟩ s = _
  rw [execStashReturn, hg]
  dsimp only
  rw [hb]
  dsimp only
  rw [he, ha]
  rfl

theorem exec_stashReturn_of_not_due (h : s.returnDue g b = false ∨ b.unacked ≠ [] ∨ s.laterThanOther g b e.die = true) :
    exec (.stashReturn ⟨b.id, b.shard⟩) s = .next s := by
  rw [exec_stashReturn hg hb he ha]
  refine guarded_of_false _ _ ?_
  rcases h with h | h | h <;> simp [h]

theorem exec_stashReturn_of_due (hd : s.returnDue g b = true) (hu : b.unacked = []) (hl : s.laterThanOther g b e.die = false) :
    exec (.stashReturn ⟨b.id, b.shard⟩) s = .next (s.returnTo g a e b) := by
  rw [exec_stashReturn hg hb he ha]
  exact guarded_of_true _ _ (by simp [hd, hu, hl])

omit hg hb in
theorem returnDue_eq : s.returnDue g b = (b.returning.isNone && a.started.contains e.returnAt) := by
  simp [State.returnDue, he, ha]

end

/-- The module with the place taken for the pages to come, before they are asked for. -/
def State.returnListed (s : State) (b : Spilled) (addr : Nat) : State :=
  s.setStash { s.stash with spilled := s.stash.spilled.map fun q => if q.isBlock b.id b.shard b.ra then { q with returning := some (addr, []) } else q }

theorem startReturn_framesOnly (s : State) (b : Spilled) (addr : Nat) : framesOnly (s.returnListed b addr) (s.startReturn b addr) :=
  framesOnly_foldl _ (fun t _ => framesOnly_toSpillway t _ _) _ _

theorem startReturn_keeps (s : State) (b : Spilled) (addr : Nat) :
    (s.startReturn b addr).stash = (s.returnListed b addr).stash ∧ (s.startReturn b addr).mem = s.mem ∧
      (s.startReturn b addr).step = s.step :=
  have h := startReturn_framesOnly s b addr
  ⟨framesOnly_stash h, (framesOnly_mem h).trans rfl, (framesOnly_step h).trans rfl⟩

/-- STASH_FULL is a cause of the layer at the strand's cut. -/
theorem stashFull_keeps (s : State) (ra : Bool) (a : Attempt) (t : Strand) (e : StashEntry) (ret : Bool) :
    (s.stashFull ra a t e ret).stash = s.stash ∧ (s.stashFull ra a t e ret).step.att = s.step.att ∧
      (s.stashFull ra a t e ret).step.causes = s.step.causes ++ [⟨3, e.layer, strandCut t, a.step, false⟩] ∧
      (s.mainOn = true → s.canonical = true → flagSet (s.stashFull ra a t e ret) .step 0 3) := by
  have hfull : s.stashFull ra a t e ret = (s.raiseCtx 0x0330 0 7 { ctxOf ra a with layer := e.layer }
      (leBytes 4 e.id ++ leBytes 1 (b2n ret) ++ leBytes 2 e.layer)).addCause ⟨3, e.layer, strandCut t, a.step, false⟩ :=
    causeIn_of_no_veto _ _ _ (by simp) (by simp)
  rw [hfull]
  refine ⟨State.raiseCtx_stash .., ?_, ?_, fun hm hc => flagSet_raiseCtx_any s 0x0330 0 7 _ _ rfl (by decide) hm hc⟩
  · show (State.raiseCtx ..).step.att = _
    rw [raiseCtx_step]
  · show (State.raiseCtx ..).step.causes ++ _ = _
    rw [raiseCtx_step]

/-- Settles O39: SPILL lists the block and sends its pages, and STASH_RETURN is carried out where `returnTo` is due. -/
theorem stashSpillsAndReturns : Obligations.StashSpillsAndReturns := by
  unfold Obligations.StashSpillsAndReturns
  refine ⟨?spill, fun s id shard g hg h => exec_spill_of_none hg h, ?ret⟩
  case spill =>
    intro s id shard g b hg h
    obtain ⟨rfl, rfl⟩ := spillReady_names (List.find?_some h)
    refine ⟨fun hp => answers_of_eq (exec_spill_of_no_place hg h hp) ⟨rfl, rfl, rfl, rfl, rfl⟩, fun off hp => ?_⟩
    obtain ⟨hstash, hmem, hstep, hprog⟩ := spill_keeps s b off
    refine answers_of_eq (exec_spill_of_place hg h hp) ⟨?_, hmem, hstep, hprog, s.spilledAt b off, ?_, ?_, rfl, rfl, rfl, rfl, rfl⟩
    · rw [hstash]
    · rw [hstash]
    · simp [Spilled.isBlock, State.spilledAt]
  case ret =>
    intro s id shard g a e b hg hb he ha
    obtain ⟨rfl, rfl⟩ : b.id = id ∧ b.shard = shard := by simpa using List.find?_some hb
    have hdue := returnDue_eq he ha
    refine ⟨fun h => exec_stashReturn_of_not_due hg hb he ha ?_, fun hstart hret hack hfirst => ?_⟩
    · rcases h with h | h | h
      · exact .inl (by rw [hdue]; simp [h])
      · exact .inr (.inl h)
      · exact .inr (.inr ((laterThanOther_iff s g b e.die).2 h))
    · have hfirst' : s.laterThanOther g b e.die = false := by
        refine Bool.eq_false_iff.2 fun h => ?_
        obtain ⟨q, hq, hra, hid, hqdue, x, hx, hdie⟩ := (laterThanOther_iff s g b e.die).1 h
        exact hfirst q hq hra hid hqdue x hx hdie
      have hnext := exec_stashReturn_of_due hg hb he ha (by rw [hdue]; simp [hret, hstart]) hack hfirst'
      refine ⟨fun addr hfit => ?_, fun hfull hstuck => ?_, fun t hfull hstuck ht => ?_⟩
      · rw [State.returnTo, hfit] at hnext
        obtain ⟨hstash, hmem, hstep⟩ := startReturn_keeps s b addr
        refine answers_of_eq hnext ⟨?_, hmem, hstep, ?_⟩ <;> rw [hstash] <;> rfl
      · rw [State.returnTo, hfull, hstuck] at hnext
        exact hnext
      · rw [State.returnTo, hfull] at hnext
        dsimp only at hnext
        rw [if_pos hstuck, ht] at hnext
        exact answers_of_eq hnext (stashFull_keeps s b.ra a t e true)

end Sys2Proof.Machine
end

section
/-! PROOFS. What taking a post leaves of the module (R214, R239, R240, R245, R251, R255). -/
namespace Sys2Proof.Machine

/-! ## Events and vetoes of the open attempt -/

theorem raiseCtx_att (s : State) (code inst unit : Nat) (c : EvCtx) (d : List Byte) :
    (s.raiseCtx code inst unit c d).step.att = s.step.att := by
  rw [raiseCtx_step]

theorem numEvent_att (s : State) (code unit inst : Nat) (c : EvCtx) : (s.numEvent code unit inst c).step.att = s.step.att := by
  unfold State.numEvent
  dsimp only
  split
  · rw [State.raiseFlag_step, raiseCtx_att]
  · rw [raiseCtx_att]

/-- A veto counts in the attempt's finite vote, and leaves what is applied. -/
theorem vetoIn_applied (s : State) (l : Nat) (cut : Cut) :
    (s.vetoIn false false l cut).step.att.map (·.applied) = s.step.att.map (·.applied) := by
  unfold State.vetoIn
  cases ha : s.attempt false with
  | none => rfl
  | some a =>
    have hatt : s.step.att = some a := ha
    dsimp only
    show Option.map _ (State.raiseCtx ..).step.att = _
    rw [raiseCtx_att, hatt]
    rfl

/-! ## What stays -/

/-- The Inlets with some more update-ratio partials. -/
def InletSt.addParts (x : InletSt) (l : List RatioPart) : InletSt := { x with parts := x.parts ++ l }

/-- The program, the fabric and the applied marks stay, and of what the Inlets hold all but the partials and the counts. -/
structure postsStay (s t : State) : Prop where
  prog : t.prog = s.prog
  fab : t.fab = s.fab
  inl : t.inl = { s.inl with parts := t.inl.parts, counts := t.inl.counts }
  applied : t.step.att.map (·.applied) = s.step.att.map (·.applied)

namespace postsStay

variable {s t u : State}

theorem refl (s : State) : postsStay s s := ⟨rfl, rfl, rfl, rfl⟩

theorem trans (h : postsStay s t) (g : postsStay t u) : postsStay s u :=
  ⟨g.prog.trans h.prog, g.fab.trans h.fab, by rw [g.inl, h.inl], g.applied.trans h.applied⟩

theorem of_inl (hprog : t.prog = s.prog) (hfab : t.fab = s.fab) (hinl : t.inl = s.inl) (hatt : t.step.att = s.step.att) : postsStay s t :=
  ⟨hprog, hfab, by rw [hinl], by rw [hatt]⟩

theorem posts (h : postsStay s t) : t.inl.posts = s.inl.posts := by rw [h.inl]

theorem seen (h : postsStay s t) : t.inl.seen = s.inl.seen := by rw [h.inl]

theorem ite {c : Prop} [Decidable c] (h : postsStay s t) (g : postsStay s u) : postsStay s (if c then t else u) := by
  split
  · exact h
  · exact g

theorem store (h : postsStay s t) (a : Nat) (bs : List Byte) : postsStay s (t.store a bs) :=
  h.trans (of_inl (by simp) (by simp) (by simp) (by simp))

theorem storePages (h : postsStay s t) (p : Program) (k : Pages) (a : Nat) (bs : List Byte) : postsStay s (t.storePages p k a bs) :=
  ite (h.store a bs) h

theorem bump (h : postsStay s t) (b : Block) (i o n : Nat) : postsStay s (t.bump b i o n) :=
  h.trans (of_inl rfl rfl rfl rfl)

theorem bump64 (h : postsStay s t) (b : Block) (i o n : Nat) : postsStay s (t.bump64 b i o n) :=
  h.trans (of_inl rfl rfl rfl rfl)

theorem addParts (h : postsStay s t) (l : List RatioPart) : postsStay s { t with inl := t.inl.addParts l } :=
  h.trans ⟨rfl, rfl, rfl, rfl⟩

theorem inletNum (h : postsStay s t) (a : Attempt) (code die : Nat) (e : UpdateEntry) : postsStay s (t.inletNum a code die e) :=
  h.trans (of_inl (State.numEvent_prog ..) (State.numEvent_fab ..) (State.numEvent_inl ..) (numEvent_att ..))

theorem inletIllegal (h : postsStay s t) (a : Attempt) (die : Nat) (e : UpdateEntry) (e8 : Nat) :
    postsStay s (t.inletIllegal a die e e8) :=
  ite (h.inletNum a _ die e) h

theorem vetoIn (h : postsStay s t) (l : Nat) (cut : Cut) : postsStay s (t.vetoIn false false l cut) :=
  h.trans ⟨State.vetoIn_prog .., State.vetoIn_fab .., by rw [State.vetoIn_inl], vetoIn_applied ..⟩

theorem inletVeto (h : postsStay s t) (e : UpdateEntry) (bad : Bool) (cut : Option Cut) : postsStay s (t.inletVeto e bad cut) := by
  cases cut with
  | none => exact h
  | some c => exact ite h (h.vetoIn e.layer c)

/-- A fold that carries something beside the state. -/
theorem foldl_fst {β γ : Type} (f : State × γ → β → State × γ) (hf : ∀ x b, postsStay x.1 (f x b).1) (l : List β) :
    ∀ x : State × γ, postsStay x.1 (l.foldl f x).1 := by
  induction l with
  | nil => exact fun x => refl x.1
  | cons b l ih => exact fun x => (hf x b).trans (ih (f x b))

theorem foldl_pair {β γ : Type} {f : State × γ → β → State × γ} {l : List β} {c d : γ} (h : l.foldl f (s, c) = (t, d))
    (hf : ∀ x b, postsStay x.1 (f x b).1) : postsStay s t := by
  have hfold := foldl_fst f hf l (s, c)
  rwa [h] at hfold

theorem foldl {β : Type} (f : State → β → State) (hf : ∀ x b, postsStay x (f x b)) (l : List β) :
    ∀ s, postsStay s (l.foldl f s) := by
  induction l with
  | nil => exact refl
  | cons b l ih => exact fun s => (hf s b).trans (ih (f s b))

end postsStay

/-! ## One block of 128 elements -/

theorem storePages_inl (s : State) (p : Program) (k : Pages) (a : Nat) (bs : List Byte) : (s.storePages p k a bs).inl = s.inl := by
  simp [State.storePages]

theorem inletNum_inl (s : State) (a : Attempt) (code die : Nat) (e : UpdateEntry) : (s.inletNum a code die e).inl = s.inl :=
  State.numEvent_inl ..

theorem inletIllegal_inl (s : State) (a : Attempt) (die : Nat) (e : UpdateEntry) (e8 : Nat) : (s.inletIllegal a die e e8).inl = s.inl := by
  simp [State.inletIllegal, inletNum_inl]

section
variable (s : State) (p : Program) (a : Attempt) (e : UpdateEntry) (die : Nat) (k : Pages) (i j0 : Nat) (f : Nat → Word → Word → NewElem)

theorem postsStay_applyBlock : postsStay s (s.applyBlock p a e die k i j0 f).1 := by
  unfold State.applyBlock
  extract_lets facu o vAt wAt mAt out ms b s1 s2 s3 s4 s5 part t x s6 s7 s8
  have h4 : postsStay s s4 := ((((postsStay.refl s).storePages ..).storePages ..).storePages ..).storePages ..
  have h5 : postsStay s s5 := .ite (h4.storePages ..) h4
  have h6 : postsStay s s6 := .ite (((h5.bump64 ..).store ..).addParts _) h5
  have h7 : postsStay s s7 := .ite h6 (h6.inletIllegal ..)
  exact .ite (h7.inletNum ..) h7

/-- The block's two runs give a partial each, where its weights are written. -/
theorem applyBlock_inl : ∃ x y : RatioPart, x.tensor = e.tensor ∧ y.tensor = e.tensor ∧
    (s.applyBlock p a e die k i j0 f).1.inl =
      if k.writes p (tarnAddr e.wh + 2 * (i * e.cols + j0)) then s.inl.addParts [x, y] else s.inl := by
  unfold State.applyBlock
  extract_lets facu o vAt wAt mAt out ms b s1 s2 s3 s4 s5 part t x s6 s7 s8
  have h5 : s5.inl = s.inl := by
    simp only [s5, s4, s3, s2, s1, State.ite_inl, storePages_inl, ite_self]
  have ht : t.inl = s.inl := by
    rw [← h5]
    exact State.store_inl ..
  have h7 : s7.inl = s6.inl := by
    simp only [s7, State.ite_inl, inletIllegal_inl, ite_self]
  have h8 : s8.inl = s7.inl := by
    simp only [s8, State.ite_inl, inletNum_inl, ite_self]
  refine ⟨part 0, part 1, rfl, rfl, ?_⟩
  rw [h8, h7]
  simp only [s6]
  split
  · show t.inl.addParts _ = _
    rw [ht]
  · exact h5

end

/-- A step of an update that applies one block and gathers its cut. -/
def appliesBlock (p : Program) (a : Attempt) (e : UpdateEntry) (die : Nat) (k : Pages) (F : State × Option Cut → Nat → State × Option Cut) :
    Prop :=
  ∀ x b, ∃ i j0 f, (F x b).1 = (x.1.applyBlock p a e die k i j0 f).1

section
variable {p : Program} {a : Attempt} {e : UpdateEntry} {die : Nat} {k : Pages} {F : State × Option Cut → Nat → State × Option Cut}
  (hF : appliesBlock p a e die k F)
include hF

theorem postsStay_blocks {s t : State} {l : List Nat} {c d : Option Cut} (h : l.foldl F (s, c) = (t, d)) : postsStay s t := by
  refine postsStay.foldl_pair h fun x b => ?_
  obtain ⟨i, j0, f, hblock⟩ := hF x b
  rw [hblock]
  exact postsStay_applyBlock ..

/-- An update of all pages gives two partials a block. -/
theorem parts_blocks (hk : k = .all) (l : List Nat) :
    ∀ x : State × Option Cut, (l.foldl F x).1.inl.parts.length = x.1.inl.parts.length + 2 * l.length := by
  subst hk
  induction l with
  | nil => exact fun x => rfl
  | cons b l ih =>
    intro x
    obtain ⟨i, j0, f, h⟩ := hF x b
    obtain ⟨y, z, -, -, hinl⟩ := applyBlock_inl x.1 p a e die .all i j0 f
    rw [← h] at hinl
    rw [List.foldl_cons, ih, hinl]
    simp [Pages.writes, InletSt.addParts]
    omega

end

/-! ## Taking a post (R239, R240, R245) -/

/-- The Inlets with a post taken at the update of some pages. -/
def InletSt.take (x : InletSt) (q : InlPost) (k : Pages) : InletSt :=
  { x with posts := if k = .v then replaceFirst q { q with vDone := true } x.posts else x.posts.erase q
           seen := if k = .u then x.seen else x.seen ++ [q] }

/-- From `s` a post was taken and its mark set, and after that the partials and the counts alone may have changed. -/
structure postTook (s : State) (a : Attempt) (q : InlPost) (k : Pages) (t : State) : Prop where
  prog : t.prog = s.prog
  fab : t.fab = s.fab
  inl : t.inl = { s.inl.take q k with parts := t.inl.parts, counts := t.inl.counts }
  applied : t.step.att.map (·.applied) = some (if k = .u then a.applied else a.applied ++ [(q.tensor, q.index)])

theorem postTook.trans {s t u : State} {a : Attempt} {q : InlPost} {k : Pages} (h : postTook s a q k t) (g : postsStay t u) :
    postTook s a q k u :=
  ⟨g.prog.trans h.prog, g.fab.trans h.fab, by rw [g.inl, h.inl], g.applied.trans h.applied⟩

theorem postTook.att {s t : State} {a : Attempt} {q : InlPost} {k : Pages} (h : postTook s a q k t) :
    ∃ b, t.step.att = some b ∧ b.applied = if k = .u then a.applied else a.applied ++ [(q.tensor, q.index)] :=
  Option.map_eq_some_iff.1 h.applied

theorem markApplied_inl (s : State) (a : Attempt) (q : InlPost) (e : UpdateEntry) (k : Pages) :
    (s.markApplied a q e k).inl = s.inl.take q k := by
  unfold State.markApplied
  dsimp only
  split <;> simp [InletSt.take, *]

theorem postTook_markApplied {s : State} {a : Attempt} (ha : s.step.att = some a) (q : InlPost) (e : UpdateEntry) (k : Pages) :
    postTook s a q k (s.markApplied a q e k) := by
  have hinl := markApplied_inl s a q e k
  refine ⟨?_, ?_, by rw [hinl], ?_⟩ <;> unfold State.markApplied <;> dsimp only <;> split
  · rfl
  · simp
  · rfl
  · simp
  · rw [ha]
    rfl
  · rfl

section
variable (s : State) (p : Program) (e : UpdateEntry) (die : Nat) (k : Pages)

theorem postsStay_countOf : postsStay s (s.countOf p e die k).2 := by
  unfold State.countOf
  split
  · exact .refl s
  · dsimp only
    split
    · exact ((postsStay.refl s).store _ _).trans ⟨rfl, rfl, rfl, rfl⟩
    · exact .refl s

theorem countOf_parts : (s.countOf p e die k).2.inl.parts = s.inl.parts := by
  unfold State.countOf
  split
  · rfl
  · dsimp only
    split
    · simp
    · rfl

end

theorem inletVeto_inl (s : State) (e : UpdateEntry) (bad : Bool) (cut : Option Cut) : (s.inletVeto e bad cut).inl = s.inl := by
  unfold State.inletVeto
  split
  · simp
  · rfl

section
variable (s : State) (p : Program) (a : Attempt) (q : InlPost) (e : UpdateEntry) (k : Pages)

/-- A dense block is one `applyBlock` after the mark and the count, and events and vetoes after it. -/
theorem facBlock_shape : ∃ f e8 bad cut,
    let s1 := ((s.markApplied a q e k).countOf p e q.die k).2
    let s2 := (s1.applyBlock p a e q.die k (blockPos e q.index).1 (blockPos e q.index).2 f).1
    s.facBlock p a q e k = (if k = .u then s2 else s2.inletIllegal a q.die e e8).inletVeto e bad cut :=
  ⟨_, _, _, _, rfl⟩

theorem postTook_facBlock (ha : s.step.att = some a) : postTook s a q k (s.facBlock p a q e k) := by
  obtain ⟨f, e8, bad, cut, h⟩ := facBlock_shape s p a q e k
  have hblock := postsStay_applyBlock ((s.markApplied a q e k).countOf p e q.die k).2 p a e q.die k (blockPos e q.index).1 (blockPos e q.index).2 f
  rw [h]
  exact ((postTook_markApplied ha q e k).trans (postsStay_countOf ..)).trans ((postsStay.ite hblock (hblock.inletIllegal ..)).inletVeto ..)

/-- A dense block whose weights are written gives the partials of its two runs. -/
theorem facBlock_parts (hw : k.writes p (tarnAddr e.wh + 2 * ((blockPos e q.index).1 * e.cols + (blockPos e q.index).2)) = true) :
    ∃ x y : RatioPart, (s.facBlock p a q e k).inl.parts = s.inl.parts ++ [x, y] ∧ x.tensor = e.tensor ∧ y.tensor = e.tensor := by
  obtain ⟨f, e8, bad, cut, h⟩ := facBlock_shape s p a q e k
  obtain ⟨x, y, hx, hy, hinl⟩ := applyBlock_inl ((s.markApplied a q e k).countOf p e q.die k).2 p a e q.die k (blockPos e q.index).1
    (blockPos e q.index).2 f
  refine ⟨x, y, ?_, hx, hy⟩
  rw [h, inletVeto_inl, State.ite_inl, inletIllegal_inl, ite_self, hinl, if_pos hw]
  show (State.countOf ..).2.inl.parts ++ _ = _
  rw [countOf_parts, markApplied_inl]
  rfl

/-- A row is its blocks after the mark and the statistic, and then its count, events and vetoes. -/
theorem rowUpdate_shape : ∃ F at1 bs1 cut1 s2 cut2 at2 bs2 bad, ∃ e8 : Nat → Nat, appliesBlock p a e q.die k F ∧
    (List.range (e.cols / 128)).foldl F ((s.markApplied a q e k).storePages p k at1 bs1, cut1) = (s2, cut2) ∧
    s.rowUpdate p a q e k = (if k = .u then s2.storePages p k at2 bs2
      else (List.range (e.cols / 128)).foldl (fun (u : State) b => u.inletIllegal a q.die e (e8 b))
        ((s2.storePages p k at2 bs2).bump .inl q.die 0x68 1)).inletVeto e bad cut2 := by
  unfold State.rowUpdate
  extract_lets i nb cntAt statAt g t sum old rs rsBad s1 c2
  split
  next s2 cut heq =>
    refine ⟨_, _, _, _, s2, cut, _, _, _, _, ?_, heq, rfl⟩
    intro x b
    dsimp only
    exact ⟨_, _, _, rfl⟩

theorem postTook_rowUpdate (ha : s.step.att = some a) : postTook s a q k (s.rowUpdate p a q e k) := by
  obtain ⟨F, at1, bs1, cut1, s2, cut2, at2, bs2, bad, e8, hF, hs2, h⟩ := rowUpdate_shape s p a q e k
  have hmark := (postTook_markApplied ha q e k).trans ((postsStay.refl _).storePages p k at1 bs1)
  have hcount := (postsStay_blocks hF hs2).storePages p k at2 bs2
  rw [h]
  exact hmark.trans ((postsStay.ite hcount ((hcount.bump ..).trans (.foldl _ (fun x b => (postsStay.refl x).inletIllegal ..) _ _))).inletVeto ..)

/-- A row updated in all its pages gives two partials a block. -/
theorem rowUpdate_parts (hk : k = .all) :
    (s.rowUpdate p a q e k).inl.parts.length = s.inl.parts.length + 2 * (e.cols / 128) := by
  obtain ⟨F, at1, bs1, cut1, s2, cut2, at2, bs2, bad, e8, hF, hs2, h⟩ := rowUpdate_shape s p a q e k
  have hparts := parts_blocks hF hk (List.range (e.cols / 128)) ((s.markApplied a q e k).storePages p k at1 bs1, cut1)
  rw [hs2, List.length_range] at hparts
  have hinl : (s.rowUpdate p a q e k).inl = s2.inl := by
    rw [h, inletVeto_inl, State.ite_inl, State.foldl_inl _ _ _ fun _ _ => inletIllegal_inl .., State.bump_inl, storePages_inl, ite_self]
  rw [hinl, hparts, storePages_inl, markApplied_inl]
  rfl

end

/-! ## GRADIENT_BLOCK and ROW_RECORD -/

/-- The command that takes a dense block, or a row record. -/
def postCmd (sparse : Bool) (die : Nat) : Instr := if sparse then .rowRecord die else .gradientBlock die none

/-- What becomes of a post that is neither dropped nor ignored: the rows of a record and the blocks of FAC and FACU are updated now, a PRE
block waits for its unit. -/
def State.postUpdated (s : State) (die : Nat) (sparse : Bool) (g : Program) (a : Attempt) (q : InlPost) (e : UpdateEntry) (k : Pages) :
    State :=
  if sparse then s.rowUpdate g a q e k
  else if e.rule = .pre then (s.markApplied a q e .all).inletIllegal a die e (s.postBlock q 0).1
  else s.facBlock g a q e k

section
variable {s : State} {die : Nat} {sparse : Bool} {g : Program} {a : Attempt} {q : InlPost} {e : UpdateEntry} {k : Pages}
  (hg : s.prog = some g) (ha : s.step.att = some a) (hq : (s.nextPost g a die fun e => e.sparse == sparse) = some (q, e, k))
  (hw : s.entryWaits e = false) (hlr : a.lr ≠ none) (hc : s.step.committing = false)
include hg ha hq hw hlr hc

/-- The next post of a kind is dropped, ignored, or updated with the lines it reads and writes. -/
theorem exec_postCmd : ∃ reads writes, exec (postCmd sparse die) s =
    .next (s.takePost a q e (s.strandIO false 2 reads writes (s.postUpdated die sparse g a q e k))) := by
  have hgo : (!s.entryWaits e && a.lr.isSome && !s.step.committing) = true := by
    simp [hw, hc, Option.isSome_iff_ne_none, hlr]
  cases sparse with
  | true =>
    have hpick : s.nextPost g a die (fun e => e.sparse) = some (q, e, k) := by simpa using hq
    show ∃ _ _, execRowRecord die s = _
    unfold execRowRecord
    rw [hg, ha]
    dsimp only
    rw [hpick]
    exact ⟨_, _, guarded_of_true _ _ hgo⟩
  | false =>
    have hpick : s.nextPost g a die (fun e => !e.sparse) = some (q, e, k) := by simpa using hq
    show ∃ _ _, execGradientBlock die none s = _
    unfold execGradientBlock
    rw [hg, ha]
    dsimp only
    rw [hpick]
    dsimp only
    rw [guarded_of_true _ _ hgo, State.postUpdated]
    by_cases hr : e.rule = .pre
    · exact ⟨_, _, by rw [if_pos hr, if_neg Bool.false_ne_true, if_pos hr]; rfl⟩
    · exact ⟨_, _, by rw [if_neg hr, if_neg Bool.false_ne_true, if_neg hr]; rfl⟩

theorem exec_postCmd_of_frozen (hf : e.frozen = true) : exec (postCmd sparse die) s = .next (s.frozenPost a q e) := by
  obtain ⟨reads, writes, h⟩ := exec_postCmd hg ha hq hw hlr hc
  rw [h, State.takePost, if_pos hf]

theorem exec_postCmd_of_applied (hf : e.frozen = false) (hv : q.vDone = false) (hm : (q.tensor, q.index) ∈ a.applied) :
    exec (postCmd sparse die) s = .next (s.redelivered q) := by
  obtain ⟨reads, writes, h⟩ := exec_postCmd hg ha hq hw hlr hc
  rw [h, State.takePost, if_neg (by simp [hf]), if_pos (by simp [hv, hm])]

theorem exec_postCmd_of_taken (hf : e.frozen = false) (hn : q.vDone = true ∨ (q.tensor, q.index) ∉ a.applied) (hclean : cleanTarn s) :
    exec (postCmd sparse die) s = .next (s.postUpdated die sparse g a q e k) := by
  obtain ⟨reads, writes, h⟩ := exec_postCmd hg ha hq hw hlr hc
  rw [h, State.takePost, if_neg (by simp [hf]), if_neg, State.strandIO_of_clean _ _ _ _ _ _ hclean]
  rcases hn with h | h <;> simp [h]

end

/-! ### A post for a frozen tensor (R251) -/

theorem eventOnly_setStep {s t : State} (x : StepSeq) (h : eventOnly s t) : eventOnly { s with step := x } { t with step := x } := by
  obtain ⟨h1, h2, h3⟩ := h
  exact ⟨by rw [h1], h2, h3⟩

/-- The post goes and is counted. -/
def State.dropped (s : State) (q : InlPost) : State :=
  ({ s with inl := { s.inl with posts := s.inl.posts.erase q } } : State).bump .inl q.die 0x6C 1

theorem regAddr_ne_of_offset (b c : Block) (i j : Nat) {o o' : Nat} (h : o < 0x1000) (h' : o' < 0x1000) (hne : o ≠ o') :
    regAddr b i o ≠ regAddr c j o' := by
  intro heq
  have hmod : regAddr b i o % 0x1000 = regAddr c j o' % 0x1000 := congrArg (· % 0x1000) heq
  rw [pageBase_mod _ _ _ h, pageBase_mod _ _ _ h'] at hmod
  exact hne hmod

/-- The register that says whether a frozen post is a cause changes with no event. -/
theorem isEventReg_frozenControl (d : Nat) : isEventReg (regAddr .inl d 0x14) = false := by
  have hhead := regAddr_ne_of_offset .inl .policy d 0 (o := 0x14) (o' := 0x4C) (by decide) (by decide) (by decide)
  have hlost := regAddr_ne_of_offset .inl .policy d 0 (o := 0x14) (o' := 0x54) (by decide) (by decide) (by decide)
  simp [isEventReg, pageBase_mod, hhead, hlost]

theorem frozenPost_keeps (s : State) (a : Attempt) (q : InlPost) (e : UpdateEntry) :
    (s.frozenPost a q e).inl = { s.inl with posts := s.inl.posts.erase q } ∧
      (s.frozenPost a q e).step = (if bit (s.reg .inl q.die 0x14) 0 then
        { s.step with causes := s.step.causes ++ [⟨5, e.layer, .at e.layer, a.step, false⟩] } else s.step) ∧
      eventOnly { s.dropped q with step := (s.frozenPost a q e).step } (s.frozenPost a q e) := by
  have hev := eventOnly_raiseCtx (s.dropped q) 0x0502 q.die 5 { ctxOf false a with layer := e.layer, tensor := some e.tensor }
    (leBytes 4 e.tensor ++ leBytes 4 q.index) rfl
  have hpost : s.frozenPost a q e =
      let t := (s.dropped q).raiseCtx 0x0502 q.die 5 { ctxOf false a with layer := e.layer, tensor := some e.tensor }
        (leBytes 4 e.tensor ++ leBytes 4 q.index)
      if bit (t.reg .inl q.die 0x14) 0 then t.addCause ⟨5, e.layer, .at e.layer, a.step, false⟩ else t := rfl
  generalize State.raiseCtx .. = t at hev hpost
  have hinl : t.inl = (s.dropped q).inl := by rw [hev.1]
  have hstep : t.step = s.step := (eventOnly_step hev).trans rfl
  have hreg : t.reg .inl q.die 0x14 = s.reg .inl q.die 0x14 := by
    have hbump : (s.dropped q).regAt (regAddr .inl q.die 0x14) = s.regAt (regAddr .inl q.die 0x14) :=
      State.regAt_bump_other _ _ _ _ _ _ (regAddr_ne_of_offset _ _ _ _ (by decide) (by decide) (by decide))
    exact (hev.2.1 _ (isEventReg_frozenControl q.die)).trans hbump
  rw [hpost]
  dsimp only
  rw [hreg]
  split
  · refine ⟨hinl, ?_, ?_⟩
    · rw [← hstep]; rfl
    · exact eventOnly_setStep _ hev
  · exact ⟨hinl, hstep, eventOnly_setStep _ hev⟩

/-! ### An uncorrectable error of the block buffer (R259) -/

theorem blockBufferError_keeps (s : State) (die w : Nat) :
    let t := (s.raiseEv 0x0505 die (leBytes 4 w)).markFaulted
    t.cp = .faulted ∧ t.inl = s.inl ∧ t.mainOn = s.mainOn ∧ eventOnly { s with cp := .faulted, step := t.step } t := by
  intro t
  have hev := eventOnly_raiseEv s 0x0505 die (leBytes 4 w)
  have ht : t = { s.raiseEv 0x0505 die (leBytes 4 w) with step := t.step, cp := .faulted } := markFaulted_eq _
  obtain ⟨h1, h2, h3⟩ := hev
  refine ⟨rfl, ?_, ?_, ?_⟩
  · rw [ht, h1]
  · rw [ht, h1]; rfl
  · rw [ht]
    exact ⟨by rw [h1], h2, h3⟩

/-- The pages that an update writes when it takes a post: a PRE block is taken once. -/
def takenPages (sparse : Bool) (e : UpdateEntry) (k : Pages) : Pages := if sparse = false ∧ e.rule = .pre then .all else k

theorem postTook_postUpdated {s : State} {a : Attempt} (ha : s.step.att = some a) (die : Nat) (sparse : Bool) (g : Program) (q : InlPost)
    (e : UpdateEntry) (k : Pages) : postTook s a q (takenPages sparse e k) (s.postUpdated die sparse g a q e k) := by
  unfold State.postUpdated takenPages
  cases sparse with
  | true => exact postTook_rowUpdate s g a q e k ha
  | false =>
    by_cases hr : e.rule = .pre
    · rw [if_neg Bool.false_ne_true, if_pos hr, if_pos ⟨rfl, hr⟩]
      exact (postTook_markApplied ha q e .all).trans ((postsStay.refl _).inletIllegal ..)
    · rw [if_neg Bool.false_ne_true, if_neg hr, if_neg fun h => hr h.2]
      exact postTook_facBlock s g a q e k ha

/-- The partials and the counts after a PRE block is taken. -/
theorem postUpdated_pre {s : State} {a : Attempt} {e : UpdateEntry} (hr : e.rule = .pre) (die : Nat) (g : Program) (q : InlPost) (k : Pages) :
    (s.postUpdated die false g a q e k).inl = s.inl.take q .all := by
  rw [State.postUpdated, if_neg Bool.false_ne_true, if_pos hr, inletIllegal_inl, markApplied_inl]

/-- Settles O40: `exec_postCmd` says which of the four a post meets; `postTook` and the partials of `applyBlock` are what an update leaves. -/
theorem inletTakesPosts : Obligations.InletTakesPosts := by
  unfold Obligations.InletTakesPosts
  refine ⟨fun s die w hup => answers_of_eq (guarded_of_true _ _ hup) (blockBufferError_keeps s die w), ?_⟩
  rintro s die sparse g a q e k ⟨hg, ha, hq, hw, hlr, hc⟩
  refine ⟨fun hf => ?_, fun hf hv hm => exec_postCmd_of_applied hg ha hq hw hlr hc hf hv hm, fun hf hn hclean => ?_⟩
  · obtain ⟨hinl, hstep, hev⟩ := frozenPost_keeps s a q e
    refine answers_of_eq (exec_postCmd_of_frozen hg ha hq hw hlr hc hf) ⟨by rw [hinl], by rw [hinl], hstep, ?_⟩
    rw [hinl]
    exact hev
  · have htook := postTook_postUpdated ha die sparse g q e k
    refine answers_of_eq (exec_postCmd_of_taken hg ha hq hw hlr hc hf hn hclean) ⟨htook.prog, htook.fab, ?_, ?_, htook.att, ?_, ?_, ?_⟩
    · rw [htook.inl]
      rfl
    · rw [htook.inl]
      rfl
    · rintro rfl hr
      rw [postUpdated_pre hr]
      exact ⟨rfl, rfl⟩
    · rintro rfl hr hwrites
      rw [State.postUpdated, if_neg Bool.false_ne_true, if_neg hr]
      refine facBlock_parts s g a q e k ?_
      simpa [hr] using hwrites
    · rintro rfl hk
      exact rowUpdate_parts s g a q e k (by simpa using hk)

end Sys2Proof.Machine
end

section
/-! PROOFS. PRE units, the statistics, and the refresh of roots (R214, R247 to R249). -/
namespace Sys2Proof.Machine

/-! ## PRE_BLOCK (R248) -/

/-- The Inlets with a PRE unit done: its V pages, or all that were left of it. -/
def InletSt.unitDone (x : InletSt) (tensor unit : Nat) (k : Pages) : InletSt :=
  if k = .v then { x with preV := x.preV ++ [(tensor, unit)] } else { x with pre := x.pre ++ [(tensor, unit)] }

theorem postsStay_preBlock (s : State) (p : Program) (e : UpdateEntry) (k : Pages) (block : Nat) (m : List (List Word)) :
    postsStay s (s.preBlock p e k block m).1 := by
  unfold State.preBlock
  exact ((postsStay.refl s).storePages ..).storePages ..

/-- The unit's statistics and blocks are written, and then the unit is marked. -/
theorem preUpdate_shape (s : State) (p : Program) (a : Attempt) (e : UpdateEntry) (die unit : Nat) (k : Pages) (m : List (List Word)) :
    ∃ u cut, postsStay s u ∧
      s.preUpdate p a e die unit k m = ({ u with inl := u.inl.unitDone e.tensor unit k } : State).inletVeto e false cut := by
  unfold State.preUpdate
  extract_lets n
  split
  next i0 j0 w hrect =>
  split
  next t s1 hcount =>
  split
  next s2 ps cut1 hblocks =>
  extract_lets dir
  split
  next s3 cut hrows =>
  refine ⟨s3, cut, ?_, rfl⟩
  have h1 : postsStay s s1 := by
    have h := postsStay_countOf s p e die k
    rw [hcount] at h
    exact h
  have h2 : postsStay s1 s2 := postsStay.foldl_pair hblocks fun x b => postsStay_preBlock ..
  have h3 : postsStay s2 s3 := postsStay_blocks (fun x b => by dsimp only; exact ⟨_, _, _, rfl⟩) hrows
  exact (h1.trans h2).trans h3

theorem preUpdate_keeps (s : State) (p : Program) (a : Attempt) (e : UpdateEntry) (die unit : Nat) (k : Pages) (m : List (List Word)) :
    let t := s.preUpdate p a e die unit k m
    t.inl.preV = (if k = .v then s.inl.preV ++ [(e.tensor, unit)] else s.inl.preV) ∧
      t.inl.pre = (if k = .v then s.inl.pre else s.inl.pre ++ [(e.tensor, unit)]) ∧ t.inl.posts = s.inl.posts ∧
      t.inl.seen = s.inl.seen ∧ t.prog = s.prog ∧ t.fab = s.fab := by
  intro t
  obtain ⟨u, cut, hu, ht⟩ := preUpdate_shape s p a e die unit k m
  have hveto := (postsStay.refl ({ u with inl := u.inl.unitDone e.tensor unit k } : State)).inletVeto e false cut
  have hinl : t.inl = u.inl.unitDone e.tensor unit k := (congrArg State.inl ht).trans (inletVeto_inl ..)
  refine ⟨?_, ?_, ?_, ?_, (congrArg State.prog ht).trans (hveto.prog.trans hu.prog), (congrArg State.fab ht).trans (hveto.fab.trans hu.fab)⟩ <;>
    rw [hinl, hu.inl] <;> by_cases hk : k = .v <;> simp [InletSt.unitDone, hk]

section
variable {s : State} {die tensor unit : Nat} {g : Program} {a : Attempt} {y : UpdateEntry} {m : List (List Word)} {k : Pages}
  (hg : s.prog = some g) (ha : s.step.att = some a) (hy : updateOf g tensor = some y) (hm : s.preGrad (forDie y die) die unit = some m)
  (hk : phaseOf g a (forDie y die) (s.inl.preV.contains (tensor, unit)) = some k)
include hg ha hy hm hk

theorem exec_preBlock : exec (.preBlock die tensor unit) s =
    guarded ((forDie y die).rule == .pre && !(forDie y die).frozen && !s.stops g a (some (forDie y die).layer) &&
      !s.inl.pre.contains (tensor, unit) && !s.entryWaits (forDie y die) && a.lr.isSome && !s.step.committing && !m.isEmpty) s
      (s.preStep g a (forDie y die) die unit k m) := by
  show execPreBlock die tensor unit s = _
  rw [execPreBlock, hg, ha]
  dsimp only
  rw [hy]
  dsimp only [Option.map]
  rw [hm, hk]

theorem exec_preBlock_of_done (h : (tensor, unit) ∈ s.inl.pre) : exec (.preBlock die tensor unit) s = .next s := by
  rw [exec_preBlock hg ha hy hm hk]
  exact guarded_of_false _ _ (by simp [h])

theorem exec_preBlock_of_clean (hr : (forDie y die).rule = .pre) (hf : (forDie y die).frozen = false) (hn : (tensor, unit) ∉ s.inl.pre)
    (hs : s.stops g a (some (forDie y die).layer) = false) (hw : s.entryWaits (forDie y die) = false) (hlr : a.lr ≠ none)
    (hc : s.step.committing = false) (hne : m ≠ []) (hclean : cleanTarn s) :
    exec (.preBlock die tensor unit) s = .next (s.preUpdate g a (forDie y die) die unit k m) := by
  rw [exec_preBlock hg ha hy hm hk, guarded_of_true]
  · exact congrArg _ (State.strandIO_of_clean _ _ _ _ _ _ hclean)
  · simp [hr, hf, hn, hs, hw, hc, hne, Option.isSome_iff_ne_none, hlr]

end

/-! ## STATISTICS_PASS (R247) -/

theorem putPartials_stays (s : State) (e : UpdateEntry) (die : Nat) (ps : List Nat) :
    (s.putPartials e die ps).inl = s.inl ∧ (s.putPartials e die ps).regs = s.regs ∧ (s.putPartials e die ps).step = s.step ∧
      (s.putPartials e die ps).prog = s.prog ∧ (s.putPartials e die ps).fab = s.fab := by
  simp [State.putPartials]

theorem releaseAt_inl (s : State) (ra : Bool) (p : Program) (id : Nat) : (s.releaseAt ra p id).inl = s.inl :=
  State.foldl_inl _ _ s fun _ _ => rfl

theorem releaseAt_fab (s : State) (ra : Bool) (p : Program) (id : Nat) : (s.releaseAt ra p id).fab = s.fab :=
  State.foldl_fab _ _ s fun _ _ => rfl

theorem completeStrand_inl {s : State} {g : Program} (hg : s.prog = some g) (ra : Bool) (id : Nat) :
    (s.completeStrand ra id).inl = s.inl := by
  rw [State.completeStrand, hg]
  dsimp only
  rw [releaseAt_inl, State.markDone_inl]

theorem completeStrand_fab {s : State} {g : Program} (hg : s.prog = some g) (ra : Bool) (id : Nat) :
    (s.completeStrand ra id).fab = s.fab := by
  rw [State.completeStrand, hg]
  dsimp only
  rw [releaseAt_fab, State.markDone_fab]

/-- The partials are in SCR, and the tensor's pass on the die is over. -/
def State.passDone (s : State) (e : UpdateEntry) (die tensor : Nat) : State :=
  let t := s.putPartials e die (s.ownedPieces e die)
  { t with inl := { t.inl with passed := t.inl.passed ++ [(die, tensor)] } }

section
variable {s : State} {id die tensor : Nat} {g : Program} {a : Attempt} {y : UpdateEntry} {t : Strand}
  (hg : s.prog = some g) (ha : s.step.att = some a)
include hg ha

theorem passDone_completes (e : UpdateEntry) (hd : id ∉ a.done) :
    let u := (s.passDone e die tensor).completeStrand false id
    u.inl = { s.inl with passed := s.inl.passed ++ [(die, tensor)] } ∧ u.mem = (s.putPartials e die (s.ownedPieces e die)).mem ∧
      u.step.att = some { a with done := a.done ++ [id] } ∧ u.regs = s.regs ∧ u.prog = s.prog ∧ u.fab = s.fab := by
  intro u
  obtain ⟨hinl, hregs, hstep, hprog, hfab⟩ := putPartials_stays s e die (s.ownedPieces e die)
  have hp : (s.passDone e die tensor).prog = some g := hprog.trans hg
  have hatt : (s.passDone e die tensor).step.att = some a := (congrArg StepSeq.att hstep).trans ha
  obtain ⟨-, -, hmem, hpkeep, -⟩ := completeStrand_keeps (ra := false) (id := id) hp hatt
  refine ⟨?_, hmem, ?_, (completeStrand_regs hp false id).trans hregs, hpkeep.trans hprog, (completeStrand_fab hp false id).trans hfab⟩
  · rw [completeStrand_inl hp]
    exact congrArg (fun x : InletSt => { x with passed := x.passed ++ [(die, tensor)] }) hinl
  · rw [completeStrand_step _ g a id hp hatt hd]

theorem exec_statisticsPass_of_clean (ht : s.strand? id = some t) (hkind : t.kind = .statsPass die tensor) (hy : updateOf g tensor = some y)
    (hclean : cleanTarn s) (hstart : id ∈ a.started) (hd : id ∉ a.done) (hs : s.stops g a (some (forDie y die).layer) = false)
    (hr : (forDie y die).rule = .fac) (hsp : (forDie y die).sparse = false) (hgate : gateShut g a (forDie y die).layer = false)
    (hall : (forDie y die).frozen = true ∨ (∀ k ∈ s.ownedPieces (forDie y die) die, ∀ b ∈ pieceBlocks (forDie y die) k, (tensor, b) ∈ a.applied) ∧
      ∀ q ∈ s.inl.posts, q.die = die → q.tensor ≠ tensor) :
    exec (.statisticsPass id) s = .next ((s.passDone (forDie y die) die tensor).completeStrand false id) := by
  show execStatisticsPass id s = _
  unfold execStatisticsPass
  rw [hg, ha, ht]
  dsimp only [Option.map]
  rw [hkind]
  dsimp only
  rw [hy]
  dsimp only
  rw [guarded_of_true, State.strandIO_of_clean _ _ _ _ _ _ hclean]
  · rfl
  · have hready : (forDie y die).frozen = false → ((s.ownedPieces (forDie y die) die).all fun k => (pieceBlocks (forDie y die) k).all fun b =>
        a.applied.contains (tensor, b)) = true ∧ (s.inl.posts.any fun q => q.die == die && q.tensor == tensor) = false := by
      intro hf
      obtain ⟨happlied, hposts⟩ := hall.resolve_left (by simp [hf])
      exact ⟨by simpa using happlied, by simpa using hposts⟩
    cases hf : (forDie y die).frozen with
    | true => simp [hstart, hd, hs, hr, hsp, hgate]
    | false =>
      obtain ⟨happlied, hposts⟩ := hready hf
      rw [happlied, hposts]
      simp [hstart, hd, hs, hr, hsp, hgate]

end

/-! ## STATISTICS_RESULT (R247) -/

section
variable {s : State} {die tensor rowSums colSums : Nat} {g : Program} {a : Attempt} {y : UpdateEntry}
  (hg : s.prog = some g) (ha : s.step.att = some a) (hy : updateOf g tensor = some y)
include hg ha hy

/-- The sums are taken once: `t` holds the new statistics, and a veto may follow. -/
theorem exec_statisticsResult : ∃ t reads writes cut, postsStay s t ∧ t.inl = s.inl ∧ exec (.statisticsResult die tensor rowSums colSums) s =
    guarded (s.inl.passed.contains (die, tensor) && !s.inl.stats.contains (die, tensor) && !s.entryWaits (forDie y die) &&
        !(forDie y die).frozen && !s.step.committing && !a.skip && !s.stops g a (some (forDie y die).layer) &&
        onDie die (tarnAddr rowSums) (4 * (forDie y die).rows) && onDie die (tarnAddr colSums) (4 * (forDie y die).cols)) s
      (s.strandIO false 2 reads writes
        (({ t with inl := { t.inl with stats := t.inl.stats ++ [(die, tensor)] } } : State).inletVeto (forDie y die) false cut)) := by
  show ∃ t reads writes cut, _ ∧ _ ∧ execStatisticsResult die tensor rowSums colSums s = _
  unfold execStatisticsResult
  rw [hg, ha]
  dsimp only
  rw [hy]
  dsimp only [Option.map]
  refine ⟨_, _, _, _, ?_, ?_, rfl⟩
  · exact .ite ((postsStay.refl s).store ..) (((postsStay.refl s).store ..).store ..)
  · simp

theorem exec_statisticsResult_of_taken (h : (die, tensor) ∈ s.inl.stats ∨ (die, tensor) ∉ s.inl.passed) :
    exec (.statisticsResult die tensor rowSums colSums) s = .next s := by
  obtain ⟨t, reads, writes, cut, -, -, hexec⟩ := exec_statisticsResult (die := die) (rowSums := rowSums) (colSums := colSums) hg ha hy
  rw [hexec]
  exact guarded_of_false _ _ (by rcases h with h | h <;> simp [h])

theorem statisticsResult_updates (hp : (die, tensor) ∈ s.inl.passed) (hn : (die, tensor) ∉ s.inl.stats)
    (hw : s.entryWaits (forDie y die) = false) (hf : (forDie y die).frozen = false) (hc : s.step.committing = false)
    (hskip : a.skip = false) (hs : s.stops g a (some (forDie y die).layer) = false)
    (hrow : onDie die (tarnAddr rowSums) (4 * (forDie y die).rows) = true)
    (hcol : onDie die (tarnAddr colSums) (4 * (forDie y die).cols) = true) (hclean : cleanTarn s) :
    answers (.statisticsResult die tensor rowSums colSums) s fun u =>
      u.inl.stats = s.inl.stats ++ [(die, tensor)] ∧ u.inl.passed = s.inl.passed ∧ u.prog = s.prog ∧ u.fab = s.fab := by
  obtain ⟨t, reads, writes, cut, ht, hinl, hexec⟩ :=
    exec_statisticsResult (die := die) (rowSums := rowSums) (colSums := colSums) hg ha hy
  rw [guarded_of_true _ _ (by simp [hp, hn, hw, hf, hc, hskip, hs, hrow, hcol]), State.strandIO_of_clean _ _ _ _ _ _ hclean] at hexec
  have hveto := (postsStay.refl ({ t with inl := { t.inl with stats := t.inl.stats ++ [(die, tensor)] } } : State)).inletVeto
    (forDie y die) false cut
  refine answers_of_eq hexec ⟨?_, ?_, hveto.prog.trans ht.prog, hveto.fab.trans ht.fab⟩
  · rw [inletVeto_inl]
    exact congrArg (·.stats ++ _) hinl
  · rw [inletVeto_inl]
    exact congrArg (·.passed) hinl

end

/-! ## ROOT_REFRESH (R249) -/

/-- One side of a PRE block is staged for its kernel; with a trace of zero nothing is written, and the kernel has nothing to iterate on. -/
def State.rootStaged (s : State) (id at' : Nat) (x : Option (List (List Word) × List (List Word) × List (List Word))) : State :=
  match x with
  | none => { s with inl := { s.inl with staged := s.inl.staged ++ [(id, true)] } }
  | some (x, y, z) =>
    let t := s.putWords at' ((x ++ y ++ z).flatMap fun r => r)
    { t with inl := { t.inl with staged := t.inl.staged ++ [(id, false)] } }

theorem rootStaged_keeps (s : State) (id at' : Nat) (x : Option (List (List Word) × List (List Word) × List (List Word))) :
    let u := s.rootStaged id at' x
    u.units = s.units ∧ u.step = s.step ∧ u.regs = s.regs ∧
      ∃ z, u.inl = { s.inl with staged := s.inl.staged ++ [(id, z)] } ∧ (z = true → u.mem = s.mem) := by
  cases x with
  | none => exact ⟨rfl, rfl, rfl, true, rfl, fun _ => rfl⟩
  | some x =>
    exact ⟨State.putWords_units .., State.putWords_step .., State.putWords_regs .., false,
      congrArg (fun x : InletSt => { x with staged := x.staged ++ [(id, false)] }) (State.putWords_inl ..), nofun⟩

section
variable {s : State} {id : Nat} {g : Program} {a : Attempt} {t : Strand} {d : NsDesc} {y : UpdateEntry}
  (hg : s.prog = some g) (ha : s.step.att = some a) (ht : s.strand? id = some t) (hkind : t.kind = .nsIter d)
  (hy : updateOf g d.tensor = some y)
include hg ha ht hkind hy

theorem exec_rootRefresh : ∃ lines at' x, exec (.rootRefresh id) s =
    guarded (s.refreshStep d.die a.step && s.preDone (forDie y d.die) d.die && !s.stops g a (some (forDie y d.die).layer) &&
      !s.inl.staged.any fun x => x.1 == id) s (s.strandIO false 2 lines [] (s.rootStaged id at' x)) := by
  show ∃ _ _ _, execRootRefresh id s = _
  have hk : (s.strand? id).map Strand.kind = some (.nsIter d) := by rw [ht, Option.map_some, hkind]
  have he : (updateOf g d.tensor).map (fun x => forDie x d.die) = some (forDie y d.die) := by rw [hy, Option.map_some]
  unfold execRootRefresh
  split
  next p b d' hp hb hk' =>
    obtain rfl := Option.some.inj (hg.symm.trans hp)
    obtain rfl := Option.some.inj (ha.symm.trans hb)
    obtain rfl := StrandKind.nsIter.inj (Option.some.inj (hk.symm.trans hk'))
    rw [he]
    exact ⟨_, _, _, rfl⟩
  next h => exact absurd hk (h g a d hg ha)

theorem exec_rootRefresh_of_not_due (h : s.refreshStep d.die a.step = false ∨ s.preDone (forDie y d.die) d.die = false) :
    exec (.rootRefresh id) s = .next s := by
  obtain ⟨lines, at', x, hexec⟩ := exec_rootRefresh hg ha ht hkind hy
  rw [hexec]
  exact guarded_of_false _ _ (by rcases h with h | h <;> simp [h])

theorem rootRefresh_stages (hr : s.refreshStep d.die a.step = true) (hp : s.preDone (forDie y d.die) d.die = true)
    (hs : s.stops g a (some (forDie y d.die).layer) = false) (hclean : cleanTarn s) (hn : ∀ x ∈ s.inl.staged, x.1 ≠ id) :
    answers (.rootRefresh id) s fun u => u.units = s.units ∧ u.step = s.step ∧ u.regs = s.regs ∧
      ∃ z, u.inl = { s.inl with staged := s.inl.staged ++ [(id, z)] } ∧ (z = true → u.mem = s.mem) := by
  obtain ⟨lines, at', x, hexec⟩ := exec_rootRefresh hg ha ht hkind hy
  have hnone : (s.inl.staged.any fun x => x.1 == id) = false := by simpa using hn
  rw [guarded_of_true _ _ (by rw [hnone]; simp [hr, hp, hs]), State.strandIO_of_clean _ _ _ _ _ _ hclean] at hexec
  exact answers_of_eq hexec (rootStaged_keeps ..)

end

/-! ## NS_ITER (R249) -/

/-- A kernel that the command does not name, or that waits, changes nothing. -/
theorem runKernel_of_not_kind {s : State} {ra : Bool} {g : Program} {a : Attempt} {t : Strand} {c : Nat} {isKind : StrandKind → Bool}
    {pass : Program → Attempt → Strand → Nat → Bool → State → State} (h : s.mayBegin ra g a t c) (hcl : s.kernelCluster t = some c)
    (hkind : isKind t.kind = false) (fault : CutFault) : s.runKernel ra t.id fault isKind pass = .next s := by
  obtain ⟨hg, hatt, hstrand, -⟩ := h
  rw [State.runKernel, hg, hatt, hstrand]
  dsimp only
  rw [hcl]
  exact guarded_of_false _ _ (by simp [hkind])

/-- The root or the header waits for an epoch. -/
def State.rootWaits (s : State) (d : NsDesc) : Bool :=
  s.spanWaits (tarnAddr d.root) (4 * (64 * 2 ^ d.pb) ^ 2) || s.writeWaits (tarnAddr d.hdr)

/-- An NS_ITER kernel that waits for nothing. -/
def State.nsFree (s : State) : StrandKind → Bool
  | .nsIter d => !s.spanWaits (tarnAddr d.root) (4 * (64 * 2 ^ d.pb) ^ 2) && !s.writeWaits (tarnAddr d.hdr) && !s.rootShut d
  | _ => false

/-- The spans that the kernel writes: none unless it is a refresh step and a side is staged. -/
def State.nsSpans (s : State) (a : Attempt) (t : Strand) (d : NsDesc) : List (Nat × Nat) :=
  match s.refreshStep d.die a.step, s.inl.staged.find? fun x => x.1 == t.id with
  | true, some (_, skip) => (tarnAddr d.hdr + 8, 8) :: if skip then [] else [(tarnAddr d.root, 4 * (64 * 2 ^ d.pb) * (64 * 2 ^ d.pb))]
  | _, _ => []

/-- The kernel's pass, with the lines of those spans. -/
def State.nsRun (s : State) (ra : Bool) (a : Attempt) (t : Strand) (c : Nat) : State :=
  match t.kind with
  | .nsIter d => s.strandIO ra 0 [] (s.nsSpans a t d) (s.nsPass ra a t c d)
  | _ => s

theorem exec_nsIter (s : State) (ra : Bool) (id : Nat) (fault : CutFault) :
    exec (.nsIter ra id fault) s = s.runKernel ra id fault s.nsFree fun _ a t c _ u => u.nsRun ra a t c := rfl

/-- A kernel whose pass has ended: its outputs are in place. -/
def State.kernelEnds (s : State) (ra : Bool) (t : Strand) (c : Nat) : State :=
  s.setCutter c { s.cutter c with kernel := some (t.id, ra, true), waiting := false }

/-- Events raised before a Cutter's kernel ends and after it come to the same. -/
theorem eventOnly_kernelEnds {s u : State} (h : eventOnly s u) (hunits : u.units = s.units) (ra : Bool) (t : Strand) (c : Nat) :
    eventOnly (s.kernelEnds ra t c) (u.kernelEnds ra t c) := by
  have hcut : u.cutter c = s.cutter c := by rw [State.cutter, State.cutter, hunits]
  obtain ⟨h1, h2, h3⟩ := h
  unfold State.kernelEnds State.setCutter
  rw [hcut, hunits]
  exact ⟨by rw [h1], h2, h3⟩

section
variable {s : State} {ra : Bool} {g : Program} {a : Attempt} {t : Strand} {d : NsDesc}

theorem nsSpans_of_idle (h : s.refreshStep d.die a.step = false ∨ (s.inl.staged.find? fun x => x.1 == t.id) = none) :
    s.nsSpans a t d = [] := by
  rcases h with h | h
  · rw [State.nsSpans, h]
  · rw [State.nsSpans, h]
    split <;> simp_all

section
variable {c : Nat}

theorem nsPass_of_no_refresh (hr : s.refreshStep d.die a.step = false) : s.nsPass ra a t c d = s.kernelEnds ra t c := by
  rw [State.nsPass, hr]
  rfl

variable (hr : s.refreshStep d.die a.step = true)
include hr

theorem nsPass_of_unstaged (hf : (s.inl.staged.find? fun x => x.1 == t.id) = none) : s.nsPass ra a t c d = s := by
  rw [State.nsPass, hr, hf]
  rfl

theorem nsPass_of_no_trace (hf : (s.inl.staged.find? fun x => x.1 == t.id) = some (t.id, true)) :
    s.nsPass ra a t c d = ((s.keepRoot d).rootHeader d a.step).kernelEnds ra t c := by
  rw [State.nsPass, hr, hf]
  rfl

/-- The iteration on what is staged. -/
def State.nsRoot (s : State) (c : Nat) (d : NsDesc) : Option (List (List Word)) :=
  let n := 64 * 2 ^ d.pb
  nsLoop (s.preTol d.die) (s.preIters d.die) (s.poolRows c (d.stage + 4 * n * n) n n)
    (runsOf n (s.words (poolAddr c d.stage + 8 * n * n) (n * n)))

variable (hf : (s.inl.staged.find? fun x => x.1 == t.id) = some (t.id, false))
include hf

theorem nsPass_of_accepted {x : List (List Word)} (hx : s.nsRoot c d = some x) :
    s.nsPass ra a t c d = ((s.storeWords (tarnAddr d.root) (x.flatMap fun r => r)).rootHeader d a.step).kernelEnds ra t c := by
  rw [State.nsPass, hr, hf]
  rw [State.nsRoot] at hx
  dsimp only at hx ⊢
  rw [hx]
  rfl

theorem nsPass_of_kept (hx : s.nsRoot c d = none) :
    eventOnly ((((s.keepRoot d).rootHeader d a.step).bump .inl d.die 0x74 1).kernelEnds ra t c) (s.nsPass ra a t c d) := by
  have hev := eventOnly_raiseCtx (((s.keepRoot d).rootHeader d a.step).bump .inl d.die 0x74 1) 0x0503 d.die 5
    { ctxOf false a with tensor := some d.tensor } (leBytes 4 d.block ++ leBytes 1 (b2n d.right)) rfl
  have hend := eventOnly_kernelEnds hev (State.raiseCtx_units ..) ra t c
  rw [State.nsPass, hr, hf]
  rw [State.nsRoot] at hx
  dsimp only at hx ⊢
  rw [hx]
  exact hend

end

variable (h : s.mayBegin ra g a t (s.physCluster d.cluster)) (hkind : t.kind = .nsIter d)
include h hkind

theorem exec_nsIter_of_waits (hw : s.rootWaits d = true ∨ s.rootShut d = true) : exec (.nsIter ra t.id .none) s = .next s := by
  rw [exec_nsIter]
  refine runKernel_of_not_kind h (by rw [State.kernelCluster, hkind]) ?_ .none
  rw [hkind]
  rcases hw with hw | hw
  · rcases Bool.or_eq_true_iff.1 hw with hw | hw <;> simp [State.nsFree, hw]
  · simp [State.nsFree, hw]

variable (hw : s.rootWaits d = false) (hs : s.rootShut d = false)
include hw hs

theorem exec_nsIter_of_begins : exec (.nsIter ra t.id .none) s =
    .next (s.strandIO ra 0 [] (s.nsSpans a t d) (s.nsPass ra a t (s.physCluster d.cluster) d)) := by
  obtain ⟨hspan, hwrite⟩ := Bool.or_eq_false_iff.1 hw
  have hfree : s.nsFree t.kind = true := by
    rw [hkind]
    simp [State.nsFree, hspan, hwrite, hs]
  have hlines : s.badLines (s.historyLines g t) = [] := by
    rw [historyLines_of_unquantised s g t (by rw [hkind]; rfl)]
    rfl
  rw [exec_nsIter, runKernel_of_clean h (by rw [State.kernelCluster, hkind]) hfree hlines, State.nsRun, hkind]

theorem exec_nsIter_of_idle (hi : s.refreshStep d.die a.step = false ∨ (s.inl.staged.find? fun x => x.1 == t.id) = none) :
    exec (.nsIter ra t.id .none) s = .next (s.nsPass ra a t (s.physCluster d.cluster) d) := by
  rw [exec_nsIter_of_begins h hkind hw hs, nsSpans_of_idle hi]
  exact congrArg _ (State.strandIO_of_none _ _ _ _ _ _ rfl)

theorem exec_nsIter_of_clean (hclean : cleanTarn s) :
    exec (.nsIter ra t.id .none) s = .next (s.nsPass ra a t (s.physCluster d.cluster) d) := by
  rw [exec_nsIter_of_begins h hkind hw hs, State.strandIO_of_clean _ _ _ _ _ _ hclean]

end

/-- Settles O41, part by part. -/
theorem inletStatisticsAndRoots : Obligations.InletStatisticsAndRoots := by
  unfold Obligations.InletStatisticsAndRoots
  refine ⟨⟨?unit, ?pass, ?result⟩, ?refresh, ?iter⟩
  case unit =>
    intro s die tensor unit g a y m k e hg ha hy hm hk
    refine ⟨exec_preBlock_of_done hg ha hy hm hk, fun hr hf hn hs hw hlr hc hne hclean => ?_⟩
    exact answers_of_eq (exec_preBlock_of_clean hg ha hy hm hk hr hf hn hs hw hlr hc hne hclean) (preUpdate_keeps ..)
  case pass =>
    intro s id die tensor g a y t e hg ha ht hkind hy hclean hstart hd hs hr hsp hgate hall
    exact answers_of_eq (exec_statisticsPass_of_clean hg ha ht hkind hy hclean hstart hd hs hr hsp hgate hall)
      (passDone_completes hg ha e hd)
  case result =>
    intro s die tensor rowSums colSums g a y e hg ha hy
    exact ⟨exec_statisticsResult_of_taken hg ha hy, statisticsResult_updates hg ha hy⟩
  case refresh =>
    intro s id g a t d y e hg ha ht hkind hy
    exact ⟨exec_rootRefresh_of_not_due hg ha ht hkind hy, rootRefresh_stages hg ha ht hkind hy⟩
  case iter =>
    intro s ra g a t d c done hg ha ht hkind hhead hfree hrun hgo hroom waits
    have hbegin : s.mayBegin ra g a t c := ⟨hg, ha, ht, hhead, hfree, hrun, hgo, hroom⟩
    refine ⟨exec_nsIter_of_waits hbegin hkind, fun hw hs => ⟨fun hr => ?_, fun hr hf => ?_, fun hr hclean hf => ?_, fun hr hclean hf => ?_⟩⟩
    · rw [exec_nsIter_of_idle hbegin hkind hw hs (.inl hr), nsPass_of_no_refresh hr]
      rfl
    · rw [exec_nsIter_of_idle hbegin hkind hw hs (.inr hf), nsPass_of_unstaged hr hf]
    · rw [exec_nsIter_of_clean hbegin hkind hw hs hclean, nsPass_of_no_trace hr hf]
      rfl
    · have hexec := exec_nsIter_of_clean hbegin hkind hw hs hclean
      have hroot : s.nsRoot c d = nsLoop (s.preTol d.die) (s.preIters d.die) (s.poolRows c (d.stage + 4 * (64 * 2 ^ d.pb) * (64 * 2 ^ d.pb))
        (64 * 2 ^ d.pb) (64 * 2 ^ d.pb)) (runsOf (64 * 2 ^ d.pb) (s.words (poolAddr c d.stage + 8 * (64 * 2 ^ d.pb) * (64 * 2 ^ d.pb))
        ((64 * 2 ^ d.pb) * (64 * 2 ^ d.pb)))) := rfl
      dsimp only
      rw [← hroot]
      split
      next x hx =>
        rw [hexec, nsPass_of_accepted hr hf hx]
        rfl
      next hx => exact answers_of_eq hexec (nsPass_of_kept hr hf hx)

end Sys2Proof.Machine
end

section
/-! PROOFS. Frames of collectives: what a frame of an active collective, of a completed one and of one not yet issued does, and what a stall
does. -/
namespace Sys2Proof.Machine

/-! ## The rows of collective frames (R319) -/

/-- A frame of one collective type. -/
def ofCollType (ct : CollType) (x : RxFrame) : Option CollFrame :=
  match x.data with
  | .coll f => if f.ctype = ct then some f else none
  | _ => none

theorem ofCollType_eq_some {ct : CollType} {x : RxFrame} {f : CollFrame} (h : ofCollType ct x = some f) : f.ctype = ct := by
  unfold ofCollType at h
  split at h
  · split at h
    · next hct => exact Option.some.inj h ▸ hct
    · cases h
  · cases h

/-- The row of a frame type. -/
def collFrameRow : CollType → Instr
  | .seg => .seg
  | .credit => .credit
  | .restart => .restart
  | .fin => .fin
  | .finq => .finq

theorem takeFrame_accepts {α : Type} {s t : State} {p : RxFrame → Option α} {x : RxFrame} {a : α} (h : s.takeFrame p = some (x, a, t)) :
    p x = some a := by
  obtain ⟨e, -, he⟩ := List.exists_of_findSome?_eq_some h
  obtain ⟨b, hb, heq⟩ := Option.map_eq_some_iff.1 he
  simp only [Prod.mk.injEq] at heq
  obtain ⟨rfl, rfl, -⟩ := heq
  exact hb

section
variable {s t : State} {ct : CollType} {x : RxFrame} {f : CollFrame} (h : s.takeFrame (ofCollType ct) = some (x, f, t))
include h

/-- Every row of a frame type does the same with the frame it takes. -/
theorem exec_collFrameRow : exec (collFrameRow ct) s = .next (t.collFrame f) := by
  have hrow : s.collRow ct = t.collFrame f := by
    have htake : s.collRow ct = match s.takeFrame (ofCollType ct) with
      | some (_, f, t) => t.collFrame f
      | none => s := rfl
    rw [htake, h]
  rw [← hrow]
  cases ct <;> rfl

theorem ctype_of_taken : f.ctype = ct := ofCollType_eq_some (takeFrame_accepts h)

end

/-! ## A frame of an active collective (R321, R322, R326, R327) -/

section
variable {t : State} {f : CollFrame} {c : Coll}

theorem onColl_of_some {d dseq : Nat} (h : t.coll? d dseq = some c) (k : Coll → State → State) : t.onColl d dseq k = k c t := by
  rw [State.onColl, h]

theorem onColl_of_none {d dseq : Nat} (h : t.coll? d dseq = none) (k : Coll → State → State) : t.onColl d dseq k = t := by
  rw [State.onColl, h]

theorem feed_seg (h : t.coll? (t.engineOf f.dseq) f.dseq = some c) (hct : f.ctype = .seg) :
    t.feed (t.engineOf f.dseq) f = (t.updColl (t.engineOf f.dseq) f.dseq fun x => x.addSegment (t.segmentsOf c) f).consume
      (t.engineOf f.dseq) f.dseq f.srcMember := by
  rw [State.feed, hct, onColl_of_some h]

theorem feed_finq (h : t.coll? (t.engineOf f.dseq) f.dseq = some c) (hct : f.ctype = .finq)
    (hsent : c.finsTo.contains (if c.aligned then f.level else f.srcMember) = true) :
    t.feed (t.engineOf f.dseq) f = t.sendRank (c.rankOf f.srcMember) f.level (.coll (c.frame .fin f.level)) := by
  rw [State.feed, hct]
  dsimp only
  rw [onColl_of_some h, if_pos hsent]

variable (hfind : (t.allColls.find? fun c => c.dseq == f.dseq) = some c)
include hfind

theorem collFrame_of_beforeBase (hb : t.beforeBase f.dseq = true) : t.collFrame f = t.bump .ceEng (t.engineOf f.dseq) 0x48 1 := by
  rw [State.collFrame, hfind]
  exact if_pos hb

variable (hb : t.beforeBase f.dseq = false)
include hb

/-- What a frame of the present attempt does is decided by its RGEN and its type. -/
theorem collFrame_of_active : t.collFrame f =
    if f.rgen < c.rgen then t.bump .ceEng (t.engineOf f.dseq) 0x48 1
    else if f.ctype = .restart then (if c.rgen < f.rgen then t.adopt (t.engineOf f.dseq) f else t)
    else if c.rgen < f.rgen then t.holdEarly (t.engineOf f.dseq) f
    else (t.feed (t.engineOf f.dseq) f).pump (t.engineOf f.dseq) f.dseq := by
  rw [State.collFrame, hfind]
  exact if_neg (ne_true_of_eq_false hb)

theorem collFrame_of_older (hr : f.rgen < c.rgen) : t.collFrame f = t.bump .ceEng (t.engineOf f.dseq) 0x48 1 := by
  rw [collFrame_of_active hfind hb, if_pos hr]

theorem collFrame_of_present (hr : f.rgen = c.rgen) (hct : f.ctype ≠ .restart) :
    t.collFrame f = (t.feed (t.engineOf f.dseq) f).pump (t.engineOf f.dseq) f.dseq := by
  rw [collFrame_of_active hfind hb, if_neg (by omega), if_neg hct, if_neg (by omega)]

theorem collFrame_of_restart_present (hr : f.rgen = c.rgen) (hct : f.ctype = .restart) : t.collFrame f = t := by
  rw [collFrame_of_active hfind hb, if_neg (by omega), if_pos hct, if_neg (by omega)]

theorem collFrame_of_newer (hr : c.rgen < f.rgen) (hct : f.ctype ≠ .restart) :
    t.collFrame f = t.holdEarly (t.engineOf f.dseq) f := by
  rw [collFrame_of_active hfind hb, if_neg (by omega), if_neg hct, if_pos hr]

theorem collFrame_of_restart_newer (h : t.coll? (t.engineOf f.dseq) f.dseq = some c) (hr : c.rgen < f.rgen)
    (hct : f.ctype = .restart) :
    t.collFrame f = if t.collSpent c then t.collExhausted c else t.restartColl (t.engineOf f.dseq) f.dseq f.rgen := by
  rw [collFrame_of_active hfind hb, if_neg (by omega), if_pos hct, if_pos hr, State.adopt, onColl_of_some h]

end

/-! ## A frame of a collective that this module does not carry (R321, R322, R327) -/

section
variable {t : State} {f : CollFrame} (hfind : (t.allColls.find? fun c => c.dseq == f.dseq) = none)
include hfind

theorem collFrame_of_finished {x : CollDone} (hx : ((t.engine (t.engineOf f.dseq)).finished.find? fun x => x.dseq == f.dseq) = some x) :
    t.collFrame f = if f.ctype = .finq then t.answerDone x f else t.bump .ceEng (t.engineOf f.dseq) 0x48 1 := by
  rw [State.collFrame, hfind]
  dsimp only
  rw [hx]
  rfl

variable (hx : ((t.engine (t.engineOf f.dseq)).finished.find? fun x => x.dseq == f.dseq) = none)
include hx

theorem collFrame_of_unknown : t.collFrame f =
    if (t.beforeBase f.dseq || t.collOver f.dseq) = true then t.bump .ceEng (t.engineOf f.dseq) 0x48 1
    else if f.ctype = .restart then t.recordRestart (t.engineOf f.dseq) f
    else t.holdEarly (t.engineOf f.dseq) f := by
  rw [State.collFrame, hfind]
  dsimp only
  rw [hx]
  rfl

theorem collFrame_of_over (h : t.beforeBase f.dseq = true ∨ t.collOver f.dseq = true) :
    t.collFrame f = t.bump .ceEng (t.engineOf f.dseq) 0x48 1 := by
  rw [collFrame_of_unknown hfind hx, if_pos (by simpa using h)]

theorem collFrame_of_unissued (hb : t.beforeBase f.dseq = false) (ho : t.collOver f.dseq = false) :
    t.collFrame f = if f.ctype = .restart then t.recordRestart (t.engineOf f.dseq) f else t.holdEarly (t.engineOf f.dseq) f := by
  rw [collFrame_of_unknown hfind hx, if_neg (by simp [hb, ho])]

end

/-! ## RESTART_MAX (R328) -/

theorem collExhausted_keeps (s : State) (c : Coll) : (s.collExhausted c).fab = s.fab ∧ (s.collExhausted c).step.att = s.step.att ∧
    (s.collExhausted c).step.causes = s.step.causes ++ [⟨0x13, 0xFFFF, .outside, c.step, false⟩] := by
  rw [State.collExhausted, causeIn_of_no_veto _ _ _ (by decide : 0x13 ≠ 1) (by decide : 0x13 ≠ 2)]
  refine ⟨State.raiseCtx_fab .., raiseCtx_att .., ?_⟩
  rw [State.addCause, raiseCtx_step]

/-! ## What a query leaves (R327) -/

theorem engine_setEngine_of_ne (s : State) (d : Nat) (e : Engine) (h : e ≠ {}) : (s.setEngine d e).engine d = e :=
  Bank.get_put_of_ne_default engineDefault s.fab.engines d h

theorem engine_setEngine_other (s : State) (d i : Nat) (e : Engine) (h : i ≠ d) : (s.setEngine d e).engine i = s.engine i :=
  Bank.get_put_other engineDefault s.fab.engines d i e h

theorem ne_default_of_active {e : Engine} (h : e.active ≠ []) : e ≠ {} := by
  rintro rfl
  exact h rfl

theorem active_of_coll {s : State} {d dseq : Nat} {c : Coll} (h : s.coll? d dseq = some c) : (s.engine d).active ≠ [] := by
  intro hnil
  rw [State.coll?, hnil] at h
  cases h

/-- An active collective is changed by a function that keeps its number. -/
theorem coll_updColl {s : State} {d dseq : Nat} {c : Coll} (h : s.coll? d dseq = some c) (f : Coll → Coll)
    (hf : ∀ x, (f x).dseq = x.dseq) : (s.updColl d dseq f).coll? d dseq = some (f c) := by
  have hsame : ((fun c : Coll => c.dseq == dseq) ∘ fun c => if c.dseq = dseq then f c else c) = fun c => c.dseq == dseq := by
    funext x
    by_cases hx : x.dseq = dseq <;> simp [hx, hf]
  have hc : c.dseq = dseq := by simpa using List.find?_some h
  rw [State.updColl, State.coll?, engine_setEngine_of_ne _ _ _ (ne_default_of_active (by simpa using active_of_coll h))]
  dsimp only
  rw [List.find?_map, hsame, show List.find? _ (s.engine d).active = some c from h]
  simp [hc]

theorem loseColls_nil_coll {s : State} {d dseq : Nat} {c : Coll} (h : s.coll? d dseq = some c) :
    (s.loseColls []).coll? d dseq = some c := by
  unfold State.loseColls
  generalize List.range 4 = l
  induction l generalizing s with
  | nil => exact h
  | cons i l ih =>
    refine ih ?_
    by_cases hi : d = i
    · subst hi
      rw [State.coll?, engine_setEngine_of_ne _ _ _ (ne_default_of_active (by simpa using active_of_coll h))]
      simpa [State.coll?] using h
    · rw [State.coll?, engine_setEngine_other _ _ _ _ hi]
      exact h

/-- The links list a link of this port and address. -/
def listed (l : Link) (ls : List Link) : Prop := ∃ x ∈ ls, x.port = l.port ∧ x.mac = l.mac

theorem putLink_length {l : Link} {ls : List Link} (h : listed l ls) : (putLink l ls).length = ls.length := by
  induction ls with
  | nil =>
    obtain ⟨x, hx, -⟩ := h
    cases hx
  | cons y ls ih =>
    unfold putLink
    split
    · rfl
    · next hne =>
      obtain ⟨x, hx, hk⟩ := h
      rcases List.mem_cons.1 hx with rfl | hx
      · exact absurd hk hne
      · exact congrArg (· + 1) (ih ⟨x, hx, hk⟩)

theorem nextFrame_mem {n : Nat} {full : Bool} {ls : List Link} {l : Link} {d : LinkData} (h : nextFrame n full ls = some (l, d)) :
    l ∈ ls := by
  obtain ⟨k, -, hk⟩ := List.exists_of_findSome?_eq_some h
  obtain ⟨x, hx, hs⟩ := List.exists_of_findSome?_eq_some hk
  split at hs
  · obtain ⟨y, -, hy⟩ := Option.map_eq_some_iff.1 hs
    simp only [Prod.mk.injEq] at hy
    exact hy.1 ▸ hx
  · cases hs

theorem sendFrames_length (n k : Nat) (full : Bool) (ls : List Link) : (sendFrames n k full ls).2.length = ls.length := by
  induction k generalizing full ls with
  | zero => rfl
  | succ k ih =>
    unfold sendFrames
    split
    · next l d hnext =>
      have hmem := nextFrame_mem hnext
      split
      · exact (ih _ _).trans (putLink_length ⟨l, hmem, rfl, rfl⟩)
      · split
        · exact (ih _ _).trans (putLink_length ⟨l, hmem, rfl, rfl⟩)
        · exact ih _ _
    · rfl

theorem transmit_links_length (s : State) (n : Nat) : (s.transmit n).fab.links.length = s.fab.links.length := by
  unfold State.transmit
  split
  · rfl
  · exact sendFrames_length ..

theorem transmit_engine (s : State) (n d : Nat) : (s.transmit n).engine d = s.engine d := by
  unfold State.transmit
  split <;> rfl

theorem linkSend_engine (s : State) (l : Link) (x : LinkData) (d : Nat) : (s.linkSend l x).engine d = s.engine d := transmit_engine ..

theorem linkSend_links_length (s : State) (l : Link) (x : LinkData) (h : listed l s.fab.links) :
    (s.linkSend l x).fab.links.length = s.fab.links.length := (transmit_links_length ..).trans (putLink_length h)

theorem loseColls_links (s : State) (ds : List Nat) : (s.loseColls ds).fab.links = s.fab.links := by
  unfold State.loseColls
  generalize List.range 4 = l
  induction l generalizing s with
  | nil => rfl
  | cons d l ih => exact ih _

theorem routeLink_listed {s : State} {r k : Nat} {l : Link} (h : s.routeLink r k = some l) : listed l s.fab.links := by
  unfold State.routeLink at h
  split at h
  · cases h
  · obtain ⟨j, -, hj⟩ := List.exists_of_findSome?_eq_some h
    split at hj
    · cases hj
    · split at hj
      · next x hx =>
        split at hj
        · exact ⟨x, List.mem_of_find?_eq_some hx, by cases hj; exact ⟨rfl, rfl⟩⟩
        · cases hj
      · cases hj

/-- Messages that name no collective to restart were sent: an active collective, the open attempt and the number of links stay. -/
structure AsksOnly (d dseq : Nat) (s t : State) : Prop where
  coll : ∀ c, s.coll? d dseq = some c → t.coll? d dseq = some c
  att : t.step.att = s.step.att
  links : t.fab.links.length = s.fab.links.length

theorem AsksOnly.refl (d dseq : Nat) (s : State) : AsksOnly d dseq s s := ⟨fun _ h => h, rfl, rfl⟩

theorem AsksOnly.trans {d dseq : Nat} {s t u : State} (h : AsksOnly d dseq s t) (k : AsksOnly d dseq t u) : AsksOnly d dseq s u :=
  ⟨fun c hc => k.coll c (h.coll c hc), k.att.trans h.att, k.links.trans h.links⟩

theorem AsksOnly.foldl {α : Type} {d dseq : Nat} {f : State → α → State} (h : ∀ t x, AsksOnly d dseq t (f t x)) (l : List α)
    (s : State) : AsksOnly d dseq s (l.foldl f s) := by
  induction l generalizing s with
  | nil => exact .refl d dseq s
  | cons x l ih => exact (h s x).trans (ih _)

theorem AsksOnly.sendRoute (d dseq : Nat) (s : State) (r k : Nat) (x : LinkData) (hx : collSeqs [x] = []) :
    AsksOnly d dseq s (s.sendRoute r k x) := by
  unfold State.sendRoute
  split
  · next l hl =>
    exact ⟨fun c hc => by rwa [State.coll?, linkSend_engine], by rw [State.linkSend_step],
      linkSend_links_length s l x (routeLink_listed hl)⟩
  · rw [hx]
    exact ⟨fun c hc => loseColls_nil_coll hc, by rw [framesOnly_step (framesOnly_loseColls s [])], by rw [loseColls_links]⟩

theorem AsksOnly.sendRank (d dseq : Nat) (s : State) (r k : Nat) (x : LinkData) (hx : collSeqs [x] = []) :
    AsksOnly d dseq s (s.sendRank r k x) := by
  unfold State.sendRank
  split
  · exact ⟨fun c hc => hc, rfl, rfl⟩
  · exact .sendRoute d dseq s r k x hx

/-- FINQ names no collective to restart where it is lost. -/
theorem collSeqs_finq (c : Coll) (k : Nat) : collSeqs [.coll (c.frame .finq k)] = [] := rfl

section
variable {s : State} {die dseq : Nat} {c : Coll} (h : s.coll? die dseq = some c)
include h

theorem exec_collStall_of_spent (hs : s.collSpent c = true) : exec (.collStall die dseq) s = .next (s.collExhausted c) := by
  refine congrArg _ ((onColl_of_some h _).trans ?_)
  exact if_pos hs

/-- What a stall raises. -/
def State.stallEvent (s : State) (die : Nat) (c : Coll) (dseq rgen : Nat) (query : Bool) : State :=
  (s.bump .ceEng die 0x44 1).raiseCtx 0x0411 die 6
    { step := some c.step, attempt := c.attempt, layer := c.desc.layer.getD 0xFFFF, ra := c.ra }
    (leBytes 4 dseq ++ leBytes 2 c.desc.grp ++ leBytes 1 rgen ++ leBytes 1 (b2n query))

omit h in
theorem stallEvent_keeps (c : Coll) (rgen : Nat) (query : Bool) : AsksOnly die dseq s (s.stallEvent die c dseq rgen query) where
  coll x hx := by rwa [State.coll?, State.engine, State.stallEvent, State.raiseCtx_fab]
  att := raiseCtx_att ..
  links := by rw [State.stallEvent, State.raiseCtx_fab]; rfl

theorem exec_collStall_of_restart (hs : s.collSpent c = false) (hf : c.finsTo = []) :
    exec (.collStall die dseq) s = .next ((s.stallEvent die c dseq (c.rgen + 1) false).restartColl die dseq (c.rgen + 1)) := by
  refine congrArg _ ((onColl_of_some h _).trans ?_)
  dsimp only
  rw [hs, hf]
  rfl

/-- The peers that a stalled collective asks for a FIN: in an aligned group the first one only. -/
def Coll.asked (c : Coll) : List (Nat × Nat) :=
  if c.aligned then (c.peers.filter fun x => !c.fins.contains x.1).take 1 else c.peers.filter fun x => !c.fins.contains x.1

theorem exec_collStall_of_query (hs : s.collSpent c = false) (hf : c.finsTo ≠ []) :
    exec (.collStall die dseq) s = .next (c.asked.foldl (fun (u : State) x =>
      u.sendRank (c.rankOf x.2) (if c.aligned then x.1 else 0) (.coll (c.frame .finq (if c.aligned then x.1 else 0))))
        ((s.stallEvent die c dseq c.rgen true).updColl die dseq fun x => { x with count := x.count + 1 })) := by
  have hq : (!c.finsTo.isEmpty) = true := by simpa using hf
  refine congrArg _ ((onColl_of_some h _).trans ?_)
  dsimp only
  rw [hs, hq]
  rfl

/-- A query counts, and asks. -/
theorem exec_collStall_counts (hs : s.collSpent c = false) (hf : c.finsTo ≠ []) :
    answers (.collStall die dseq) s fun t => t.coll? die dseq = some { c with count := c.count + 1 } ∧
      t.step.att = s.step.att ∧ t.fab.links.length = s.fab.links.length := by
  refine ⟨_, exec_collStall_of_query h hs hf, ?_⟩
  have hev := stallEvent_keeps (s := s) (die := die) (dseq := dseq) c c.rgen true
  have hask := AsksOnly.foldl (d := die) (dseq := dseq) (fun t (x : Nat × Nat) => AsksOnly.sendRank die dseq t (c.rankOf x.2)
    (if c.aligned then x.1 else 0) _ (collSeqs_finq c (if c.aligned then x.1 else 0))) c.asked
    ((s.stallEvent die c dseq c.rgen true).updColl die dseq fun x => { x with count := x.count + 1 })
  exact ⟨hask.coll _ (coll_updColl (hev.coll c h) _ fun _ => rfl), hask.att.trans hev.att, hask.links.trans hev.links⟩

end

/-- Settles O53, by the frame's collective: active, completed or not issued. -/
theorem collectiveFrames : Obligations.CollectiveFrames := by
  unfold Obligations.CollectiveFrames
  intro kind row taken carried
  have row_eq (ct : CollType) : row ct = collFrameRow ct := by cases ct <;> rfl
  refine ⟨?active, ?absent, ?stall, ?noStall⟩
  case active =>
    rintro s t ct f c ⟨x, htake⟩ ⟨hfind, hcoll⟩
    have hexec : exec (row ct) s = .next (t.collFrame f) := row_eq ct ▸ exec_collFrameRow htake
    have hct : f.ctype = ct := ctype_of_taken htake
    have hstep : t.step = s.step := framesOnly_step (framesOnly_takeFrame htake)
    have present (hb : t.beforeBase f.dseq = false) (hr : f.rgen = c.rgen) (hno : ct ≠ .restart) :
        exec (row ct) s = .next ((t.feed (t.engineOf f.dseq) f).pump (t.engineOf f.dseq) f.dseq) := by
      rw [hexec, collFrame_of_present hfind hb hr (by rwa [hct])]
    refine ⟨fun hb => ?early, fun hb hr => ?older, fun hb hr => ⟨?takesSeg, ?takesCredit, ?takesFin, ?takesFinq, ?takesRestart⟩,
      fun hb hr => ⟨?adopted, ?spent, fun hno => ?held⟩⟩
    case early => rw [hexec, collFrame_of_beforeBase hfind hb]
    case older => rw [hexec, collFrame_of_older hfind hb hr]
    case takesSeg =>
      rintro rfl
      rw [← feed_seg hcoll hct]
      exact present hb hr (by decide)
    case takesCredit =>
      rintro rfl
      refine (present hb hr (by decide)).trans ?_
      rw [State.feed, hct]
    case takesFin =>
      rintro rfl
      refine (present hb hr (by decide)).trans ?_
      rw [State.feed, hct]
    case takesFinq =>
      rintro rfl hsent
      rw [← feed_finq hcoll hct hsent]
      exact present hb hr (by decide)
    case takesRestart =>
      rintro rfl
      exact hexec.trans (congrArg _ (collFrame_of_restart_present hfind hb hr hct))
    case adopted =>
      rintro rfl hs
      refine hexec.trans (congrArg _ ?_)
      rw [collFrame_of_restart_newer hfind hb hcoll hr hct, hs]
      rfl
    case spent =>
      rintro rfl hs
      obtain ⟨hfab, hatt, hcauses⟩ := collExhausted_keeps t c
      refine ⟨t.collExhausted c, hexec.trans (congrArg _ ?_), hfab, hatt.trans (by rw [hstep]), hcauses.trans (by rw [hstep])⟩
      rw [collFrame_of_restart_newer hfind hb hcoll hr hct, if_pos hs]
    case held => rw [hexec, collFrame_of_newer hfind hb hr (by rwa [hct])]
  case absent =>
    rintro s t ct f ⟨x, htake⟩ hfind
    have hexec : exec (row ct) s = .next (t.collFrame f) := row_eq ct ▸ exec_collFrameRow htake
    have hct : f.ctype = ct := ctype_of_taken htake
    refine ⟨fun x hx => ⟨?answered, fun hno => ?finished⟩, fun hx hover => ?ended, fun hx hb ho => ⟨?recorded, fun hno => ?held⟩⟩
    case answered =>
      rintro rfl
      exact hexec.trans (congrArg _ ((collFrame_of_finished hfind hx).trans (if_pos hct)))
    case finished => rw [hexec, collFrame_of_finished hfind hx, if_neg (by rwa [hct])]
    case ended => rw [hexec, collFrame_of_over hfind hx hover]
    case recorded =>
      rintro rfl
      exact hexec.trans (congrArg _ ((collFrame_of_unissued hfind hx hb ho).trans (if_pos hct)))
    case held =>
      rw [hexec, collFrame_of_unissued hfind hx hb ho, if_neg (by rwa [hct])]
      rfl
  case stall =>
    intro s die dseq c h
    refine ⟨fun hs => ?_, fun hs hf => exec_collStall_of_restart h hs hf, fun hs hf => exec_collStall_counts h hs hf⟩
    exact ⟨_, exec_collStall_of_spent h hs, collExhausted_keeps s c⟩
  case noStall =>
    intro s die dseq h
    exact congrArg Host.Outcome.next (onColl_of_none h _)

end Sys2Proof.Machine
end

section
/-! PROOFS. Issue of collectives: the work of an engine on its active collectives keeps CE_LAST_DSEQ and the mark that it has issued one; the
row of an operation issues the lowest ready collective, refuses one whose number does not rise, or does nothing. -/
namespace Sys2Proof.Machine

/-! ## What the work of an engine leaves (R310) -/

/-- From `s` to `t` no engine forgets that it has issued a collective, and the registers at the offset of CE_LAST_DSEQ keep their values. -/
structure IssuedStays (s t : State) : Prop where
  issued : ∀ d, (s.engine d).issuedAny = true → (t.engine d).issuedAny = true
  last : ∀ a, a % 0x1000 = 0x18 → t.regAt a = s.regAt a

namespace IssuedStays

theorem of_fields {s t : State} (hfab : t.fab = s.fab) (hregs : t.regs = s.regs) : IssuedStays s t where
  issued d h := by rwa [State.engine, hfab]
  last a _ := by rw [State.regAt, hregs, State.regAt]

theorem refl (s : State) : IssuedStays s s := of_fields rfl rfl

theorem trans {s t u : State} (h : IssuedStays s t) (k : IssuedStays t u) : IssuedStays s u where
  issued d hd := k.issued d (h.issued d hd)
  last a ha := (k.last a ha).trans (h.last a ha)

theorem foldl {α : Type} {f : State → α → State} (h : ∀ t x, IssuedStays t (f t x)) (l : List α) (s : State) :
    IssuedStays s (l.foldl f s) := by
  induction l generalizing s with
  | nil => exact .refl s
  | cons x l ih => exact (h s x).trans (ih _)

theorem ite {s t u : State} {p : Prop} [Decidable p] (h : IssuedStays s t) (k : IssuedStays s u) : IssuedStays s (if p then t else u) := by
  split
  · exact h
  · exact k

/-! ### Registers and events -/

theorem setReg (s : State) (b : Block) (i o : Nat) (v : Word) (ho : o < 0x1000) (h : o ≠ 0x18) : IssuedStays s (s.setReg b i o v) where
  issued _ hd := hd
  last a ha := State.regAt_setReg_other s b i o a v (by
    rintro rfl
    exact h ((pageBase_mod b i o ho).symm.trans ha))

theorem bump (s : State) (b : Block) (i o n : Nat) (ho : o < 0x1000) (h : o ≠ 0x18) : IssuedStays s (s.bump b i o n) :=
  setReg s b i o _ ho h

/-- No event register lies at that offset. -/
theorem isEventReg_apart {a : Nat} (h : a % 0x1000 = 0x18) : isEventReg a = false := by
  have apart (b : Block) (i o : Nat) (ho : o < 0x1000) (hne : o ≠ 0x18) : a ≠ regAddr b i o := by
    rintro rfl
    exact hne ((pageBase_mod b i o ho).symm.trans h)
  have hhead : a ≠ regAddr .policy 0 0x4C := apart _ _ _ (by decide) (by decide)
  have hlost : a ≠ regAddr .policy 0 0x54 := apart _ _ _ (by decide) (by decide)
  simp [isEventReg, h, hhead, hlost]

theorem of_event {s t : State} (h : eventOnly s t) : IssuedStays s t where
  issued d hd := by rwa [State.engine, h.1]
  last a ha := h.2.1 a (isEventReg_apart ha)

theorem logOrHold (s : State) (ra : Bool) (r : EventRec) (hr : r.detail.length = 8) : IssuedStays s (s.logOrHold ra r) := by
  unfold State.logOrHold
  split
  · exact of_fields rfl rfl
  · exact of_event (eventOnly_logRecord s r hr)

theorem raiseCtx (s : State) (code inst unit : Nat) (c : EvCtx) (d : List Byte) : IssuedStays s (s.raiseCtx code inst unit c d) := by
  unfold State.raiseCtx
  have hflag := of_event (eventOnly_flagEvent s code inst)
  exact ite (hflag.trans (logOrHold _ _ _ (mkRec_detail ..))) (ite hflag (refl s))

theorem addCause (s : State) (c : Cause) : IssuedStays s (s.addCause c) := of_fields rfl rfl

theorem setAttempt (s : State) (ra : Bool) (a : Attempt) : IssuedStays s (s.setAttempt ra a) := by
  cases ra <;> exact of_fields rfl rfl

theorem causeIn (s : State) (ra : Bool) (c : Cause) : IssuedStays s (s.causeIn ra c) := by
  unfold State.causeIn
  split
  · split
    · exact setAttempt s true _
    · exact refl s
  · exact addCause s c

theorem vetoIn (s : State) (ra loss : Bool) (l : Nat) (cut : Cut) : IssuedStays s (s.vetoIn ra loss l cut) := by
  unfold State.vetoIn
  split
  · exact refl s
  · exact ((setAttempt s ra _).trans (raiseCtx ..)).trans (causeIn ..)

theorem setStack (s : State) (i : Nat) (x : Stack) : IssuedStays s (s.setStack i x) := of_fields rfl rfl

/-! ### Frames -/

theorem setEngine (s : State) (d : Nat) (e : Engine) (h : (s.engine d).issuedAny = true → e.issuedAny = true) :
    IssuedStays s (s.setEngine d e) where
  issued i hi := by
    by_cases hid : i = d
    · subst hid
      have he : e ≠ {} := by
        rintro rfl
        exact absurd (h hi) (by decide)
      rw [engine_setEngine_of_ne s i e he]
      exact h hi
    · rwa [engine_setEngine_other s d i e hid]
  last _ _ := rfl

theorem updColl (s : State) (d dseq : Nat) (f : Coll → Coll) : IssuedStays s (s.updColl d dseq f) := setEngine s d _ id

theorem loseColls (s : State) (ds : List Nat) : IssuedStays s (s.loseColls ds) := by
  refine foldl (fun t d => ?_) _ s
  exact setEngine t d _ id

theorem linkSend (s : State) (l : Link) (x : LinkData) : IssuedStays s (s.linkSend l x) where
  issued d h := by rwa [linkSend_engine]
  last a ha := (framesOnly_linkSend s l x).2.1 a (by omega)

theorem toSelf (s : State) (x : LinkData) : IssuedStays s (s.toSelf x) where
  issued _ h := h
  last _ _ := rfl

theorem sendRoute (s : State) (r k : Nat) (x : LinkData) : IssuedStays s (s.sendRoute r k x) := by
  unfold State.sendRoute
  split
  · exact linkSend s _ x
  · exact loseColls s _

theorem sendRank (s : State) (r k : Nat) (x : LinkData) : IssuedStays s (s.sendRank r k x) := ite (toSelf s x) (sendRoute s r k x)

theorem sendTwinOn (s : State) (n : Nat) (x : LinkData) : IssuedStays s (s.sendTwinOn n x) := by
  unfold State.sendTwinOn State.sendTwin
  split
  · exact linkSend s _ x
  · split
    · exact linkSend s _ x
    · exact refl s

theorem ckptRefuse (s : State) (i why : Nat) : IssuedStays s (s.ckptRefuse i why) := (sendTwinOn ..).trans (sendTwinOn ..)

/-! ### Lines of Tarn -/

theorem keepTrnError (s : State) (i l syms cls req : Nat) (ue addr : Bool) : IssuedStays s (s.keepTrnError i l syms cls req ue addr) := by
  unfold State.keepTrnError
  refine ite (refl s) ?_
  exact (((setStack s i _).trans (setReg _ .trn i 0x30 _ (by decide) (by decide))).trans
    (setReg _ .trn i 0x34 _ (by decide) (by decide))).trans (setReg _ .trn i 0x38 _ (by decide) (by decide))

theorem strikeAttempt (s : State) (ra : Bool) (code : Nat) : IssuedStays s (s.strikeAttempt ra code) := by
  unfold State.strikeAttempt
  dsimp only
  split
  all_goals
    split
    · exact addCause s _
    · exact refl s

theorem markFaulted (s : State) : IssuedStays s s.markFaulted := by
  unfold State.markFaulted State.reqAbort
  split <;> exact of_fields rfl rfl

theorem lineUEFor (s : State) (ra : Bool) (l req : Nat) (addr : Bool) : IssuedStays s (s.lineUEFor ra l req addr) := by
  unfold State.lineUEFor
  extract_lets a i o cls k full s1 s2 ctx s3 base s4
  have h1 : IssuedStays s s1 := ite (refl s) (setStack s i _)
  have h2 : IssuedStays s s2 := (h1.trans (bump _ .trn i 0x94 1 (by decide) (by decide))).trans (keepTrnError ..)
  have h3 : IssuedStays s s3 := h2.trans (raiseCtx ..)
  have h4 : IssuedStays s3 s4 := by
    clear_value o
    cases o with
    | counted => exact refl s3
    | hostStatus => exact refl s3
    | abort => exact strikeAttempt s3 ra 0x11
    | faulted => exact markFaulted s3
    | ckptLost => exact (raiseCtx ..).trans (ckptRefuse ..)
    | epochFails => exact setStack s3 i _
  exact ite ((h3.trans h4).trans (markFaulted s4)) (h3.trans h4)

theorem strandIO {s t : State} (h : IssuedStays s t) (ra : Bool) (req : Nat) (reads : List Nat) (writes : List (Nat × Nat)) :
    IssuedStays s (s.strandIO ra req reads writes t) := by
  unfold State.strandIO
  split
  · exact h
  · exact foldl (fun u l => lineUEFor u ra l req false) _ s

theorem store (s : State) (a : Nat) (l : List Byte) : IssuedStays s (s.store a l) :=
  of_fields (State.store_fab s a l) (State.store_regs s a l)

theorem writeSegment (s : State) (d : CollDesc) (start len : Nat) (v : SegVal) : IssuedStays s (s.writeSegment d start len v) := by
  unfold State.writeSegment
  cases v with
  | bytes l => exact store s _ _
  | f32 l => exact store s _ _
  | blocks g l => exact (store s _ _).trans (store _ _ _)
  | rows g l =>
    refine (foldl (fun u r => ?_) _ s).trans (ite (store _ _ _) (refl _))
    exact (store u _ _).trans (store _ _ _)

/-! ### Completions and replies -/

theorem completeStrand (s : State) (ra : Bool) (id : Nat) : IssuedStays s (s.completeStrand ra id) := by
  have done : IssuedStays s (s.markDone ra id) := by
    unfold State.markDone
    split
    · exact setAttempt s ra _
    · exact refl s
  unfold State.completeStrand
  split
  · refine done.trans (foldl (fun t _ => ?_) _ _)
    exact of_fields rfl rfl
  · exact done

theorem raiseLimited (s : State) (code inst key : Nat) (d : Nat → List Byte) : IssuedStays s (s.raiseLimited code inst key d) :=
  of_event (eventOnly_raiseLimited s code inst key d)

theorem sendReply (s : State) (port : CmdPort) (via : Mac × Ip) (dest : Sender) (data : List Byte) :
    IssuedStays s (s.sendReply port via dest data) := by
  unfold State.sendReply
  split
  · exact of_fields rfl rfl
  · refine ite (refl s) (ite ?_ ?_)
    · exact (bump s .host 0 0xA4 _ (by decide) (by decide)).trans (of_fields rfl rfl)
    · exact (bump s .host 0 0xB4 _ (by decide) (by decide)).trans (raiseLimited ..)

theorem finishIssued (s : State) (i : Nat) (p : Packet) (code detail : Nat) (payload : List Byte) :
    IssuedStays s (s.finishIssued i p code detail payload) := by
  unfold State.finishIssued State.reply
  refine ite ?_ (refl s)
  refine trans ?_ (sendReply ..)
  exact of_fields rfl rfl

/-! ### The part of a collective (R312 to R315, R321, R325 to R327) -/

theorem onColl (s : State) (d dseq : Nat) (k : Coll → State → State) (h : ∀ c, IssuedStays s (k c s)) :
    IssuedStays s (s.onColl d dseq k) := by
  unfold State.onColl
  split
  · exact h _
  · exact refl s

theorem collEvents (s : State) (c : Coll) (nf ill : Nat) : IssuedStays s (s.collEvents c nf ill) := by
  have event (t : State) (code : Nat) (x : EvCtx) : IssuedStays t (t.numEvent code 6 c.die x) := raiseCtx ..
  exact (foldl (fun t _ => event t _ _) _ s).trans (foldl (fun t _ => event t _ _) _ _)

theorem tryForm (s : State) (d dseq k level first : Nat) (reads : Coll → State → List Nat)
    (f : Coll → State → Option (SegVal × Nat × Nat)) : IssuedStays s (s.tryForm d dseq k level first reads f) := by
  refine onColl s d dseq _ fun c => ite (refl s) ?_
  split
  · exact strandIO ((updColl s d dseq _).trans (collEvents ..)) ..
  · exact refl s

theorem formSegment (s : State) (d dseq k start len : Nat) : IssuedStays s (s.formSegment d dseq k start len) := by
  refine onColl s d dseq _ fun c => ?_
  have nodes := foldl (f := fun (u : State) (n : Nat × Nat) =>
    if c.former (c.owner k) n.1 n.2 = c.me then
      u.tryForm d dseq k n.1 n.2 (fun c1 v => if n.1 = 0 then v.leafLines c1.desc (c1.leafPos n.2) start len else [])
        fun c1 v => v.formNode c1 k start len n.1 n.2
    else u) (fun u n => ite (tryForm ..) (refl u)) c.treeNodes s
  exact ite (nodes.trans (tryForm ..)) nodes

theorem sourceSegment (s : State) (d dseq k start len : Nat) : IssuedStays s (s.sourceSegment d dseq k start len) :=
  onColl s d dseq _ fun _ => ite (tryForm ..) (refl s)

theorem watchPosts (s : State) (ra : Bool) (e : UpdateEntry) (posts : List InlPost) : IssuedStays s (s.watchPosts ra e posts) :=
  foldl (fun t _ => ite (vetoIn ..) (refl t)) _ s

theorem land (s : State) (d dseq : Nat) (x : Nat × Nat × Nat × Nat × Nat × Nat) : IssuedStays s (s.land d dseq x) := by
  unfold State.land
  refine onColl s d dseq _ fun c => ?_
  split
  · exact refl s
  · next v hv =>
    refine ite (refl s) ?_
    extract_lets t1 posts inl t2 t3
    have h1 : IssuedStays s t1 := (writeSegment ..).trans (updColl ..)
    have h2 : IssuedStays s t2 := h1.trans (of_fields rfl rfl)
    have h3 : IssuedStays s t3 := by
      unfold t3
      split
      · exact h2.trans (watchPosts ..)
      · exact h2
    refine strandIO ?_ ..
    split
    · exact ite (h3.trans (completeStrand ..)) h3
    · exact h3

theorem sendEdge (s : State) (d dseq k : Nat) (e : Edge) : IssuedStays s (s.sendEdge d dseq k e) := by
  refine onColl s d dseq _ fun c => ?_
  split
  · exact refl s
  · refine ite (refl s) ((updColl s d dseq _).trans (foldl (fun u j => ?_) _ _))
    exact sendRank ..

theorem sendFins (s : State) (d dseq : Nat) : IssuedStays s (s.sendFins d dseq) :=
  onColl s d dseq _ fun _ => ite (foldl (fun u _ => ite ((updColl u d dseq _).trans (sendRank ..)) (refl u)) _ s) (refl s)

theorem finishColl (s : State) (d dseq : Nat) : IssuedStays s (s.finishColl d dseq) := by
  refine onColl s d dseq _ fun c => ite ?_ (refl s)
  extract_lets e t1 done t2
  have h1 : IssuedStays s t1 := by
    refine trans ?_ (bump _ .ceEng d 0x40 1 (by decide) (by decide))
    exact setEngine s d _ id
  have h2 : IssuedStays s t2 := ite ((h1.trans (completeStrand ..)).trans (completeStrand ..)) (h1.trans (completeStrand ..))
  split
  · exact h2.trans (finishIssued ..)
  · exact h2

theorem pump (s : State) (d dseq : Nat) : IssuedStays s (s.pump d dseq) := by
  refine onColl s d dseq _ fun c => ?_
  extract_lets segs t1 t2 t3
  have h1 : IssuedStays s t1 := by
    refine foldl (fun u x => ?_) _ s
    cases c.desc.op with
    | rs => exact formSegment ..
    | ar => exact formSegment ..
    | ag => exact sourceSegment ..
    | bc => exact sourceSegment ..
  have h2 : IssuedStays s t2 := h1.trans (foldl (fun u x => land u d dseq x) _ _)
  have h3 : IssuedStays s t3 := h2.trans (foldl (fun u x => sendEdge u d dseq _ _) _ _)
  exact (h3.trans (sendFins ..)).trans (finishColl ..)

theorem consume (s : State) (d dseq m : Nat) : IssuedStays s (s.consume d dseq m) :=
  onColl s d dseq _ fun _ => ite (updColl ..) ((updColl ..).trans (sendRank ..))

theorem feed (s : State) (d : Nat) (f : CollFrame) : IssuedStays s (s.feed d f) := by
  unfold State.feed
  split
  · exact (onColl s d f.dseq _ fun _ => updColl ..).trans (consume ..)
  · exact updColl ..
  · exact updColl ..
  · exact onColl s d f.dseq _ fun _ => ite (sendRank ..) (refl s)
  · exact refl s

theorem replayEarly (s : State) (d dseq : Nat) : IssuedStays s (s.replayEarly d dseq) := by
  refine onColl s d dseq _ fun c => (foldl (fun u i => ?_) _ s).trans (foldl (fun u f => ?_) _ _)
  · exact setEngine u i _ id
  · exact ite (feed u d f) (bump u .ceEng d 0x48 1 (by decide) (by decide))

theorem grantAll (s : State) (d dseq : Nat) : IssuedStays s (s.grantAll d dseq) := by
  refine onColl s d dseq _ fun c => foldl (fun u m => ?_) _ s
  exact sendRank ..

theorem startPart (s : State) (d dseq : Nat) : IssuedStays s (s.startPart d dseq) :=
  ((grantAll s d dseq).trans (replayEarly ..)).trans (pump ..)

end IssuedStays

/-! ## Issue (R310) -/

/-- The number of a collective lies above the last one that its engine issued. -/
def State.dseqRises (s : State) (c : Coll) : Bool :=
  let gap := (c.dseq + 2 ^ 32 - (s.reg .ceEng c.die 0x18).toNat) % 2 ^ 32
  decide (0 < gap ∧ gap < 2 ^ 31)

/-- The cause of R310: a collective whose number does not rise. -/
def Coll.orderCause (c : Coll) : Cause := ⟨6, c.desc.layer.getD 0xFFFF, (c.desc.layer.map Cut.at).getD .beforeAll, c.step, false⟩

/-- COLL_ORDER of a collective. -/
def State.orderEvent (s : State) (c : Coll) : State :=
  s.raiseCtx 0x0410 c.die 6 { step := some c.step, attempt := c.attempt, layer := c.desc.layer.getD 0xFFFF, ra := c.ra }
    (leBytes 4 c.dseq ++ leBytes 4 (s.reg .ceEng c.die 0x18).toNat)

theorem issueColl_of_refused {s : State} {c : Coll} (hi : (s.engine c.die).issuedAny = true) (hr : s.dseqRises c = false) :
    s.issueColl c = (s.orderEvent c).addCause c.orderCause := by
  have hno : ((s.engine c.die).issuedAny && !s.dseqRises c) = true := by rw [hi, hr]; rfl
  refine (if_pos hno).trans ?_
  exact causeIn_of_no_veto _ _ _ (by decide : 6 ≠ 1) (by decide : 6 ≠ 2)

/-- A collective whose number rises, or the first of its engine, is issued: its engine has issued one, and CE_LAST_DSEQ takes its number. -/
theorem issueColl_issues {s : State} {c : Coll} (hw : Bank.wf regReset s.regs = true)
    (hr : (s.engine c.die).issuedAny = false ∨ s.dseqRises c = true) :
    ((s.issueColl c).engine c.die).issuedAny = true ∧ (s.issueColl c).reg .ceEng c.die 0x18 = BitVec.ofNat 32 c.dseq := by
  have hno : ¬((s.engine c.die).issuedAny && !s.dseqRises c) = true := by
    rcases hr with hr | hr <;> simp [hr]
  unfold State.issueColl
  extract_lets d last e gap ctx recorded stale t t1
  rw [if_neg (show ¬(e.issuedAny && !decide (0 < gap ∧ gap < 2 ^ 31)) = true from hno)]
  have ht : (t.engine d).issuedAny = true := by
    unfold t
    rw [engine_setEngine_of_ne _ _ _ (ne_default_of_active (by simp))]
  have h1 : IssuedStays t t1 := by
    refine .foldl (fun u i => ?_) _ t
    exact .setEngine u i _ id
  have hregs : t1.regs = s.regs := State.foldl_regs _ _ t fun _ _ => rfl
  clear_value t1 t
  have part := IssuedStays.startPart ((t1.bump .ceEng d 0x48 stale).setReg .ceEng d 0x18 (BitVec.ofNat 32 c.dseq)) d c.dseq
  refine ⟨part.issued d (h1.issued d ht), (part.last _ (pageBase_mod .ceEng d 0x18 (by decide))).trans ?_⟩
  exact State.reg_setReg_same _ .ceEng d 0x18 _ (Bank.put_wf _ _ _ _ (hregs ▸ hw))

/-! ## The event of a refused issue -/

/-- Raising events does not read the step. -/
theorem eventOnly_withStep {s t : State} (h : eventOnly s t) (x : StepSeq) : eventOnly (s.withStep x) (t.withStep x) := by
  obtain ⟨h1, h2, h3⟩ := h
  refine ⟨?_, h2, h3⟩
  rw [h1]
  rfl

/-- An event of any strand, of the run-ahead too, but for the records that its attempt holds. -/
theorem eventOnly_raiseCtx_withStep (s : State) (code inst unit : Nat) (c : EvCtx) (d : List Byte) (x : StepSeq) :
    eventOnly (s.withStep x) ((s.raiseCtx code inst unit c d).withStep x) := by
  unfold State.raiseCtx
  split
  · unfold State.logOrHold
    split
    · exact eventOnly_withStep (eventOnly_flagEvent s code inst) x
    · exact eventOnly_withStep (eventOnly_trans (eventOnly_flagEvent s code inst) (eventOnly_logRecord _ _ (mkRec_detail ..))) x
  · split
    · exact eventOnly_withStep (eventOnly_flagEvent s code inst) x
    · exact eventOnly_refl _

theorem orderRefused_keeps (s : State) (c : Coll) :
    let t := (s.orderEvent c).addCause c.orderCause
    t.fab = s.fab ∧ t.step.att = s.step.att ∧ t.step.causes = s.step.causes ++ [c.orderCause] ∧
      eventOnly { s with step := t.step } t := by
  refine ⟨State.raiseCtx_fab .., raiseCtx_att .., ?_, eventOnly_raiseCtx_withStep s _ _ _ _ _ _⟩
  rw [State.addCause, State.orderEvent, raiseCtx_step]

/-! ## The row of an operation -/

/-- The row that issues collectives of an operation. -/
def collOpInstr (op : CollOp) (die : Nat) : Instr :=
  match op with
  | .ag => .allGather die
  | .bc => .broadcast die
  | .rs => .reduceScatter die
  | .ar => .allReduce die

theorem exec_collOpInstr (s : State) (op : CollOp) {die : Nat} (hd : die < 4) : exec (collOpInstr op die) s = .next (s.collOpRow op die) := by
  cases op <;> exact guarded_of_true _ _ (decide_eq_true hd)

/-- The collectives of a die that are ready to be issued. -/
def State.readyOn (s : State) (ra : Bool) (die : Nat) : List Coll := (s.readyColls ra).filter fun c => c.die == die

/-- The collective that is next in turn on a die: of the open step, or else of the run-ahead. -/
def State.inTurn (s : State) (die : Nat) (c : Coll) : Prop :=
  lowestColl (s.readyOn false die) = some c ∨ s.readyOn false die = [] ∧ lowestColl (s.readyOn true die) = some c

theorem lowestColl_mem {l : List Coll} {c : Coll} (h : lowestColl l = some c) : c ∈ l := by
  induction l with
  | nil => cases h
  | cons x l ih =>
    unfold lowestColl at h
    split at h
    · next y hy =>
      split at h
      · exact List.mem_cons.2 (.inl (Option.some.inj h).symm)
      · exact List.mem_cons.2 (.inr (ih (hy.trans h)))
    · exact List.mem_cons.2 (.inl (Option.some.inj h).symm)

theorem die_of_inTurn {s : State} {die : Nat} {c : Coll} (h : s.inTurn die c) : c.die = die := by
  have mine {ra : Bool} (hc : lowestColl (s.readyOn ra die) = some c) : c.die = die := by
    have hmem := lowestColl_mem hc
    simp only [State.readyOn, List.mem_filter, beq_iff_eq] at hmem
    exact hmem.2
  rcases h with h | ⟨-, h⟩
  · exact mine h
  · exact mine h

/-- Every active collective of an operation on a die moves on. -/
def State.pumpAll (s : State) (op : CollOp) (die : Nat) : State :=
  (((s.engine die).active.filter fun c => c.desc.op == op).map (·.dseq)).foldl (fun (u : State) q => u.pump die q) s

theorem pumpAll_stays (s : State) (op : CollOp) (die : Nat) : IssuedStays s (s.pumpAll op die) := .foldl (fun u q => .pump u die q) _ s

theorem pumpAll_of_none {s : State} {op : CollOp} {die : Nat} (h : ∀ x ∈ (s.engine die).active, x.desc.op ≠ op) :
    s.pumpAll op die = s := by
  have hnil : (s.engine die).active.filter (fun c => c.desc.op == op) = [] := by simpa [List.filter_eq_nil_iff] using h
  rw [State.pumpAll, hnil]
  rfl

/-- The collective that the row of an operation looks at. -/
def State.nextColl (s : State) (die : Nat) : Option Coll :=
  match lowestColl (s.readyOn false die) with
  | some c => some c
  | none => lowestColl (s.readyOn true die)

theorem collOpRow_eq (s : State) (op : CollOp) (die : Nat) : s.collOpRow op die = State.pumpAll (match s.nextColl die with
    | some c => if c.desc.op = op ∧ (s.engine die).active.length < 16 ∧ s.groupOrder c then s.issueColl c else s
    | none => s) op die := rfl

theorem nextColl_of_inTurn {s : State} {die : Nat} {c : Coll} (h : s.inTurn die c) : s.nextColl die = some c := by
  unfold State.nextColl
  rcases h with h | ⟨hnil, h⟩
  · rw [h]
  · rw [hnil]
    exact h

theorem collOpRow_of_inTurn {s : State} {die : Nat} {c : Coll} (op : CollOp) (h : s.inTurn die c) : s.collOpRow op die =
    (if c.desc.op = op ∧ (s.engine die).active.length < 16 ∧ s.groupOrder c then s.issueColl c else s).pumpAll op die := by
  rw [collOpRow_eq, nextColl_of_inTurn h]

theorem collOpRow_of_nothing {s : State} {die : Nat} (op : CollOp) (h : s.readyOn false die = []) (hra : s.readyOn true die = []) :
    s.collOpRow op die = s.pumpAll op die := by
  rw [collOpRow_eq, State.nextColl, h, hra]
  rfl

/-- Settles O52: the row issues the collective that is in turn, and the work of its engine keeps CE_LAST_DSEQ. -/
theorem collectivesAreIssued : Obligations.CollectivesAreIssued := by
  unfold Obligations.CollectivesAreIssued
  intro row ready above
  have row_eq (op : CollOp) (die : Nat) : row op die = collOpInstr op die := by cases op <;> rfl
  refine ⟨fun s op die c hd hc hturn => ?_, fun s op die hd hf hra hidle => ?_⟩
  · have hturn : s.inTurn die c := hturn
    obtain rfl : c.die = die := die_of_inTurn hturn
    have hexec := row_eq op c.die ▸ exec_collOpInstr s op hd
    rw [collOpRow_of_inTurn op hturn] at hexec
    refine ⟨fun hop hroom horder => ⟨fun hrise => ?issued, fun hi hno hidle => ?refused⟩, fun hno hidle => ?waits⟩
    case issued =>
      rw [if_pos ⟨hop, hroom, horder⟩] at hexec
      obtain ⟨hissued, hlast⟩ := issueColl_issues ((State.canonical_iff s).1 hc).2.1 hrise
      have stays := pumpAll_stays (s.issueColl c) op c.die
      exact ⟨_, hexec, stays.issued _ hissued, (stays.last _ (pageBase_mod .ceEng c.die 0x18 (by decide))).trans hlast⟩
    case refused =>
      obtain ⟨hfab, hatt, hcauses, hev⟩ := orderRefused_keeps s c
      rw [if_pos ⟨hop, hroom, horder⟩, issueColl_of_refused hi hno, pumpAll_of_none (by rwa [State.engine, hfab])] at hexec
      exact ⟨_, hexec, hfab, hatt, hcauses, hev⟩
    case waits =>
      have hnot : ¬(c.desc.op = op ∧ (s.engine c.die).active.length < 16 ∧ s.groupOrder c = true) := by
        rintro ⟨h1, h2, h3⟩
        rcases hno with h | h | h
        · exact h h1
        · omega
        · rw [h3] at h
          cases h
      rwa [if_neg hnot, pumpAll_of_none hidle] at hexec
  · rw [row_eq, exec_collOpInstr s op hd, collOpRow_of_nothing op hf hra, pumpAll_of_none hidle]

end Sys2Proof.Machine
end

section
/-! PROOFS. The set-up commands of the twin and the domain, and hosted launches: what each body leaves, and the answer that its row gives. -/
namespace Sys2Proof.Machine

/-! ## Commands that complete later -/

section
variable {s : State} {q op : Nat} {p : Packet} {rest : List Packet} {l : List Byte} {lenOk : Nat → Bool} {stateOk : State → Bool}
variable {body : Packet → List Byte → State → State × Result} {t : State}
variable (hq : q < 16) (h : s.fronts q op p rest l) (hl : lenOk l.length = true) (hs : stateOk s = true)
include hq h hl hs

theorem runHost_of_wait (hb : body p l (s.take q rest) = (t, .wait)) : s.runHost q op lenOk stateOk body = t.waits q p := by
  rw [runHost_of_fronts s q op p rest l lenOk stateOk body hq h hl hs, hb]
  rfl

theorem runHost_of_issued (hb : body p l (s.take q rest) = (t, .issued)) : s.runHost q op lenOk stateOk body = t.issues q p := by
  rw [runHost_of_fronts s q op p rest l lenOk stateOk body hq h hl hs, hb]
  rfl

end

theorem inState_pair {s : State} {a b : CpState} (h : s.cp = a ∨ s.cp = b) : inState [a, b] s = true := by
  rcases h with h | h <;> simp [inState, h]

theorem lenIs_eq {n : Nat} {l : List Byte} (h : l.length = n) : lenIs n l.length = true := by simp [lenIs, h]

/-! ## TWIN_MODE (R392) -/

/-- With no link, and no HELLO of a partner, pairing comes to nothing. -/
theorem pairUp_of_alone {s : State} (hlinks : s.fab.links = []) (hhello : s.twin.hello = none) :
    s.sendHello.pairUp = { s with twin := { s.twin with paired := false } } := by
  have hsent : s.sendHello = s := by
    rw [State.sendHello, hlinks]
    rfl
  rw [hsent, State.pairUp, hhello]
  rfl

section
variable {s : State} {q : Nat} {p : Packet} {rest : List Packet} {l : List Byte} (hq : q < 16)
include hq

theorem exec_twinMode_fronts (h : s.fronts q 0x0401 p rest l) (hs : s.cp = .config ∨ s.cp = .ready) (hl : l.length = 4)
    (hm : leAt 0 1 l ≤ 2) (hz : leAt 1 3 l = 0) (hlinks : s.fab.links = []) (hhello : s.twin.hello = none) :
    exec (.twinMode q) s = .next (State.closes
      { s.take q rest with twin := { s.twin with mode := leAt 0 1 l, paired := false } } q p stOk 0 []) := by
  refine congrArg _ (runHost_of_done hq h (lenIs_eq hl) (inState_pair hs) ?_)
  refine (if_neg (by omega)).trans ((if_neg (not_not.2 hz)).trans (congrArg (·, Result.done stOk 0 []) ?_))
  exact pairUp_of_alone hlinks hhello

/-! ## WELLHEAD_TAKE (R403) -/

theorem exec_wellheadTake_fronts (h : s.fronts q 0x0402 p rest l) (hs : s.cp = .ready ∨ s.cp = .loaded) (hl : l.length = 12)
    (hdom : leAt 0 4 l = s.ceDomain) (hforce : leAt 8 1 l ≤ 1) (hz : leAt 9 3 l = 0) (hnew : s.dom.rankValid = false)
    (hrank : leAt 4 2 l < leAt 6 2 l) (hsize : leAt 6 2 l ≤ s.domainMax) :
    exec (.wellheadTake q) s = .next (State.closes
      { s.take q rest with
          dom := { size := leAt 6 2 l, wgen := 1, wh := leAt 4 2 l, rank := leAt 4 2 l, rankValid := true
                   ranks := Bank.put rankDefault [] (leAt 4 2 l) ⟨1, s.loadedDigest, s.keyHash⟩ } } q p stOk 0 []) := by
  have hdom' : leAt 0 4 l = (s.take q rest).ceDomain := hdom
  have hnew' : (!(s.take q rest).dom.rankValid) = true := by
    show (!s.dom.rankValid) = true
    rw [hnew]
    rfl
  have hmax : ¬(leAt 6 2 l = 0 ∨ (s.take q rest).domainMax < leAt 6 2 l) := by
    show ¬(leAt 6 2 l = 0 ∨ s.domainMax < leAt 6 2 l)
    omega
  refine congrArg _ (runHost_of_done hq h (lenIs_eq hl) (inState_pair hs) ?_)
  dsimp only
  rw [if_neg (not_not.2 hdom'), if_neg (by omega), if_neg (not_not.2 hz), if_pos hnew', if_neg hmax, if_neg (by omega)]
  rfl

end

/-! ## RANK_JOIN (R404) -/

/-- JOIN, as a module sends it that asks for rank `r` of a domain. -/
def State.joinFrame (s : State) (r domain : Nat) : DomFrame :=
  ⟨1, false, r, s.stepNum, 0, s.dom.wgen % 256, domain,
    encN ([(sysCaps s.part).toNat] ++ digestFields s.keyHash ++ digestFields s.loadedDigest ++ [s.committedStep])⟩

/-- JOIN goes to the wellhead over the route of its rank. -/
def State.sendJoin (s : State) (wh r domain : Nat) : State :=
  if s.dom.rankValid then s.sendRank wh 0 (.dom (s.joinFrame r domain)) else s.sendRoute wh 0 (.dom (s.joinFrame r domain))

theorem framesOnly_sendJoin (s : State) (wh r domain : Nat) : framesOnly s (s.sendJoin wh r domain) := by
  unfold State.sendJoin
  split
  · exact framesOnly_sendRank ..
  · exact framesOnly_sendRoute ..

theorem exec_rankJoin_fronts {s : State} {q : Nat} {p : Packet} {rest : List Packet} {l : List Byte} (hq : q < 16)
    (h : s.fronts q 0x0403 p rest l) (hs : s.cp = .ready) (hl : l.length = 8) (hr : leAt 4 2 l ≤ 1023) (hwh : leAt 6 2 l ≤ 1023) :
    exec (.rankJoin q) s = .next (((s.take q rest).sendJoin (leAt 6 2 l) (leAt 4 2 l) (leAt 0 4 l)).waits q p) := by
  refine congrArg _ (runHost_of_wait hq h (lenIs_eq hl) (by simp [hs]) ?_)
  dsimp only
  rw [if_neg (by omega), if_neg (by omega)]
  rfl

/-- RANK_JOIN waits on its queue, and the module's place in the domain is as before. -/
theorem rankJoin_keeps (s : State) (q : Nat) (p : Packet) (rest : List Packet) (wh r domain : Nat) :
    let t := ((s.take q rest).sendJoin wh r domain).waits q p
    (s.canonical = true → (t.queue q).busy = some p ∧ (t.queue q).accepted = rest) ∧ t.dom = s.dom ∧ t.prog = s.prog ∧ t.cp = s.cp ∧
      t.sec = s.sec := by
  have hf := (framesOnly_sendJoin (s.take q rest) wh r domain).1
  generalize (s.take q rest).sendJoin wh r domain = u at hf
  refine ⟨fun hc => ?_, by rw [hf]; rfl, by rw [hf]; rfl, by rw [hf]; rfl, by rw [hf]; rfl⟩
  have hwf : Bank.wf queueDefault s.queues = true := ((State.canonical_iff s).1 hc).2.2.2
  have hqueues : u.queues = (s.take q rest).queues := by rw [hf]
  have htaken : (u.queue q).accepted = rest := by
    rw [State.queue, hqueues]
    exact congrArg Queue.accepted (Bank.get_put_same queueDefault s.queues q _ hwf)
  have hwaits : (u.waits q p).queue q = { u.queue q with busy := some p } :=
    Bank.get_put_same queueDefault u.queues q _ (hqueues ▸ Bank.put_wf _ _ _ _ hwf)
  rw [hwaits]
  exact ⟨rfl, htaken⟩

/-! ## TWIN_RESTORE (R400) -/

theorem framesOnly_sendTwinOn (s : State) (n : Nat) (d : LinkData) : framesOnly s (s.sendTwinOn n d) := by
  unfold State.sendTwinOn
  split
  · exact framesOnly_linkSend s _ d
  · exact framesOnly_sendTwin s d

/-- The stacks that a mask names. -/
def maskStacks (mask : Nat) : List Nat := (List.range 8).filter fun i => mask.testBit i

/-- The header pages of a restore go to the partner, each behind the MARK that names the stacks. -/
def State.sendHeaders (s : State) (mask step : Nat) : State :=
  (maskStacks mask).foldl (fun v i => (v.sendTwinOn (oxbowOf i) (stacksMark mask)).sendTwinOn (oxbowOf i)
    (restoreFrame (ckptTag i 0) 0 step
      (match v.ckptArea i with
       | some (b, _) => v.loadCommitted b 4096
       | none => []))) s

theorem framesOnly_sendHeaders (s : State) (mask step : Nat) : framesOnly s (s.sendHeaders mask step) :=
  framesOnly_foldl _ (fun v _ => framesOnly_trans (framesOnly_sendTwinOn v _ _) (framesOnly_sendTwinOn _ _ _)) _ s

section
variable {s : State} {q : Nat} {p : Packet} {rest : List Packet} {l : List Byte} (hq : q < 16)
variable (h : s.fronts q 0x0404 p rest l) (hs : s.cp = .loaded) (hquiet : s.quiet = true) (hpartner : s.partnerPresent = true)
variable (hsending : s.twin.sending = none) (hl : l.length = 8)
include hq h hs hquiet hpartner hsending hl

theorem exec_twinRestore_of_no_stacks (hm : leAt 0 1 l = 0) :
    exec (.twinRestore q) s = .next ((s.take q rest).closes q p stBadField 0 []) := by
  refine congrArg _ (runHost_of_done hq h (lenIs_eq hl) (by simp [hs, hquiet, hpartner, hsending]) ?_)
  exact if_pos hm

theorem exec_twinRestore_of_held (hclean : cleanTarn s) (hm : leAt 0 1 l ≠ 0) (hz : leAt 1 3 l = 0)
    (hheld : ∀ i, i < 8 → (leAt 0 1 l).testBit i = true → (s.take q rest).heldEpoch i = some (leAt 4 4 l)) :
    exec (.twinRestore q) s = .next ((((s.take q rest).sendHeaders (leAt 0 1 l) (leAt 4 4 l)).setSending
      (some ⟨q, p, leAt 0 1 l, leAt 4 4 l, maskStacks (leAt 0 1 l), []⟩)).issues q p) := by
  have hall : ¬((maskStacks (leAt 0 1 l)).any fun i => (s.take q rest).heldEpoch i != some (leAt 4 4 l)) = true := by
    simp only [List.any_eq_true, maskStacks, List.mem_filter, List.mem_range, bne_iff_ne, not_exists, not_and, not_not]
    exact fun i hi => hheld i hi.1 hi.2
  have hgood : (s.take q rest).badLines ((maskStacks (leAt 0 1 l)).flatMap (s.take q rest).heldLines) = [] :=
    State.badLines_of_clean _ _ hclean
  refine congrArg _ (runHost_of_issued hq h (lenIs_eq hl) (by simp [hs, hquiet, hpartner, hsending]) ?_)
  refine (if_neg hm).trans ((if_neg (not_not.2 hz)).trans ((if_neg hall).trans ?_))
  unfold maskStacks at hgood
  dsimp only
  rw [hgood]
  rfl

end

/-- The command is issued, and nothing but the restore under way and the frames sent has changed. -/
theorem twinRestore_keeps (s : State) (q : Nat) (p : Packet) (rest : List Packet) (mask step : Nat) (r : RestoreTx) :
    let t := (((s.take q rest).sendHeaders mask step).setSending (some r)).issues q p
    t.twin.sending = some r ∧ t.step = s.step ∧ t.prog = s.prog := by
  have hf := framesOnly_sendHeaders (s.take q rest) mask step
  refine ⟨?_, ?_, ?_⟩
  · rw [State.issues, State.advance_twin]
    rfl
  · rw [State.issues, State.advance_step]
    exact (framesOnly_step hf).trans rfl
  · rw [State.issues, State.advance_prog]
    exact (framesOnly_prog hf).trans rfl

/-! ## COLL_LAUNCH (R324) -/

section
variable {s : State} {q : Nat} {d : CollDesc} {p : Packet} {rest : List Packet} {l : List Byte} (hq : q < 16)
variable (h : s.fronts q 0x0410 p rest l) (hs : s.cp = .loaded) (hl : l.length = 104) (hx : (parseLaunch l).badField = none)
include hq h hs hl hx

theorem exec_collLaunch_fronts {c : Coll} (hf : (s.take q rest).launchFault (parseLaunch l) d = none)
    (hc : (s.take q rest).hostedColl (parseLaunch l) d q p = some c) :
    exec (.collLaunch q d) s = .next (State.issues
      ((s.take q rest).setEngine c.die { s.engine c.die with waiting := (s.engine c.die).waiting ++ [c] }) q p) := by
  refine congrArg _ (runHost_of_issued hq h (lenIs_eq hl) (by simp [inState, hs]) ?_)
  dsimp only
  rw [hx]
  dsimp only
  rw [hf]
  dsimp only
  rw [hc]
  rfl

theorem exec_collLaunch_of_fault {why : Nat} (hf : (s.take q rest).launchFault (parseLaunch l) d = some why) :
    exec (.collLaunch q d) s = .next (((s.take q rest).raiseCtx 0x0413 d.eng 6 {} (leBytes 4 d.pidx ++ leBytes 1 why)).closes q p
      stLaunchRefused why [] (s.replyVia p.src)) := by
  refine congrArg _ (runHost_of_done hq h (lenIs_eq hl) (by simp [inState, hs]) ?_)
  dsimp only
  rw [hx]
  dsimp only
  rw [hf]

end

/-- COLL_DESC and the reply leave the fabric, the step and the program. -/
theorem launchRefused_keeps (s : State) (q : Nat) (p : Packet) (rest : List Packet) (eng why : Nat) (l : List Byte) (via : Mac × Ip) :
    let t := ((s.take q rest).raiseCtx 0x0413 eng 6 {} l).closes q p stLaunchRefused why [] via
    t.fab = s.fab ∧ t.step = s.step ∧ t.strands = s.strands := by
  have hev := eventOnly_raiseCtx (s.take q rest) 0x0413 eng 6 {} l rfl
  refine ⟨?_, ?_, ?_⟩
  · rw [State.closes, State.advance_fab, State.reply_fab, State.raiseCtx_fab]
    rfl
  · rw [State.closes, State.advance_step, State.reply_step]
    exact (eventOnly_step hev).trans rfl
  · rw [State.strands, State.closes, State.advance_prog, State.reply_prog, eventOnly_prog hev]
    rfl

/-- Settles O26: each row is `runHost` with its body's answer. -/
theorem twinDomainAndHostedLaunch : Obligations.TwinDomainAndHostedLaunch := by
  unfold Obligations.TwinDomainAndHostedLaunch
  refine ⟨?twinMode, ?wellheadTake, ?rankJoin, ?twinRestore, ?launch, ?launchFault⟩
  case twinMode => exact fun s q p rest l hq h hs hl hm hz => exec_twinMode_fronts hq h hs hl hm hz
  case wellheadTake => exact fun s q p rest l hq h hs hl hdom hforce hz => exec_wellheadTake_fronts hq h hs hl hdom hforce hz
  case rankJoin => exact fun s q p rest l hq h hs hl hr hwh => ⟨_, exec_rankJoin_fronts hq h hs hl hr hwh, rankJoin_keeps ..⟩
  case twinRestore =>
    intro s q p rest l hq h hs hquiet hpartner hsending hl hclean
    refine ⟨exec_twinRestore_of_no_stacks hq h hs hquiet hpartner hsending hl, fun hm hz hheld => ?_⟩
    obtain ⟨hsent, hkept⟩ := twinRestore_keeps s q p rest (leAt 0 1 l) (leAt 4 4 l)
      ⟨q, p, leAt 0 1 l, leAt 4 4 l, maskStacks (leAt 0 1 l), []⟩
    exact ⟨_, exec_twinRestore_of_held hq h hs hquiet hpartner hsending hl hclean hm hz hheld, by rw [hsent]; rfl, hkept⟩
  case launch => exact fun s q d p rest l c hq h hs hl hx hf hc => exec_collLaunch_fronts hq h hs hl hx hf hc
  case launchFault => exact fun s q d p l why hq h hs hl hx hf => ⟨_, exec_collLaunch_of_fault hq h hs hl hx hf, launchRefused_keeps ..⟩

end Sys2Proof.Machine
end

section
/-! PROOFS. A program settled over a table of bases that is not in order. -/
namespace Sys2Proof.Machine

/-- PROG_UNLOAD, which has no payload. -/
def unloadPacket : Packet := ⟨false, false, 0x0302, 0, 0, 0, [], ⟨0, .v4 0, 0, .v4 0, none⟩⟩

/-- Base 0, with page 0 of the program's region touched in its own frame. -/
def touchedBase : Stack := { vt := [(0x40000, { t := true })] }

/-- Base 0, with the committed copy of page 1 in frame 1, whose first line is uncorrectable. -/
def poisonedBase : Stack := { vt := [(0x40001, { vb := true })], poison := [0x1000440] }

/-- A program with one V region of 16 pages is unloaded; base 0 is listed twice, and its second entry is not the one that reads find. -/
def settlesTwice : State :=
  { cp := .loaded
    prog := some oneRegion
    tarns := [(0, touchedBase), (0, poisonedBase)]
    queues := [(0, { busy := some unloadPacket })] }

theorem settlesTwice_stack (i : Nat) : settlesTwice.stack i = if i = 0 then touchedBase else {} := by
  by_cases h : i = 0 <;> simp [settlesTwice, State.stack, Bank.get, h, stackDefault]

theorem settlesTwice_clean : cleanTarn settlesTwice := by
  intro i
  rw [settlesTwice_stack]
  split <;> rfl

theorem settlesTwice_settles : settlesTwice.busyWith 0x0302 = some 0 ∧ settlesTwice.quiet = true ∧
    ∀ i, i < 8 → settlesTwice.epochRuns i = false := by decide +kernel

/-- With page 0 settled the first entry goes, and the line that page 1 needs is uncorrectable. -/
theorem settlesTwice_faulted : valueAfter (·.cp) (exec .settleComplete settlesTwice) = some .faulted := by decide +kernel

/-- Refutes O24: SETTLE_COMPLETE is asked to end in READY wherever no line that a read finds is on a poison list, and not only in a canonical
state; where the table of bases lists one twice, settling a page can bring out the second entry, with a poison list of its own. -/
theorem not_programLoadAndUnload : ¬ Obligations.ProgramLoadAndUnload := by
  unfold Obligations.ProgramLoadAndUnload
  rintro ⟨-, -, -, settle⟩
  obtain ⟨hbusy, hquiet, hepochs⟩ := settlesTwice_settles
  obtain ⟨u, hnext, -, -, hready, -⟩ := settle settlesTwice (by rw [hbusy]; nofun) hquiet rfl settlesTwice_clean hepochs rfl
  have hafter := settlesTwice_faulted
  rw [valueAfter_of_next hnext, hready] at hafter
  exact absurd hafter (by decide)

end Sys2Proof.Machine
end

section
/-! PROOFS. A port whose list of links holds one of them twice. -/
namespace Sys2Proof.Machine

/-- A link on port 3 to MAC address 9: nothing waits on it, and frame 0 is expected. -/
def idleLink : Link := { port := 3, mac := 9, up := true }

/-- The same link with frame 5 expected and a frame that waits. -/
def waitingLink : Link := { idleLink with rxNext := 5, waiting := [.coll default] }

/-- Port 3 is up, and its links list the link twice, first as idle and then with the frame that waits. -/
def linkListedTwice : State :=
  { umc := { phase := .dies }
    regs := [(regAddr .cePort 3 0x10, 0x80000000)]
    fab := { ports := [(3, { phy := true })], links := [idleLink, waitingLink] } }

/-- The header of a frame that the port accepts from the link. -/
def headerFrom9 : PeerHdr :=
  ⟨true, 9, linkListedTwice.portMac 3, some (linkListedTwice.field .cePort 3 0x10 12 12), linkListedTwice.field .cePort 3 0x18 16 16, 64⟩

/-- Everything that the statement asks of the port, the frame and the link holds, and the state is canonical. -/
theorem linkListedTwice_accepts : linkListedTwice.canonical = true ∧ linkListedTwice.portUp 3 = true ∧
    linkListedTwice.peerAccepts 3 { headerFrom9 with len := max headerFrom9.len (frameBytes (.coll default)) } false = true ∧
    linkListedTwice.link? 3 9 = some idleLink := by decide +kernel

/-- What waits on the second entry is sent, and that entry then stands in the place of the first: frame 0 is not the one expected. -/
theorem linkListedTwice_discards :
    valueAfter (·.fab.inbox) (exec (.dataFrame 3 headerFrom9 0 0 (.coll default)) linkListedTwice) = some [] := by decide +kernel

/-- Refutes O44: a frame in order is accepted where a port lists a link once, which nothing asks; where it lists one twice, sending what waits
on the second entry overwrites the first, and the frame is discarded. -/
theorem not_linkSequencingAndFlowControl : ¬ Obligations.LinkSequencingAndFlowControl := by
  unfold Obligations.LinkSequencingAndFlowControl
  rintro ⟨⟨data, -⟩, -⟩
  obtain ⟨-, hport, haccepts, hlink⟩ := linkListedTwice_accepts
  obtain ⟨u, hnext, hinbox, -⟩ :=
    (data linkListedTwice 3 headerFrom9 0 0 (.coll default) idleLink ⟨hport, haccepts, hlink, rfl⟩ nofun).1 rfl rfl nofun
  have hafter := linkListedTwice_discards
  rw [valueAfter_of_next hnext, hinbox] at hafter
  exact absurd hafter (by simp)

end Sys2Proof.Machine
end

section
/-! PROOFS. The serving commands: what each body answers once its checks pass, and how its row goes on with that answer. -/
namespace Sys2Proof.Machine

/-! ## From a body's answer to the row's next state (R373) -/

/-- The command goes on with its body's answer: it completes, has started, or is issued. -/
def State.ends (s : State) (q : Nat) (p : Packet) : State × Result → State
  | (t, .done code detail payload) => t.closes q p code detail payload (s.replyVia p.src)
  | (t, .wait) => t.waits q p
  | (t, .issued) => t.issues q p

theorem runHost_ends {s : State} {q op : Nat} {p : Packet} {rest : List Packet} {l : List Byte} {lenOk : Nat → Bool}
    {stateOk : State → Bool} {body : Packet → List Byte → State → State × Result} (hq : q < 16) (h : s.fronts q op p rest l)
    (hl : lenOk l.length = true) (hs : stateOk s = true) :
    s.runHost q op lenOk stateOk body = s.ends q p (body p l (s.take q rest)) := by
  rw [runHost_of_fronts s q op p rest l lenOk stateOk body hq h hl hs]
  rcases body p l (s.take q rest) with ⟨t, code | _ | _⟩ <;> rfl

/-! ## MODEL_LOAD (R338, R339) -/

/-- MODEL_LOAD once the bytes read have the digest `commit`: the calibration block is checked, then the copies are narrowed and the model
is bound. -/
def State.bindModel (u : State) (info : ServInfo) (es : List (Nat × Nat × Nat)) (ranges : List (Nat × Nat)) (commit : Digest) (g : Program)
    (cal : Calib) : State × Result :=
  match calibFault g cal with
  | some i => (u, .done stLoadRefused i [])
  | none =>
    match State.narrowWeights info es cal.weights u with
    | (_, some (a, j)) => (u.bulkUE a j, .done stUncorrectable (lineDetail j) [])
    | (v, none) => ({ v with serv := { model := some { commit := commit, ranges := ranges, calib := cal } } }, .done stOk 0 [])

section
variable {u v : State} {info : ServInfo} {es : List (Nat × Nat × Nat)} {ranges : List (Nat × Nat)} {commit : Digest} {g : Program}
variable {cal : Calib}

theorem bindModel_of_calibFault {i : Nat} (hcal : calibFault g cal = some i) :
    u.bindModel info es ranges commit g cal = (u, .done stLoadRefused i []) := by
  rw [State.bindModel, hcal]

variable (hcal : calibFault g cal = none)
include hcal

theorem bindModel_of_uncorrectable {a j : Nat} (hnarrow : State.narrowWeights info es cal.weights u = (v, some (a, j))) :
    u.bindModel info es ranges commit g cal = (u.bulkUE a j, .done stUncorrectable (lineDetail j) []) := by
  simp only [State.bindModel, hcal, hnarrow]

theorem bindModel_of_narrowed (hnarrow : State.narrowWeights info es cal.weights u = (v, none)) :
    u.bindModel info es ranges commit g cal =
      ({ v with serv := { model := some { commit := commit, ranges := ranges, calib := cal } } }, .done stOk 0 []) := by
  simp only [State.bindModel, hcal, hnarrow]

end

/-- A sound MODEL_LOAD whose bytes are read and have the digest that it names goes on with `bindModel`. -/
theorem exec_modelLoad_of_read {s u : State} {q : Nat} {cal : Calib} {p : Packet} {rest : List Packet} {l bytes : List Byte} {g : Program}
    (hq : q < 16) (h : s.fronts q 0x0501 p rest l) (hs : s.cp = .loaded) (hprog : s.prog = some g) (hserving : g.serving = true)
    (hmodel : s.serv.model = none) (hl : l.length = 64 + 16 * leAt 12 4 l)
    (hfault : modelLoadFault s.servInfo (leAt 0 8 l) (leAt 8 4 l) (leAt 12 4 l) (modelEntries (leAt 12 4 l) l) = none)
    (hring : (s.take q rest).ringIn .serv 0x20 (256 * (s.take q rest).prvSize) = true)
    (hread : (s.take q rest).bulkReadAll
      (modelRanges s.servInfo (leAt 0 8 l) (leAt 8 4 l) (modelEntries (leAt 12 4 l) l)) [] = (u, .ok bytes))
    (hdigest : digestBytes (sha384 bytes) = slice 16 48 l) :
    exec (.modelLoad q cal) s = .next (s.ends q p (u.bindModel s.servInfo (modelEntries (leAt 12 4 l) l)
      (modelRanges s.servInfo (leAt 0 8 l) (leAt 8 4 l) (modelEntries (leAt 12 4 l) l)) (sha384 bytes) g cal)) := by
  have hlen : decide (64 ≤ l.length ∧ l.length % 16 = 0) = true := decide_eq_true (by omega)
  have hstate : (s.cp == .loaded && (s.prog.any fun p => p.serving) && s.serv.model.isNone) = true := by
    simp [hs, hprog, hserving, hmodel]
  have hinfo : (s.take q rest).servInfo = s.servInfo := rfl
  have hcal : ((s.take q rest).prog.bind fun p => calibFault p cal) = calibFault g cal := congrArg (Option.bind · _) hprog
  refine congrArg _ ((runHost_ends hq h hlen hstate).trans (congrArg (s.ends q p) ?_))
  dsimp only
  rw [if_neg (not_not.2 hl), hinfo, hfault]
  dsimp only
  rw [hring, if_neg (by decide), hread]
  dsimp only
  rw [if_neg (not_not.2 hdigest), hcal]
  rfl

/-! ## MODEL_UNLOAD (R354) -/

/-- From `s` to `t` nothing of serving but the slots has changed, and the program and CPSTATE are as before. -/
def slotsOnly (s t : State) : Prop := t.serv = { s.serv with slots := t.serv.slots } ∧ t.prog = s.prog ∧ t.cp = s.cp

theorem slotsOnly_refl (s : State) : slotsOnly s s := ⟨rfl, rfl, rfl⟩

theorem slotsOnly_trans {s t u : State} (h : slotsOnly s t) (k : slotsOnly t u) : slotsOnly s u := by
  obtain ⟨hserv, hprog, hcp⟩ := h
  obtain ⟨kserv, kprog, kcp⟩ := k
  exact ⟨by rw [kserv, hserv], kprog.trans hprog, kcp.trans hcp⟩

theorem slotsOnly_foldl {α : Type} (f : State → α → State) (h : ∀ t x, slotsOnly t (f t x)) (l : List α) (s : State) :
    slotsOnly s (l.foldl f s) := by
  induction l generalizing s with
  | nil => exact slotsOnly_refl s
  | cons x r ih => exact slotsOnly_trans (h s x) (ih _)

theorem slotsOnly_resetSlot (s : State) (slot : Nat) : slotsOnly s (s.resetSlot slot) := ⟨rfl, rfl, rfl⟩

theorem slotsOnly_finishBusy (s : State) (i op code detail : Nat) (payload : List Byte) :
    slotsOnly s (s.finishBusy i op code detail payload) := by
  simp [slotsOnly]

theorem slotsOnly_finishIssued (s : State) (i : Nat) (p : Packet) (code detail : Nat) (payload : List Byte) :
    slotsOnly s (s.finishIssued i p code detail payload) := by
  simp [slotsOnly]

theorem slotsOnly_finishResets (s : State) : slotsOnly s s.finishResets := by
  refine slotsOnly_foldl _ (fun t i => ?_) _ s
  split
  · dsimp only
    split
    · exact slotsOnly_trans (slotsOnly_resetSlot ..) (slotsOnly_finishBusy ..)
    · exact slotsOnly_refl t
  · exact slotsOnly_refl t

/-- The withdrawal of the queued requests and passes. -/
def State.withdrawAll (s : State) : State :=
  (s.serv.pass.toList.map (·.ex) ++ s.serv.passes).foldl (fun t x => t.finishIssued x.queue x.packet stCancelled 0 [])
    (s.serv.slots.foldl (fun t e => e.2.queue.foldl (fun u r => u.finishIssued r.queue r.packet stCancelled 0 []) t) s)

theorem dropModel_eq (s : State) : s.dropModel = ({ s.withdrawAll with serv := {} } : State).finishResets := rfl

theorem slotsOnly_withdrawAll (s : State) : slotsOnly s s.withdrawAll :=
  slotsOnly_trans
    (slotsOnly_foldl _ (fun t e => slotsOnly_foldl _ (fun _ _ => slotsOnly_finishIssued ..) e.2.queue t) s.serv.slots s)
    (slotsOnly_foldl _ (fun _ _ => slotsOnly_finishIssued ..) _ _)

theorem dropModel_drops (s : State) :
    s.dropModel.serv.model = none ∧ s.dropModel.serv.passes = [] ∧ s.dropModel.prog = s.prog ∧ s.dropModel.cp = s.cp := by
  obtain ⟨-, hprog, hcp⟩ := slotsOnly_withdrawAll s
  obtain ⟨kserv, kprog, kcp⟩ := slotsOnly_finishResets { s.withdrawAll with serv := {} }
  rw [dropModel_eq]
  exact ⟨by rw [kserv], by rw [kserv], kprog.trans hprog, kcp.trans hcp⟩

section
variable {s : State} {q : Nat} {p : Packet} {rest : List Packet} {l : List Byte} (hq : q < 16) (h : s.fronts q 0x0502 p rest l) (hl : l = [])
include hq h hl

theorem exec_modelUnload_of_no_model (hm : s.serv.model = none) :
    exec (.modelUnload q) s = .next ((s.take q rest).closes q p stNoModel 0 []) :=
  congrArg _ (runHost_of_done hq h (lenIs_nil hl) rfl (if_pos (Option.isNone_iff_eq_none.2 hm)))

variable (hm : s.serv.model ≠ none)
include hm

theorem exec_modelUnload_of_running (hr : s.servRuns = true) : exec (.modelUnload q) s = .next ((s.take q rest).waits q p) :=
  congrArg _ (runHost_of_wait hq h (lenIs_nil hl) rfl ((if_neg (mt Option.isNone_iff_eq_none.1 hm)).trans (if_pos hr)))

theorem exec_modelUnload_of_idle (hr : s.servRuns = false) :
    exec (.modelUnload q) s = .next ((s.take q rest).dropModel.closes q p stOk 0 [] (s.replyVia p.src)) :=
  congrArg _ (runHost_of_done hq h (lenIs_nil hl) rfl
    ((if_neg (mt Option.isNone_iff_eq_none.1 hm)).trans (if_neg (ne_true_of_eq_false hr))))

end

/-- The reply leaves what `dropModel` has left. -/
theorem modelUnload_drops (s : State) (q : Nat) (p : Packet) (rest : List Packet) (via : Mac × Ip) :
    let t := (s.take q rest).dropModel.closes q p stOk 0 [] via
    t.serv.model = none ∧ t.serv.passes = [] ∧ t.prog = s.prog ∧ t.cp = s.cp := by
  dsimp only
  rw [State.closes, State.advance_serv, State.reply_serv, State.advance_prog, State.reply_prog, State.advance_cp, State.reply_cp]
  exact dropModel_drops (s.take q rest)

/-! ## SCORE (R341) -/

/-- SCORE once its payload is sound: the slot, its next position and the room of the batcher are looked at, then the request is queued. -/
def State.queueScore (t : State) (q : Nat) (p : Packet) (l : List Byte) : State × Result :=
  let slot := leAt 0 2 l
  let count := leAt 2 2 l
  let pos := leAt 4 4 l
  if t.borrowed slot then (t, .done stSlotBusy 0 [])
  else if pos ≠ t.nextPos slot ∨ t.servInfo.ctxMax < pos + count then (t, .done stPosition 0 [])
  else if 8192 ≤ t.heldRequests then (t, .done stQueueFull 0 [])
  else (t.setSlot slot { t.slot slot with
    queue := (t.slot slot).queue ++
      [{ queue := q, packet := p, slot := slot, count := count, pos := pos, data := l.drop 16, at' := t.us }] }, .issued)

section
variable {s : State} {q : Nat} {p : Packet} {rest : List Packet} {l : List Byte} (hq : q < 16) (h : s.fronts q 0x0503 p rest l)
variable (h16 : 16 ≤ l.length)
include hq h h16

theorem exec_score_of_no_model (hm : s.serv.model = none) :
    exec (.score q) s = .next ((s.take q rest).closes q p stNoModel 0 []) :=
  congrArg _ (runHost_of_done hq h (decide_eq_true h16) rfl (if_pos (Option.isNone_iff_eq_none.2 hm)))

theorem exec_score_of_sound (hm : s.serv.model ≠ none) (hslot : leAt 0 2 l < 2048) (hpos : 0 < leAt 2 2 l) (hcount : leAt 2 2 l ≤ 32)
    (hz : leAt 8 8 l = 0) (hl : l.length = 16 + leAt 2 2 l * inBytes s.servInfo) :
    exec (.score q) s = .next (s.ends q p ((s.take q rest).queueScore q p l)) := by
  have hm' : ¬(s.take q rest).serv.model.isNone = true := mt Option.isNone_iff_eq_none.1 hm
  have hl' : l.length = 16 + leAt 2 2 l * inBytes (s.take q rest).servInfo := hl
  refine congrArg _ ((runHost_ends hq h (decide_eq_true h16) rfl).trans (congrArg (s.ends q p) ?_))
  dsimp only
  rw [if_neg hm', if_neg (by omega), if_neg (by omega), if_neg (not_not.2 hz), if_neg (not_not.2 hl')]
  rfl

end

section
variable {t : State} {q : Nat} {p : Packet} {l : List Byte}

theorem queueScore_of_borrowed (hb : t.borrowed (leAt 0 2 l) = true) : t.queueScore q p l = (t, .done stSlotBusy 0 []) := if_pos hb

variable (hb : t.borrowed (leAt 0 2 l) = false)
include hb

theorem queueScore_of_out_of_order (hpos : leAt 4 4 l ≠ t.nextPos (leAt 0 2 l)) : t.queueScore q p l = (t, .done stPosition 0 []) :=
  (if_neg (ne_true_of_eq_false hb)).trans (if_pos (.inl hpos))

theorem queueScore_of_room (hpos : leAt 4 4 l = t.nextPos (leAt 0 2 l)) (hctx : leAt 4 4 l + leAt 2 2 l ≤ t.servInfo.ctxMax)
    (hroom : t.heldRequests < 8192) :
    t.queueScore q p l = (t.setSlot (leAt 0 2 l) { t.slot (leAt 0 2 l) with
      queue := (t.slot (leAt 0 2 l)).queue ++
        [{ queue := q, packet := p, slot := leAt 0 2 l, count := leAt 2 2 l, pos := leAt 4 4 l, data := l.drop 16, at' := t.us }] },
      .issued) := by
  have hplace : ¬(leAt 4 4 l ≠ t.nextPos (leAt 0 2 l) ∨ t.servInfo.ctxMax < leAt 4 4 l + leAt 2 2 l) :=
    not_or.2 ⟨not_not.2 hpos, hctx.not_gt⟩
  exact (if_neg (ne_true_of_eq_false hb)).trans ((if_neg hplace).trans (if_neg hroom.not_ge))

end

/-! ## SLOT_RESET (R340, R354) -/

section
variable {s : State} {q : Nat} {p : Packet} {rest : List Packet} {l : List Byte} (hq : q < 16) (h : s.fronts q 0x0504 p rest l)
variable (hl : l.length = 4)
include hq h hl

theorem exec_slotReset_of_no_model (hm : s.serv.model = none) :
    exec (.slotReset q) s = .next ((s.take q rest).closes q p stNoModel 0 []) :=
  congrArg _ (runHost_of_done hq h (lenIs_eq hl) rfl (if_pos (Option.isNone_iff_eq_none.2 hm)))

theorem exec_slotReset_of_sound (hm : s.serv.model ≠ none) (hslot : leAt 0 2 l < 2048) (hz : leAt 2 2 l = 0)
    (hb : s.borrowed (leAt 0 2 l) = false) :
    exec (.slotReset q) s = .next (s.ends q p
      (if s.slotIdle (leAt 0 2 l) then ((s.take q rest).resetSlot (leAt 0 2 l), .done stOk 0 []) else (s.take q rest, .wait))) := by
  have hm' : ¬(s.take q rest).serv.model.isNone = true := mt Option.isNone_iff_eq_none.1 hm
  have hb' : ¬(s.take q rest).borrowed (leAt 0 2 l) = true := ne_true_of_eq_false hb
  refine congrArg _ ((runHost_ends hq h (lenIs_eq hl) rfl).trans (congrArg (s.ends q p) ?_))
  dsimp only
  rw [if_neg hm', if_neg (by omega), if_neg (not_not.2 hz), if_neg hb']
  rfl

end

/-! ## EXPLAIN (R349, R353) -/

/-- The pass that the payload of an EXPLAIN asks for. -/
def explainOf (q : Nat) (p : Packet) (l : List Byte) : Explain :=
  { queue := q, packet := p, recSlot := leAt 192 2 l, recInput := BitVec.ofNat 384 (beNat (slice 96 48 l))
    recOutput := BitVec.ofNat 384 (beNat (slice 144 48 l)), pos := leAt 196 4 l, events := leAt 240 8 l, out := leAt 248 8 l
    n := leAt 256 2 l, target := leAt 258 1 l, base := leAt 259 1 l, baseAddr := leAt 260 8 l }

section
variable {s : State} {q : Nat} {p : Packet} {rest : List Packet} {l : List Byte} (hq : q < 16) (h : s.fronts q 0x0505 p rest l)
variable (hl : l.length = 272)
include hq h hl

theorem exec_explain_of_no_model (hm : s.serv.model = none) :
    exec (.explain q) s = .next ((s.take q rest).closes q p stNoModel 0 []) := by
  have hm' : (s.take q rest).serv.model = none := hm
  refine congrArg _ (runHost_of_done hq h (lenIs_eq hl) rfl ?_)
  rw [hm']

variable {m : Model} {g : Program} (hm : s.serv.model = some m) (hg : s.prog = some g)
include hm hg

theorem exec_explain_of_other_model (hcommit : slice 0 48 l ≠ digestBytes m.commit) :
    exec (.explain q) s = .next ((s.take q rest).closes q p stDigest 2 []) := by
  have hm' : (s.take q rest).serv.model = some m := hm
  have hg' : (s.take q rest).prog = some g := hg
  refine congrArg _ (runHost_of_done hq h (lenIs_eq hl) rfl ?_)
  rw [hm', hg']
  exact if_pos hcommit

variable (hcommit : slice 0 48 l = digestBytes m.commit)
include hcommit

theorem exec_explain_of_other_program (hdigest : slice 48 48 l ≠ digestBytes g.programDigest) :
    exec (.explain q) s = .next ((s.take q rest).closes q p stDigest 0 []) := by
  have hm' : (s.take q rest).serv.model = some m := hm
  have hg' : (s.take q rest).prog = some g := hg
  refine congrArg _ (runHost_of_done hq h (lenIs_eq hl) rfl ?_)
  rw [hm', hg']
  exact (if_neg (not_not.2 hcommit)).trans (if_pos hdigest)

theorem exec_explain_of_room (hdigest : slice 48 48 l = digestBytes g.programDigest)
    (hfault : (s.take q rest).explainFault s.servInfo l = none) (hroom : s.serv.passes.length < 64) :
    exec (.explain q) s = .next (State.issues
      { s.take q rest with serv := { s.serv with passes := s.serv.passes ++ [explainOf q p l] } } q p) := by
  have hm' : (s.take q rest).serv.model = some m := hm
  have hg' : (s.take q rest).prog = some g := hg
  have hfault' : (s.take q rest).explainFault (s.take q rest).servInfo l = none := hfault
  have hroom' : ¬64 ≤ (s.take q rest).serv.passes.length := hroom.not_ge
  refine congrArg _ (runHost_of_issued hq h (lenIs_eq hl) rfl ?_)
  rw [hm', hg']
  dsimp only
  rw [if_neg (not_not.2 hcommit), if_neg (not_not.2 hdigest), hfault']
  dsimp only
  rw [if_neg hroom', ← hg']
  rfl

end

/-- Settles O27: each row goes on with the answer that its body gives once its checks pass. -/
theorem servingCommands : Obligations.ServingCommands := by
  unfold Obligations.ServingCommands
  refine ⟨?modelLoad, ?modelUnload, ?score, ?slotReset, ?explainWithoutModel, ?explain⟩
  case modelLoad =>
    intro s q cal p rest l g u bytes hq h hs hprog hserving hmodel _ hl t es ranges hfault hring hread hdigest
    rw [exec_modelLoad_of_read hq h hs hprog hserving hmodel hl hfault hring hread hdigest]
    refine ⟨fun i hcal => ?_, fun v a j hcal hnarrow => ?_, fun v hcal hnarrow => ?_⟩
    · rw [bindModel_of_calibFault hcal, State.ends]
    · rw [bindModel_of_uncorrectable hcal hnarrow, State.ends]
    · rw [bindModel_of_narrowed hcal hnarrow, State.ends]
  case modelUnload =>
    intro s q p rest l hq h hl
    exact ⟨exec_modelUnload_of_no_model hq h hl, exec_modelUnload_of_running hq h hl,
      fun hm hr => ⟨_, exec_modelUnload_of_idle hq h hl hm hr, modelUnload_drops ..⟩⟩
  case score =>
    intro s q p rest l hq h h16 slot count
    refine ⟨exec_score_of_no_model hq h h16, fun hm hslot hpos hcount hz hl => ?_⟩
    rw [exec_score_of_sound hq h h16 hm hslot hpos hcount hz hl]
    refine ⟨fun hb => ?_, fun hb hturn => ?_, fun hb hturn hctx hroom => ?_⟩
    · rw [queueScore_of_borrowed (t := s.take q rest) hb]
      rfl
    · rw [queueScore_of_out_of_order (t := s.take q rest) hb hturn]
      rfl
    · rw [queueScore_of_room (t := s.take q rest) hb hturn hctx hroom]
      rfl
  case slotReset =>
    intro s q p rest l hq h hl
    refine ⟨exec_slotReset_of_no_model hq h hl, fun hm hslot hz hb hidle => ?_, fun hm hslot hz hb hidle => ?_⟩
    · rw [exec_slotReset_of_sound hq h hl hm hslot hz hb, if_pos hidle]
      rfl
    · rw [exec_slotReset_of_sound hq h hl hm hslot hz hb, if_neg (ne_true_of_eq_false hidle)]
      rfl
  case explainWithoutModel => exact fun s q p rest l hq h hl hm => exec_explain_of_no_model hq h hl hm
  case explain =>
    intro s q p rest l m g hq h hl hm hg
    exact ⟨exec_explain_of_other_model hq h hl hm hg, exec_explain_of_other_program hq h hl hm hg,
      fun hcommit hdigest hfault hroom => ⟨explainOf q p l, rfl, rfl, rfl, rfl, rfl, rfl, rfl, rfl,
        exec_explain_of_room hq h hl hm hg hcommit hdigest hfault hroom⟩⟩

end Sys2Proof.Machine
end

section
/-! PROOFS. The checks before a command's own (O19): the row of FW_START is claimed for every pair of verdicts, but the model takes a row with
other verdicts than its image gives for no event (log 8), also where a check would refuse the command. -/
namespace Sys2Proof.Machine

/-- An FW_START whose payload is shorter than the PCRC that it announces. -/
def shortFwStart : Packet :=
  { sync := false, pcrc := true, opcode := 0x0102, tag := 0, queue := 0, seq := 0, payload := [], src := default }

/-- The reset state with that command alone at the front of queue 0. -/
def atShortFwStart : State := State.reset.setQueue 0 { accepted := [shortFwStart] }

/-- A command that closes on an empty queue leaves it empty. -/
theorem accepted_closes_of_empty (t : State) (i : Nat) (p : Packet) (code detail : Nat) (payload : List Byte)
    (hc : t.canonical = true) (h : (t.queue i).accepted = []) : ((t.closes i p code detail payload).queue i).accepted = [] := by
  have hreply : ((t.reply i p code detail payload).queue i).accepted = [] := by
    unfold State.reply State.queue
    rw [State.sendReply_queues]
    exact (congrArg Queue.accepted (queue_setQueue_same t i _ hc)).trans h
  rw [State.closes, advance_of_empty _ _ hreply, hreply]

/-- A row of FW_START with another verdict of RSA-PSS than the image's is no event. -/
theorem exec_fwStart_of_other_verdict (s : State) (q : Nat) (slh : Bool) : exec (.fwStart q (!s.rsaVerdict) slh) s = .next s :=
  guarded_of_false _ _ (by cases s.rsaVerdict <;> rfl)

/-- Refutes O19: an FW_START with a wrong PCRC, under a verdict of RSA-PSS that is not the image's, is no event and stays at the front of its
queue; the statement has it complete with BAD_PAYLOAD. -/
theorem not_opcodeChecks : ¬ Obligations.OpcodeChecks := by
  unfold Obligations.OpcodeChecks
  intro ⟨h, _⟩
  have hclosed := (h atShortFwStart 0 (!atShortFwStart.rsaVerdict) true default default shortFwStart [] (by decide)
    _ (List.mem_cons_of_mem _ List.mem_cons_self) rfl).1 rfl
  have hsame := Host.Outcome.next.inj ((exec_fwStart_of_other_verdict atShortFwStart 0 true).symm.trans hclosed)
  have hempty := accepted_closes_of_empty (atShortFwStart.take 0 []) 0 shortFwStart stBadPayload 0 [] rfl rfl
  rw [← hsame] at hempty
  exact List.cons_ne_nil _ _ hempty

end Sys2Proof.Machine
end

section
/-! PROOFS. What each operation of the model makes of CPSTATE (R376): it leaves it as it is, or, where it may mark the module FAULTED,
it keeps FAULTED. -/
namespace Sys2Proof.Machine

theorem State.foldl_faulted {β : Type} (g : State → β → State) (l : List β) (s : State) (h : s.cp = .faulted)
    (hg : ∀ t x, t.cp = .faulted → (g t x).cp = .faulted) : (l.foldl g s).cp = .faulted :=
  List.foldlRecOn (motive := fun t => State.cp t = .faulted) l g h fun t ht x _ => hg t x ht

/-! ### Operations of Machine/Ops -/

@[simp] theorem State.draw_cp (s : State) : s.draw.2.cp = s.cp := by simp [State.draw]

/-! ### Operations of Machine/Flags -/

@[simp] theorem State.logDrain_cp (n : Nat) (s : State) : (State.logDrain n s).cp = s.cp := by
  induction n generalizing s with
  | zero => rfl
  | succ n ih =>
    unfold State.logDrain
    split
    · rfl
    · split
      · simp [ih]
      · rfl

@[simp] theorem State.markFaulted_cp (s : State) : s.markFaulted.cp = .faulted := rfl

/-! ### Operations of Machine/PowerUp -/

@[simp] theorem State.recordFull_cp (s : State) : s.recordFull.cp = s.cp := by simp [State.recordFull]

@[simp] theorem State.loadPortClock_cp (s : State) : s.loadPortClock.cp = s.cp := by simp [State.loadPortClock]

@[simp] theorem State.startRails_cp (s : State) : s.startRails.cp = s.cp := by simp [State.startRails]

@[simp] theorem State.powerOn_cp (s : State) : s.powerOn.cp = s.cp := by simp [State.powerOn]

theorem State.alarm_cp (s : State) (code : Nat) {level : Nat} (h : level < 3) : (s.alarm code level).cp = s.cp := by
  simp [State.alarm, h]

@[simp] theorem State.inputAt_cp (s : State) (mv : Nat) : (s.inputAt mv).cp = s.cp := by simp [State.inputAt]

/-! ### Operations of Machine/PowerCtl -/

@[simp] theorem State.fastTrip_cp (s : State) : s.fastTrip.cp = s.cp := by simp [State.fastTrip]

@[simp] theorem State.countPauses_cp (s : State) : s.countPauses.cp = s.cp := by simp [State.countPauses]

@[simp] theorem State.blockUp_cp (s : State) : s.blockUp.cp = s.cp := by
  unfold State.blockUp
  split <;> simp

@[simp] theorem State.capEffect_cp (s : State) : s.capEffect.cp = s.cp := by simp [State.capEffect]

@[simp] theorem State.issueWide_cp (s : State) (f : Nat) (cnm : Bool) : (s.issueWide f cnm).cp = s.cp := by simp [State.issueWide]

@[simp] theorem State.restartPeak_cp (s : State) (d : Nat) : (s.restartPeak d).cp = s.cp := by simp [State.restartPeak]

@[simp] theorem State.trimWrite_cp (s : State) (v : Word) : (s.trimWrite v).cp = s.cp := by simp [State.trimWrite]

@[simp] theorem State.calWrite_cp (s : State) (v : Word) : (s.calWrite v).cp = s.cp := by simp [State.calWrite]

@[simp] theorem State.guardEffect_cp (old : State) (s : State) : (State.guardEffect old s).cp = s.cp := by simp [State.guardEffect]

@[simp] theorem State.evalThrottle_cp (s : State) : s.evalThrottle.cp = s.cp := by simp [State.evalThrottle]

@[simp] theorem State.clkFault_cp (s : State) (cause : ClkCause) (n : Nat) : (s.clkFault cause n).cp = .faulted := rfl

/-! ### Operations of Machine/HostPort -/

theorem State.rxHost_cp (s : State) (fr : EthFrame) (f : State → State) (hf : ∀ u, (f u).cp = u.cp) : (s.rxHost fr f).cp = s.cp := by
  simp [State.rxHost, hf]

@[simp] theorem State.ptpSync_cp (s : State) (t : PtpTransport) (origin rx : Int) :
    (s.ptpSync t origin rx).cp = s.cp := by simp [State.ptpSync]

/-! ### Operations of Machine/Commands -/

@[simp] theorem State.accept_cp (s : State) (i : Nat) (p : Packet) : (s.accept i p).cp = s.cp := by simp [State.accept]

@[simp] theorem State.acceptHeld_cp (i n : Nat) (s : State) : (State.acceptHeld i n s).cp = s.cp := by
  induction n generalizing s with
  | zero => rfl
  | succ n ih =>
    unfold State.acceptHeld
    dsimp only
    split
    · simp [ih]
    · rfl

@[simp] theorem State.countDup_cp (s : State) (port : CmdPort) : (s.countDup port).cp = s.cp := by simp [State.countDup]

@[simp] theorem State.countDrop_cp (s : State) (port : CmdPort) : (s.countDrop port).cp = s.cp := by simp [State.countDrop]

@[simp] theorem State.duplicate_cp (s : State) (i : Nat) (p : Packet) : (s.duplicate i p).cp = s.cp := by
  unfold State.duplicate
  split <;> simp

@[simp] theorem State.sequence_cp (s : State) (i : Nat) (p : Packet) : (s.sequence i p).cp = s.cp := by simp [State.sequence]

@[simp] theorem State.applySync_cp (s : State) (i : Nat) (p : Packet) : (s.applySync i p).cp = s.cp := by simp [State.applySync]

@[simp] theorem State.receive_cp (s : State) (i : Nat) (p : Packet) : (s.receive i p).cp = s.cp := by simp [State.receive]

@[simp] theorem State.datagram_cp (s : State) (port : CmdPort) (l : List Byte) (src : Sender) : (s.datagram port l src).cp = s.cp := by
  unfold State.datagram
  dsimp only
  repeat' split
  all_goals simp

theorem State.runCmd_cp (s : State) (i op : Nat) (lenOk : Nat → Bool) (stateOk : State → Bool)
    (body : Packet → List Byte → State → State × Result) (hb : ∀ p l t, t.cp = .faulted → (body p l t).1.cp = .faulted)
    (h : s.cp = .faulted) : (s.runCmd i op lenOk stateOk body).cp = .faulted := by
  unfold State.runCmd
  split
  · exact h
  · next p rest _ =>
    dsimp only
    split
    · simp [h]
    · next l _ =>
      have h1 := hb p l (s.setQueue i { s.queue i with accepted := rest }) h
      repeat' split
      · simp [h]
      · simp [h]
      · simp [h]
      · next e => rw [e] at h1; simpa using h1
      · next e => rw [e] at h1; simpa using h1
      · next e => rw [e] at h1; simpa using h1

theorem State.runHost_cp (s : State) (q op : Nat) (lenOk : Nat → Bool) (stateOk : State → Bool)
    (body : Packet → List Byte → State → State × Result) (hop : runsFaulted op = false) (h : s.cp = .faulted) :
    (s.runHost q op lenOk stateOk body).cp = .faulted := by
  unfold State.runHost
  split
  · next hq =>
    unfold State.runCmd
    split
    · exact h
    · dsimp only
      split
      · simp [h]
      · have h1 : q ≠ 16 ∧ s.cp = .faulted ∧ runsFaulted op = false := ⟨by omega, h, hop⟩
        rw [if_pos h1]
        split <;> simp [h]
  · exact h

@[simp] theorem State.finishEach_cp (s : State) (op code detail : Nat) (payload : List Byte) :
    (s.finishEach op code detail payload).cp = s.cp := by simp [State.finishEach]

/-! ### Operations of Machine/Link -/

@[simp] theorem State.resend_cp (s : State) (l : Link) (seq : Nat) : (s.resend l seq).cp = s.cp := by simp [State.resend]

@[simp] theorem State.sendTwinOn_cp (s : State) (n : Nat) (d : LinkData) : (s.sendTwinOn n d).cp = s.cp := by
  unfold State.sendTwinOn
  split <;> simp

@[simp] theorem State.sendHello_cp (s : State) : s.sendHello.cp = s.cp := by
  unfold State.sendHello
  refine State.foldl_cp _ _ _ fun t x => ?_
  repeat' split
  all_goals simp

@[simp] theorem State.dieCkptLost_cp (s : State) (d why : Nat) : (s.dieCkptLost d why).cp = s.cp := by simp [State.dieCkptLost]

@[simp] theorem State.linkUp_cp (s : State) (n : Nat) (m : Mac) (twin : Bool) (rank : Nat) : (s.linkUp n m twin rank).cp = s.cp := by
  unfold State.linkUp
  dsimp only
  repeat' split
  all_goals simp

@[simp] theorem State.linkDown_cp (s : State) (l : Link) (why : Nat) : (s.linkDown l why).cp = s.cp := by simp [State.linkDown]

@[simp] theorem State.portDown_cp (s : State) (n why : Nat) : (s.portDown n why).cp = s.cp := by simp [State.portDown]

@[simp] theorem State.peerDiscard_cp (s : State) (n : Nat) (fcsOk : Bool) :
    (s.peerDiscard n fcsOk).cp = s.cp := by simp [State.peerDiscard]

theorem State.peerRx_cp (s : State) (n : Nat) (h : PeerHdr) (bcast : Bool) (k : State → State) (hk : ∀ t, (k t).cp = t.cp) :
    (s.peerRx n h bcast k).cp = s.cp := by
  simp [State.peerRx, hk]

theorem State.onLink_cp (s : State) (n : Nat) (m : Mac) (k : Link → State → State) (hk : ∀ l t, (k l t).cp = t.cp) :
    (s.onLink n m k).cp = s.cp := by
  unfold State.onLink
  split
  · simp [hk]
  · rfl

@[simp] theorem State.pfcCheck_cp (s : State) (n : Nat) : (s.pfcCheck n).cp = s.cp := by simp [State.pfcCheck]

@[simp] theorem State.dropFrame_cp (s : State) (i : Nat) : (s.dropFrame i).cp = s.cp := by
  unfold State.dropFrame
  split <;> simp

theorem State.takeFrame_cp {α : Type} {s t : State} {p : RxFrame → Option α} {x : RxFrame} {a : α}
    (h : s.takeFrame p = some (x, a, t)) : t.cp = s.cp := by
  obtain ⟨e, -, he⟩ := List.exists_of_findSome?_eq_some h
  obtain ⟨b, -, hb⟩ := Option.map_eq_some_iff.1 he
  cases hb
  exact s.dropFrame_cp e.2

@[simp] theorem State.onLinkState_cp (s : State) (n : Nat) (m : Mac) (f : Link → Link) : (s.onLinkState n m f).cp = s.cp := by
  unfold State.onLinkState
  split <;> simp

@[simp] theorem State.acceptData_cp (s : State) (l : Link) (d : LinkData) : (s.acceptData l d).cp = s.cp := by
  unfold State.acceptData
  split <;> simp

@[simp] theorem State.ackLink_cp (s : State) (l : Link) (ack : Nat) : (s.ackLink l ack).cp = s.cp := by simp [State.ackLink]

@[simp] theorem State.unpause_cp (s : State) (n pr : Nat) : (s.unpause n pr).cp = s.cp := by simp [State.unpause]

/-! ### Operations of Machine/Message -/

theorem State.takeCombined_cp {s t : State} {mtype : Nat} {inTurn : DomFrame → Bool} {f : DomFrame} {l : List DomFrame}
    (h : s.takeCombined mtype inTurn = some (f, l, t)) : t.cp = s.cp := by
  obtain ⟨g, -, hg⟩ := List.exists_of_findSome?_eq_some h
  split at hg
  · obtain ⟨k, -, hk⟩ := Option.map_eq_some_iff.1 hg
    cases hk
    exact s.dropKey_cp f
  · cases hg

theorem State.combinedIf_cp (s : State) (mtype : Nat) (inTurn : DomFrame → Bool) (comb : DomFrame → List DomFrame → List Byte)
    (act : DomFrame → State → State) (h : s.cp = .faulted) (ha : ∀ f t, t.cp = .faulted → (act f t).cp = .faulted) :
    (s.combinedIf mtype inTurn comb act).cp = .faulted := by
  unfold State.combinedIf
  split
  · exact h
  · next hc =>
    have ht := (State.takeCombined_cp hc).trans h
    dsimp only
    split
    · exact ha _ _ ht
    · simp [ht]

theorem State.combined_cp (s : State) (mtype : Nat) (comb : DomFrame → List DomFrame → List Byte)
    (act : DomFrame → State → State) (h : s.cp = .faulted) (ha : ∀ f t, t.cp = .faulted → (act f t).cp = .faulted) :
    (s.combined mtype comb act).cp = .faulted := s.combinedIf_cp mtype _ comb act h ha

theorem State.takeDown_cp {s t : State} {mtype : Nat} {f : DomFrame} (h : s.takeDown mtype = some (f, t)) : t.cp = s.cp := by
  obtain ⟨r, hr, hf⟩ := Option.map_eq_some_iff.1 h
  cases hf
  exact State.takeFrame_cp hr

theorem State.takeUp_cp {s t : State} {mtype : Nat} {x : RxFrame} {f : DomFrame} (h : s.takeUp mtype = some (x, f, t)) : t.cp = s.cp :=
  State.takeFrame_cp h

theorem State.onDown_cp (s : State) (mtype : Nat) (act : DomFrame → State → State) (h : s.cp = .faulted)
    (ha : ∀ f t, t.cp = .faulted → (act f t).cp = .faulted) : (s.onDown mtype act).cp = .faulted := by
  unfold State.onDown
  split
  · exact h
  · next hd =>
    refine ha _ _ ?_
    split <;> simp [State.takeDown_cp hd, h]

@[simp] theorem State.purgeDom_cp (s : State) (step base : Nat) : (s.purgeDom step base).cp = s.cp := by simp [State.purgeDom]

/-! ### Operations of Machine/StepBase -/

@[simp] theorem State.scratchUndef_cp (s : State) : s.scratchUndef.cp = s.cp := by
  unfold State.scratchUndef
  refine State.foldl_cp _ _ _ fun t x => ?_
  simp

/-! ### Operations of Machine/Lines -/

@[simp] theorem State.strikeAttempt_cp (s : State) (ra : Bool) (code : Nat) : (s.strikeAttempt ra code).cp = s.cp := by
  unfold State.strikeAttempt
  dsimp only
  repeat' split
  all_goals simp

@[simp] theorem State.ckptRefuse_cp (s : State) (i why : Nat) : (s.ckptRefuse i why).cp = s.cp := by simp [State.ckptRefuse]

@[simp] theorem State.lineUEFor_cp (s : State) (ra : Bool) (l req : Nat) (addr : Bool) (h : s.cp = .faulted) :
    (s.lineUEFor ra l req addr).cp = .faulted := by
  unfold State.lineUEFor
  dsimp only
  split
  · rfl
  · split <;> simp [h]

@[simp] theorem State.lineUE_cp (s : State) (l req : Nat) (addr : Bool) (h : s.cp = .faulted) : (s.lineUE l req addr).cp = .faulted :=
  s.lineUEFor_cp false l req addr h

@[simp] theorem State.strandIO_cp (s : State) (ra : Bool) (req : Nat) (reads : List Nat) (writes : List (Nat × Nat)) (t : State)
    (h : s.cp = .faulted) (ht : t.cp = .faulted) : (s.strandIO ra req reads writes t).cp = .faulted := by
  unfold State.strandIO
  split
  · exact ht
  · exact State.foldl_faulted _ _ _ h fun u l hu => u.lineUEFor_cp _ _ _ _ hu

@[simp] theorem State.clearBitmaps_cp (s : State) (p : Program) (n : Nat) (h : s.cp = .faulted) : (s.clearBitmaps p n).cp = .faulted :=
  State.foldl_faulted _ _ _ h fun t e ht => State.foldl_faulted _ _ _ ht fun u d hu => by simp [hu]

/-! ### Operations of Machine/Stash -/

@[simp] theorem State.toSpillway_cp (s : State) (b : Spilled) (f : CopyFrame) : (s.toSpillway b f).cp = s.cp := by simp [State.toSpillway]

@[simp] theorem State.spill_cp (s : State) (b : Block4) (off : Nat) : (s.spill b off).cp = s.cp := by simp [State.spill]

@[simp] theorem State.spillFor_cp (p : Program) (a : Attempt) (die z n : Nat) (s : State) : (State.spillFor p a die z n s).1.cp = s.cp := by
  induction n generalizing s with
  | zero => rfl
  | succ n ih =>
    unfold State.spillFor
    dsimp only
    repeat' split
    all_goals simp [ih]

@[simp] theorem State.stashFull_cp (s : State) (ra : Bool) (a : Attempt) (t : Strand) (e : StashEntry) (ret : Bool) :
    (s.stashFull ra a t e ret).cp = s.cp := by simp [State.stashFull]

@[simp] theorem State.allocBlock_cp (s : State) (ra : Bool) (p : Program) (a : Attempt) (t : Strand) (e : StashEntry) :
    (s.allocBlock ra p a t e).1.cp = s.cp := by
  have hs := State.spillFor_cp p a e.die (blockSize e (a.rungAt e.layer)) (s.stash.resident.length + 1) s
  unfold State.allocBlock
  dsimp only
  split
  · rfl
  · split
    · next h => rw [← hs, h]
    · next h => rw [← hs, h]; simp

@[simp] theorem State.allocAll_cp (ra : Bool) (p : Program) (a : Attempt) (t : Strand) (l : List StashEntry) (s : State) :
    (State.allocAll ra p a t l s).1.cp = s.cp := by
  induction l generalizing s with
  | nil => rfl
  | cons e r ih =>
    have hs := s.allocBlock_cp ra p a t e
    unfold State.allocAll
    split
    · exact ih s
    · split
      · next h => rw [ih, ← hs, h]
      · exact hs

@[simp] theorem State.startReturn_cp (s : State) (b : Spilled) (addr : Nat) :
    (s.startReturn b addr).cp = s.cp := by simp [State.startReturn]

@[simp] theorem State.releaseBlock_cp (s : State) (ra : Bool) (id shard : Nat) :
    (s.releaseBlock ra id shard).cp = s.cp := by simp [State.releaseBlock]

@[simp] theorem State.releaseAt_cp (s : State) (ra : Bool) (p : Program) (id : Nat) :
    (s.releaseAt ra p id).cp = s.cp := by simp [State.releaseAt]

@[simp] theorem State.releaseAll_cp (s : State) (ra : Bool) : (s.releaseAll ra).cp = s.cp := by simp [State.releaseAll]

@[simp] theorem State.spillLost_cp (s : State) (b : Spilled) : (s.spillLost b).cp = s.cp := by
  unfold State.spillLost
  split <;> simp

@[simp] theorem State.spillTargetLost_cp (s : State) (at' : Spilled → Bool) : (s.spillTargetLost at').cp = s.cp := by
  unfold State.spillTargetLost
  refine State.foldl_cp _ _ _ fun t x => ?_
  repeat' split
  all_goals simp

/-! ### Operations of Machine/Units -/

@[simp] theorem State.queueKernel_cp (s : State) (ra : Bool) (t : Strand) : (s.queueKernel ra t).cp = s.cp := by
  unfold State.queueKernel
  split <;> simp

@[simp] theorem State.freshErrors_cp (s : State) : s.freshErrors.cp = s.cp := by simp [State.freshErrors]

@[simp] theorem State.newAttemptUnits_cp (s : State) : s.newAttemptUnits.cp = s.cp := by simp [State.newAttemptUnits]

/-! ### Operations of Machine/Trouble -/

@[simp] theorem State.decideReport_cp (s : State) (f : DomFrame) : (s.decideReport f).cp = s.cp := by
  unfold State.decideReport
  split <;> simp

theorem State.exhaustedBeside_cp {s t : State} {f : DomFrame} (h : s.exhaustedBeside = some (f, t)) : t.cp = s.cp := by
  obtain ⟨r, hr, hf⟩ := Option.map_eq_some_iff.1 h
  cases hf
  exact State.takeCombined_cp hr

@[simp] theorem State.decideRound_cp (s : State) (f : DomFrame) : (s.decideRound f).cp = s.cp := by
  unfold State.decideRound
  split
  · split
    · next h => simp [State.exhaustedBeside_cp h]
    · simp
  · simp

theorem State.onDecision_cp (s : State) (kind : Nat) (act : Program → Bool → Attempt → Nat → Bool → DomFrame → State → State)
    (h : s.cp = .faulted) (ha : ∀ p ra a l z f t, t.cp = .faulted → (act p ra a l z f t).cp = .faulted) :
    (s.onDecision kind act).cp = .faulted := by
  unfold State.onDecision
  split
  · exact h
  · next f t ht =>
    have h1 : (if t.isWellhead then t else t.passDown f).cp = .faulted := by simp [State.takeFrame_cp ht, h]
    dsimp only
    split
    · split
      · exact ha _ _ _ _ _ _ _ h1
      · exact h1
    · exact h1

@[simp] theorem State.troubleEvents_cp (s : State) (ra : Bool) (a : Attempt) (l : Nat) (bwd : Bool) (f : DomFrame) :
    (s.troubleEvents ra a l bwd f).cp = s.cp := by simp [State.troubleEvents]

@[simp] theorem State.rollback_cp (s : State) (p : Program) (ra : Bool) (a : Attempt) (segs : List (Nat × Bool)) (ids : List Nat) :
    (s.rollback p ra a segs ids).cp = s.cp := by simp [State.rollback]

/-! ### Operations of Machine/StepSeq -/

@[simp] theorem State.mapProgPages_cp (s : State) (i : Nat) (f : VtEntry → VtEntry) :
    (s.mapProgPages i f).cp = s.cp := by simp [State.mapProgPages]

@[simp] theorem State.flipAll_cp (s : State) : s.flipAll.cp = s.cp := by simp [State.flipAll]

@[simp] theorem State.discardAll_cp (s : State) : s.discardAll.cp = s.cp := by simp [State.discardAll]

@[simp] theorem State.cancelColls_cp (s : State) (p : Coll → Bool) : (s.cancelColls p).cp = s.cp := by
  refine State.foldl_cp _ _ _ fun t d => (State.foldl_cp _ _ _ fun u c => ?_).trans rfl
  split <;> simp

@[simp] theorem State.dropEarly_cp (s : State) (base : Nat) : (s.dropEarly base).cp = s.cp := by
  unfold State.dropEarly
  refine State.foldl_cp _ _ _ fun t x => ?_
  simp

@[simp] theorem State.squash_cp (s : State) : s.squash.cp = s.cp := by
  unfold State.squash
  split <;> simp

@[simp] theorem State.dropAttempt_cp (s : State) (a : Attempt) : (s.dropAttempt a).cp = s.cp := by simp [State.dropAttempt]

@[simp] theorem State.tellTwin_cp (s : State) (code n attempt cause : Nat) :
    (s.tellTwin code n attempt cause).cp = s.cp := by simp [State.tellTwin]

@[simp] theorem State.enterHalt_cp (s : State) (code : Nat) : (s.enterHalt code).cp = s.cp := by simp [State.enterHalt]

@[simp] theorem State.abortAttempt_cp (s : State) (p : Program) (a : Attempt) (c : Cause) (halt : Bool) :
    (s.abortAttempt p a c halt).cp = s.cp := by simp [State.abortAttempt]

@[simp] theorem State.awaitHalts_cp (s : State) : s.awaitHalts.cp = s.cp := by simp [State.awaitHalts]

@[simp] theorem State.haltSettled_cp (s : State) : s.haltSettled.cp = s.cp := by simp [State.haltSettled]

@[simp] theorem State.onAbort_cp (s : State) (f : DomFrame) : (s.onAbort f).cp = s.cp := by
  unfold State.onAbort
  split <;> simp

@[simp] theorem State.sendAbort_cp (s : State) (c : Cause) (halt : Bool) : (s.sendAbort c halt).cp = s.cp := by simp [State.sendAbort]

@[simp] theorem State.issueGates_cp (p : Program) (a : Attempt) (stop : Nat) (l : List Nat) (i : Nat) (s : State) :
    (State.issueGates p a stop l i s).cp = s.cp := by
  induction l generalizing i s with
  | nil => rfl
  | cons x r ih =>
    unfold State.issueGates
    dsimp only
    repeat' split
    all_goals simp [ih]

@[simp] theorem State.wellheadVotes_cp (s : State) : s.wellheadVotes.cp = s.cp := by
  unfold State.wellheadVotes
  split
  · split
    · split <;> simp
    · rfl
  · rfl

@[simp] theorem State.decideCause_cp (s : State) (p : Program) (c : Cause) : (s.decideCause p c).cp = s.cp := by
  simp [State.decideCause]

@[simp] theorem State.tryPolicy_cp (s : State) : s.tryPolicy.cp = s.cp := by
  unfold State.tryPolicy
  split <;> simp

@[simp] theorem State.raiseShift_cp (s : State) (vec k : Nat) (h : s.cp = .faulted) : (s.raiseShift vec k).cp = .faulted := by
  simp [State.raiseShift, h]

@[simp] theorem State.latch_cp (s : State) (n : Nat) (hold : Bool) : (s.latch n hold).cp = s.cp := by simp [State.latch]

theorem State.latchFor_cp {s t : State} {n : Nat} (h : s.latchFor n = some t) : t.cp = s.cp := by
  unfold State.latchFor at h
  repeat' split at h
  all_goals cases h
  all_goals simp

@[simp] theorem State.openCommon_cp (s : State) (n : Nat) : (s.openCommon n).cp = s.cp := by simp [State.openCommon]

@[simp] theorem State.flushRecords_cp (s : State) : s.flushRecords.cp = s.cp := by
  unfold State.flushRecords
  split <;> simp

@[simp] theorem State.flushHold_cp (s : State) (h : s.cp = .faulted) : s.flushHold.cp = .faulted := by
  unfold State.flushHold
  split
  · rw [State.flushRecords_cp]
    exact State.foldl_faulted _ _ _ (by simp [h]) fun t x ht => by simp [ht]
  · exact h

@[simp] theorem State.onOpen.fresh_cp (f : DomFrame) (p : Program) (wide rerun : Bool) (lr : Word) (u : State) (h : u.cp = .faulted) :
    (State.onOpen.fresh f p wide rerun lr u).cp = .faulted := by
  have hc : ∀ t : State, t.cp = .faulted → ((t.setBase f.arg).clearBitmaps p f.step).cp = .faulted := fun t ht => by simp [ht]
  unfold State.onOpen.fresh
  exact State.strandIO_cp _ _ _ _ _ _ (hc _ (by simp [h])) (hc _ (by simp [h]))

theorem State.onOpen_cp (s : State) (f : DomFrame) (h : s.cp = .faulted) : (s.onOpen f).cp = .faulted := by
  unfold State.onOpen
  split
  · exact h
  · dsimp only
    split
    · split
      · refine State.clearBitmaps_cp _ _ _ ((State.setBase_cp _ _).trans ((State.foldl_cp _ _ _ fun u d => u.setEngine_cp d _).trans ?_))
        simp [h]
      · simp [h]
    · simp [h]

@[simp] theorem State.contributeXmap_cp (s : State) (p : Program) : (s.contributeXmap p).cp = s.cp := by
  unfold State.contributeXmap
  split <;> simp

@[simp] theorem State.rerunSegment_cp (s : State) (p : Program) (ra : Bool) (a : Attempt) (l : Nat) (bwd : Bool) (f : DomFrame) (widened replayed : Bool) :
    (s.rerunSegment p ra a l bwd f widened replayed).cp = s.cp := by simp [State.rerunSegment]

@[simp] theorem State.takeCause_cp (s : State) (base : Nat) (c : Cause) : (s.takeCause base c).cp = s.cp := by
  unfold State.takeCause
  repeat' split
  all_goals simp

@[simp] theorem State.haltIdle_cp (s : State) (c : Cause) : (s.haltIdle c).cp = s.cp := by simp [State.haltIdle]

@[simp] theorem State.writeRatio_cp (s : State) (first : Bool) (data : List Byte) :
    (s.writeRatio first data).cp = s.cp := by simp [State.writeRatio]

@[simp] theorem State.ratioEvents_cp (s : State) (p : Program) (a : Attempt) :
    (s.ratioEvents p a).cp = s.cp := by simp [State.ratioEvents]

@[simp] theorem State.onCommit_cp (s : State) (p : Program) (a : Attempt) : (s.onCommit p a).cp = s.cp := by simp [State.onCommit]

@[simp] theorem State.oweEpochs_cp (s : State) (n : Nat) : (s.oweEpochs n).cp = s.cp := by simp [State.oweEpochs]

@[simp] theorem State.advanceStep_cp (s : State) (n : Nat) : (s.advanceStep n).cp = s.cp := by simp [State.advanceStep]

/-! ### Operations of Machine/Strands -/

@[simp] theorem State.completeStrand_cp (s : State) (ra : Bool) (id : Nat) : (s.completeStrand ra id).cp = s.cp := by
  unfold State.completeStrand
  split <;> simp

@[simp] theorem State.issueStrand_cp (s : State) (ra : Bool) (t : Strand) (h : s.cp = .faulted) : (s.issueStrand ra t).cp = .faulted := by
  unfold State.issueStrand
  split <;> simp [h]

/-! ### Operations of Machine/Tarn -/

@[simp] theorem State.lineCE_cp (s : State) (l syms req : Nat) (data : List Byte) :
    (s.lineCE l syms req data).cp = s.cp := by simp [State.lineCE]

@[simp] theorem State.readLine_cp (s : State) (l req : Nat) (e : LineError) (h : s.cp = .faulted) : (s.readLine l req e).1.cp = .faulted := by
  unfold State.readLine
  repeat' split
  all_goals simp [h]

@[simp] theorem State.setGrant_cp (s : State) (i c : Nat) (g : Option Grant) : (s.setGrant i c g).cp = s.cp := by simp [State.setGrant]

@[simp] theorem State.revoke_cp (s : State) (i c : Nat) (g : Grant) : (s.revoke i c g).cp = s.cp := by simp [State.revoke]

@[simp] theorem State.grant_cp (s : State) (i c req line count : Nat) (write : Bool) :
    (s.grant i c req line count write).cp = s.cp := by simp [State.grant]

theorem State.arbitrate_cp {s t : State} {i c req line count : Nat} {write : Bool} {rivals : List Nat}
    (h : s.arbitrate i c req line count write rivals = some t) : t.cp = s.cp := by
  unfold State.arbitrate at h
  dsimp only at h
  repeat' split at h
  all_goals cases h
  all_goals simp

@[simp] theorem State.writeLine_cp (s : State) (req a off : Nat) (data : List Byte) (e : LineError) (h : s.cp = .faulted) :
    (s.writeLine req a off data e).cp = .faulted := by
  unfold State.writeLine
  split
  · exact State.foldl_faulted _ _ _ h fun t x ht => t.lineUE_cp x req false ht
  · extract_lets s1 l
    have h1 : s1.cp = .faulted := by
      unfold s1
      repeat' split
      all_goals simp [h]
    have hr := s1.readLine_cp l req e h1
    split
    · simp [h1]
    · split
      · next hq => rw [hq] at hr; simpa using hr
      · next hq => rw [hq] at hr; exact hr

@[simp] theorem State.moveLine_cp (s : State) (i req addr : Nat) (x : Xfer) (errs : List LineError) (j : Nat) (h : s.cp = .faulted) :
    (s.moveLine i req addr x errs j).cp = .faulted := by
  unfold State.moveLine
  extract_lets a e
  split
  · have hr := s.readLine_cp (s.physLine req a) req e h
    split
    · next hq => rw [hq] at hr; simpa using hr
    · next hq => rw [hq] at hr; exact hr
  · simp [h]

@[simp] theorem State.moveLines_cp (i req addr : Nat) (x : Xfer) (errs : List LineError) (n j : Nat) (s : State) (h : s.cp = .faulted) :
    (State.moveLines i req addr x errs n j s).cp = .faulted := by
  induction n generalizing j s with
  | zero => exact h
  | succ n ih => exact ih _ _ (s.moveLine_cp i req addr x errs j h)

@[simp] theorem State.refuse_cp (s : State) (i req a count why : Nat) (x6 : Xfer) (h : s.cp = .faulted) :
    (s.refuse i req a count why x6).cp = .faulted := by
  unfold State.refuse
  split <;> simp [h]

@[simp] theorem State.vtParity_cp (s : State) (i a : Nat) : (s.vtParity i a).cp = .faulted := rfl

@[simp] theorem State.rowUndef_cp (s : State) (i n row : Nat) : (s.rowUndef i n row).cp = s.cp := by
  unfold State.rowUndef
  refine State.foldl_cp _ _ _ fun t x => ?_
  simp

@[simp] theorem State.repairWrite_cp (s : State) (i : Nat) (v : Word) : (s.repairWrite i v).cp = s.cp := by
  unfold State.repairWrite
  dsimp only
  rw [State.setReg_cp]
  repeat' split
  all_goals simp

@[simp] theorem State.retryRings_cp (s : State) : s.retryRings.cp = s.cp := by simp [State.retryRings]

@[simp] theorem State.ckFlip_cp (s : State) (i : Nat) : (s.ckFlip i).cp = s.cp := by simp [State.ckFlip]

@[simp] theorem State.settleRegion_cp (s : State) (r : Region) (h : s.cp = .faulted) : (s.settleRegion r).cp = .faulted := by
  unfold State.settleRegion
  refine State.foldl_faulted _ _ _ h fun t j ht => ?_
  extract_lets p
  split
  · split
    · rw [State.setVt_cp, State.putBytes_cp, ht]
    · exact State.foldl_faulted _ _ _ ht fun u l hu => u.lineUE_cp l _ _ hu
  · rw [State.setVt_cp, ht]

@[simp] theorem State.settle_cp (s : State) (h : s.cp = .faulted) : s.settle.cp = .faulted :=
  State.foldl_faulted _ _ _ h fun t r ht => t.settleRegion_cp r ht

@[simp] theorem State.copyRows_cp (ra : Bool) (d : CopyStrand) (l : List (Nat × Nat)) (s : State) (h : s.cp = .faulted) :
    (State.copyRows ra d l s).1.cp = .faulted := by
  induction l generalizing s with
  | nil => exact h
  | cons r t ih =>
    unfold State.copyRows
    split
    · exact ih _ (by simp [h])
    · exact State.foldl_faulted _ _ _ h fun u l hu => u.lineUEFor_cp ra l 0 false hu

@[simp] theorem State.epochAck_cp (s : State) (i page : Nat) : (s.epochAck i page).cp = s.cp := by
  unfold State.epochAck
  dsimp only
  repeat' split
  all_goals simp

theorem State.takeCkptMark_cp {s t : State} {code i n : Nat} (h : s.takeCkptMark code = some (i, n, t)) : t.cp = s.cp := by
  obtain ⟨r, hr, hf⟩ := Option.map_eq_some_iff.1 h
  cases hf
  exact State.takeFrame_cp hr

/-! ### Operations of Machine/Bulk -/

@[simp] theorem State.bulkUE_cp (s : State) (a j : Nat) (h : s.cp = .faulted) : (s.bulkUE a j).cp = .faulted :=
  s.lineUE_cp _ _ _ h

@[simp] theorem State.bulkRead_cp (s : State) (a n : Nat) (h : s.cp = .faulted) : (s.bulkRead a n).1.cp = .faulted := by
  unfold State.bulkRead
  split <;> simp [h]

@[simp] theorem State.bulkWrite_cp (s : State) (a : Nat) (l : List Byte) (h : s.cp = .faulted) : (s.bulkWrite a l).1.cp = .faulted := by
  unfold State.bulkWrite
  split <;> simp [h]

@[simp] theorem State.pushBulk_cp (s : State) (queue : Nat) (p : Packet) (code detail : Nat) (payload : List Byte) :
    (s.pushBulk queue p code detail payload).cp = s.cp := by simp [State.pushBulk]

@[simp] theorem State.restored_cp (s : State) : s.restored.cp = s.cp := by simp [State.restored]

/-! ### Operations of Machine/Facet -/

@[simp] theorem State.strike_cp (s : State) (f : Nat) (t : FTask) (code : Nat) : (s.strike f t code).cp = s.cp := by simp [State.strike]

@[simp] theorem State.opbufError_cp (s : State) (f : Nat) (t : FTask) (ue half : Bool) (word : Nat) :
    (s.opbufError f t ue half word).cp = s.cp := by simp [State.opbufError]

@[simp] theorem State.beginIssue_cp (s : State) (f : Nat) (ramping : Bool) (fmt : PFmt) :
    (s.beginIssue f ramping fmt).cp = s.cp := by simp [State.beginIssue]

@[simp] theorem State.illegalBlocks_cp (s : State) (f : Nat) (t : FTask) (d : TileDesc) (g r c : Nat) :
    (s.illegalBlocks f t d g r c).cp = s.cp := by simp [State.illegalBlocks]

@[simp] theorem State.foldCell_cp (s : State) (p : Program) (a : Attempt) (f : Nat) (t : FTask) (d : TileDesc) (r c : Nat) :
    (s.foldCell p a f t d r c).cp = s.cp := by simp [State.foldCell]

@[simp] theorem State.drainEvents_cp (s : State) (a : Attempt) (f : Nat) (t : FTask) (ys : List Word) :
    (s.drainEvents a f t ys).cp = s.cp := by
  unfold State.drainEvents
  split <;> simp

/-! ### Operations of Machine/Cutter -/

@[simp] theorem State.postCopy_cp (s : State) (p : Program) (ra : Bool) (t : Strand) (c : Nat) (q : QuantDesc) (x6 : CopyCtx) (amaxes : List Nat) :
    (s.postCopy p ra t c q x6 amaxes).cp = s.cp := by
  simp only [State.postCopy]
  refine (State.foldl_cp _ _ _ fun t x => ?_).trans ?_ <;> (repeat' split) <;> simp

@[simp] theorem State.markChannels_cp (s : State) (base : Nat) (l : List Nat) :
    (s.markChannels base l).cp = s.cp := by simp [State.markChannels]

@[simp] theorem State.writeIncl_cp (s : State) (c : Nat) (q : QuantDesc) (x : CopyCtx) (ls : List Prepared) :
    (s.writeIncl c q x ls).1.cp = s.cp := by
  refine List.foldlRecOn (motive := fun a : State × Nat × Nat => a.1.cp = s.cp) _ _ rfl fun acc hacc l _ => ?_
  exact List.foldlRecOn (motive := fun a : State × Nat × Nat => a.1.cp = s.cp) _ _ hacc fun a ha e _ => by simp [ha]

@[simp] theorem State.nonfinite_cp (s : State) (c : Nat) (x2 : EvCtx) (n : Nat) :
    (s.nonfinite c x2 n).cp = s.cp := by simp [State.nonfinite]

@[simp] theorem State.emitCopy_cp (s : State) (p : Program) (ra : Bool) (a : Attempt) (t : Strand) (c : Nat) (q : QuantDesc) (ax : Axis)
    (x : CopyCtx) (jit : Bool) (ls : List Prepared) (exps : List Nat) :
    (s.emitCopy p ra a t c q ax x jit ls exps).1.cp = s.cp := by
  have h1 : (if q.inclAxis == x.col then s.writeIncl c q x ls else (s, 0, 0)).1.cp = s.cp := by split <;> simp
  unfold State.emitCopy
  dsimp only
  split
  · simpa using h1
  · rw [State.bump64_cp, State.nonfinite_cp]
    split
    · simpa using h1
    · split <;> simpa using h1

@[simp] theorem State.quantPath_cp (s : State) (p : Program) (ra : Bool) (t : Strand) (c : Nat) (desc : QuantDesc)
    (panel : List (List Word)) (first : Bool) : (s.quantPath p ra t c desc panel first).1.cp = s.cp := by
  unfold State.quantPath
  extract_lets q ax cs s1
  have h1 : s1.cp = s.cp := by
    unfold s1
    split
    · exact State.foldl_cp _ _ _ fun u e => by split <;> simp
    · rfl
  split
  · exact h1
  · dsimp only
    split
    · rw [State.ite_cp, State.bump_cp, ite_self]
      exact List.foldlRecOn (motive := fun a : State × Nat => a.1.cp = s.cp) _ _ h1 fun acc hacc e _ => by simp [hacc]
    · exact h1

@[simp] theorem State.applySide_cp (s : State) (ra : Bool) (a : Attempt) (t : Strand) (c : Nat) (d : ApplyDesc) :
    (s.applySide ra a t c d).cp = s.cp := by
  unfold State.applySide
  split <;> simp

@[simp] theorem State.backwardVeto_cp (s : State) (ra : Bool) (t : Strand) (bad : Bool) : (s.backwardVeto ra t bad).cp = s.cp := by
  unfold State.backwardVeto
  split <;> simp

@[simp] theorem State.poolError_cp (s : State) (ra : Bool) (a : Attempt) (t : Strand) (c : Nat) (ue : Bool) (word : Nat) :
    (s.poolError ra a t c ue word).cp = s.cp := by simp [State.poolError]

@[simp] theorem State.haltCutter_cp (s : State) (ra : Bool) (a : Attempt) (t : Strand) (c : Nat) :
    (s.haltCutter ra a t c).cp = s.cp := by simp [State.haltCutter]

@[simp] theorem State.cutFaulted_cp (s : State) (ra : Bool) (a : Attempt) (t : Strand) (c : Nat) (a5 : CutFault) :
    (s.cutFaulted ra a t c a5).cp = s.cp := by
  unfold State.cutFaulted
  split <;> simp

@[simp] theorem State.kernelPass_cp (s : State) (p : Program) (ra : Bool) (a : Attempt) (t : Strand) (c : Nat) (first : Bool) :
    (s.kernelPass p ra a t c first).cp = s.cp := by
  unfold State.kernelPass
  dsimp only
  repeat' split
  all_goals simp

@[simp] theorem State.amaxKnown_cp (s : State) (p : Program) (ra : Bool) (a : Attempt) (x4 : AmaxPart) (v : Word) (h : s.cp = .faulted) :
    (s.amaxKnown p ra a x4 v).cp = .faulted := by
  simp [State.amaxKnown, h]

@[simp] theorem State.amaxOwn_cp (s : State) (p : Program) (ra : Bool) (h : s.cp = .faulted) : (s.amaxOwn p ra).cp = .faulted := by
  unfold State.amaxOwn
  split <;> simp [h]

/-! ### Operations of Machine/Loupe -/

@[simp] theorem State.sampleIllegal_cp (s : State) (g : Nat) (ra : Bool) (a : Attempt) (t : Strand) (d : TileDesc) (q : LoupeTask) :
    (s.sampleIllegal g ra a t d q).cp = s.cp := by simp [State.sampleIllegal]

@[simp] theorem State.verdict_cp (s : State) (g : Nat) (ra : Bool) (a : Attempt) (t : Strand) (d : TileDesc) (l : List Judged) :
    (s.verdict g ra a t d l).cp = s.cp := by
  unfold State.verdict
  dsimp only
  repeat' split
  all_goals simp

/-! ### Operations of Machine/Inlet -/

@[simp] theorem State.inletNum_cp (s : State) (a : Attempt) (code die : Nat) (e : UpdateEntry) :
    (s.inletNum a code die e).cp = s.cp := by simp [State.inletNum]

@[simp] theorem State.inletIllegal_cp (s : State) (a : Attempt) (die : Nat) (e : UpdateEntry) (e8 : Nat) :
    (s.inletIllegal a die e e8).cp = s.cp := by simp [State.inletIllegal]

@[simp] theorem State.storePages_cp (s : State) (p : Program) (k : Pages) (a : Nat) (bs : List Byte) :
    (s.storePages p k a bs).cp = s.cp := by simp [State.storePages]

@[simp] theorem State.applyBlock_cp (s : State) (p : Program) (a : Attempt) (e : UpdateEntry) (die : Nat) (k : Pages) (i j0 : Nat) (f : Nat → Word → Word → NewElem) :
    (s.applyBlock p a e die k i j0 f).1.cp = s.cp := by simp [State.applyBlock]

@[simp] theorem State.inletAccess_cp (s : State) (q : InlPost) (nb : Nat) (reads writes : List (Nat × Nat)) (t : State)
    (h : s.cp = .faulted) (ht : t.cp = .faulted) : (s.inletAccess q nb reads writes t).cp = .faulted :=
  s.strandIO_cp _ _ _ _ t h ht

@[simp] theorem State.watchPosts_cp (s : State) (ra : Bool) (e : UpdateEntry) (posts : List InlPost) :
    (s.watchPosts ra e posts).cp = s.cp := by simp [State.watchPosts]

@[simp] theorem State.inletVeto_cp (s : State) (e : UpdateEntry) (gradBad : Bool) (cut : Option Cut) :
    (s.inletVeto e gradBad cut).cp = s.cp := by
  unfold State.inletVeto
  split <;> simp

@[simp] theorem State.frozenPost_cp (s : State) (a : Attempt) (q : InlPost) (e : UpdateEntry) :
    (s.frozenPost a q e).cp = s.cp := by simp [State.frozenPost]

@[simp] theorem State.redelivered_cp (s : State) (q : InlPost) : (s.redelivered q).cp = s.cp := by simp [State.redelivered]

@[simp] theorem State.markApplied_cp (s : State) (a : Attempt) (q : InlPost) (e : UpdateEntry) (k : Pages) :
    (s.markApplied a q e k).cp = s.cp := by simp [State.markApplied]

@[simp] theorem State.countOf_cp (s : State) (p : Program) (e : UpdateEntry) (die : Nat) (k : Pages) :
    (s.countOf p e die k).2.cp = s.cp := by
  unfold State.countOf
  dsimp only
  repeat' split
  all_goals simp

@[simp] theorem State.facBlock_cp (s : State) (p : Program) (a : Attempt) (q : InlPost) (e : UpdateEntry) (k : Pages) :
    (s.facBlock p a q e k).cp = s.cp := by simp [State.facBlock]

@[simp] theorem State.facTake_cp (s : State) (p : Program) (a : Attempt) (q : InlPost) (e : UpdateEntry) (k : Pages) (h : s.cp = .faulted) :
    (s.facTake p a q e k).cp = .faulted := by
  simp [State.facTake, h]

@[simp] theorem State.takePost_cp (s : State) (a : Attempt) (q : InlPost) (e : UpdateEntry) (t : State)
    (h : s.cp = .faulted) (ht : t.cp = .faulted) : (s.takePost a q e t).cp = .faulted := by
  unfold State.takePost
  repeat' split
  all_goals simp [h, ht]

@[simp] theorem State.rowUpdate_cp (s : State) (p : Program) (a : Attempt) (q : InlPost) (e : UpdateEntry) (k : Pages) :
    (s.rowUpdate p a q e k).cp = s.cp := by
  unfold State.rowUpdate
  extract_lets i nb cntAt statAt g t sum old rs rsBad s1 c2
  have h1 : s1.cp = s.cp := by simp [s1]
  dsimp only
  rw [State.inletVeto_cp]
  split
  · rw [State.storePages_cp]
    exact List.foldlRecOn (motive := fun a : State × Option Cut => a.1.cp = s.cp) _ _ h1 fun acc hacc b _ => by simp [hacc]
  · refine (State.foldl_cp _ _ _ fun u b => u.inletIllegal_cp _ _ _ _).trans ?_
    rw [State.bump_cp, State.storePages_cp]
    exact List.foldlRecOn (motive := fun a : State × Option Cut => a.1.cp = s.cp) _ _ h1 fun acc hacc b _ => by simp [hacc]

@[simp] theorem State.preBlock_cp (s : State) (p : Program) (e : UpdateEntry) (k : Pages) (block : Nat) (g : List (List Word)) :
    (s.preBlock p e k block g).1.cp = s.cp := by simp [State.preBlock]

@[simp] theorem State.preUpdate_cp (s : State) (p : Program) (a : Attempt) (e : UpdateEntry) (die unit : Nat) (k : Pages)
    (g : List (List Word)) : (s.preUpdate p a e die unit k g).cp = s.cp := by
  unfold State.preUpdate
  dsimp only
  rw [State.inletVeto_cp]
  refine List.foldlRecOn (motive := fun a : State × Option Cut => a.1.cp = s.cp) _ _ ?_ fun acc hacc x _ => by simp [hacc]
  exact List.foldlRecOn (motive := fun a : State × List (List (List Word)) × Option Cut => a.1.cp = s.cp) _ _ (by simp)
    fun acc hacc b _ => by simp [hacc]

@[simp] theorem State.preStep_cp (s : State) (p : Program) (a : Attempt) (e : UpdateEntry) (die unit : Nat) (k : Pages)
    (g : List (List Word)) (h : s.cp = .faulted) : (s.preStep p a e die unit k g).cp = .faulted := by
  unfold State.preStep
  exact s.strandIO_cp _ _ _ _ _ h (by simp [h])

@[simp] theorem State.keepRoot_cp (s : State) (d : NsDesc) : (s.keepRoot d).cp = s.cp := by simp [State.keepRoot]

@[simp] theorem State.rootHeader_cp (s : State) (d : NsDesc) (n : Nat) : (s.rootHeader d n).cp = s.cp := by simp [State.rootHeader]

@[simp] theorem State.nsPass_cp (s : State) (ra : Bool) (a : Attempt) (t : Strand) (c : Nat) (d : NsDesc) :
    (s.nsPass ra a t c d).cp = s.cp := by
  unfold State.nsPass
  dsimp only
  repeat' split
  all_goals simp

@[simp] theorem State.putPartials_cp (s : State) (e : UpdateEntry) (die : Nat) (ps : List Nat) :
    (s.putPartials e die ps).cp = s.cp := by simp [State.putPartials]

@[simp] theorem State.addRatio_cp (s : State) (i unit : Nat) (sd sw : Word) :
    (s.addRatio i unit sd sw).cp = s.cp := by simp [State.addRatio]

@[simp] theorem State.relayRatio_cp (s : State) : s.relayRatio.cp = s.cp := by
  unfold State.relayRatio
  split
  · rfl
  · next h =>
    have ht := State.takeUp_cp h
    repeat' split
    all_goals simp [ht]

/-! ### Operations of Machine/Collective -/

@[simp] theorem State.writeSegment_cp (s : State) (d : CollDesc) (start len : Nat) (v : SegVal) :
    (s.writeSegment d start len v).cp = s.cp := by
  unfold State.writeSegment
  split <;> simp

@[simp] theorem State.updColl_cp (s : State) (d dseq : Nat) (f : Coll → Coll) : (s.updColl d dseq f).cp = s.cp := by simp [State.updColl]

theorem State.onColl_cp (s : State) (d dseq : Nat) (f : Coll → State → State) (h : s.cp = .faulted)
    (hf : ∀ c t, t.cp = .faulted → (f c t).cp = .faulted) : (s.onColl d dseq f).cp = .faulted := by
  unfold State.onColl
  split
  · exact hf _ _ h
  · exact h

@[simp] theorem State.collEvents_cp (s : State) (c : Coll) (nf ill : Nat) :
    (s.collEvents c nf ill).cp = s.cp := by simp [State.collEvents]

@[simp] theorem State.addNode_cp (s : State) (d dseq k level first : Nat) (v : SegVal) :
    (s.addNode d dseq k level first v).cp = s.cp := by simp [State.addNode]

theorem State.tryForm_cp (s : State) (d dseq k level first : Nat) (reads : Coll → State → List Nat)
    (f : Coll → State → Option (SegVal × Nat × Nat)) (h : s.cp = .faulted) :
    (s.tryForm d dseq k level first reads f).cp = .faulted := by
  refine s.onColl_cp d dseq _ h fun c t ht => ?_
  repeat' split
  all_goals simp [ht]

@[simp] theorem State.formSegment_cp (s : State) (d dseq k start len : Nat) (h : s.cp = .faulted) :
    (s.formSegment d dseq k start len).cp = .faulted := by
  refine s.onColl_cp d dseq _ h fun c t ht => ?_
  have h1 := State.foldl_faulted (fun (u : State) n =>
    if c.former (c.owner k) n.1 n.2 = c.me then
      u.tryForm d dseq k n.1 n.2 (fun c1 v => if n.1 = 0 then v.leafLines c1.desc (c1.leafPos n.2) start len else [])
        fun c1 v => v.formNode c1 k start len n.1 n.2
    else u) c.treeNodes t ht fun u n hu => by
      split
      · exact u.tryForm_cp _ _ _ _ _ _ _ hu
      · exact hu
  dsimp only
  split
  · exact State.tryForm_cp _ _ _ _ _ _ _ _ h1
  · exact h1

@[simp] theorem State.sourceSegment_cp (s : State) (d dseq k start len : Nat) (h : s.cp = .faulted) :
    (s.sourceSegment d dseq k start len).cp = .faulted := by
  grind [State.sourceSegment, State.onColl_cp, State.tryForm_cp]

@[simp] theorem State.sendEdge_cp (s : State) (d dseq k : Nat) (e : Edge) (h : s.cp = .faulted) : (s.sendEdge d dseq k e).cp = .faulted := by
  refine s.onColl_cp d dseq _ h fun c t ht => ?_
  repeat' split
  all_goals simp [ht]

@[simp] theorem State.land_cp (s : State) (d dseq : Nat) (x : Nat × Nat × Nat × Nat × Nat × Nat) (h : s.cp = .faulted) :
    (s.land d dseq x).cp = .faulted := by
  refine s.onColl_cp d dseq _ h fun c t ht => ?_
  split
  · exact ht
  · split
    · exact ht
    · refine t.strandIO_cp _ _ _ _ _ ht ?_
      repeat' split
      all_goals simp [ht]

@[simp] theorem State.sendFins_cp (s : State) (d dseq : Nat) (h : s.cp = .faulted) : (s.sendFins d dseq).cp = .faulted := by
  refine s.onColl_cp d dseq _ h fun c t ht => ?_
  split
  · exact State.foldl_faulted _ _ _ ht fun u x hu => by split <;> simp [hu]
  · exact ht

@[simp] theorem State.finishColl_cp (s : State) (d dseq : Nat) (h : s.cp = .faulted) : (s.finishColl d dseq).cp = .faulted := by
  grind [State.finishColl, State.onColl_cp, State.bump_cp, State.setEngine_cp, State.completeStrand_cp, State.finishIssued_cp]

@[simp] theorem State.pump_cp (s : State) (d dseq : Nat) (h : s.cp = .faulted) : (s.pump d dseq).cp = .faulted := by
  refine s.onColl_cp d dseq _ h fun c t ht => State.finishColl_cp _ _ _ (State.sendFins_cp _ _ _ ?_)
  refine State.foldl_faulted _ _ _ (State.foldl_faulted _ _ _ (State.foldl_faulted _ _ _ ht ?_) ?_) ?_
  · intro u x hu
    split <;> simp [hu]
  · exact fun u x hu => u.land_cp d dseq x hu
  · exact fun u x hu => u.sendEdge_cp d dseq x.1 x.2 hu

@[simp] theorem State.consume_cp (s : State) (d dseq m : Nat) (h : s.cp = .faulted) : (s.consume d dseq m).cp = .faulted := by
  refine s.onColl_cp d dseq _ h fun c t ht => ?_
  simp [ht]

@[simp] theorem State.feed_cp (s : State) (d : Nat) (f : CollFrame) (h : s.cp = .faulted) : (s.feed d f).cp = .faulted := by
  grind [State.feed, State.consume_cp, State.onColl_cp, State.updColl_cp, State.sendRank_cp]

@[simp] theorem State.collStale_cp (s : State) (d : Nat) : (s.collStale d).cp = s.cp := by simp [State.collStale]

@[simp] theorem State.holdEarly_cp (s : State) (d : Nat) (f : CollFrame) : (s.holdEarly d f).cp = s.cp := by simp [State.holdEarly]

@[simp] theorem State.replayEarly_cp (s : State) (d dseq : Nat) (h : s.cp = .faulted) : (s.replayEarly d dseq).cp = .faulted :=
  s.onColl_cp d dseq _ h fun c t ht =>
    State.foldl_faulted _ _ _ ((State.foldl_cp _ _ _ fun u i => u.setEngine_cp i _).trans ht) fun u f hu => by split <;> simp [hu]

@[simp] theorem State.grantAll_cp (s : State) (d dseq : Nat) (h : s.cp = .faulted) : (s.grantAll d dseq).cp = .faulted :=
  s.onColl_cp d dseq _ h fun c t ht => by simp [ht]

@[simp] theorem State.startPart_cp (s : State) (d dseq : Nat) (h : s.cp = .faulted) : (s.startPart d dseq).cp = .faulted :=
  State.pump_cp _ _ _ (State.replayEarly_cp _ _ _ (State.grantAll_cp _ _ _ h))

@[simp] theorem State.collExhausted_cp (s : State) (c : Coll) : (s.collExhausted c).cp = s.cp := by simp [State.collExhausted]

@[simp] theorem State.restartColl_cp (s : State) (d dseq rgen : Nat) (h : s.cp = .faulted) : (s.restartColl d dseq rgen).cp = .faulted :=
  s.onColl_cp d dseq _ h fun c t ht => State.startPart_cp _ _ _ (by simp [ht])

@[simp] theorem State.adopt_cp (s : State) (d : Nat) (f : CollFrame) (h : s.cp = .faulted) : (s.adopt d f).cp = .faulted :=
  s.onColl_cp d f.dseq _ h fun c t ht => by split <;> simp [ht]

@[simp] theorem State.answerDone_cp (s : State) (x1 : CollDone) (f : CollFrame) :
    (s.answerDone x1 f).cp = s.cp := by simp [State.answerDone]

@[simp] theorem State.recordRestart_cp (s : State) (d : Nat) (f : CollFrame) :
    (s.recordRestart d f).cp = s.cp := by simp [State.recordRestart]

@[simp] theorem State.collFrame_cp (s : State) (f : CollFrame) (h : s.cp = .faulted) : (s.collFrame f).cp = .faulted := by
  unfold State.collFrame
  dsimp only
  repeat' split
  all_goals simp [h]

@[simp] theorem State.collRow_cp (s : State) (ctype : CollType) (h : s.cp = .faulted) : (s.collRow ctype).cp = .faulted := by
  unfold State.collRow
  split
  · next hf => exact State.collFrame_cp _ _ ((State.takeFrame_cp hf).trans h)
  · exact h

@[simp] theorem State.issueColl_cp (s : State) (c : Coll) (h : s.cp = .faulted) : (s.issueColl c).cp = .faulted := by
  unfold State.issueColl
  dsimp only
  split
  · simp [h]
  · exact State.startPart_cp _ _ _ ((State.foldl_cp _ _ _ fun u i => u.setEngine_cp i _).trans h)

@[simp] theorem State.collOpRow_cp (s : State) (op : CollOp) (die : Nat) (h : s.cp = .faulted) : (s.collOpRow op die).cp = .faulted := by
  refine State.foldl_faulted _ _ _ ?_ fun u q hu => u.pump_cp die q hu
  repeat' split
  all_goals simp [h]

/-! ### Operations of Machine/Twin -/

theorem State.takeCopy_cp {s t : State} {p : CopyFrame → Bool} {x : RxFrame} {f : CopyFrame} (h : s.takeCopy p = some (x, f, t)) :
    t.cp = s.cp := State.takeFrame_cp h

@[simp] theorem State.answer_cp (s : State) (x : RxFrame) (f : CopyFrame) : (s.answer x f).cp = s.cp :=
  s.onLink_cp _ _ _ fun l t => t.linkSend_cp l _

@[simp] theorem State.refuseCopy_cp (s : State) (x : RxFrame) (f : CopyFrame) (why : Nat) : (s.refuseCopy x f why).cp = s.cp := by
  simp [State.refuseCopy]

@[simp] theorem State.takeWhy_cp (s : State) (use i d : Nat) : (s.takeWhy use i d).2.cp = s.cp := by
  unfold State.takeWhy
  split
  · next h => exact State.takeCopy_cp h
  · rfl

@[simp] theorem State.takeStacks_cp (s : State) : s.takeStacks.2.cp = s.cp := by
  unfold State.takeStacks
  split
  · next h => exact State.takeCopy_cp h
  · rfl

@[simp] theorem State.restoreDone_cp (s : State) (step : Nat) : (s.restoreDone step).cp = s.cp := by simp [State.restoreDone]

@[simp] theorem State.restoreWrite_cp (s : State) (x : RxFrame) (f : CopyFrame) : (s.restoreWrite x f).cp = s.cp := by
  unfold State.restoreWrite
  dsimp only
  split
  · split <;> simp
  · split <;> simp

@[simp] theorem State.setSpilled_cp (s : State) (b : Spilled) : (s.setSpilled b).cp = s.cp := by simp [State.setSpilled]

@[simp] theorem State.spillAck_cp (s : State) (tag : Nat) : (s.spillAck tag).cp = s.cp := by
  unfold State.spillAck
  split <;> simp

@[simp] theorem State.setSending_cp (s : State) (r : Option RestoreTx) : (s.setSending r).cp = s.cp := by simp [State.setSending]

@[simp] theorem State.endRestore_cp (s : State) (r : RestoreTx) (code detail : Nat) :
    (s.endRestore r code detail).cp = s.cp := by simp [State.endRestore]

@[simp] theorem State.sendRestorePages_cp (s : State) (r : RestoreTx) (h : s.cp = .faulted) : (s.sendRestorePages r).cp = .faulted := by
  unfold State.sendRestorePages
  dsimp only
  split
  · exact State.foldl_faulted _ _ _ h fun t i ht => State.foldl_faulted _ _ _ ht fun u x hu => by simp [hu]
  · rw [State.endRestore_cp]
    exact State.foldl_faulted _ _ _ h fun t l ht => t.lineUE_cp l 11 false ht

@[simp] theorem State.restoreAck_cp (s : State) (f : CopyFrame) (h : s.cp = .faulted) : (s.restoreAck f).cp = .faulted := by
  unfold State.restoreAck
  split
  · exact h
  · dsimp only
    repeat' split
    all_goals simp [h]

theorem State.takeMark_cp {s t : State} {code : Nat} {f : CopyFrame} (h : s.takeMark code = some (f, t)) : t.cp = s.cp := by
  obtain ⟨r, hr, hf⟩ := Option.map_eq_some_iff.1 h
  cases hf
  exact State.takeCopy_cp hr

@[simp] theorem State.pairUp_cp (s : State) : s.pairUp.cp = s.cp := by simp [State.pairUp]

@[simp] theorem State.sendReady_cp (s : State) (a : Attempt) (unpaired : Bool) :
    (s.sendReady a unpaired).cp = s.cp := by simp [State.sendReady]

@[simp] theorem State.compareDigests_cp (s : State) : s.compareDigests.cp = s.cp := by
  unfold State.compareDigests
  split <;> simp

@[simp] theorem State.sendLost_cp (s : State) (r : Nat) : (s.sendLost r).cp = s.cp := by simp [State.sendLost]

@[simp] theorem State.restoreLost_cp (s : State) : s.restoreLost.cp = s.cp :=
  State.foldl_cp _ _ _ fun _ _ => State.foldl_cp _ _ _ fun _ _ => rfl

/-! ### Operations of Machine/Domain -/

@[simp] theorem State.adoptTable_cp (s : State) (f : DomFrame) (i : Nat) : (s.adoptTable f i).cp = s.cp := by simp [State.adoptTable]

@[simp] theorem State.sendRanks_cp (s : State) : s.sendRanks.cp = s.cp := by simp [State.sendRanks]

@[simp] theorem State.haltAll_cp (s : State) : s.haltAll.cp = s.cp := by simp [State.haltAll]

@[simp] theorem State.memberLost_cp (s : State) (r : Nat) : (s.memberLost r).cp = s.cp := by simp [State.memberLost]

@[simp] theorem State.markLost_cp (s : State) (r : Nat) : (s.markLost r).cp = s.cp := by simp [State.markLost]

@[simp] theorem State.yieldTo_cp (s : State) : s.yieldTo.cp = s.cp := by simp [State.yieldTo]

@[simp] theorem State.takeTable_cp (s : State) (f : DomFrame) : (s.takeTable f).cp = s.cp := by simp [State.takeTable]

@[simp] theorem State.sendState_cp (s : State) : s.sendState.cp = s.cp := by simp [State.sendState]

@[simp] theorem State.commitTo_cp (s : State) (n r : Nat) : (s.commitTo n r).cp = s.cp := by simp [State.commitTo]

@[simp] theorem State.finishTakeover_cp (s : State) (k : Takeover) : (s.finishTakeover k).cp = s.cp := by simp [State.finishTakeover]

@[simp] theorem State.takeoverStep_cp (s : State) : s.takeoverStep.cp = s.cp := by
  unfold State.takeoverStep
  split <;> simp

@[simp] theorem State.takeOver_cp (s : State) (f : DomFrame) : (s.takeOver f).cp = s.cp := by simp [State.takeOver]

@[simp] theorem State.refuseHandover_cp (s : State) (r : Nat) : (s.refuseHandover r).cp = s.cp := by simp [State.refuseHandover]

@[simp] theorem State.askHandover_cp (s : State) (r : Nat) : (s.askHandover r).cp = s.cp := by
  unfold State.askHandover
  dsimp only
  repeat' split
  all_goals simp

/-! ### Operations of Machine/Program -/

@[simp] theorem State.freshRun_cp (s : State) : s.freshRun.cp = s.cp := by simp [State.freshRun]

@[simp] theorem State.reportLoad_cp (s : State) : s.reportLoad.cp = s.cp := by simp [State.reportLoad]

/-! ### Operations of Machine/Serving -/

@[simp] theorem State.setSlot_cp (s : State) (i : Nat) (x2 : Slot) : (s.setSlot i x2).cp = s.cp := by simp [State.setSlot]

@[simp] theorem State.putRows_cp (s : State) (n : Nat) (l : List (Nat × List Byte)) : (s.putRows n l).cp = s.cp := by simp [State.putRows]

@[simp] theorem State.resetSlot_cp (s : State) (slot : Nat) : (s.resetSlot slot).cp = s.cp := by simp [State.resetSlot]

@[simp] theorem State.finishResets_cp (s : State) : s.finishResets.cp = s.cp := by
  unfold State.finishResets
  refine State.foldl_cp _ _ _ fun t x => ?_
  repeat' split
  all_goals simp

@[simp] theorem State.dropModel_cp (s : State) : s.dropModel.cp = s.cp := by simp [State.dropModel]

@[simp] theorem State.servSettled_cp (s : State) : s.servSettled.cp = s.cp := by simp [State.servSettled]

@[simp] theorem State.servStart_cp (s : State) (phases : List Nat) : (s.servStart phases).cp = s.cp := by simp [State.servStart]

@[simp] theorem State.servEnd_cp (s : State) : s.servEnd.cp = s.cp := by simp [State.servEnd]

@[simp] theorem State.evalWait_cp (s : State) : s.evalWait.cp = s.cp := by simp [State.evalWait]

@[simp] theorem State.startBatch_cp (s : State) (b : Batch) : (s.startBatch b).cp = s.cp := by simp [State.startBatch]

@[simp] theorem State.prvRefused_cp (s : State) (a : Nat) : (s.prvRefused a).cp = s.cp := by simp [State.prvRefused]

@[simp] theorem State.waitRing_cp (s : State) (n : Nat) : (s.waitRing n).cp = s.cp := by
  unfold State.waitRing
  split <;> simp

@[simp] theorem State.prvPut_cp (s : State) (rec : List Byte) : (s.prvPut rec).cp = s.cp := by simp [State.prvPut]

@[simp] theorem State.scoreEvent_cp (s : State) (p : Program) (m : Model) (b : Batch) (r : Request) (e j : Nat) :
    (s.scoreEvent p m b r e j).1.cp = s.cp := by simp [State.scoreEvent]

@[simp] theorem State.scoreRequest_cp (s : State) (p : Program) (m : Model) (b : Batch) (e : Nat) (r : Request) :
    (s.scoreRequest p m b e r).cp = s.cp := by
  unfold State.scoreRequest
  dsimp only
  rw [State.finishIssued_cp]
  exact List.foldlRecOn (motive := fun a : State × List Byte => a.1.cp = s.cp) _ _ rfl fun acc hacc j _ => by simp [hacc]

@[simp] theorem State.endPass_cp (s : State) (x1 : Explain) (code detail : Nat) :
    (s.endPass x1 code detail).cp = s.cp := by simp [State.endPass]

@[simp] theorem State.mismatch_cp (s : State) (x1 : Explain) (which : Nat) : (s.mismatch x1 which).cp = s.cp := by simp [State.mismatch]

@[simp] theorem State.startPoint_cp (s : State) (p : Pass) : (s.startPoint p).cp = s.cp := by simp [State.startPoint]

@[simp] theorem State.baseline_cp (s : State) (info : ServInfo) (x2 : Explain) (h : s.cp = .faulted) :
    (s.baseline info x2).1.cp = .faulted := by
  grind [State.baseline, State.bulkRead_cp]

@[simp] theorem State.beginPass_cp (s : State) (m : Model) (slot : Nat) (x3 : Explain) (h : s.cp = .faulted) :
    (s.beginPass m slot x3).cp = .faulted := by
  grind [State.beginPass, State.bulkRead_cp, State.endPass_cp, State.putRows_cp, State.mismatch_cp, State.baseline_cp, State.startPoint_cp]

@[simp] theorem State.finishPass_cp (s : State) (p : Pass) (grad : List Word) (h : s.cp = .faulted) :
    (s.finishPass p grad).cp = .faulted := by
  grind [State.finishPass, State.putRows_cp, State.endPass_cp, State.bulkWrite_cp, State.finishIssued_cp, State.bump_cp]

@[simp] theorem State.finishPoint_cp (s : State) (p : Pass) (h : s.cp = .faulted) : (s.finishPoint p).cp = .faulted := by
  simp [State.finishPoint, h]

@[simp] theorem State.failBatch_cp (s : State) (b : Batch) (cause : Nat) : (s.failBatch b cause).cp = s.cp := by simp [State.failBatch]

/-! ### Operations of Machine/RegAccess -/

@[simp] theorem State.readClear_cp (s : State) (b : Block) (o : Nat) : (s.readClear b o).cp = s.cp := by
  unfold State.readClear
  split <;> simp

@[simp] theorem State.readAt_cp (s : State) (who : Requester) (b : Block) (i o : Nat) : (s.readAt who b i o).1.cp = s.cp := by
  unfold State.readAt
  dsimp only
  repeat' split
  all_goals simp

@[simp] theorem State.readReg_cp (s : State) (who : Requester) (a : Nat) : (s.readReg who a).1.cp = s.cp := by
  unfold State.readReg
  dsimp only
  repeat' split
  all_goals simp

@[simp] theorem State.setLogRing_cp (s : State) : s.setLogRing.cp = s.cp := by
  unfold State.setLogRing
  split
  · rfl
  · exact (State.logDrain_cp _ _).trans (State.foldl_cp _ _ _ fun t r => t.logRecord_cp r)

@[simp] theorem State.hostCtrl_cp (s : State) (w : Word) : (s.hostCtrl w).cp = s.cp := by simp [State.hostCtrl]

@[simp] theorem State.commitEgress_cp (s : State) (w : Word) : (s.commitEgress w).cp = s.cp := by simp [State.commitEgress]

@[simp] theorem State.egrWord_cp (s : State) (k : Nat) (w : Word) : (s.egrWord k w).cp = s.cp := by simp [State.egrWord]

@[simp] theorem State.hostStore_cp (s : State) (o : Nat) (w : Word) : (s.hostStore o w).cp = s.cp := by
  unfold State.hostStore
  split <;> simp

@[simp] theorem State.policyStore_cp (s : State) (o : Nat) (w : Word) : (s.policyStore o w).cp = s.cp := by
  unfold State.policyStore
  split <;> simp

@[simp] theorem State.stepStore_cp (s : State) (o : Nat) (w : Word) : (s.stepStore o w).cp = s.cp := by simp [State.stepStore]

@[simp] theorem State.servStore_cp (s : State) (o : Nat) (w : Word) : (s.servStore o w).cp = s.cp := by
  unfold State.servStore
  split <;> simp

@[simp] theorem State.pwrStore_cp (s : State) (o : Nat) (w : Word) : (s.pwrStore o w).cp = s.cp := by
  unfold State.pwrStore
  split <;> simp

@[simp] theorem State.secStore_cp (s : State) (o : Nat) (w : Word) : (s.secStore o w).cp = s.cp := by simp [State.secStore]

@[simp] theorem State.setCalendar_cp (s : State) (secs : Nat) : (s.setCalendar secs).cp = s.cp := by simp [State.setCalendar]

@[simp] theorem State.umcStore_cp (s : State) (o : Nat) (w : Word) : (s.umcStore o w).cp = s.cp := by
  unfold State.umcStore
  split <;> simp

@[simp] theorem State.armSlot_cp (s : State) (k : Nat) (w : Word) : (s.armSlot k w).cp = s.cp := by simp [State.armSlot]

@[simp] theorem State.inlStore_cp (s : State) (i o : Nat) (w : Word) : (s.inlStore i o w).cp = s.cp := by
  unfold State.inlStore
  split <;> simp

@[simp] theorem State.commitRoute_cp (s : State) (w : Word) : (s.commitRoute w).cp = s.cp := by simp [State.commitRoute]

@[simp] theorem State.ceStore_cp (s : State) (i o : Nat) (w : Word) : (s.ceStore i o w).cp = s.cp := by simp [State.ceStore]

@[simp] theorem State.linksAnew_cp (s : State) (n : Nat) : (s.linksAnew n).cp = s.cp := by simp [State.linksAnew]

@[simp] theorem State.portStore_cp (s : State) (n o : Nat) (w : Word) : (s.portStore n o w).cp = s.cp := by
  unfold State.portStore
  split <;> simp

@[simp] theorem State.ckptCtrl_cp (s : State) (i : Nat) (w : Word) : (s.ckptCtrl i w).cp = s.cp := by simp [State.ckptCtrl]

@[simp] theorem State.setWindow_cp (s : State) (i o : Nat) (w : Word) : (s.setWindow i o w).cp = s.cp := by simp [State.setWindow]

@[simp] theorem State.trnStore_cp (s : State) (i o : Nat) (w : Word) : (s.trnStore i o w).cp = s.cp := by
  unfold State.trnStore
  simp

@[simp] theorem State.mapChanged_cp (s : State) (f : Nat) : (s.mapChanged f).cp = s.cp := by
  unfold State.mapChanged
  dsimp only
  repeat' split
  all_goals simp

@[simp] theorem State.startPilot_cp (s : State) (f : Nat) : (s.startPilot f).cp = s.cp := by simp [State.startPilot]

@[simp] theorem State.fctStore_cp (s : State) (f o : Nat) (w : Word) : (s.fctStore f o w).cp = s.cp := by simp [State.fctStore]

@[simp] theorem State.storeReg_cp (s : State) (b : Block) (i o : Nat) (w : Word) : (s.storeReg b i o w).cp = s.cp := by
  unfold State.storeReg
  split <;> simp

@[simp] theorem State.refusedWrite_cp (s : State) (b : Block) (i o : Nat) (why : Access) :
    (s.refusedWrite b i o why).cp = s.cp := by simp [State.refusedWrite]

@[simp] theorem State.writeAt_cp (s : State) (who : Requester) (b : Block) (i o : Nat) (r : RegDesc) (v : Word) :
    (s.writeAt who b i o r v).1.cp = s.cp := by
  simp only [State.writeAt]
  repeat' split
  all_goals simp [*]

@[simp] theorem State.writeReg_cp (s : State) (who : Requester) (a : Nat) (v : Word) : (s.writeReg who a v).1.cp = s.cp := by
  simp only [State.writeReg]
  repeat' split
  all_goals simp [*]

@[simp] theorem State.readEntry_cp (s : State) (who : Requester) (e : List Byte) : (s.readEntry who e).1.cp = s.cp := by
  unfold State.readEntry
  split <;> simp

@[simp] theorem State.writeEntry_cp (s : State) (who : Requester) (e : List Byte) : (s.writeEntry who e).1.cp = s.cp := by
  unfold State.writeEntry
  split <;> simp

@[simp] theorem State.readEntries_cp (who : Requester) (l : List (List Byte)) (s : State) : (State.readEntries who l s).1.cp = s.cp := by
  induction l generalizing s with
  | nil => rfl
  | cons e t ih => simp [State.readEntries, ih]

@[simp] theorem State.writeEntries_cp (who : Requester) (l : List (List Byte)) (s : State) : (State.writeEntries who l s).1.cp = s.cp := by
  induction l generalizing s with
  | nil => rfl
  | cons e t ih => simp [State.writeEntries, ih]

/-! ### Operations of Machine/Mgmt -/

@[simp] theorem State.clearAlarms_cp (s : State) (flags : Byte) : (s.clearAlarms flags).cp = s.cp := by simp [State.clearAlarms]

@[simp] theorem State.smbSend_cp (s : State) (l : List Byte) : (s.smbSend l).cp = s.cp := by simp [State.smbSend]

theorem foldl_storeRecord_cp (p : Program) (l : List (Nat × PolicyRec × Bool)) (s : State) (h : s.cp = .faulted) :
    (l.foldl (fun (t : State) r => t.strandIO false 0 [] [(p.policyBase + 8 * r.1, 8)]
      (t.store (p.policyBase + 8 * r.1) (polBytes r.2.1))) s).cp = .faulted := by
  induction l generalizing s with
  | nil => exact h
  | cons r l ih =>
    rw [List.foldl_cons]
    exact ih _ (s.strandIO_cp _ _ _ _ _ h ((s.store_cp _ _).trans h))

theorem State.policyShadow_cp (s : State) (p : Program) (f : DomFrame) (h : s.cp = .faulted) : (s.policyShadow p f).cp = .faulted := by
  unfold State.policyShadow
  dsimp only
  split
  · exact foldl_storeRecord_cp p _ s h
  · exact State.foldl_faulted _ _ _ (foldl_storeRecord_cp p _ s h) fun t x ht => t.raiseShift_cp x.1 x.2 ht

theorem State.policyNarrows_cp (s : State) (a : Attempt) (f : DomFrame) : (s.policyNarrows a f).cp = s.cp :=
  State.foldl_cp _ _ _ fun t _ => t.raiseCtx_cp _ _ _ _ _

theorem State.onPolicy_cp (s : State) (f : DomFrame) (h : s.cp = .faulted) : (s.onPolicy f).cp = .faulted := by
  by_cases hm : ∃ p a, s.prog = some p ∧ s.step.att = some a ∧ a.step = f.step ∧ a.base = fld f 0
  · obtain ⟨p, a, hp, ha, hmatch⟩ := hm
    have ht := ((s.policyShadow p f).policyNarrows_cp a f).trans (s.policyShadow_cp p f h)
    rw [onPolicy_of_match hp ha hmatch]
    dsimp only
    split
    · exact ht
    · exact ht
  · unfold State.onPolicy
    split
    · next p a hp ha => rw [if_neg fun hmatch => hm ⟨p, a, hp, ha, hmatch⟩]; exact h
    · exact h

end Sys2Proof.Machine
end

section
/-! PROOFS. From CPSTATE FAULTED every row but the resets leads to FAULTED (R376). -/
namespace Sys2Proof.Machine

/-- From a state with CPSTATE FAULTED the outcome is a state that has it too. -/
def staysFaulted (s : State) (o : Host.Outcome State Fault Refusal) : Prop := s.cp = .faulted → ∀ t, o = .next t → t.cp = .faulted

@[simp] theorem staysFaulted_next (s t : State) : staysFaulted s (.next t) ↔ (s.cp = .faulted → t.cp = .faulted) :=
  ⟨fun h hs => h hs t rfl, fun h hs u hu => by cases hu; exact h hs⟩

@[simp] theorem staysFaulted_guarded (c : Bool) (s t : State) :
    staysFaulted s (guarded c s t) ↔ (s.cp = .faulted → c = true → t.cp = .faulted) := by
  cases c <;> simp [guarded]

/-! ## Rows of the alarms and of Urhild -/

@[simp] theorem staysFaulted_execTempLow (n : Nat) (v : Int) (s : State) : staysFaulted s (execTempLow n v s) := by
  simp +contextual [execTempLow, State.alarm_cp]

@[simp] theorem staysFaulted_execThrottleClear (l : List (TempSensor × Int)) (s : State) : staysFaulted s (execThrottleClear l s) := by
  rw [execThrottleClear, staysFaulted_guarded]
  exact fun hs _ => (State.evalThrottle_cp _).trans ((State.foldl_cp _ _ _ fun t (r : TempSensor × Int) => t.setTemp_cp r.1 r.2).trans hs)

theorem staysFaulted_smbus {s t : State} (frame : SmbFrame) (ok : Bool) (h : t.cp = s.cp) : staysFaulted s (s.smbus frame ok t) := by
  rw [State.smbus, staysFaulted_guarded]
  exact fun hs _ => h.trans hs

/-! ## Commands of the queues -/

theorem staysFaulted_runCmd {s : State} {i op : Nat} {lenOk : Nat → Bool} {stateOk : State → Bool}
    {body : Packet → List Byte → State → State × Result} (hb : ∀ p l t, t.cp = .faulted → (body p l t).1.cp = .faulted) :
    staysFaulted s (.next (s.runCmd i op lenOk stateOk body)) := by
  rw [staysFaulted_next]
  exact s.runCmd_cp i op lenOk stateOk body hb

theorem staysFaulted_runHost {s : State} {q op : Nat} {lenOk : Nat → Bool} {stateOk : State → Bool}
    {body : Packet → List Byte → State → State × Result} (hb : ∀ p l t, t.cp = .faulted → (body p l t).1.cp = .faulted) :
    staysFaulted s (.next (s.runHost q op lenOk stateOk body)) := by
  unfold State.runHost
  split
  · exact staysFaulted_runCmd hb
  · exact fun hs t ht => by cases ht; exact hs

theorem staysFaulted_refused {s : State} {q op : Nat} {lenOk : Nat → Bool} {stateOk : State → Bool}
    {body : Packet → List Byte → State → State × Result} (hop : runsFaulted op = false) :
    staysFaulted s (.next (s.runHost q op lenOk stateOk body)) := by
  rw [staysFaulted_next]
  exact s.runHost_cp q op lenOk stateOk body hop

@[simp] theorem staysFaulted_execUmcAlarmRead (s : State) : staysFaulted s (execUmcAlarmRead s) :=
  staysFaulted_runCmd fun _ _ t ht => by split <;> exact ht

@[simp] theorem staysFaulted_execUmcAlarmClear (s : State) : staysFaulted s (execUmcAlarmClear s) :=
  staysFaulted_runCmd fun _ _ t ht => by split <;> simp [ht]

@[simp] theorem staysFaulted_execUmcTime (s : State) : staysFaulted s (execUmcTime s) :=
  staysFaulted_runCmd fun _ _ t ht => by split <;> simp [ht]

@[simp] theorem staysFaulted_execRegRead (port : CmdPort) (q : Nat) (s : State) : staysFaulted s (execRegRead port q s) :=
  staysFaulted_runCmd fun _ _ t ht => (t.readEntries_cp _ _).trans ht

@[simp] theorem staysFaulted_execRegWrite (port : CmdPort) (q : Nat) (s : State) : staysFaulted s (execRegWrite port q s) :=
  staysFaulted_runCmd fun _ _ t ht => (t.writeEntries_cp _ _).trans ht

@[simp] theorem staysFaulted_execMemRead (q : Nat) (s : State) : staysFaulted s (execMemRead q s) :=
  staysFaulted_runHost fun _ l t ht => by
    have hread := t.bulkRead_cp (leAt 0 8 l) (leAt 8 4 l) ht
    dsimp only
    repeat' split
    all_goals simp_all

@[simp] theorem staysFaulted_execMemDigest (q : Nat) (s : State) : staysFaulted s (execMemDigest q s) :=
  staysFaulted_runHost fun _ l t ht => by
    have hread := t.bulkRead_cp (leAt 0 8 l) (leAt 8 8 l) ht
    dsimp only
    repeat' split
    all_goals simp_all

@[simp] theorem staysFaulted_execFwStart (q : Nat) (a b : Bool) (s : State) : staysFaulted s (execFwStart q a b s) := by
  rw [execFwStart, staysFaulted_guarded]
  exact fun hs _ => s.runHost_cp _ _ _ _ _ rfl hs

/-! ## Frames of the host port -/

@[simp] theorem staysFaulted_execArpRequest (fr : EthFrame) (s : State) : staysFaulted s (execArpRequest fr s) := by
  rw [execArpRequest, staysFaulted_next]
  split
  · exact fun hs => (s.rxHost_cp fr _ fun u => by simp).trans hs
  · exact id

@[simp] theorem staysFaulted_execNeighborSolicitation (fr : EthFrame) (s : State) : staysFaulted s (execNeighborSolicitation fr s) := by
  rw [execNeighborSolicitation, staysFaulted_next]
  split
  · exact fun hs => (s.rxHost_cp fr _ fun u => by simp).trans hs
  · exact id

@[simp] theorem staysFaulted_execEchoRequest (fr : EthFrame) (s : State) : staysFaulted s (execEchoRequest fr s) := by
  rw [execEchoRequest, staysFaulted_next]
  split
  · exact fun hs => (s.rxHost_cp fr _ fun u => by simp).trans hs
  · exact id

@[simp] theorem staysFaulted_execCommandPacket (fr : EthFrame) (s : State) : staysFaulted s (execCommandPacket fr s) := by
  rw [execCommandPacket, staysFaulted_next]
  split
  · exact fun hs => (s.rxHost_cp fr _ fun u => u.datagram_cp _ _ _).trans hs
  · exact id

@[simp] theorem staysFaulted_execPtpMessage (fr : EthFrame) (s : State) : staysFaulted s (execPtpMessage fr s) := by
  rw [execPtpMessage, staysFaulted_next]
  split
  · refine fun hs => (s.rxHost_cp fr _ fun u => ?_).trans hs
    dsimp only
    repeat' split
    all_goals simp
  · exact id

/-! ## Frames of the links -/

theorem staysFaulted_peerRx {s : State} {n : Nat} {h : PeerHdr} {bcast : Bool} {k : State → State} (hk : ∀ t, (k t).cp = t.cp) :
    staysFaulted s (.next (s.peerRx n h bcast k)) := by
  rw [staysFaulted_next]
  exact fun hs => (s.peerRx_cp n h bcast k hk).trans hs

theorem staysFaulted_onLink {s : State} {n : Nat} {m : Mac} {k : Link → State → State} (hk : ∀ l t, (k l t).cp = t.cp) :
    staysFaulted s (.next (s.onLink n m k)) := by
  rw [staysFaulted_next]
  exact fun hs => (s.onLink_cp n m k hk).trans hs

@[simp] theorem staysFaulted_execLinkAck (n : Nat) (h : PeerHdr) (ack : Nat) (s : State) : staysFaulted s (execLinkAck n h ack s) :=
  staysFaulted_peerRx fun u => u.onLink_cp _ _ _ fun l v => v.ackLink_cp l ack

@[simp] theorem staysFaulted_execNak (n : Nat) (h : PeerHdr) (ack : Nat) (s : State) : staysFaulted s (execNak n h ack s) :=
  staysFaulted_peerRx fun u => u.onLink_cp _ _ _ fun _ v => v.resend_cp _ ack

@[simp] theorem staysFaulted_execKeepalive (n : Nat) (h : PeerHdr) (ack : Nat) (s : State) : staysFaulted s (execKeepalive n h ack s) :=
  staysFaulted_peerRx fun u => u.onLink_cp _ _ _ fun l v => v.ackLink_cp l ack

@[simp] theorem staysFaulted_execAckTimer (n : Nat) (m : Mac) (s : State) : staysFaulted s (execAckTimer n m s) :=
  staysFaulted_onLink fun _ _ => by split <;> simp

@[simp] theorem staysFaulted_execKeepaliveTimer (n : Nat) (m : Mac) (s : State) : staysFaulted s (execKeepaliveTimer n m s) :=
  staysFaulted_onLink fun _ _ => by simp

@[simp] theorem staysFaulted_execRetryTimeout (n : Nat) (m : Mac) (s : State) : staysFaulted s (execRetryTimeout n m s) :=
  staysFaulted_onLink fun l v => by
    repeat' split
    all_goals simp

@[simp] theorem staysFaulted_execLinkSilence (n : Nat) (m : Mac) (s : State) : staysFaulted s (execLinkSilence n m s) :=
  staysFaulted_onLink fun l v => v.linkDown_cp l 1

@[simp] theorem staysFaulted_execInitTimer (n : Nat) (s : State) : staysFaulted s (execInitTimer n s) := by
  rw [execInitTimer, staysFaulted_guarded]
  refine fun hs _ => Eq.trans ?_ hs
  split
  · split <;> simp
  · refine State.foldl_cp _ _ _ fun u e => ?_
    repeat' split
    all_goals simp

@[simp] theorem staysFaulted_execInitAck (n : Nat) (h : PeerHdr) (twin : Bool) (r d : Nat) (s : State) :
    staysFaulted s (execInitAck n h twin r d s) :=
  staysFaulted_peerRx fun u => by
    dsimp only
    split <;> simp

@[simp] theorem staysFaulted_execInitFrame (n : Nat) (h : PeerHdr) (twin : Bool) (r d : Nat) (s : State) :
    staysFaulted s (execInitFrame n h twin r d s) := by
  rw [execInitFrame, staysFaulted_next]
  refine fun hs => Eq.trans ?_ hs
  split
  · repeat' split
    all_goals simp
  · refine s.peerRx_cp n h twin _ fun u => ?_
    dsimp only
    repeat' split
    all_goals simp

@[simp] theorem staysFaulted_execDataFrame (n : Nat) (h : PeerHdr) (seq ack : Nat) (d : LinkData) (s : State) :
    staysFaulted s (execDataFrame n h seq ack d s) := by
  unfold execDataFrame
  rw [staysFaulted_next]
  refine fun hs => Eq.trans ?_ hs
  split
  · split <;> simp
  · refine s.peerRx_cp n _ false _ fun u => u.onLink_cp _ _ _ fun l v => ?_
    refine (State.onLink_cp _ _ _ _ fun l1 v1 => ?_).trans (v.ackLink_cp l ack)
    dsimp only
    repeat' split
    all_goals simp

/-! ## Kernels -/

theorem staysFaulted_runKernel {s : State} {ra : Bool} {id : Nat} {fault : CutFault} {isKind : StrandKind → Bool}
    {pass : Program → Attempt → Strand → Nat → Bool → State → State}
    (hp : ∀ p a t c first u, u.cp = .faulted → (pass p a t c first u).cp = .faulted) :
    staysFaulted s (s.runKernel ra id fault isKind pass) := by
  unfold State.runKernel
  split
  · split
    · simp
    · next p a t _ _ _ _ c _ =>
      rw [staysFaulted_guarded]
      intro hs _
      have hu := (s.cutFaulted_cp ra a t c fault).trans hs
      split
      · exact hu
      · exact State.strandIO_cp _ _ _ _ _ _ hu (hp p a t c _ _ hu)
  · simp

theorem staysFaulted_kernelPass {s : State} {ra : Bool} {id : Nat} {fault : CutFault} {isKind : StrandKind → Bool} :
    staysFaulted s (s.runKernel ra id fault isKind fun p a t c first u => u.kernelPass p ra a t c first) :=
  staysFaulted_runKernel fun p a t c first u hu => (u.kernelPass_cp p ra a t c first).trans hu

@[simp] theorem staysFaulted_execNsIter (ra : Bool) (id : Nat) (fault : CutFault) (s : State) : staysFaulted s (execNsIter ra id fault s) :=
  staysFaulted_runKernel fun _ a t c _ u hu => by
    dsimp only
    split
    · exact u.strandIO_cp _ _ _ _ _ hu ((u.nsPass_cp ra a t c _).trans hu)
    · exact hu

theorem staysFaulted_fused {s : State} {facet pidx n row : Nat} {fault : CutFault} {named : FusedDesc → Bool}
    {red : Nat → TileDesc → List Word → List Word} {side : Bool → Attempt → Strand → Nat → TileDesc → List Word → State → State}
    (hside : ∀ ra a t c d z u, (side ra a t c d z u).cp = u.cp) :
    staysFaulted s (s.fused facet pidx n row fault named red side) := by
  unfold State.fused
  split
  · simp
  · split
    · rw [staysFaulted_guarded]
      intro hs _
      split <;> simp [hside, hs]
    · simp

@[simp] theorem staysFaulted_execSmxDot (f pidx row : Nat) (fault : CutFault) (fmt : Option Fmt) (blk codes exps pitch : Nat) (s : State) :
    staysFaulted s (execSmxDot f pidx row fault fmt blk codes exps pitch s) :=
  staysFaulted_fused fun ra a t c d z u => State.foldl_cp _ _ _ fun v i => by split <;> simp

theorem staysFaulted_copyStrand (s : State) (ra : Bool) (id : Nat) (fill : Bool) : staysFaulted s (s.copyStrand ra id fill) := by
  unfold State.copyStrand
  split
  · split
    · next d _ =>
      rw [staysFaulted_guarded]
      intro hs _
      have hrows := State.copyRows_cp ra d (s.copyPlan d) s hs
      split
      · next hr => rw [hr] at hrows; exact hrows
      · next hr => rw [hr] at hrows; exact hrows
    · simp
  · simp

/-! ## Messages of the domain -/

@[simp] theorem staysFaulted_execAmax (s : State) : staysFaulted s (execAmax s) := by
  unfold execAmax
  split
  · simp
  · next p _ =>
    rw [staysFaulted_next]
    intro hs
    have hsum := ((s.amaxOwn p false).amaxOwn p true).combined_cp 5 maxFields
      (fun f t => t.sendDown { f with down := true, origin := t.dom.rank }) (by simp [hs]) fun f t ht => by simp [ht]
    split
    · exact hsum
    · refine State.onDown_cp _ _ _ hsum fun f t ht => ?_
      split
      · simp [ht]
      · exact ht

@[simp] theorem staysFaulted_execReport (s : State) : staysFaulted s (execReport s) := by
  rw [execReport, staysFaulted_guarded]
  exact fun hs _ => s.combinedIf_cp _ _ _ _ hs fun f t ht => by simp [ht]

theorem staysFaulted_onDecision {s : State} {c : Bool} {kind : Nat}
    {act : Program → Bool → Attempt → Nat → Bool → DomFrame → State → State}
    (ha : ∀ p ra a l bwd f t, t.cp = .faulted → (act p ra a l bwd f t).cp = .faulted) :
    staysFaulted s (guarded c s (s.onDecision kind act)) := by
  rw [staysFaulted_guarded]
  exact fun hs _ => s.onDecision_cp _ _ hs ha

@[simp] theorem staysFaulted_execDecisionClear (s : State) : staysFaulted s (execDecisionClear s) := by
  refine staysFaulted_onDecision fun p ra a l bwd f t ht => ?_
  dsimp only
  repeat' split
  all_goals simp [ht]

@[simp] theorem staysFaulted_execDecisionReplay (s : State) : staysFaulted s (execDecisionReplay s) := by
  refine staysFaulted_onDecision fun p ra a l bwd f t ht => ?_
  dsimp only
  repeat' split
  all_goals simp [ht]

@[simp] theorem staysFaulted_execDecisionWiden (s : State) : staysFaulted s (execDecisionWiden s) := by
  refine staysFaulted_onDecision fun p ra a l bwd f t ht => ?_
  dsimp only
  repeat' split
  all_goals simp [ht]

@[simp] theorem staysFaulted_execDecisionGlobal (s : State) : staysFaulted s (execDecisionGlobal s) := by
  refine staysFaulted_onDecision fun p ra a l bwd f t ht => ?_
  dsimp only
  repeat' split
  all_goals simp [ht]

@[simp] theorem staysFaulted_execDecisionExhausted (s : State) : staysFaulted s (execDecisionExhausted s) := by
  refine staysFaulted_onDecision fun p ra a l bwd f t ht => ?_
  dsimp only
  repeat' split
  all_goals simp [ht]

@[simp] theorem staysFaulted_execStepOpen (s : State) : staysFaulted s (execStepOpen s) := by
  unfold execStepOpen
  split
  · rw [staysFaulted_guarded]
    refine fun hs _ => Eq.trans ?_ hs
    split
    · next h => simp [State.latchFor_cp h]
    · split
      · rfl
      · exact State.raiseCtx_cp _ _ _ _ _ _
  · simp

@[simp] theorem staysFaulted_execOpenAttempt (s : State) : staysFaulted s (execOpenAttempt s) := by
  rw [execOpenAttempt, staysFaulted_guarded]
  refine fun hs _ => s.onDown_cp _ _ hs fun f t ht => ?_
  split
  · exact ht
  · exact t.onOpen_cp f ht

@[simp] theorem staysFaulted_execPolicy (s : State) : staysFaulted s (execPolicy s) := by
  rw [execPolicy, staysFaulted_guarded]
  exact fun hs _ => State.onDown_cp _ _ _ (s.tryPolicy_cp.trans hs) fun f t ht => t.onPolicy_cp f ht

@[simp] theorem staysFaulted_execXmap (s : State) : staysFaulted s (execXmap s) := by
  rw [execXmap, staysFaulted_next]
  refine fun hs => s.combined_cp _ _ _ hs fun f t ht => ?_
  dsimp only
  repeat' split
  all_goals simp [ht]

@[simp] theorem staysFaulted_execEndCount (s : State) : staysFaulted s (execEndCount s) := by
  rw [execEndCount, staysFaulted_guarded]
  refine fun hs _ => s.combined_cp _ _ _ hs fun f t ht => ?_
  dsimp only
  repeat' split
  all_goals simp [ht]

@[simp] theorem staysFaulted_execReadyCount (s : State) : staysFaulted s (execReadyCount s) := by
  rw [execReadyCount, staysFaulted_guarded]
  refine fun hs _ => s.combined_cp _ _ _ hs fun f t ht => ?_
  dsimp only
  repeat' split
  all_goals simp [ht]

@[simp] theorem staysFaulted_execCommit (s : State) : staysFaulted s (execCommit s) := by
  rw [execCommit, staysFaulted_guarded]
  refine fun hs _ => s.onDown_cp _ _ hs fun f t ht => ?_
  repeat' split
  all_goals simp [ht]

@[simp] theorem staysFaulted_execDoneCount (s : State) : staysFaulted s (execDoneCount s) := by
  rw [execDoneCount, staysFaulted_next]
  exact fun hs => s.combined_cp _ _ _ hs fun f t ht => by simp [ht]

@[simp] theorem staysFaulted_execLvote (layer : Nat) (s : State) : staysFaulted s (execLvote layer s) := by
  rw [execLvote, staysFaulted_next]
  refine fun hs => State.combined_cp _ _ _ _ ?_ fun f t ht => ?_
  · repeat' split
    all_goals simp [hs]
  · dsimp only
    repeat' split
    all_goals simp [ht]

@[simp] theorem staysFaulted_execGate (s : State) : staysFaulted s (execGate s) := by
  rw [execGate, staysFaulted_next]
  refine fun hs => s.onDown_cp _ _ hs fun f t ht => ?_
  dsimp only
  repeat' split
  all_goals simp [ht]

@[simp] theorem staysFaulted_execDomainAbort (s : State) : staysFaulted s (execDomainAbort s) := by
  rw [execDomainAbort, staysFaulted_guarded]
  exact fun hs _ => s.onDown_cp _ _ hs fun f t ht => by simp [ht]

theorem State.withTwin_cp (s : State) (w : TwinSt) : ({ s with twin := w } : State).cp = s.cp := rfl

theorem foldl_lineUE_cp {s : State} (l : List Nat) (req : Nat) (h : s.cp = .faulted) :
    (l.foldl (fun (t : State) n => t.lineUE n req false) s).cp = .faulted :=
  State.foldl_faulted _ _ _ h fun t n ht => t.lineUE_cp n req false ht

theorem foldl_digestRegs_cp (d : List Byte) (l : List Nat) (s : State) :
    (l.foldl (fun (t : State) k => t.setReg .twn 0 (0x20 + 4 * k) (BitVec.ofNat 32 (leAt (4 * k) 4 d))) s).cp = s.cp :=
  State.foldl_cp _ _ _ fun t _ => t.setReg_cp _ _ _ _

@[simp] theorem staysFaulted_execTwinDigest (s : State) : staysFaulted s (execTwinDigest s) := by
  unfold execTwinDigest
  split
  · simp
  · rw [staysFaulted_guarded]
    intro hs _
    split
    · rw [State.compareDigests_cp, State.sendTwin_cp, State.withTwin_cp, State.setReg_cp, foldl_digestRegs_cp]
      exact hs
    · exact foldl_lineUE_cp _ _ hs

@[simp] theorem staysFaulted_execVeto (s : State) : staysFaulted s (execVeto s) := by
  unfold execVeto
  dsimp only
  split
  · simp
  · split
    · split
      · split
        · simp +contextual
        · rw [staysFaulted_next]
          split <;> simp
      · repeat' split
        all_goals simp +contextual
    · split
      · rw [staysFaulted_next]
        split
        · next h =>
          have ht := State.takeUp_cp h
          split <;> simp [ht]
        · exact id
      · simp

@[simp] theorem staysFaulted_execBeat (s : State) : staysFaulted s (execBeat s) := by
  rw [execBeat, staysFaulted_next]
  split
  · next h => exact (State.takeUp_cp h).trans
  · exact id

@[simp] theorem staysFaulted_execJoin (s : State) : staysFaulted s (execJoin s) := by
  rw [execJoin, staysFaulted_next]
  split
  · exact id
  · next h =>
    refine fun hs => Eq.trans ?_ ((State.takeUp_cp h).trans hs)
    dsimp only
    repeat' split
    all_goals simp

@[simp] theorem staysFaulted_execJoinAck (s : State) : staysFaulted s (execJoinAck s) := by
  rw [execJoinAck, staysFaulted_next]
  split
  · exact id
  · next h =>
    refine fun hs => Eq.trans ?_ ((State.takeDown_cp h).trans hs)
    split <;> simp

@[simp] theorem staysFaulted_execRanks (s : State) : staysFaulted s (execRanks s) := by
  rw [execRanks, staysFaulted_next]
  split
  · exact id
  · next h =>
    refine fun hs => Eq.trans ?_ ((State.takeDown_cp h).trans hs)
    dsimp only
    repeat' split
    all_goals simp

@[simp] theorem staysFaulted_execLost (s : State) : staysFaulted s (execLost s) := by
  rw [execLost, staysFaulted_next]
  intro hs
  have hown : (if s.cp == .faulted && s.dom.rankValid && !s.dom.faultSent then
      (({ s with dom := { s.dom with faultSent := true } } : State)).sendDirect (s.lostFrame s.dom.rank) else s).cp = .faulted := by
    split <;> simp [hs]
  split
  · exact hown
  · next h =>
    refine Eq.trans ?_ ((State.takeUp_cp h).trans hown)
    repeat' split
    all_goals simp

@[simp] theorem staysFaulted_execStateQ (s : State) : staysFaulted s (execStateQ s) := by
  unfold execStateQ
  split
  · simp
  · next h =>
    rw [staysFaulted_next]
    refine fun hs => Eq.trans ?_ ((State.takeFrame_cp h).trans hs)
    dsimp only
    repeat' split
    all_goals simp

@[simp] theorem staysFaulted_execState (s : State) : staysFaulted s (execState s) := by
  unfold execState
  split
  · simp
  · next h =>
    dsimp only
    rw [staysFaulted_next]
    refine fun hs => Eq.trans ?_ ((State.takeFrame_cp h).trans hs)
    repeat' split
    all_goals simp

@[simp] theorem staysFaulted_execPlannedHandover (s : State) : staysFaulted s (execPlannedHandover s) := by
  rw [execPlannedHandover, staysFaulted_next]
  split
  · next h => exact fun hs => (State.takeOver_cp _ _).trans ((State.takeFrame_cp h).trans hs)
  · intro hs
    extract_lets asked
    have hasked : asked.cp = .faulted := by
      subst asked
      repeat' split
      · next h => exact (State.askHandover_cp _ _).trans ((State.takeFrame_cp h).trans hs)
      · next h => exact (State.finishOp_cp _ _ _ _ _).trans ((State.takeFrame_cp h).trans hs)
      · exact hs
    clear_value asked
    repeat' split
    all_goals simp [hasked]

/-! ## Strands, tasks and the Loupes -/

@[simp] theorem staysFaulted_execStrandStart (ra : Bool) (id : Nat) (s : State) : staysFaulted s (execStrandStart ra id s) := by
  unfold execStrandStart
  split
  · next p a t _ _ _ =>
    rw [staysFaulted_guarded]
    intro hs _
    have hplaced := State.allocAll_cp ra p a t (s.firstBlocks p id) s
    split
    · next h =>
      rw [h] at hplaced
      have hu := hplaced.trans hs
      split
      · exact State.issueStrand_cp _ _ _ ((State.setAttempt_cp _ _ _).trans hu)
      · exact hu
    · next h =>
      rw [h] at hplaced
      exact hplaced.trans hs
  · simp

@[simp] theorem staysFaulted_execTaskDescriptor (ra : Bool) (id : Nat) (ramping : Bool) (s : State) :
    staysFaulted s (execTaskDescriptor ra id ramping s) := by
  unfold execTaskDescriptor
  dsimp only
  repeat' split
  all_goals simp +contextual

@[simp] theorem staysFaulted_execTaskReplay (part : FacetPart) (ramping : Bool) (s : State) :
    staysFaulted s (execTaskReplay part ramping s) := by
  unfold execTaskReplay
  dsimp only
  repeat' split
  all_goals simp +contextual

@[simp] theorem staysFaulted_execScaleLoad (f pidx : Nat) (s : State) : staysFaulted s (execScaleLoad f pidx s) := by
  unfold execScaleLoad
  dsimp only
  repeat' split
  all_goals simp +contextual

@[simp] theorem staysFaulted_execDrainRowRead (f pidx : Nat) (parity : Bool) (s : State) :
    staysFaulted s (execDrainRowRead f pidx parity s) := by
  unfold execDrainRowRead
  dsimp only
  split
  · simp
  · split
    · rw [staysFaulted_guarded]
      refine fun hs _ => Eq.trans ?_ hs
      repeat' split
      all_goals simp
    · simp

@[simp] theorem staysFaulted_execTaskComplete (f pidx : Nat) (s : State) : staysFaulted s (execTaskComplete f pidx s) := by
  unfold execTaskComplete
  dsimp only
  split
  · simp
  · rw [staysFaulted_guarded]
    exact fun hs _ => by simp [hs]

@[simp] theorem staysFaulted_execInclusionTask (part : FacetPart) (fault : CutFault) (s : State) :
    staysFaulted s (execInclusionTask part fault s) := by
  unfold execInclusionTask
  dsimp only
  split
  · simp
  · split
    · rw [staysFaulted_guarded]
      refine fun hs _ => Eq.trans ?_ hs
      split
      · simp
      · simp only [State.cutFaulted_cp, State.bump_cp, State.setFacet_cp]
        exact State.foldl_cp _ _ _ fun u r => u.putWords_cp _ _
    · simp

@[simp] theorem staysFaulted_execKernelComplete (c : Nat) (s : State) : staysFaulted s (execKernelComplete c s) := by
  unfold execKernelComplete
  dsimp only
  split
  · rw [staysFaulted_guarded]
    exact fun hs _ => by simp [hs]
  · simp

@[simp] theorem staysFaulted_execLoupeVerdict (g : Nat) (parity : Bool) (s : State) : staysFaulted s (execLoupeVerdict g parity s) := by
  unfold execLoupeVerdict
  dsimp only
  repeat' split
  all_goals simp +contextual

/-! ## Tarn, stash and twin -/

@[simp] theorem staysFaulted_execStashReturn (b : StashKey) (s : State) : staysFaulted s (execStashReturn b s) := by
  unfold execStashReturn
  dsimp only
  repeat' split
  all_goals simp +contextual

@[simp] theorem staysFaulted_execEpochStart (i : Nat) (s : State) : staysFaulted s (execEpochStart i s) := by
  unfold execEpochStart
  dsimp only
  split
  · rw [staysFaulted_guarded]
    intro hs _
    split
    · simp [hs]
    · split
      · simp only [State.sendTwinOn_cp]
        exact (State.foldl_cp _ _ _ fun t x => t.sendTwinOn_cp _ _).trans ((s.setStack_cp _ _).trans hs)
      · exact foldl_lineUE_cp _ _ hs
  · simp

@[simp] theorem staysFaulted_execTarnTransfer (i req a n m : Nat) (rivals : List Nat) (x : Xfer) (errs : List LineError) (vt : Bool) (s : State) :
    staysFaulted s (execTarnTransfer i req a n m rivals x errs vt s) := by
  unfold execTarnTransfer
  extract_lets c k0 isWrite addrs legal going held bad
  clear_value legal held bad
  rw [staysFaulted_guarded]
  intro hs _
  split
  · simp [hs]
  · split
    · exact hs
    · split
      · exact hs
      · next t h =>
        have ht := (State.arbitrate_cp h).trans hs
        have hchecked : (if vt && addrs.any fun b => (t.vRegion b).isSome then t.vtParity i a else t).cp = .faulted := by
          split
          · exact State.vtParity_cp _ _ _
          · exact ht
        dsimp only
        split
        · exact hchecked
        · split <;> exact (State.setGrant_cp _ _ _ _).trans (State.moveLines_cp _ _ _ _ _ _ _ _ hchecked)

@[simp] theorem staysFaulted_execCkend (s : State) : staysFaulted s (execCkend s) := by
  rw [execCkend, staysFaulted_next]
  split
  · exact id
  · next h =>
    refine fun hs => Eq.trans ?_ ((State.takeCkptMark_cp h).trans hs)
    dsimp only
    repeat' split
    all_goals simp

@[simp] theorem staysFaulted_execEpochHeld (s : State) : staysFaulted s (execEpochHeld s) := by
  rw [execEpochHeld, staysFaulted_next]
  split
  · exact id
  · next h =>
    refine fun hs => Eq.trans ?_ ((State.takeCkptMark_cp h).trans hs)
    dsimp only
    split <;> simp

theorem storeCopy_cp {s : State} (a n : Nat) (l : List Byte) (x : RxFrame) (f : CopyFrame) (h : s.cp = .faulted) :
    ((s.strandIO false 8 [] [(a, n)] (s.putBytes a l)).answer x f).cp = .faulted :=
  (State.answer_cp _ _ _).trans (s.strandIO_cp _ _ _ _ _ h ((s.putBytes_cp a l).trans h))

theorem storeShadowCopy_cp (s : State) (a b i : Nat) (v : State → Stack) (l : List Byte) (x : RxFrame) (f : CopyFrame) :
    ((((s.touch a true).putBytes b l).setStack i (v ((s.touch a true).putBytes b l))).answer x f).cp = s.cp := by
  simp

@[simp] theorem staysFaulted_execCopyWrite (s : State) : staysFaulted s (execCopyWrite s) := by
  rw [execCopyWrite, staysFaulted_next]
  split
  · exact id
  · next h =>
    intro hs
    have ht := (State.takeCopy_cp h).trans hs
    dsimp only
    repeat' split
    · exact ht
    · exact storeCopy_cp _ _ _ _ _ ht
    · exact (State.refuseCopy_cp _ _ _ _).trans ht
    · exact (storeShadowCopy_cp _ _ _ _ (fun u => { u.stack _ with receiving := true }) _ _ _).trans ht
    · exact (State.refuseCopy_cp _ _ _ _).trans ht
    · exact (State.restoreWrite_cp _ _ _).trans ht
    · exact (State.refuseCopy_cp _ _ _ _).trans ht
    · exact (State.refuseCopy_cp _ _ _ _).trans ht

theorem foldl_answer_cp {α : Type} (l : List α) (x : RxFrame) (f : State → α → CopyFrame) (s : State) :
    (l.foldl (fun (u : State) k => u.answer x (f u k)) s).cp = s.cp :=
  State.foldl_cp _ _ _ fun u _ => u.answer_cp _ _

@[simp] theorem staysFaulted_execReadReq (s : State) : staysFaulted s (execReadReq s) := by
  unfold execReadReq
  split
  · simp
  · next x f t h =>
    split
    · extract_lets a
      split
      · rw [staysFaulted_next]
        exact fun hs => (foldl_answer_cp _ x _ t).trans ((State.takeCopy_cp h).trans hs)
      · rw [staysFaulted_next, State.refuseCopy_cp]
        exact fun hs => foldl_lineUE_cp _ _ ((State.takeCopy_cp h).trans hs)
    · rw [staysFaulted_next, State.refuseCopy_cp]
      exact (State.takeCopy_cp h).trans

@[simp] theorem staysFaulted_execReadData (s : State) : staysFaulted s (execReadData s) := by
  rw [execReadData, staysFaulted_next]
  split
  · exact id
  · next h =>
    refine fun hs => Eq.trans ?_ ((State.takeCopy_cp h).trans hs)
    dsimp only
    repeat' split
    all_goals simp

@[simp] theorem staysFaulted_execCopyAck (s : State) : staysFaulted s (execCopyAck s) := by
  rw [execCopyAck, staysFaulted_next]
  split
  · exact id
  · next x f t h =>
    intro hs
    have ht := (State.takeCopy_cp h).trans hs
    split
    · split
      · split <;> simp [ht]
      · simp [ht]
    · have hwhy := t.takeWhy_cp 1 (tagStack f.tag) 3
      dsimp only
      repeat' split
      · exact ht
      · exact (State.ckptLost_cp _ _ _).trans (hwhy.trans ht)
      · exact (t.epochAck_cp _ _).trans ht
    · exact t.restoreAck_cp f ht

@[simp] theorem staysFaulted_execHello (s : State) : staysFaulted s (execHello s) := by
  rw [execHello, staysFaulted_next]
  split
  · exact id
  · next h => exact fun hs => (State.pairUp_cp _).trans ((State.takeMark_cp h).trans hs)

@[simp] theorem staysFaulted_execDigest (s : State) : staysFaulted s (execDigest s) := by
  rw [execDigest, staysFaulted_next]
  split
  · exact id
  · next h => exact fun hs => (State.compareDigests_cp _).trans ((State.takeMark_cp h).trans hs)

@[simp] theorem staysFaulted_execAborted (s : State) : staysFaulted s (execAborted s) := by
  unfold execAborted
  split
  · simp
  · next h =>
    have ht := State.takeMark_cp h
    dsimp only
    split
    · rw [staysFaulted_guarded]
      refine fun hs _ => Eq.trans ?_ (ht.trans hs)
      split <;> simp
    · rw [staysFaulted_guarded]
      exact fun hs _ => ht.trans hs

@[simp] theorem staysFaulted_execHalted (s : State) : staysFaulted s (execHalted s) := by
  rw [execHalted, staysFaulted_next]
  split
  · exact id
  · next h =>
    refine fun hs => Eq.trans ?_ ((State.takeMark_cp h).trans hs)
    split <;> simp

@[simp] theorem staysFaulted_execProgdig (s : State) : staysFaulted s (execProgdig s) := by
  rw [execProgdig, staysFaulted_next]
  split
  · exact id
  · next h =>
    refine fun hs => ?_
    have ht := (State.takeMark_cp h).trans hs
    dsimp only
    split
    · exact ht
    · rw [if_pos (by simp [ht])]
      simp [ht]

@[simp] theorem staysFaulted_execRestoreEnd (s : State) : staysFaulted s (execRestoreEnd s) := by
  rw [execRestoreEnd, staysFaulted_next]
  split
  · exact id
  · next h =>
    refine fun hs => ?_
    have ht := (State.takeMark_cp h).trans hs
    repeat' split
    all_goals simp [ht]

@[simp] theorem staysFaulted_execCollStall (d n : Nat) (s : State) : staysFaulted s (execCollStall d n s) := by
  rw [execCollStall, staysFaulted_next]
  refine fun hs => s.onColl_cp _ _ _ hs fun c t ht => ?_
  dsimp only
  split
  · simp [ht]
  · split
    · refine Eq.trans (State.foldl_cp _ _ _ fun u x => u.sendRank_cp _ _ _) ?_
      simp [ht]
    · simp [ht]

@[simp] theorem staysFaulted_execPartnerLossTimeout (s : State) : staysFaulted s (execPartnerLossTimeout s) := by
  unfold execPartnerLossTimeout
  extract_lets m s0 w s1 s2 s3 s4 s5 s6 s7 v s8
  rw [staysFaulted_guarded]
  intro hs _
  have h1 : s1.cp = .faulted := (State.raiseEv_cp _ _ _ _).trans (s.restoreLost_cp.trans hs)
  have h2 : s2.cp = .faulted := by
    subst s2
    split
    · refine Eq.trans (State.foldl_cp _ _ _ fun t i => ?_) h1
      split <;> simp
    · exact h1
  have h3 : s3.cp = .faulted := by
    subst s3
    split
    · exact (State.foldl_cp _ _ _ fun t i => t.setStack_cp _ _).trans h2
    · exact h2
  have h4 : s4.cp = .faulted := (State.spillTargetLost_cp _ _).trans h3
  have h5 : s5.cp = .faulted := by
    subst s5
    repeat' split
    all_goals simp [h4]
  have h6 : s6.cp = .faulted := by
    subst s6
    split <;> simp [h5]
  have h7 : s7.cp = .faulted := by
    subst s7
    repeat' split
    all_goals simp [h6]
  subst s8
  split <;> simp [h7]

/-! ## Serving -/

@[simp] theorem staysFaulted_execBatchLaunch (s : State) : staysFaulted s (execBatchLaunch s) := by
  unfold execBatchLaunch
  dsimp only
  split
  · simp +contextual
  · rw [staysFaulted_guarded]
    intro hs _
    simp only [State.evalWait_cp, State.startBatch_cp]
    exact (State.foldl_cp _ _ _ fun u e => u.setSlot_cp _ _).trans hs

@[simp] theorem staysFaulted_execBatchComplete (s : State) : staysFaulted s (execBatchComplete s) := by
  unfold execBatchComplete
  split
  · next p m b _ _ _ =>
    extract_lets out done t v u
    clear_value out
    rw [staysFaulted_guarded]
    intro hs _
    have hdone : done.1.cp = .faulted :=
      List.foldlRecOn (motive := fun acc : State × Nat => acc.1.cp = .faulted) _ _ hs fun acc hacc r _ =>
        (State.scoreRequest_cp _ _ _ _ _ _).trans hacc
    clear_value done
    have hu : u.servSettled.cp = .faulted := by simp [u, t, hdone]
    clear_value u
    split
    · exact s.strandIO_cp _ _ _ _ _ hs hu
    · exact (s.prvRefused_cp _).trans hs
  · simp

/-! ## All rows but the resets -/

theorem staysFaulted_accessWrite (s : State) (who : Requester) (a : Nat) (v : Word) : staysFaulted s (s.accessWrite who a v) := by
  simp +contextual [State.accessWrite]

theorem staysFaulted_accessRead (s : State) (who : Requester) (a : Nat) : staysFaulted s (s.accessRead who a) := by
  simp +contextual [State.accessRead]

theorem staysFaulted_alarm (s : State) (c : Bool) (code : Nat) {level : Nat} (h : level < 3) :
    staysFaulted s (guarded c s (s.alarm code level)) := by
  rw [staysFaulted_guarded]
  exact fun hs _ => (s.alarm_cp code h).trans hs

theorem staysFaulted_execQueueSync (port : CmdPort) (q : Nat) (s : State) : staysFaulted s (execQueueSync port q s) := by
  simp only [execQueueSync, staysFaulted_next]
  intros
  repeat' split
  all_goals simp [*]

theorem staysFaulted_execPilotDone (f a b : Nat) (s : State) : staysFaulted s (execPilotDone f a b s) := by
  simp only [execPilotDone]
  repeat' split
  all_goals simp

theorem staysFaulted_execRootRefresh (id : Nat) (s : State) : staysFaulted s (execRootRefresh id s) := by
  unfold execRootRefresh
  repeat' split
  all_goals simp only [staysFaulted_next, staysFaulted_guarded]
  all_goals intros
  all_goals (repeat' split)
  all_goals simp [*]

theorem staysFaulted_execSpill (b : StashKey) (s : State) : staysFaulted s (execSpill b s) := by
  simp only [execSpill]
  repeat' split
  all_goals simp

/-- The rows that a reset or the main power's loss follows, and the release of the hub's reset. -/
def resetRow : Instr → Bool
  | .mainOff _ | .mainOn _ | .warmReset _ | .fullReset _ | .smbPower .. | .mesh | .cover | .thermTrip .. | .mainInputFault _ |
    .standbyPowerUp .. | .standbyLost | .railPowerGoodTimeout _ | .pllLockFailure | .hubResetRelease _ => true
  | _ => false

theorem staysFaulted_exec (s : State) (c : Instr) (hc : resetRow c = false) : staysFaulted s (exec c s) := by
  cases c
  case mainOff | mainOn | warmReset | fullReset | smbPower | mesh | cover | thermTrip | mainInputFault | standbyPowerUp | standbyLost |
    railPowerGoodTimeout | pllLockFailure | hubResetRelease => exact absurd hc (by simp [resetRow])
  -- commands that FAULTED refuses
  case sizeTable | fwLoad | configEnd | attest | memWrite | memFill | progLoad | progUnload | restore | twinMode | wellheadTake |
    rankJoin | twinRestore | collLaunch | modelLoad | modelUnload | score | slotReset | explain | run | stop | abort | resume =>
    exact staysFaulted_refused rfl
  -- commands that answer and change nothing
  case nop | ident => exact staysFaulted_runCmd fun _ _ _ ht => ht
  case status | fence => exact staysFaulted_runHost fun _ _ _ ht => ht
  -- writes and reads of registers
  case capStepWrite | pwrTrimDataWrite | pwrCalWrite | umcTimeHiWrite | plainRegisterWrite | w1cClear | hostMacLoWrite | hostMacHiWrite |
    hostCtrlWrite | hostEgrCfgWrite | hubStepNumWrite | inlLrStepWrite | logRingSet | hubLogTailWrite | inlRlogTailWrite |
    hubPrvTailWrite | hubSrvFillWrite | hubSrvWaitWrite | fctSpareWrite | fctRowDlyWrite | pilotStart | fctEnableWrite |
    trnRprDataWrite | trnHpwWrite | ceLnkReconfig | ceRtMacHiWrite => exact staysFaulted_accessWrite _ _ _ _
  case pairLoRead | hubLogLostRead | hubPondHwmRead | pwrAgeRead => exact staysFaulted_accessRead _ _ _
  -- alarms below level 3
  case vglitchCore | vglitchStby | refclkDrift | debugPort => exact staysFaulted_alarm _ _ _ (by decide)
  -- frames of the SMBus
  case smbAddressWrite => exact staysFaulted_smbus _ _ rfl
  case smbBlockRead => exact staysFaulted_smbus _ _ ((State.smbSend_cp _ _).trans (s.readReg_cp _ _))
  case smbBlockWrite => exact staysFaulted_smbus _ _ (s.writeReg_cp _ _ _)
  case smbStatusRead => exact staysFaulted_smbus _ _ (s.smbSend_cp _)
  case smbAlarmClear => exact staysFaulted_smbus _ _ (s.clearAlarms_cp _)
  -- kernels
  case quant | rmsApply | rmsBwdApply | smxApply | smxBwdApply | elemAdd | elemMul | elemScale | elemRelu | elemSilu =>
    dsimp only [exec, execQuant, execRmsApply, execRmsBwdApply, execSmxApply, execSmxBwdApply, execElemAdd, execElemMul, execElemScale,
      execElemRelu, execElemSilu]
    exact staysFaulted_kernelPass
  case rmsStat | rmsDot =>
    dsimp only [exec, execRmsStat, execRmsDot]
    exact staysFaulted_fused fun _ _ _ _ _ _ _ => rfl
  case smxStat =>
    dsimp only [exec, execSmxStat]
    exact staysFaulted_fused fun _ _ _ _ _ _ u => u.putWords_cp _ _
  case programCopy | patternFill => exact staysFaulted_copyStrand _ _ _ _
  -- rows of operations that leave CPSTATE
  case mainInputApplied | refclkLoss | clkFault | inputOkChange =>
    simp [exec, execMainInputApplied, execRefclkLoss, execClkFault, execInputOkChange]
  case dieResetRelease | tarnTrainingDone | thermThrottle | stepEvaluation | dSlowNarrow | dSlowWiden | dFastRecovery | droopResponse |
    droopHoldEnd | trimExit | railReached | ageReport | hostLink | ptpSyncTimeout | fenceComplete | settleComplete | stopRamp |
    overstayBarEnd | scrubLine | scrubPeriodEnd | copyComplete | peerPhyUp | peerPhyDown | pfcFrame | pauseFrame | pauseExpiry |
    pfcRepeatTimer | pfcWatchdog | allGather | broadcast | reduceScatter | allReduce | seg | credit | restart | fin | finq |
    memberSilenceTimeout | beatTimer | maxWaitExpiry | tarnRefreshDoubling | hostFrameDiscard | peerFrameDiscard =>
    simp +contextual [exec, execDieResetRelease, execTarnTrainingDone, execThermThrottle, execStepEvaluation, execDSlowNarrow,
      execDSlowWiden, execDFastRecovery, execDroopResponse, execDroopHoldEnd, execTrimExit, execRailReached, execAgeReport, execHostLink,
      execPtpSyncTimeout, execFenceComplete, execSettleComplete, execStopRamp, execOverstayBarEnd, execScrubLine, execScrubPeriodEnd,
      execCopyComplete, execPeerPhyUp, execPeerPhyDown, execPfcFrame, execPauseFrame, execPauseExpiry, execPfcRepeatTimer,
      execPfcWatchdog, execAllGather, execBroadcast, execReduceScatter, execAllReduce, execSeg, execCredit, execRestart, execFin,
      execFinq, execMemberSilenceTimeout, execBeatTimer, execMaxWaitExpiry, execTarnRefreshDoubling, execHostFrameDiscard,
      execPeerFrameDiscard]
  case powerSample | freqSwitch | trimChoice | mgmtPacket | bulkComplete | phaseBarrier | kGroupRescale | modeChange | verdictPoint |
    programEnd | flipComplete | gradientBlock | rowRecord | preBlock | statisticsPass | statisticsResult | ratio | overstayCutoff |
    ceWriteback | batchFault | explainPassStart | pathPoint =>
    simp only [exec, execPowerSample, execFreqSwitch, execTrimChoice, execMgmtPacket, execBulkComplete, execPhaseBarrier,
      execKGroupRescale, execModeChange, execVerdictPoint, execProgramEnd, execFlipComplete, execGradientBlock, execRowRecord,
      execPreBlock, execStatisticsPass, execStatisticsResult, execRatio, execOverstayCutoff, execCeWriteback, execBatchFault,
      execExplainPassStart, execPathPoint]
    repeat' split
    all_goals simp +contextual
  all_goals simp [exec, staysFaulted_execQueueSync, staysFaulted_execPilotDone, staysFaulted_execRootRefresh, staysFaulted_execSpill]

end Sys2Proof.Machine
end

section
/-! PROOFS. What a reset leaves (R449): BOOT, no program, no link and no trained Tarn base; so CPSTATE FAULTED is left only by a reset
(O55). -/
namespace Sys2Proof.Machine

/-! ## What a reset leaves -/

/-- The hub after a reset: CPSTATE BOOT, no program, no link, no trained Tarn base, and no log ring set yet. -/
structure State.AfterReset (s : State) : Prop where
  cp : s.cp = .boot
  prog : s.prog = none
  links : s.fab.links = []
  tarn : ∀ i, (s.stack i).trained = false
  log : s.log.set = false

theorem get_freshStacks_trained (n i : Nat) : (Bank.get stackDefault (freshStacks n) i).trained = false := by
  have hget : ∀ l : List Nat, (Bank.get stackDefault (l.map fun j => (j, ({ token := n } : Stack))) i).trained = false := fun l => by
    induction l with
    | nil => rfl
    | cons j l ih =>
      rw [List.map_cons, Bank.get]
      split
      · rfl
      · exact ih
  unfold freshStacks
  split
  · rfl
  · exact hget _

theorem afterReset_of_eq {s t : State} (hs : s.AfterReset) (hcp : t.cp = s.cp) (hprog : t.prog = s.prog) (hfab : t.fab = s.fab)
    (htarns : t.tarns = s.tarns) (hlog : t.log.set = s.log.set) : t.AfterReset where
  cp := hcp.trans hs.cp
  prog := hprog.trans hs.prog
  links := (congrArg Fabric.links hfab).trans hs.links
  tarn i := by rw [State.stack, htarns]; exact hs.tarn i
  log := hlog.trans hs.log

theorem afterReset_hubReset (s : State) : s.hubReset.AfterReset := ⟨rfl, rfl, rfl, get_freshStacks_trained s.free, rfl⟩

theorem afterReset_railsOff (s : State) : s.railsOff.AfterReset := afterReset_of_eq (afterReset_hubReset s) rfl rfl rfl rfl rfl

theorem afterReset_recordReset {s : State} (hs : s.AfterReset) (code : Nat) : (s.recordReset code).AfterReset :=
  afterReset_of_eq hs (by simp) (by simp) (by simp) (by simp) (by simp)

theorem tarns_logRecord_of_unset (s : State) (r : EventRec) (h : s.log.set = false) :
    (s.logRecord r).tarns = s.tarns ∧ (s.logRecord r).log.set = s.log.set := by
  unfold State.logRecord
  rw [if_pos (by rw [h]; rfl)]
  repeat' split
  all_goals exact ⟨rfl, rfl⟩

theorem tarns_flagEvent (s : State) (code inst : Nat) : (s.flagEvent code inst).tarns = s.tarns ∧ (s.flagEvent code inst).log = s.log := by
  unfold State.flagEvent
  split
  · simp [State.raiseFlag]
  · exact ⟨rfl, rfl⟩

theorem tarns_raiseEv_of_unset (s : State) (code inst : Nat) (detail : List Byte) (h : s.log.set = false) :
    (s.raiseEv code inst detail).tarns = s.tarns ∧ (s.raiseEv code inst detail).log.set = s.log.set := by
  obtain ⟨htarns, hlog⟩ := tarns_flagEvent s code inst
  unfold State.raiseEv State.raiseCtx
  split
  · obtain ⟨hrec, hset⟩ := tarns_logRecord_of_unset (s.flagEvent code inst)
      (mkRec s code ((evFlag code).map (fun f => unitCode f.1) |>.getD 0) (recInst code inst) {} detail) (by rw [hlog, h])
    exact ⟨hrec.trans htarns, hset.trans (congrArg _ hlog)⟩
  · split
    · exact ⟨htarns, congrArg _ hlog⟩
    · exact ⟨rfl, rfl⟩

theorem afterReset_raiseEv {s : State} (hs : s.AfterReset) (code inst : Nat) (detail : List Byte) :
    (s.raiseEv code inst detail).AfterReset := by
  obtain ⟨htarns, hlog⟩ := tarns_raiseEv_of_unset s code inst detail hs.log
  exact afterReset_of_eq hs (by simp) (by simp) (by simp) htarns hlog

theorem afterReset_raiseReset {s : State} (hs : s.AfterReset) : s.raiseReset.AfterReset := by
  unfold State.raiseReset
  split
  · exact afterReset_of_eq (afterReset_raiseEv hs 0x0705 0 _) rfl rfl rfl rfl rfl
  · exact hs

theorem afterReset_recordFull {s : State} (hs : s.AfterReset) : s.recordFull.AfterReset :=
  afterReset_of_eq (afterReset_recordReset hs 1) rfl rfl rfl rfl rfl

theorem afterReset_startRails {s : State} (hs : s.AfterReset) : s.startRails.AfterReset := by
  have hrecorded : (if s.umc.offByCommand then s.recordFull else s).AfterReset := by
    split
    · exact afterReset_recordFull hs
    · exact hs
  exact afterReset_raiseReset (afterReset_of_eq hrecorded rfl rfl rfl rfl rfl)

theorem afterReset_powerOn {s : State} (hs : s.AfterReset) : s.powerOn.AfterReset := by
  unfold State.powerOn
  split
  · exact afterReset_startRails hs
  · exact hs

/-- CPSTATE is still FAULTED, or a reset has been through. -/
def State.HeldOrReset (s : State) : Prop := s.cp = .faulted ∨ s.AfterReset

theorem heldOrReset_of_eq {s t : State} (hs : s.HeldOrReset) (hcp : t.cp = s.cp) (hprog : t.prog = s.prog) (hfab : t.fab = s.fab)
    (htarns : t.tarns = s.tarns) (hlog : t.log.set = s.log.set) : t.HeldOrReset :=
  hs.imp hcp.trans fun h => afterReset_of_eq h hcp hprog hfab htarns hlog

theorem heldOrReset_powerOff {s : State} (hs : s.cp = .faulted) : s.powerOff.HeldOrReset := by
  have hrails : (if s.mainOn then s.railsOff else s).HeldOrReset := by
    split
    · exact .inr (afterReset_railsOff s)
    · exact .inl hs
  unfold State.powerOff
  split
  · exact heldOrReset_of_eq hrails rfl rfl rfl rfl rfl
  · exact .inl hs

theorem heldOrReset_powerOn {s : State} (hs : s.HeldOrReset) : s.powerOn.HeldOrReset :=
  hs.imp s.powerOn_cp.trans afterReset_powerOn

theorem heldOrReset_warmReset {s : State} (hs : s.cp = .faulted) : s.warmReset.HeldOrReset := by
  unfold State.warmReset
  split
  · refine .inr (afterReset_recordReset ?_ 2)
    exact afterReset_of_eq (afterReset_hubReset s) rfl rfl rfl rfl rfl
  · exact .inl hs

theorem heldOrReset_fullReset {s : State} (hs : s.cp = .faulted) : s.fullReset.HeldOrReset := by
  have hrails : (if s.mainOn then s.railsOff else s).recordFull.HeldOrReset := by
    split
    · exact .inr (afterReset_recordFull (afterReset_railsOff s))
    · exact .inl (s.recordFull_cp.trans hs)
  unfold State.fullReset
  split
  · exact heldOrReset_powerOn (heldOrReset_of_eq hrails rfl rfl rfl rfl rfl)
  · exact .inl hs

theorem heldOrReset_umcPower {s : State} (hs : s.cp = .faulted) (action : Nat) : (s.umcPower action).1.HeldOrReset := by
  unfold State.umcPower
  split
  · exact heldOrReset_powerOff hs
  · exact heldOrReset_powerOn (.inl hs)
  · exact heldOrReset_warmReset hs
  · exact heldOrReset_fullReset hs

/-! ## The management port's power commands -/

theorem tarns_drainUnknown_mgmt (n : Nat) (s : State) :
    (State.drainUnknown 16 n s).tarns = s.tarns ∧ (State.drainUnknown 16 n s).log = s.log := by
  induction n generalizing s with
  | zero => exact ⟨rfl, rfl⟩
  | succ n ih =>
    unfold State.drainUnknown
    extract_lets q
    split
    · split
      · exact ⟨rfl, rfl⟩
      · exact ih _
    · exact ⟨rfl, rfl⟩

theorem heldOrReset_advance_mgmt {s : State} (hs : s.HeldOrReset) : (s.advance 16).HeldOrReset := by
  obtain ⟨htarns, hlog⟩ := tarns_drainUnknown_mgmt ((s.queue 16).accepted.length) s
  exact heldOrReset_of_eq hs (by simp) (by simp) (by simp) htarns (congrArg _ hlog)

theorem heldOrReset_closes_mgmt {s : State} (hs : s.HeldOrReset) (p : Packet) (code detail : Nat) (payload : List Byte) (via : Mac × Ip) :
    ((s.reply 16 p code detail payload via).advance 16).HeldOrReset :=
  heldOrReset_advance_mgmt (heldOrReset_of_eq hs rfl rfl rfl rfl rfl)

theorem heldOrReset_runCmd_mgmt {s : State} (hs : s.cp = .faulted) (op : Nat) (lenOk : Nat → Bool) (stateOk : State → Bool)
    (body : Packet → List Byte → State → State × Result) (hb : ∀ p l t, t.cp = .faulted → (body p l t).1.HeldOrReset) :
    (s.runCmd 16 op lenOk stateOk body).HeldOrReset := by
  have htaken (q : Queue) : (s.setQueue 16 q).HeldOrReset := .inl hs
  unfold State.runCmd
  split
  · exact .inl hs
  · next p rest _ =>
    dsimp only
    split
    · exact heldOrReset_closes_mgmt (htaken _) _ _ _ _ _
    · next l _ =>
      have hbody := hb p l (s.setQueue 16 { s.queue 16 with accepted := rest }) hs
      repeat' split
      · exact heldOrReset_closes_mgmt (htaken _) _ _ _ _ _
      · exact heldOrReset_closes_mgmt (htaken _) _ _ _ _ _
      · exact heldOrReset_closes_mgmt (htaken _) _ _ _ _ _
      · next e => rw [e] at hbody; exact heldOrReset_closes_mgmt hbody _ _ _ _ _
      · next e => rw [e] at hbody; exact heldOrReset_of_eq hbody rfl rfl rfl rfl rfl
      · next e => rw [e] at hbody; exact heldOrReset_advance_mgmt (heldOrReset_of_eq hbody rfl rfl rfl rfl rfl)

theorem heldOrReset_runPower {s : State} (hs : s.cp = .faulted) : s.runPower.HeldOrReset :=
  heldOrReset_runCmd_mgmt hs _ _ _ _ fun _ l t ht => by
    split
    · exact .inl ht
    · split
      · exact .inl ht
      · exact heldOrReset_umcPower ht _

theorem heldOrReset_powerRow {s : State} (hs : s.cp = .faulted) (action : Nat) (mgmt : Bool) : (s.powerRow action mgmt).HeldOrReset := by
  unfold State.powerRow
  repeat' split
  · exact heldOrReset_runPower hs
  · exact .inl hs
  · exact heldOrReset_umcPower hs action

theorem heldOrReset_alarm {s : State} (hs : s.cp = .faulted) (code level : Nat) : (s.alarm code level).HeldOrReset := by
  by_cases h : level < 3
  · exact .inl ((s.alarm_cp code h).trans hs)
  · unfold State.alarm
    dsimp only
    rw [if_neg (by omega), if_neg h]
    refine .inr (afterReset_recordReset ?_ 4)
    exact afterReset_of_eq (afterReset_railsOff _) rfl rfl rfl rfl rfl

/-- A row that from CPSTATE FAULTED keeps it or leads to what a reset leaves. -/
def resetsOrHolds (s : State) (o : Host.Outcome State Fault Refusal) : Prop := s.cp = .faulted → ∀ t, o = .next t → t.HeldOrReset

theorem resetsOrHolds_next {s t : State} (h : s.cp = .faulted → t.HeldOrReset) : resetsOrHolds s (.next t) :=
  fun hs u hu => by cases hu; exact h hs

theorem resetsOrHolds_guarded {s t : State} (c : Bool) (h : s.cp = .faulted → t.HeldOrReset) : resetsOrHolds s (guarded c s t) := by
  cases c
  · exact resetsOrHolds_next .inl
  · exact resetsOrHolds_next h

theorem resetsOrHolds_execStandbyPowerUp (a b h : Bool) (us : Nat) (s : State) : resetsOrHolds s (execStandbyPowerUp a b h us s) := by
  unfold execStandbyPowerUp
  extract_lets kept u v t
  have ht : t.AfterReset := by
    refine afterReset_recordReset ?_ 0
    exact afterReset_of_eq (afterReset_hubReset s) rfl rfl rfl rfl rfl
  refine resetsOrHolds_guarded _ fun _ => .inr ?_
  split
  · exact afterReset_powerOn ht
  · exact ht

theorem resetsOrHolds_execStandbyLost (s : State) : resetsOrHolds s (execStandbyLost s) :=
  resetsOrHolds_guarded _ fun _ => .inr (afterReset_of_eq (afterReset_hubReset s) rfl rfl rfl rfl rfl)

theorem resetsOrHolds_execMainInputFault (mv : Nat) (s : State) : resetsOrHolds s (execMainInputFault mv s) := by
  refine resetsOrHolds_guarded _ fun _ => .inr (afterReset_recordReset ?_ 5)
  exact afterReset_of_eq (afterReset_railsOff s) rfl rfl rfl rfl rfl

theorem resetsOrHolds_execThermTrip (n : TempSensor) (v : Int) (s : State) : resetsOrHolds s (execThermTrip n v s) := by
  refine resetsOrHolds_guarded _ fun _ => .inr (afterReset_recordReset ?_ _)
  exact afterReset_of_eq (afterReset_railsOff s) rfl rfl rfl rfl rfl

theorem guarded_cases {c : Bool} {s t u : State} (h : guarded c s u = .next t) : t = s ∨ t = u := by
  cases c
  · exact .inl (Host.Outcome.next.inj h).symm
  · exact .inr (Host.Outcome.next.inj h).symm

theorem execHubResetRelease_cp {s t : State} {pufOk : Bool} (h : execHubResetRelease pufOk s = .next t) : t = s ∨ t.cp = .boot := by
  unfold execHubResetRelease at h
  extract_lets derived s0 u s1 v s2 s3 s4 s5 s6 at h
  have h4 : s4.cp = .boot := (State.raiseReset_cp _).trans (State.setReg_cp _ _ _ _ _)
  have h5 : s5.cp = .boot := by
    subst s5
    split <;> simp [h4]
  have h6 : s6.cp = .boot := by
    subst s6
    split
    · exact (State.alarm_cp _ _ (by decide)).trans ((State.raiseEv_cp _ _ _ _).trans h5)
    · exact h5
  exact (guarded_cases h).imp_right fun ht => (congrArg State.cp ht).trans h6

/-! ## The obligation -/

theorem resetsOrHolds_exec (s : State) (c : Instr) (hc : resetRow c = true) (hrelease : ∀ b, c ≠ .hubResetRelease b) :
    resetsOrHolds s (exec c s) := by
  cases c
  case mainOff m => exact resetsOrHolds_next fun hs => heldOrReset_powerRow hs 0 m
  case mainOn m => exact resetsOrHolds_next fun hs => heldOrReset_powerRow hs 1 m
  case warmReset m => exact resetsOrHolds_next fun hs => heldOrReset_powerRow hs 2 m
  case fullReset m => exact resetsOrHolds_next fun hs => heldOrReset_powerRow hs 3 m
  case smbPower => exact resetsOrHolds_guarded _ fun hs => heldOrReset_umcPower hs _
  case mesh | cover => exact resetsOrHolds_guarded _ fun hs => heldOrReset_alarm hs _ 3
  case thermTrip => exact resetsOrHolds_execThermTrip _ _ s
  case mainInputFault => exact resetsOrHolds_execMainInputFault _ s
  case standbyPowerUp => exact resetsOrHolds_execStandbyPowerUp _ _ _ _ s
  case standbyLost => exact resetsOrHolds_execStandbyLost s
  case railPowerGoodTimeout | pllLockFailure => exact resetsOrHolds_guarded _ fun _ => .inr (afterReset_railsOff s)
  case hubResetRelease b => exact absurd rfl (hrelease b)
  all_goals exact absurd hc Bool.false_ne_true

/-- Settles O55: every row keeps CPSTATE FAULTED, but for the reset and power rows, which also may lead to the state after a reset, and the
release of the hub's reset, which leads to BOOT. -/
theorem faultedIsLeftOnlyByReset : Obligations.FaultedIsLeftOnlyByReset := by
  unfold Obligations.FaultedIsLeftOnlyByReset
  intro resets c s t hs h
  by_cases hrow : resetRow c = true
  · by_cases hrelease : ∃ b, c = .hubResetRelease b
    · obtain ⟨b, rfl⟩ := hrelease
      exact (execHubResetRelease_cp h).imp (fun e : t = s => e ▸ hs) fun e => ⟨e, .inl ⟨b, rfl⟩⟩
    · have hc : resets c := by
        cases c
        case mainOff | mainOn | warmReset | fullReset | mainInputFault | thermTrip | smbPower | mesh | cover | standbyLost |
          railPowerGoodTimeout | pllLockFailure => simp [resets]
        case standbyPowerUp a b held us => exact .inr (.inr (.inr (.inr (.inr (.inr (.inl ⟨a, b, held, us, rfl⟩))))))
        case hubResetRelease b => exact absurd ⟨b, rfl⟩ hrelease
        all_goals exact absurd hrow Bool.false_ne_true
      have hreset := resetsOrHolds_exec s c hrow (fun b e => hrelease ⟨b, e⟩) hs t h
      exact hreset.imp_right fun k => ⟨k.cp, .inr ⟨hc, k.prog, k.links, k.tarn⟩⟩
  · exact .inl (staysFaulted_exec s c (Bool.eq_false_of_not_eq_true hrow) hs t h)

end Sys2Proof.Machine
end

section
/-! PROOFS. What the host port compares and answers frames by: its configuration registers, those below HOST_RX_FRAMES at 0xA0, and its
own state. Counting a frame, and taking a command off its queue, leave both. -/
namespace Sys2Proof.Machine

theorem State.reg_bump_other (s : State) {b c : Block} {i j o p : Nat} (n : Nat) (h : regAddr c j p ≠ regAddr b i o) :
    (s.bump b i o n).reg c j p = s.reg c j p := s.regAt_bump_other b i o n _ h

/-- The host port's configuration is the same in both states. -/
structure SamePort (s t : State) : Prop where
  host : t.host = s.host
  umc : t.umc = s.umc
  reg : ∀ o, o < 0xA0 → t.reg .host 0 o = s.reg .host 0 o

theorem samePort_of_eq {s t : State} (hhost : t.host = s.host) (humc : t.umc = s.umc) (hregs : t.regs = s.regs) : SamePort s t :=
  ⟨hhost, humc, fun o _ => congrArg (Bank.get regReset · (regAddr .host 0 o)) hregs⟩

theorem samePort_trans {s t u : State} (h : SamePort s t) (k : SamePort t u) : SamePort s u :=
  ⟨k.host.trans h.host, k.umc.trans h.umc, fun o ho => (k.reg o ho).trans (h.reg o ho)⟩

/-- The counters of the host port's frames are no part of it. -/
theorem samePort_bump (s : State) {o : Nat} (ho : 0xA0 ≤ o) (n : Nat) : SamePort s (s.bump .host 0 o n) :=
  ⟨rfl, rfl, fun p hp => s.reg_bump_other n (by unfold regAddr; omega)⟩

theorem samePort_take (s : State) (q : Nat) (rest : List Packet) : SamePort s (s.take q rest) := samePort_of_eq rfl rfl rfl

section
variable {s t : State} (h : SamePort s t)
include h

theorem ctrlBit_of_samePort (n : Nat) : t.ctrlBit n = s.ctrlBit n := congrArg (bit · n) (h.reg 0x10 (by decide))

theorem hostPortUp_of_samePort : t.hostPortUp = s.hostPortUp := by
  simp only [State.hostPortUp, State.hubUp, ctrlBit_of_samePort h, h.umc, h.host]

theorem udpPort_of_samePort : t.udpPort = s.udpPort := congrArg (bits · 0 16) (h.reg 0x1C (by decide))

theorem nonReplyLimit_of_samePort : t.field .host 0 0x80 0 16 = s.field .host 0 0x80 0 16 := congrArg (bits · 0 16) (h.reg 0x80 (by decide))

theorem egressOk_of_samePort (mac : Mac) (ip : Option (Ip × Option Nat)) : t.egressOk mac ip = s.egressOk mac ip := by
  simp only [State.egressOk, State.egr, h.host]

theorem hostHdr_of_samePort (src dst : Mac) (vid : Option Nat) : t.hostHdr src dst vid = s.hostHdr src dst vid := by
  simp only [State.hostHdr, State.field, ctrlBit_of_samePort h, h.reg 0x10 (by decide)]

/-- The addresses that a reply leaves from are the port's alone (R385). -/
theorem replyVia_of_samePort (d : Sender) : t.replyVia d = s.replyVia d := by
  have hip4 : t.hostIp4 = s.hostIp4 := h.reg 0x20 (by decide)
  have hip6 : t.hostIp6 = s.hostIp6 := by
    simp only [State.hostIp6, h.reg 0x30 (by decide), h.reg 0x34 (by decide), h.reg 0x38 (by decide), h.reg 0x3C (by decide)]
  have hhas (a : Ip) : t.hostHas a = s.hostHas a := by
    cases a <;> simp only [State.hostHas, hip4, hip6, ctrlBit_of_samePort h, h.host]
  simp only [State.replyVia, hip4, hip6, hhas, h.host]

end

/-! ## Frames that the port accepts and discards (R359) -/

/-- A frame that the port accepts is counted, and goes to its row. -/
theorem rxHost_of_accepted {s : State} {fr : EthFrame} (hup : s.hostPortUp = true) (hacc : s.hostAccepts fr = true) (f : State → State) :
    s.rxHost fr f = f (s.bump .host 0 0xA0 1) := by
  unfold State.rxHost
  rw [hup, hacc]
  rfl

theorem rxHost_of_discarded {s : State} {fr : EthFrame} (hup : s.hostPortUp = true) (hacc : s.hostAccepts fr = false) (f : State → State) :
    s.rxHost fr f = s.bump .host 0 0xA8 1 := by
  unfold State.rxHost
  rw [hup, hacc]
  rfl

/-- What the egress check drops is counted, and an event tells (R363). -/
theorem eventOnly_egressDrop (s : State) (why : Nat) : eventOnly (s.bump .host 0 0xB4 1) (s.egressDrop why) := eventOnly_raiseLimited _ _ _ _ _

end Sys2Proof.Machine
end

section
/-! PROOFS. Firmware, the end of configuration load, and attestation (O21): the commands of R377 by what their bodies give once the checks
before them pass. -/
namespace Sys2Proof.Machine

/-- A command completes as it would by the addresses in use before it, where it leaves them. -/
theorem closes_via {s t : State} (h : SamePort s t) (q : Nat) (p : Packet) (code detail : Nat)
    (payload : List Byte) : t.closes q p code detail payload (s.replyVia p.src) = t.closes q p code detail payload :=
  congrArg (fun via => t.closes q p code detail payload via) (replyVia_of_samePort h p.src).symm

/-- So it does where only CPSTATE, the security controller and the queues have changed. -/
theorem closes_of_secured (s : State) (c : CpState) (x : Sec) (qs : Bank Queue) (q : Nat) (p : Packet) (code detail : Nat)
    (payload : List Byte) :
    State.closes { s with cp := c, sec := x, queues := qs } q p code detail payload (s.replyVia p.src) =
      State.closes { s with cp := c, sec := x, queues := qs } q p code detail payload :=
  closes_via (samePort_of_eq rfl rfl rfl) q p code detail payload

theorem replyVia_take (s : State) (q : Nat) (rest : List Packet) (d : Sender) : (s.take q rest).replyVia d = s.replyVia d :=
  replyVia_of_samePort (samePort_take s q rest) d

theorem exec_fwLoad_of_boot {s : State} {q : Nat} {p : Packet} {rest : List Packet} {l : List Byte} (hq : q < 16)
    (h : s.fronts q 0x0101 p rest l) (hcp : s.cp = .boot) (hl : 5 ≤ l.length) (hfits : leAt 0 4 l + (l.length - 4) ≤ 0x400000) :
    exec (.fwLoad q) s = .next (State.closes
      { s.take q rest with
          sec := { s.sec with image := Bank.putRange imageDefault s.sec.image (leAt 0 4 l) (l.drop 4) } } q p stOk 0 []) := by
  refine congrArg _ (runHost_of_done hq h (decide_eq_true hl) (by simp [inState, hcp]) ?_)
  dsimp only
  rw [if_neg (by rw [List.length_drop, imageMax]; omega)]
  rfl

/-! ## FW_START (R452, R453) -/

theorem exec_fwStart_of_other_verdicts {s : State} (q : Nat) {a b : Bool} (h : a ≠ s.rsaVerdict ∨ b ≠ s.slhVerdict) :
    exec (.fwStart q a b) s = .next s := by
  refine guarded_of_false _ _ ?_
  rcases h with h | h
  · rw [beq_false_of_ne h, Bool.false_and]
  · rw [beq_false_of_ne h, Bool.and_false]

theorem closes_fwRun (s : State) (q : Nat) (p : Packet) :
    s.fwRun.closes q p stOk 0 [] (s.replyVia p.src) = s.fwRun.closes q p stOk 0 [] :=
  closes_of_secured s .config _ _ q p stOk 0 []

section
variable {s : State} {q : Nat} {p : Packet} {rest : List Packet} {l : List Byte}
variable (hq : q < 16) (h : s.fronts q 0x0102 p rest l) (hcp : s.cp = .boot) (hl : l.length = 4)
include hq h hcp hl

theorem exec_fwStart_of_fault {code detail : Nat} (hf : s.startFault (leAt 0 4 l) s.rsaVerdict s.slhVerdict = some (code, detail)) :
    exec (.fwStart q s.rsaVerdict s.slhVerdict) s =
      .next (((s.take q rest).fwReject code detail).closes q p code detail [] (s.replyVia p.src)) := by
  refine (guarded_of_true _ _ (by simp)).trans (congrArg _ (runHost_of_done hq h (lenIs_eq hl) (by simp [inState, hcp]) ?_))
  rw [show (s.take q rest).startFault (leAt 0 4 l) s.rsaVerdict s.slhVerdict = some (code, detail) from hf]

theorem exec_fwStart_of_sound (hf : s.startFault (leAt 0 4 l) s.rsaVerdict s.slhVerdict = none) :
    exec (.fwStart q s.rsaVerdict s.slhVerdict) s = .next ((s.take q rest).fwRun.closes q p stOk 0 []) := by
  rw [← closes_fwRun, replyVia_take]
  refine (guarded_of_true _ _ (by simp)).trans (congrArg _ (runHost_of_done hq h (lenIs_eq hl) (by simp [inState, hcp]) ?_))
  rw [show (s.take q rest).startFault (leAt 0 4 l) s.rsaVerdict s.slhVerdict = none from hf]

end

theorem image_take (s : State) (q : Nat) (rest : List Packet) (a n : Nat) : (s.take q rest).image a n = s.image a n := rfl

theorem fwRun_take (s : State) (q : Nat) (rest : List Packet) : (s.take q rest).fwRun =
    { s.take q rest with
      cp := .config
      sec := { s.sec with fw := true, svn := s.imageNat 5 1, fwDigest := sha384 (s.image 0 512) }
      queues := Bank.drop (fun i => i != 16) (s.take q rest).queues } := by
  unfold State.fwRun State.imageNat
  rw [image_take, image_take]
  rfl

/-- What discarding the image leaves: CPSTATE, the firmware that runs and its SVN stay. -/
theorem fwReject_leaves (s : State) (code detail : Nat) :
    (s.fwReject code detail).cp = s.cp ∧ (s.fwReject code detail).sec.fw = s.sec.fw ∧ (s.fwReject code detail).sec.svn = s.sec.svn ∧
      (s.fwReject code detail).sec.image = [] ∧ (s.fwReject code detail).prog = s.prog ∧ (s.fwReject code detail).part = s.part ∧
      (s.fwReject code detail).pending = s.pending := by
  simp [State.fwReject, State.alarm, State.alarmRecord]

/-! ## CONFIG_END and ATTEST (R456 to R458) -/

theorem closes_endConfig (s : State) (q : Nat) (p : Packet) :
    s.endConfig.closes q p stOk 0 [] (s.replyVia p.src) = s.endConfig.closes q p stOk 0 [] :=
  closes_of_secured s .ready _ s.queues q p stOk 0 []

theorem exec_configEnd_of_config {s : State} {q : Nat} {p : Packet} {rest : List Packet} {l : List Byte} (hq : q < 16)
    (h : s.fronts q 0x0103 p rest l) (hcp : s.cp = .config) (hl : l = []) :
    exec (.configEnd q) s = .next ((s.take q rest).endConfig.closes q p stOk 0 []) := by
  rw [← closes_endConfig, replyVia_take]
  exact congrArg _ (runHost_of_done hq h (lenIs_nil hl) (by simp [inState, hcp]) rfl)

section
variable {s : State} {q : Nat} {p : Packet} {rest : List Packet} {l : List Byte}
variable (hq : q < 16) (h : s.fronts q 0x0104 p rest l) (hcp : s.cp = .config ∨ s.cp = .ready ∨ s.cp = .loaded) (hl : l.length = 48)
include hq h hcp hl

theorem exec_attest_of_key (hkey : s.canSign = true) :
    exec (.attest q) s = .next (((s.take q rest).bump .sec 0 0xB0 1).closes q p stOk 0 ((s.take q rest).report l) (s.replyVia p.src)) := by
  refine congrArg _ (runHost_of_done hq h (lenIs_eq hl) ?_ (if_pos hkey))
  rcases hcp with hcp | hcp | hcp <;> simp [inState, hcp]

theorem exec_attest_of_no_key (hkey : s.canSign = false) :
    exec (.attest q) s = .next ((s.take q rest).closes q p stZeroised 0 []) := by
  rw [replyVia_take]
  refine congrArg _ (runHost_of_done hq h (lenIs_eq hl) ?_ (if_neg (ne_true_of_eq_false hkey)))
  rcases hcp with hcp | hcp | hcp <;> simp [inState, hcp]

end

/-- Settles O21: each command goes on with what its body gives once its checks pass. -/
theorem firmwareConfigurationAttestation : Obligations.FirmwareConfigurationAttestation := by
  unfold Obligations.FirmwareConfigurationAttestation
  refine ⟨?load, ?start, ?reject, ?otherVerdicts, ?configEnd, ?attest⟩
  case load => exact fun s q p rest l hq h hcp hl hfits => exec_fwLoad_of_boot hq h hcp hl hfits
  case start =>
    intro s q p rest l hq h hcp hl started
    cases hf : s.startFault (leAt 0 4 l) s.rsaVerdict s.slhVerdict with
    | none =>
      have hrun := exec_fwStart_of_sound hq h hcp hl hf
      rw [fwRun_take] at hrun
      exact hrun
    | some f => exact exec_fwStart_of_fault hq h hcp hl hf
  case reject =>
    intro s q p l a b code detail hq h hcp hl ha hb hf
    rw [ha, hb] at hf ⊢
    refine answers_of_eq (exec_fwStart_of_fault hq h hcp hl hf) ?_
    have hleft := fwReject_leaves (s.take q []) code detail
    simp only [State.closes, State.advance_cp, State.advance_sec, State.advance_prog, State.advance_part, State.advance_pending,
      State.reply_cp, State.reply_sec, State.reply_prog, State.reply_part, State.reply_pending]
    exact ⟨hleft.1.trans hcp, hleft.2⟩
  case otherVerdicts => exact fun s q a b h => exec_fwStart_of_other_verdicts q h
  case configEnd => exact fun s q p rest l hq h hcp hl => exec_configEnd_of_config hq h hcp hl
  case attest => exact fun s q p rest l hq h hcp hl => ⟨exec_attest_of_key hq h hcp hl, exec_attest_of_no_key hq h hcp hl⟩

end Sys2Proof.Machine
end

section
/-! PROOFS. Precision time (O17): each message of a heard PTP frame by what it leaves of the port's
clock. -/
namespace Sys2Proof.Machine

section
variable {s : State} {fr : EthFrame} {tr : PtpTransport} {d n : Nat} {m o g : Bool} {ds : PtpDataset}
variable (hup : s.hostPortUp = true) (hacc : s.hostAccepts fr = true)
include hup hacc

theorem exec_announce_of_no_master (hbody : fr.body = .ptp tr d m o g (.announce ds)) (hmaster : s.host.master = none) :
    exec (.ptpMessage fr) s =
      .next { s.bump .host 0 0xA0 1 with host := { s.host with master := some ds, syncOrigin := none, syncSeq := none } } := by
  simp [exec, execPtpMessage, hbody, rxHost_of_accepted hup hacc, hmaster]

theorem exec_twoStepSync_of_master {t1 rx : Int} (hbody : fr.body = .ptp tr d m o g (.sync ds.identity n t1 rx true))
    (hmaster : s.host.master = some ds) :
    exec (.ptpMessage fr) s =
      .next { s.bump .host 0 0xA0 1 with host := { s.host with syncOrigin := none, syncRx := rx, syncSeq := some n } } := by
  simp [exec, execPtpMessage, hbody, rxHost_of_accepted hup hacc, hmaster]

theorem exec_delayResp_of_master {mine : Bool} {t1 t4 : Int} (hbody : fr.body = .ptp tr d m o g (.delayResp ds.identity n mine t4))
    (hmaster : s.host.master = some ds) (horigin : s.host.syncOrigin = some t1) :
    exec (.ptpMessage fr) s =
      .next { s.bump .host 0 0xA0 1 with
                host := { s.host with pathDelay :=
                  if mine = true ∧ n = s.host.delaySeq then ((s.host.syncRx - t1) + (t4 - s.host.delayTx)) / 2
                  else s.host.pathDelay } } := by
  by_cases hmine : mine = true ∧ n = s.host.delaySeq
  · simp [exec, execPtpMessage, hbody, rxHost_of_accepted hup hacc, hmaster, horigin, hmine]
  · rw [if_neg hmine]
    refine Eq.trans (b := .next (s.bump .host 0 0xA0 1)) ?_ rfl
    simp [exec, execPtpMessage, hbody, rxHost_of_accepted hup hacc, hmaster, horigin, hmine]

theorem exec_followUp_of_other_sync {t1 : Int} (hbody : fr.body = .ptp tr d m o g (.followUp ds.identity n t1))
    (hseq : s.host.syncSeq ≠ some n) : exec (.ptpMessage fr) s = .next (s.bump .host 0 0xA0 1) := by
  simp [exec, execPtpMessage, hbody, rxHost_of_accepted hup hacc, hseq]

theorem exec_oneStepSync_of_master {t1 rx : Int} (hbody : fr.body = .ptp tr d m o g (.sync ds.identity n t1 rx false))
    (hmaster : s.host.master = some ds) : exec (.ptpMessage fr) s = .next ((s.bump .host 0 0xA0 1).ptpSync tr t1 rx) := by
  simp [exec, execPtpMessage, hbody, rxHost_of_accepted hup hacc, hmaster]

theorem exec_followUp_of_sync {t1 : Int} (hbody : fr.body = .ptp tr d m o g (.followUp ds.identity n t1))
    (hmaster : s.host.master = some ds) (hseq : s.host.syncSeq = some n) :
    exec (.ptpMessage fr) s = .next ((s.bump .host 0 0xA0 1).ptpSync tr t1 s.host.syncRx) := by
  simp [exec, execPtpMessage, hbody, rxHost_of_accepted hup hacc, hmaster, hseq]

end

/-! ## A measurement (R367) -/

theorem setSynced_host (s : State) (v : Bool) : (s.setSynced v).host = { s.host with synced := v } := by
  unfold State.setSynced
  split
  · next h => rw [← h]
  · simp

/-- The offsets in a row below 100 ns, with this one. -/
def State.goodRun (s : State) (off : Int) : Nat := if off.natAbs < 100 then s.host.goodOffsets + 1 else 0

/-- SYNCED after a measurement. -/
def State.syncedAfter (s : State) (off : Int) : Bool :=
  if 16 ≤ s.goodRun off then true else if 1000 < off.natAbs then false else s.host.synced

theorem measure_host (s : State) (off : Int) : (s.measure off).host =
    { s.host with
      offsetNs := off, goodOffsets := min 16 (s.goodRun off), clockNs := s.host.clockNs - off, synced := s.syncedAfter off } := by
  unfold State.measure State.syncedAfter
  extract_lets good host t
  have hgood : good = s.goodRun off := rfl
  rw [← hgood]
  repeat' split
  · rw [setSynced_host]
  · rw [setSynced_host]
  · rfl

/-- A frame that is no reply changes only how many the port has sent in this millisecond. -/
theorem sendNonReply_host (s : State) (allowed : Bool) (x : Sent) :
    ∃ n ms, (s.sendNonReply allowed x).host = { s.host with nonReply := n, nonReplyMs := ms } := by
  unfold State.sendNonReply
  repeat' split
  · exact ⟨_, _, rfl⟩
  · exact ⟨_, _, s.egressDrop_host 0⟩
  · exact ⟨_, _, s.egressDrop_host 1⟩
  · exact ⟨_, _, State.txHost_host _ x⟩

/-- The port's clock and master after a measured Sync, whatever the Delay_Req that follows it counts as. -/
theorem ptpSync_host (s : State) (tr : PtpTransport) (t1 rx : Int) : ∃ n ms, (s.ptpSync tr t1 rx).host =
    { s.host with
      offsetNs := rx - t1 - s.host.pathDelay
      goodOffsets := min 16 (s.goodRun (rx - t1 - s.host.pathDelay))
      clockNs := s.host.clockNs - (rx - t1 - s.host.pathDelay)
      synced := s.syncedAfter (rx - t1 - s.host.pathDelay)
      syncOrigin := some t1
      syncRx := rx - (rx - t1 - s.host.pathDelay)
      delayTx := s.host.clockNs - (rx - t1 - s.host.pathDelay)
      syncSeq := none
      delaySeq := (s.host.delaySeq + 1) % 2 ^ 16
      nonReply := n
      nonReplyMs := ms } := by
  unfold State.ptpSync
  extract_lets s1 n host s2
  obtain ⟨k, ms, hsent⟩ := sendNonReply_host s2 (s2.egressOk (ptpDest tr).1 (ptpDest tr).2)
    (.delayReq (s2.hostHdr s2.host.mac (ptpDest tr).1 none) tr n)
  refine ⟨k, ms, hsent.trans ?_⟩
  simp only [s2, host, n, s1, measure_host]
  rfl

/-! ## SYNCED -/

theorem syncedAfter_of_run {s : State} {off : Int} (hrun : 15 ≤ s.host.goodOffsets) (hoff : off.natAbs < 100) : s.syncedAfter off = true := by
  rw [State.syncedAfter, State.goodRun, if_pos hoff, if_pos (by omega)]

theorem goodRun_of_far {s : State} {off : Int} (h : 100 ≤ off.natAbs) : s.goodRun off = 0 := if_neg (by omega)

theorem syncedAfter_of_far {s : State} {off : Int} (hoff : 1000 < off.natAbs) : s.syncedAfter off = false := by
  rw [State.syncedAfter, goodRun_of_far (by omega), if_neg (by decide), if_pos hoff]

theorem syncedAfter_of_between {s : State} {off : Int} (hlo : 100 ≤ off.natAbs) (hhi : off.natAbs ≤ 1000) :
    s.syncedAfter off = s.host.synced := by
  rw [State.syncedAfter, goodRun_of_far hlo, if_neg (by decide), if_neg (by omega)]

theorem answers_ptpSyncTimeout_of_synced {s : State} (hup : s.hubUp = true) (hsynced : s.host.synced = true) :
    answers .ptpSyncTimeout s fun t =>
      t.host = { s.host with synced := false, goodOffsets := 0, master := none, syncOrigin := none, syncSeq := none } ∧
      eventOnly { s with host := t.host } t := by
  let u : State := { s with host :=
    { s.host with synced := false, goodOffsets := 0, master := none, syncOrigin := none, syncSeq := none } }
  have hexec : exec .ptpSyncTimeout s = .next (u.raiseEv 0x0805 0 (leBytes 1 (b2n false))) := by
    refine (guarded_of_true _ _ (by simp [hup, hsynced])).trans (congrArg _ ?_)
    rw [State.setSynced, if_neg (by simp [hsynced])]
  have hhost : (u.raiseEv 0x0805 0 (leBytes 1 (b2n false))).host = u.host := State.raiseEv_host _ _ _ _
  refine answers_of_eq hexec ⟨hhost, ?_⟩
  rw [hhost]
  exact eventOnly_raiseEv u _ _ _

/-- Settles O17: each message by its own row, the measurement through what it leaves of the host port. -/
theorem precisionTime : Obligations.PrecisionTime := by
  unfold Obligations.PrecisionTime
  refine ⟨?announce, ?twoStep, ?delayResp, ?otherSync, ?measures, ?timeout⟩
  case announce => exact fun s fr tr d m o g ds hup hacc hbody hm => exec_announce_of_no_master hup hacc hbody hm
  case twoStep => exact fun s fr tr d n m o g ds t1 rx hup hacc hbody hm => exec_twoStepSync_of_master hup hacc hbody hm
  case delayResp =>
    exact fun s fr tr d n m o g mine ds t1 t4 hup hacc hbody hm horigin => exec_delayResp_of_master hup hacc hbody hm horigin
  case otherSync => exact fun s fr tr d n m o g ds t1 hup hacc hbody hseq => exec_followUp_of_other_sync hup hacc hbody hseq
  case measures =>
    intro s fr tr d n m o g ds t1 rx hup hacc hm hbody
    have hexec : exec (.ptpMessage fr) s = .next ((s.bump .host 0 0xA0 1).ptpSync tr t1 rx) := by
      rcases hbody with hbody | ⟨hbody, hseq, rfl⟩
      · exact exec_oneStepSync_of_master hup hacc hbody hm
      · exact exec_followUp_of_sync hup hacc hbody hm hseq
    obtain ⟨k, ms, hhost⟩ := ptpSync_host (s.bump .host 0 0xA0 1) tr t1 rx
    refine answers_of_eq hexec ?_
    rw [State.bump_host] at hhost
    rw [hhost]
    refine ⟨rfl, rfl, rfl, rfl, rfl, syncedAfter_of_run, syncedAfter_of_far, fun hlo hhi => ⟨syncedAfter_of_between hlo hhi, ?_⟩, ?_⟩
    · exact congrArg (min 16) (goodRun_of_far hlo)
    · simp [State.ptpSync]
  case timeout => exact fun s hup hsynced => answers_ptpSyncTimeout_of_synced hup hsynced

end Sys2Proof.Machine
end

section
/-! PROOFS. Sequence (R371, R372): what a queue that waits for nothing makes of a packet. -/
namespace Sys2Proof.Machine

/-- A packet that is no SYNC, on a queue that holds none, is taken by its SEQ. -/
theorem receive_of_unsynced {s : State} {i : Nat} {p : Packet} (hsync : p.sync = false) (hwait : (s.queue i).syncWait = none) :
    s.receive i p = s.sequence i p := by
  unfold State.receive
  simp [hsync, hwait]

/-- The queue after it has accepted the packet (R371). -/
def Queue.accepting (q : Queue) (rc : Nat) (p : Packet) : Queue :=
  { q with
    next := q.next + 1
    accepted := q.accepted ++ [p]
    cache := trimCache (q.next + 1) rc (q.cache ++ [⟨p.seq, p.tag, p.opcode, none⟩]) }

/-- SEQ = NEXT is accepted; nothing else of the queue moves where it holds nothing and its front is a command that the port knows. -/
theorem sequence_of_next {s : State} {i : Nat} {p : Packet} (hc : s.canonical = true) (hheld : (s.queue i).held = [])
    (hseq : BitVec.ofNat 32 p.seq = (s.queue i).next) (hk : knownOpcode i ((s.queue i).accepted.headD p).opcode = true) :
    s.sequence i p = s.setQueue i ((s.queue i).accepting (s.rc (portOfIdx i)) p) := by
  have haccepted : (s.setQueue i ((s.queue i).accepting (s.rc (portOfIdx i)) p)).queue i =
      (s.queue i).accepting (s.rc (portOfIdx i)) p := queue_setQueue_same s i _ hc
  have hadvance : (s.setQueue i ((s.queue i).accepting (s.rc (portOfIdx i)) p)).advance i =
      s.setQueue i ((s.queue i).accepting (s.rc (portOfIdx i)) p) := by
    cases hl : (s.queue i).accepted with
    | nil =>
      rw [hl] at hk
      refine advance_of_known _ i p [] ?_ hk
      rw [haccepted, Queue.accepting, hl]
      rfl
    | cons x l =>
      rw [hl] at hk
      refine advance_of_known _ i x (l ++ [p]) ?_ hk
      rw [haccepted, Queue.accepting, hl]
      rfl
  unfold State.sequence
  dsimp only
  rw [hseq, BitVec.sub_self, if_pos (by rfl), hheld]
  exact hadvance

end Sys2Proof.Machine
end

section
/-! PROOFS. The management port and the frames that the host port answers itself (O16). -/
namespace Sys2Proof.Machine

/-! ## The management port (R446) -/

theorem exec_mgmtPacket_of_refused {s : State} {fr : EthFrame} (h : s.umc.standby = false ∨ s.mgmtAccepts fr = false) :
    exec (.mgmtPacket fr) s = .next s := by
  refine guarded_of_false _ _ ?_
  rcases h with h | h <;> simp [h]

section
variable {s : State} {fr : EthFrame} (hstandby : s.umc.standby = true) (hacc : s.mgmtAccepts fr = true)
include hstandby hacc

theorem exec_mgmtPacket_of_arp {ip : BitVec 32} (hbody : fr.body = .arpRequest ip) :
    exec (.mgmtPacket fr) s = .next { s with out := s.out ++ [.arpReply (s.mgmtHdr fr.srcMac) ip] } := by
  simp [exec, execMgmtPacket, guarded, hstandby, hacc, hbody]

theorem exec_mgmtPacket_of_solicitation {ip : BitVec 128} {opt frag : Bool} (hbody : fr.body = .neighborSolicitation ip opt frag) :
    exec (.mgmtPacket fr) s = .next { s with out := s.out ++ [.advert (s.mgmtHdr fr.srcMac) ip] } := by
  simp [exec, execMgmtPacket, guarded, hstandby, hacc, hbody]

theorem exec_mgmtPacket_of_echo {src dst : Ip} {opt frag : Bool} {data : List Byte} (hbody : fr.body = .echoRequest src dst opt frag data) :
    exec (.mgmtPacket fr) s = .next { s with out := s.out ++ [.echoReply (s.mgmtHdr fr.srcMac) dst src data] } := by
  simp [exec, execMgmtPacket, guarded, hstandby, hacc, hbody]

section
variable {src dst : Ip} {sp dp : Nat} {a b c : Bool} {l : List Byte} (hbody : fr.body = .udp src dst sp dp a b c l)
include hbody

theorem exec_mgmtPacket_of_udp : exec (.mgmtPacket fr) s = .next (s.datagram .mgmt l ⟨fr.srcMac, src, sp, dst, none⟩) := by
  simp [exec, execMgmtPacket, guarded, hstandby, hacc, hbody]

theorem exec_mgmtPacket_of_bad_header (hheader : headerFault l ≠ none) : exec (.mgmtPacket fr) s = .next s := by
  obtain ⟨why, hwhy⟩ := Option.ne_none_iff_exists'.1 hheader
  rw [exec_mgmtPacket_of_udp hstandby hacc hbody, State.datagram, hwhy]
  rfl

theorem exec_mgmtPacket_of_bad_framing {code detail : Nat} (hheader : headerFault l = none)
    (hframe : frameFault l true = some (code, detail)) :
    exec (.mgmtPacket fr) s = .next { s with out := s.out ++
      [.reply (s.mgmtHdr fr.srcMac) dst src 0x5A55 sp (replyData (parsePacket l ⟨fr.srcMac, src, sp, dst, none⟩) 0 code detail [])] } := by
  rw [exec_mgmtPacket_of_udp hstandby hacc hbody, State.datagram, hheader]
  dsimp only
  simp [hframe]
  rfl

/-- A sound command goes to the management port's one queue. -/
theorem exec_mgmtPacket_of_command (hheader : headerFault l = none) (hframe : frameFault l true = none) :
    exec (.mgmtPacket fr) s = .next (s.receive 16 (parsePacket l ⟨fr.srcMac, src, sp, dst, none⟩)) := by
  rw [exec_mgmtPacket_of_udp hstandby hacc hbody, State.datagram, hheader]
  dsimp only
  simp [hframe, queueIdx]

end

end

/-! ## Frames that the host port answers itself (R362, R363) -/

/-- The frame has been counted, and this one that is no reply has left. -/
def State.sentNonReply (s : State) (x : Sent) : State :=
  { (s.bump .host 0 0xA0 1).bump .host 0 0xA4 1 with
    host := { s.host with nonReply := s.nonReplies + 1, nonReplyMs := s.us / 1000 }
    out := s.out ++ [x] }

section
variable {s : State} (hup : s.hostPortUp = true)
include hup

theorem sendNonReply_of_room (hroom : s.nonReplies < s.field .host 0 0x80 0 16) (x : Sent) :
    (s.bump .host 0 0xA0 1).sendNonReply true x = s.sentNonReply x := by
  have hport := samePort_bump s (o := 0xA0) (by decide) 1
  unfold State.sendNonReply
  rw [hostPortUp_of_samePort hport, hup, nonReplyLimit_of_samePort hport]
  simp only [Bool.not_true, Bool.false_eq_true, if_false]
  exact if_neg (not_le_of_gt hroom)

theorem sendNonReply_of_full (hfull : s.field .host 0 0x80 0 16 ≤ s.nonReplies) (x : Sent) :
    (s.bump .host 0 0xA0 1).sendNonReply true x = (s.bump .host 0 0xA0 1).egressDrop 1 := by
  have hport := samePort_bump s (o := 0xA0) (by decide) 1
  unfold State.sendNonReply
  rw [hostPortUp_of_samePort hport, hup, nonReplyLimit_of_samePort hport]
  simp only [Bool.not_true, Bool.false_eq_true, if_false]
  exact if_pos hfull

theorem sendNonReply_of_barred (x : Sent) : (s.bump .host 0 0xA0 1).sendNonReply false x = (s.bump .host 0 0xA0 1).egressDrop 0 := by
  unfold State.sendNonReply
  rw [hostPortUp_of_samePort (samePort_bump s (o := 0xA0) (by decide) 1), hup]
  rfl

end

section
variable {s : State} {fr : EthFrame} (hup : s.hostPortUp = true) (hacc : s.hostAccepts fr = true)
include hup hacc

theorem exec_arpRequest_of_accepted {ip : BitVec 32} (hbody : fr.body = .arpRequest ip) :
    exec (.arpRequest fr) s =
      .next ((s.bump .host 0 0xA0 1).sendNonReply true (.arpReply (s.hostHdr s.host.mac fr.srcMac fr.vid) ip)) := by
  simp only [exec, execArpRequest, hbody, rxHost_of_accepted hup hacc]
  rw [hostHdr_of_samePort (samePort_bump s (by decide) 1)]
  rfl

theorem exec_solicitation_of_accepted {ip : BitVec 128} {opt frag : Bool} (hbody : fr.body = .neighborSolicitation ip opt frag) :
    exec (.neighborSolicitation fr) s =
      .next ((s.bump .host 0 0xA0 1).sendNonReply true (.advert (s.hostHdr s.host.mac fr.srcMac fr.vid) ip)) := by
  simp only [exec, execNeighborSolicitation, hbody, rxHost_of_accepted hup hacc]
  rw [hostHdr_of_samePort (samePort_bump s (by decide) 1)]
  rfl

theorem exec_echoRequest_of_accepted {src dst : Ip} {opt frag : Bool} {data : List Byte} (hbody : fr.body = .echoRequest src dst opt frag data) :
    exec (.echoRequest fr) s = .next ((s.bump .host 0 0xA0 1).sendNonReply (s.egressOk fr.srcMac (some (src, none)))
      (.echoReply (s.hostHdr s.host.mac fr.srcMac fr.vid) dst src data)) := by
  have hport := samePort_bump s (o := 0xA0) (by decide) 1
  simp only [exec, execEchoRequest, hbody, rxHost_of_accepted hup hacc]
  rw [egressOk_of_samePort hport, hostHdr_of_samePort hport]
  rfl

end

/-- What the egress check drops sends nothing. -/
theorem answers_egressDrop {c : Instr} {s u : State} {why : Nat} (h : exec c s = .next (u.egressDrop why)) (hout : u.out = s.out) :
    answers c s fun t => t.out = s.out ∧ eventOnly (u.bump .host 0 0xB4 1) t :=
  answers_of_eq h ⟨(u.egressDrop_out why).trans hout, eventOnly_egressDrop u why⟩

/-! ## HOST_LINK (R388) -/

theorem answers_hostLink {s : State} {up : Bool} (hhub : s.hubUp = true) (hlink : s.host.link = !up) (hen : up = true → s.ctrlBit 31 = true) :
    answers (.hostLink up) s fun t => t.host.link = up ∧ (up = true → t.host.lanes = s.ctrlBit 30) ∧
      eventOnly { s with host := t.host } t ∧ t.host = { s.host with link := up, lanes := t.host.lanes } := by
  let u : State := { s with host := { s.host with link := up, lanes := if up then s.ctrlBit 30 else s.host.lanes } }
  have hexec : exec (.hostLink up) s = .next (u.raiseEv 0x0801 0 (leBytes 1 (b2n up))) := by
    refine guarded_of_true _ _ ?_
    cases up <;> simp [hhub, hlink, hen]
  have hhost : (u.raiseEv 0x0801 0 (leBytes 1 (b2n up))).host = u.host := State.raiseEv_host _ _ _ _
  refine answers_of_eq hexec ?_
  rw [hhost]
  exact ⟨rfl, fun h => if_pos h, eventOnly_raiseEv u _ _ _, rfl⟩

/-- Settles O16: each frame by its own row. -/
theorem managementPortAndHostFrames : Obligations.ManagementPortAndHostFrames := by
  unfold Obligations.ManagementPortAndHostFrames
  refine ⟨⟨?mgmtRefused, ?mgmtAsked, ?mgmtEcho, ?mgmtHeader, ?mgmtFraming, ?mgmtCommand⟩, ?asked, ?echo, ?full, ?discarded, ?link⟩
  case mgmtRefused => exact fun s fr h => exec_mgmtPacket_of_refused h
  case mgmtAsked =>
    exact fun s fr hstandby hacc => ⟨fun ip hbody => exec_mgmtPacket_of_arp hstandby hacc hbody,
      fun ip opt hbody => exec_mgmtPacket_of_solicitation hstandby hacc hbody⟩
  case mgmtEcho => exact fun s fr src dst opt data hstandby hacc hbody => exec_mgmtPacket_of_echo hstandby hacc hbody
  case mgmtHeader =>
    exact fun s fr src dst sp dp a b c l hstandby hacc hbody hheader => exec_mgmtPacket_of_bad_header hstandby hacc hbody hheader
  case mgmtFraming =>
    exact fun s fr src dst sp dp a b c l code detail hstandby hacc hbody hheader hframe =>
      exec_mgmtPacket_of_bad_framing hstandby hacc hbody hheader hframe
  case mgmtCommand =>
    intro s fr src dst sp dp a b c l hstandby hacc hbody hheader hframe p q hsync hwait hheld hseq hc hk
    refine answers_of_eq (exec_mgmtPacket_of_command hstandby hacc hbody hheader hframe) ?_
    rw [receive_of_unsynced hsync hwait, sequence_of_next hc hheld hseq hk]
    rfl
  case asked =>
    intro s fr hup hacc hroom
    refine ⟨fun ip hbody => ?_, fun ip hbody => ?_⟩
    · rw [exec_arpRequest_of_accepted hup hacc hbody, sendNonReply_of_room hup hroom]
      rfl
    · rw [exec_solicitation_of_accepted hup hacc hbody, sendNonReply_of_room hup hroom]
      rfl
  case echo =>
    intro s fr src dst data hup hacc hbody
    have hexec := exec_echoRequest_of_accepted hup hacc hbody
    refine ⟨fun hok hroom => ?_, fun hbarred => ?_⟩
    · rw [hexec, hok, sendNonReply_of_room hup hroom]
      rfl
    · rw [hbarred, sendNonReply_of_barred hup] at hexec
      exact answers_egressDrop hexec rfl
  case full =>
    intro s fr ip hup hacc hbody hfull
    have hexec := exec_arpRequest_of_accepted hup hacc hbody
    rw [sendNonReply_of_full hup hfull] at hexec
    exact answers_egressDrop hexec rfl
  case discarded =>
    intro s fr hup hacc
    refine ⟨guarded_of_true _ _ (by simp [hup, hacc]), fun ip hbody => ?_, fun a b o g l hbody => ?_⟩
    · simp only [exec, execArpRequest, hbody, rxHost_of_discarded hup hacc]
    · simp only [exec, execEchoRequest, hbody, rxHost_of_discarded hup hacc]
  case link => exact fun s up hhub hlink hen => answers_hostLink hhub hlink hen

end Sys2Proof.Machine
end

section
/-! PROOFS. Command packets on the host port and the SYNC of a queue (O18). -/
namespace Sys2Proof.Machine

/-! ## Headers and framing (R369) -/

section
variable {s : State} {fr : EthFrame} {src dst : Ip} {sp dp : Nat} {a b c : Bool} {l : List Byte}
variable (hup : s.hostPortUp = true) (hacc : s.hostAccepts fr = true) (hbody : fr.body = .udp src dst sp dp a b c l)
include hup hacc hbody

theorem exec_commandPacket_of_accepted :
    exec (.commandPacket fr) s = .next ((s.bump .host 0 0xA0 1).datagram .host l ⟨fr.srcMac, src, sp, dst, fr.vid⟩) := by
  simp only [exec, execCommandPacket, hbody, rxHost_of_accepted hup hacc]

end

/-- What a datagram with a bad header does is counted, and an event tells. -/
theorem eventOnly_datagram_of_bad_header {u : State} {l : List Byte} {why : Nat} (hheader : headerFault l = some why) (src : Sender) :
    eventOnly (u.bump .host 0 0xAC 1) (u.datagram .host l src) := by
  unfold State.datagram
  simp only [hheader, if_true]
  generalize u.bump .host 0 0xAC 1 = v
  exact eventOnly_raiseLimited _ _ _ _ _

theorem eventOnly_datagram_of_barred {u : State} {l : List Byte} {src : Sender} (hheader : headerFault l = none)
    (hbarred : u.egressOk src.mac (some (src.ip, some src.port)) = false) :
    eventOnly (u.bump .host 0 0xB0 1) (u.datagram .host l src) := by
  unfold State.datagram
  simp only [hheader, hbarred, decide_true, Bool.not_false, Bool.and_self, if_true]
  generalize u.bump .host 0 0xB0 1 = v
  exact eventOnly_raiseLimited _ _ _ _ _

/-- Where the header is sound and the sender may be answered, bad framing is answered with SEQ 0. -/
theorem datagram_of_bad_framing {u : State} {l : List Byte} {src : Sender} {code detail : Nat} (hheader : headerFault l = none)
    (hok : u.egressOk src.mac (some (src.ip, some src.port)) = true) (hframe : frameFault l (u.cp == .boot) = some (code, detail)) :
    u.datagram .host l src = u.sendReply .host (u.replyVia src) src (replyData (parsePacket l src) 0 code detail []) := by
  unfold State.datagram
  simp only [hheader, hok, decide_true, Bool.not_true, Bool.and_false, Bool.false_eq_true, if_false]
  rw [show ((CmdPort.host == CmdPort.mgmt) || u.cp == .boot) = (u.cp == .boot) from rfl, hframe]

theorem datagram_of_sound {u : State} {l : List Byte} {src : Sender} (hheader : headerFault l = none)
    (hok : u.egressOk src.mac (some (src.ip, some src.port)) = true) (hframe : frameFault l (u.cp == .boot) = none) :
    u.datagram .host l src = u.receive (parsePacket l src).queue (parsePacket l src) := by
  unfold State.datagram
  simp only [hheader, hok, decide_true, Bool.not_true, Bool.and_false, Bool.false_eq_true, if_false]
  rw [show ((CmdPort.host == CmdPort.mgmt) || u.cp == .boot) = (u.cp == .boot) from rfl, hframe]
  rfl

/-! ## Replies (R363, R385) -/

/-- A datagram that the port accepts was sent to one of the port's addresses. -/
theorem hostHas_of_hostAccepts {s : State} {fr : EthFrame} {src dst : Ip} {sp dp : Nat} {a b c : Bool} {l : List Byte}
    (hacc : s.hostAccepts fr = true) (hbody : fr.body = .udp src dst sp dp a b c l) : s.hostHas dst = true := by
  unfold State.hostAccepts at hacc
  rw [hbody] at hacc
  simp only [Bool.and_eq_true] at hacc
  exact hacc.2.1.1.1.1.2

/-- The reply to a sender that may be answered leaves, from the address that its request went to, on any state whose port is the same. -/
theorem sendReply_of_allowed {s u : State} {who : Sender} (hport : SamePort s u) (hup : s.hostPortUp = true)
    (hhas : s.hostHas who.ipTo = true) (hok : s.egressOk who.mac (some (who.ip, some who.port)) = true) (data : List Byte) :
    u.sendReply .host (u.replyVia who) who data = { u.bump .host 0 0xA4 1 with
      out := u.out ++ [.reply (s.hostHdr s.host.mac who.mac who.vid) who.ipTo who.ip s.udpPort who.port data] } := by
  have hvia : s.replyVia who = (s.host.mac, who.ipTo) := by rw [State.replyVia, hhas]; rfl
  unfold State.sendReply
  simp only [hostPortUp_of_samePort hport, hup, egressOk_of_samePort hport, hok, hostHdr_of_samePort hport, udpPort_of_samePort hport,
    replyVia_of_samePort hport, hvia, Bool.not_true, Bool.false_eq_true, if_false, if_true]
  rfl

/-! ## A packet that the port hears (R371) -/

/-- The frame is counted, and a queue that waits for nothing takes the packet by its SEQ. -/
theorem exec_commandPacket_of_hears {s : State} {fr : EthFrame} {p : Packet} (h : s.hears fr p) (hsync : p.sync = false)
    (hwait : (s.queue p.queue).syncWait = none) :
    exec (.commandPacket fr) s = .next ((s.bump .host 0 0xA0 1).sequence p.queue p) := by
  have htaken := receive_of_unsynced (s := s.bump .host 0 0xA0 1) hsync hwait
  obtain ⟨src, dst, sp, dp, a, b, c, l, hbody, hup, hacc, hheader, hok, hframe, rfl, hq⟩ := h
  rw [exec_commandPacket_of_accepted hup hacc hbody, datagram_of_sound (u := s.bump .host 0 0xA0 1) hheader ?_ hframe, htaken]
  rw [egressOk_of_samePort (samePort_bump s (by decide) 1), hok]

/-- The sender of a packet that the port hears may be answered. -/
theorem answerable_of_hears {s : State} {fr : EthFrame} {p : Packet} (h : s.hears fr p) :
    s.hostPortUp = true ∧ s.hostHas p.src.ipTo = true ∧ s.egressOk p.src.mac (some (p.src.ip, some p.src.port)) = true ∧
      portOfIdx p.queue = .host := by
  obtain ⟨src, dst, sp, dp, a, b, c, l, hbody, hup, hacc, hheader, hok, hframe, rfl, hq⟩ := h
  exact ⟨hup, hostHas_of_hostAccepts hacc hbody, hok, if_neg (by omega)⟩

theorem canonical_bump {s : State} (hc : s.canonical = true) (b : Block) (i o n : Nat) : (s.bump b i o n).canonical = true := by
  obtain ⟨hmem, hregs, htarns, hqueues⟩ := (State.canonical_iff s).1 hc
  exact (State.canonical_iff _).2 ⟨hmem, Bank.put_wf _ _ _ _ hregs, htarns, hqueues⟩

section
variable {s : State} {i : Nat} {p : Packet} (hport : portOfIdx i = .host)
include hport

/-- A later SEQ within the reorder buffer is held (R371). -/
theorem sequence_of_later (hpos : 0 < (BitVec.ofNat 32 p.seq - (s.queue i).next).toNat)
    (hrb : (BitVec.ofNat 32 p.seq - (s.queue i).next).toNat ≤ s.rb .host) (hnew : ∀ x ∈ (s.queue i).held, x.seq ≠ p.seq) :
    s.sequence i p = s.setQueue i { s.queue i with held := (s.queue i).held ++ [p] } := by
  have hany : ((s.queue i).held.any fun x => x.seq == p.seq) = false := by simpa using hnew
  unfold State.sequence
  simp only [hport, hany]
  rw [if_neg (by omega), if_pos hrb]
  rfl

section
variable (hrb : s.rb .host < (BitVec.ofNat 32 p.seq - (s.queue i).next).toNat)
include hrb

theorem sequence_of_far (hrc : (BitVec.ofNat 32 p.seq - (s.queue i).next).toNat < 2 ^ 32 - s.rc .host) :
    s.sequence i p = s.bump .host 0 0xA8 1 := by
  unfold State.sequence
  simp only [hport]
  rw [if_neg (by omega), if_neg (by omega), if_neg (by omega)]
  rfl

theorem sequence_of_past (hrc : 2 ^ 32 - s.rc .host ≤ (BitVec.ofNat 32 p.seq - (s.queue i).next).toNat) :
    s.sequence i p = s.duplicate i p := by
  unfold State.sequence
  simp only [hport]
  rw [if_neg (by omega), if_neg (by omega), if_pos hrc]

end

/-- One already accepted is only counted while its reply is not in the cache. -/
theorem duplicate_of_uncached (hnone : ∀ e ∈ (s.queue i).cache, e.seq ≠ p.seq ∨ e.reply = none) :
    s.duplicate i p = s.bump .host 0 0xB8 1 := by
  have hcount : s.countDup (portOfIdx i) = s.bump .host 0 0xB8 1 := by rw [hport]; rfl
  unfold State.duplicate
  rw [hcount]
  cases hfind : (s.queue i).cache.find? fun e => e.seq == p.seq with
  | none => rfl
  | some e =>
    obtain ⟨seq, tag, op, reply⟩ := e
    have hseq : seq = p.seq := by simpa using List.find?_some hfind
    have hreply : reply = none := (hnone _ (List.mem_of_find?_eq_some hfind)).resolve_left fun h => h hseq
    subst hreply
    rfl

/-- One already accepted is answered from the cache. -/
theorem duplicate_of_cached {data : List Byte} (hcached : ((s.queue i).cache.find? fun e => e.seq == p.seq).bind (·.reply) = some data) :
    s.duplicate i p = (s.bump .host 0 0xB8 1).sendReply .host ((s.bump .host 0 0xB8 1).replyVia p.src) p.src data := by
  obtain ⟨⟨seq, tag, op, reply⟩, hfind, hreply⟩ := Option.bind_eq_some_iff.1 hcached
  dsimp only at hreply
  subst hreply
  have hcount : s.countDup .host = s.bump .host 0 0xB8 1 := rfl
  unfold State.duplicate
  simp only [hport, hfind, hcount]

end

/-! ## The SYNC of a queue (R372) -/

/-- What raised events leave alone does not depend on the queues. -/
theorem eventOnly_setQueues {s t : State} (h : eventOnly s t) (hc : s.canonical = true) (q : Bank Queue) :
    eventOnly { s with queues := q } { t with queues := q } := by
  obtain ⟨hparts, hregs, hrest⟩ := h
  obtain ⟨htc, hbytes, hstacks⟩ := hrest hc
  refine ⟨?_, hregs, fun hq => ⟨?_, hbytes, hstacks⟩⟩
  · rw [hparts]
  · obtain ⟨-, -, -, hqueues⟩ := (State.canonical_iff _).1 hq
    obtain ⟨hmem, hregs, htarns, -⟩ := (State.canonical_iff _).1 htc
    exact (State.canonical_iff _).2 ⟨hmem, hregs, htarns, hqueues⟩

theorem canonical_setQueue {s : State} (hc : s.canonical = true) (i : Nat) (q : Queue) : (s.setQueue i q).canonical = true := by
  obtain ⟨hmem, hregs, htarns, hqueues⟩ := (State.canonical_iff s).1 hc
  exact (State.canonical_iff _).2 ⟨hmem, hregs, htarns, Bank.put_wf _ _ _ _ hqueues⟩

/-- A queue with a command that a SYNC resets it for: NEXT is the SYNC's SEQ, and the reorder buffer and the cache are empty. -/
def Queue.resetFor (q : Queue) (p : Packet) : Queue :=
  { q with
    next := BitVec.ofNat 32 p.seq, held := [], cache := [], lastSync := some (p.seq, p.tag, p.opcode)
    syncWait := none, apart := [] }

/-- The queue is reset and, on the host port, an event tells of it. -/
def State.resetFor (s : State) (i : Nat) (p : Packet) : State :=
  if i = 16 then s.setQueue i ((s.queue i).resetFor p)
  else (s.setQueue i ((s.queue i).resetFor p)).raiseEv 0x0806 0 (leBytes 4 i ++ leBytes 4 p.seq)

theorem eventOnly_resetFor (s : State) (i : Nat) (p : Packet) :
    eventOnly (s.setQueue i ((s.queue i).resetFor p)) (s.resetFor i p) := by
  unfold State.resetFor
  split
  · exact eventOnly_refl _
  · exact eventOnly_raiseEv _ _ _ _

theorem applySync_of_none_apart {s : State} {i : Nat} {p : Packet} (hapart : (s.queue i).apart = []) :
    s.applySync i p = (s.resetFor i p).sequence i p := by
  unfold State.applySync
  dsimp only
  rw [hapart]
  rfl

theorem one_le_rc (s : State) (port : CmdPort) : 1 ≤ s.rc port := by
  unfold State.rc
  split
  · decide
  · split <;> decide

/-- The cache keeps the command that has just been accepted. -/
theorem trimCache_of_last {seq tag op rc : Nat} (hrc : 1 ≤ rc) (reply : Option (List Byte)) :
    trimCache (BitVec.ofNat 32 seq + 1) rc [⟨seq, tag, op, reply⟩] = [⟨seq, tag, op, reply⟩] := by
  have hback : BitVec.ofNat 32 seq + 1 - BitVec.ofNat 32 seq = 1#32 := by rw [add_sub_cancel_left]; rfl
  unfold trimCache
  rw [List.filter_cons_of_pos (by rw [hback]; exact decide_eq_true hrc), List.filter_nil]

/-- With nothing running and nothing held apart, the SYNC's own command is all that the queue has accepted. -/
theorem applySync_of_idle {s : State} {i : Nat} {p : Packet} (hc : s.canonical = true) (hidle : (s.queue i).running = 0)
    (hapart : (s.queue i).apart = []) (hk : knownOpcode i p.opcode = true) :
    s.applySync i p = (s.resetFor i p).setQueue i { s.queue i with
        next := BitVec.ofNat 32 p.seq + 1, held := [], apart := [], syncWait := none, accepted := [p]
        lastSync := some (p.seq, p.tag, p.opcode), cache := [⟨p.seq, p.tag, p.opcode, none⟩] } := by
  have haccepted : (s.queue i).accepted = [] := by
    unfold Queue.running at hidle
    exact List.eq_nil_of_length_eq_zero (by omega)
  have hev := eventOnly_resetFor s i p
  have hqueue : (s.resetFor i p).queue i = (s.queue i).resetFor p := by
    have hqueues : (s.resetFor i p).queues = (s.setQueue i ((s.queue i).resetFor p)).queues := by rw [hev.1]
    exact (congrArg (Bank.get queueDefault · i) hqueues).trans (queue_setQueue_same s i _ hc)
  have hc' : (s.resetFor i p).canonical = true := (hev.2.2 (canonical_setQueue hc i _)).1
  rw [applySync_of_none_apart hapart, sequence_of_next hc' (by rw [hqueue]; rfl) (by rw [hqueue]; rfl)]
  · rw [hqueue]
    simp only [Queue.accepting, Queue.resetFor, haccepted, List.nil_append, trimCache_of_last (one_le_rc _ _)]
  · rw [hqueue]
    simpa [Queue.resetFor, haccepted] using hk

/-- Settles O18: the outcomes of a datagram, of a packet on its queue, and of a SYNC. -/
theorem commandPackets : Obligations.CommandPackets := by
  unfold Obligations.CommandPackets
  refine ⟨⟨?header, ?barred, ?framing, ?next, ?other⟩, ?running, ?sync⟩
  case header =>
    exact fun s fr src dst sp dp a b c l why hup hacc hbody hheader =>
      answers_of_eq (exec_commandPacket_of_accepted hup hacc hbody) (eventOnly_datagram_of_bad_header hheader _)
  case barred =>
    intro s fr src dst sp dp a b c l hup hacc hbody hheader hbarred
    refine answers_of_eq (exec_commandPacket_of_accepted hup hacc hbody) (eventOnly_datagram_of_barred hheader ?_)
    rw [egressOk_of_samePort (samePort_bump s (by decide) 1), hbarred]
  case framing =>
    intro s fr src dst sp dp a b c l code detail hup hacc hbody hheader hok hframe who
    have hport := samePort_bump s (o := 0xA0) (by decide) 1
    rw [exec_commandPacket_of_accepted hup hacc hbody,
      datagram_of_bad_framing (u := s.bump .host 0 0xA0 1) hheader (by rw [egressOk_of_samePort hport, hok]) hframe,
      sendReply_of_allowed hport hup (hostHas_of_hostAccepts hacc hbody) hok]
    rfl
  case next =>
    intro s fr p h hc hsync hwait hheld hseq hk
    obtain ⟨-, -, -, hport⟩ := answerable_of_hears h
    have hrc : (s.bump .host 0 0xA0 1).rc (portOfIdx p.queue) = s.rc .host := by rw [hport]; rfl
    have htaken := sequence_of_next (canonical_bump hc .host 0 0xA0 1) hheld hseq hk
    rw [exec_commandPacket_of_hears h hsync hwait, htaken, hrc]
    rfl
  case other =>
    intro s fr p h hsync hwait d
    obtain ⟨hup, hhas, hok, hport⟩ := answerable_of_hears h
    have hpast (hrb : s.rb .host < d) (hrc : 2 ^ 32 - s.rc .host ≤ d) := sequence_of_past (s := s.bump .host 0 0xA0 1) hport hrb hrc
    rw [exec_commandPacket_of_hears h hsync hwait]
    refine ⟨fun hpos hrb hnew => ?_, fun hrb hrc => ?_, fun hrb hrc hnone => ?_, fun data hrb hrc hcached => ?_⟩
    · exact congrArg _ (sequence_of_later hport hpos hrb hnew)
    · exact congrArg _ (sequence_of_far hport hrb hrc)
    · exact congrArg _ ((hpast hrb hrc).trans (duplicate_of_uncached (s := s.bump .host 0 0xA0 1) hport hnone))
    · have hsame : SamePort s ((s.bump .host 0 0xA0 1).bump .host 0 0xB8 1) :=
        samePort_trans (samePort_bump s (by decide) 1) (samePort_bump _ (by decide) 1)
      rw [hpast hrb hrc, duplicate_of_cached (s := s.bump .host 0 0xA0 1) hport hcached, sendReply_of_allowed hsame hup hhas hok]
      rfl
  case running =>
    intro s port q hrun
    simp only [exec, execQueueSync, if_neg hrun]
    split <;> rfl
  case sync =>
    intro s port q p i hq hwait hidle hapart hk hc
    have hexec : exec (.queueSync port q) s = .next (s.applySync i p) := by
      simp only [exec, execQueueSync, i] at *
      rw [hwait]
      simp only [hidle, if_true]
    have hev := eventOnly_resetFor s i p
    have hreset : (s.resetFor i p).queues = (s.setQueue i ((s.queue i).resetFor p)).queues := by rw [hev.1]
    have hc' := canonical_setQueue hc i ((s.queue i).resetFor p)
    rw [applySync_of_idle hc hidle hapart hk] at hexec
    refine answers_of_eq hexec ⟨queue_setQueue_same _ i _ (hev.2.2 hc').1, fun k hk => ?_, eventOnly_setQueues hev hc' _⟩
    exact (queue_setQueue_other _ _ _ _ hk).trans
      ((congrArg (Bank.get queueDefault · k) hreset).trans (queue_setQueue_other s i k _ hk))

end Sys2Proof.Machine
end

section
/-! PROOFS. The register reads with an effect, and the host port's registers (O11). -/
namespace Sys2Proof.Machine

/-! ## Reads (R473, R476) -/

/-- A read with the hub up comes down to the register's page. -/
theorem accessRead_regAddr {s : State} {who : Requester} {b : Block} {i o : Nat} (hi : i < instances b) (ho : o < 0x1000) (h4 : o % 4 = 0)
    (hup : s.hubUp = true) (hreach : s.reaches who = true) :
    s.accessRead who (regAddr b i o) = .next { (s.readAt who b i o).1 with access := .ok, readValue := (s.readAt who b i o).2 } := by
  simp [State.accessRead, State.readReg, regAddr_aligned b i o h4, pageOf_regAddr b i o hi ho, hup, hreach, guarded]

theorem pairLo_offset {b : Block} {o : Nat} (h : pairLo b = some o) : o < 0x1000 ∧ o % 4 = 0 := by
  cases b <;> simp [pairLo] at h <;> omega

/-- The low half of a pair is answered, and the high half held for the requester. -/
theorem readAt_of_pairLo {b : Block} {o : Nat} (h : pairLo b = some o) (s : State) (who : Requester) (i : Nat) :
    s.readAt who b i o =
      ({ s with latches := Bank.put latchDefault s.latches (latchKey who (regAddr b i o)) (s.regView b i (o + 4)) }, s.regView b i o) :=
  if_pos h

/-- A register that is no half of a pair answers its value before the read clears it. -/
theorem readAt_of_unpaired {b : Block} {o : Nat} (hlo : pairLo b ≠ some o) (hhi : pairLo b ≠ some (o - 4)) (s : State) (who : Requester)
    (i : Nat) : s.readAt who b i o = (s.readClear b o, s.regView b i o) :=
  (if_neg hlo).trans (if_neg fun h => hhi h.1)

theorem accessRead_of_unpaired {s : State} {who : Requester} {b : Block} {o : Nat} (hlo : pairLo b ≠ some o)
    (hhi : pairLo b ≠ some (o - 4)) (hi : 0 < instances b) (ho : o < 0x1000) (h4 : o % 4 = 0) (hup : s.hubUp = true) (hreach : s.reaches who = true) :
    s.accessRead who (regAddr b 0 o) = .next { s.readClear b o with access := .ok, readValue := s.regView b 0 o } := by
  rw [accessRead_regAddr hi ho h4 hup hreach, readAt_of_unpaired hlo hhi]

/-! ## Writes to the host port's registers (R378, R388) -/

/-- A read-write register of the host port has no lock and no unit: only its values decide. -/
theorem writeStatus_host {r : RegDesc} (hurhild : r.urhild = false) (hkind : r.kind = .rw) (hlock : r.lock = .none) (s : State)
    (who : Requester) (v : Word) :
    s.writeStatus who .host 0 r v = if inRanges v r.ranges && s.valueOk .host 0 r.off v then .ok else .badField := by
  have hunlocked : s.locked .host 0 r = false := by simp [State.locked, hlock]
  have hunit : s.unitRefuses .host 0 r.off v = false := rfl
  rw [writeStatus_inReach s who .host 0 r v hurhild (fun h => nomatch h)]
  simp only [hkind, hunlocked, hunit]
  cases inRanges v r.ranges && s.valueOk .host 0 r.off v <;> rfl

section
variable {s : State} {o : Nat} {r : RegDesc} {v : Word} (hup : s.hubUp = true) (hd : regDesc .host o = some r) (ho : o < 0x1000)
variable (h4 : o % 4 = 0) (hurhild : r.urhild = false) (hkind : r.kind = .rw) (hlock : r.lock = .none)
include hup hd ho h4 hurhild hkind hlock

theorem accessWrite_host_of_valid (hvalid : (inRanges v r.ranges && s.valueOk .host 0 r.off v) = true) :
    s.accessWrite .host (regAddr .host 0 o) v = .next { s.hostStore o (v &&& BitVec.ofNat 32 r.mask) with access := .ok } :=
  accessWrite_of_status s .host .host 0 o r v (by decide) ho h4 hup (by simp [hup]) hd rfl
    (by rw [writeStatus_host hurhild hkind hlock, if_pos hvalid]) (.inl hkind)

theorem accessWrite_host_of_invalid (hvalid : (inRanges v r.ranges && s.valueOk .host 0 r.off v) = false) :
    s.accessWrite .host (regAddr .host 0 o) v = .next { s.refusedWrite .host 0 o .badField with access := .badField } :=
  accessWrite_refused s .host .host 0 o r v .badField (by decide) ho h4 hup (by simp [hup]) hd rfl
    (by rw [writeStatus_host hurhild hkind hlock, if_neg (by simp [hvalid])]) (by decide)

end

theorem macUsable_eq_true {m : Mac} : macUsable m = true ↔ m ≠ 0 ∧ m.getLsbD 40 = false := by simp [macUsable]

theorem macUsable_eq_false {m : Mac} : macUsable m = false ↔ m = 0 ∨ m.getLsbD 40 = true := by simp [macUsable, or_iff_not_imp_left]

/-- HOST_MAC_HI holds 16 bits. -/
theorem and_low_half {v : Word} (h : v.toNat < 0x10000) : v &&& 0xFFFF#32 = v := by
  apply BitVec.eq_of_toNat_eq
  rw [BitVec.toNat_and]
  exact Nat.and_two_pow_sub_one_of_lt_two_pow (n := 16) h

/-- The store of HOST_CTRL keeps LANES. -/
theorem bit_lanes_stored (v : Word) : bit (v &&& 0xFFFFF000#32) 30 = bit v 30 := by
  simp [bit]

/-! The descriptors of the registers that these writes address. -/

theorem regDesc_hostCtrl :
    regDesc .host 0x10 = some ⟨"HOST_CTRL", 0x10, .rw, 0x80001000, 0xfffff000, [⟨12, 12, 1, 0xffe⟩], .none, false⟩ := rfl

theorem regDesc_hostMacLo : regDesc .host 0x14 = some ⟨"HOST_MAC_LO", 0x14, .rw, 0, 0xffffffff, [], .none, false⟩ := rfl

theorem regDesc_hostMacHi : regDesc .host 0x18 = some ⟨"HOST_MAC_HI", 0x18, .rw, 0, 0xffff, [], .none, false⟩ := rfl

theorem regDesc_hostEgrCfg :
    regDesc .host 0x78 = some ⟨"HOST_EGR_CFG", 0x78, .rw, 0, 0xe00000ff, [⟨29, 2, 0, 2⟩], .none, true⟩ := rfl

theorem hostStore_macHi (s : State) (w : Word) :
    s.hostStore 0x18 w = { s with host := { s.host with mac := s.newMac w, macLo := none, macSet := true } } := rfl

/-- Of a value for HOST_MAC_HI only the address that it would commit is checked. -/
theorem valid_hostMacHi (s : State) (v : Word) : (inRanges v [] && s.valueOk .host 0 0x18 v) = macUsable (s.newMac v) := by
  unfold State.valueOk
  exact Bool.true_and _

section
variable {s : State} {v : Word} (hup : s.hubUp = true)
include hup

/-- HOST_CTRL takes every VID in range. -/
theorem exec_hostCtrlWrite (hlow : 1 ≤ bits v 12 12) (hhigh : bits v 12 12 ≤ 0xFFE) :
    exec (.hostCtrlWrite .host v) s = .next { s.hostCtrl (v &&& 0xFFFFF000#32) with access := .ok } := by
  have hrange : inRanges v [⟨12, 12, 1, 0xffe⟩] = true := by simpa [inRanges, bits] using And.intro hlow hhigh
  have hvalid : (inRanges v [⟨12, 12, 1, 0xffe⟩] && s.valueOk .host 0 0x10 v) = true := Bool.and_eq_true_iff.2 ⟨hrange, rfl⟩
  have hwrite := accessWrite_host_of_valid hup regDesc_hostCtrl (by decide) (by decide) rfl rfl rfl hvalid
  exact hwrite

theorem exec_hostMacLoWrite :
    exec (.hostMacLoWrite .host v) s = .next { s with host := { s.host with macLo := some v }, access := .ok } := by
  have hwrite := accessWrite_host_of_valid (v := v) hup regDesc_hostMacLo (by decide) (by decide) rfl rfl rfl rfl
  rw [and_full] at hwrite
  exact hwrite

theorem exec_hostMacHiWrite_of_usable (hmac : macUsable (s.newMac v) = true) (hv : v.toNat < 0x10000) :
    exec (.hostMacHiWrite .host v) s =
      .next { s with host := { s.host with mac := s.newMac v, macLo := none, macSet := true }, access := .ok } := by
  have hwrite := accessWrite_host_of_valid hup regDesc_hostMacHi (by decide) (by decide) rfl rfl rfl ((valid_hostMacHi s v).trans hmac)
  rw [and_low_half hv, hostStore_macHi] at hwrite
  exact hwrite

theorem exec_hostMacHiWrite_of_unusable (hmac : macUsable (s.newMac v) = false) :
    exec (.hostMacHiWrite .host v) s = .next { s with host := { s.host with macLo := none }, access := .badField } := by
  have hwrite := accessWrite_host_of_invalid hup regDesc_hostMacHi (by decide) (by decide) rfl rfl rfl ((valid_hostMacHi s v).trans hmac)
  exact hwrite

end

/-- A change of LANES takes a link that is up down, and an event tells (R388). -/
theorem hostCtrl_of_lanes {s : State} {w : Word} (hlink : s.host.link = true) (hlanes : bit w 30 ≠ s.ctrlBit 30) :
    s.hostCtrl w = State.raiseEv { s.setReg .host 0 0x10 w with host := { s.host with link := false } } 0x0801 0 (leBytes 1 0) :=
  if_pos ⟨hlink, hlanes⟩

theorem hostCtrl_of_same_lanes {s : State} {w : Word} (hlanes : bit w 30 = s.ctrlBit 30) : s.hostCtrl w = s.setReg .host 0 0x10 w :=
  if_neg fun h => h.2 hlanes

/-- Settles O11: the reads by their page, the writes by what their register stores. -/
theorem hostRegistersAndReads : Obligations.HostRegistersAndReads := by
  unfold Obligations.HostRegistersAndReads
  refine ⟨⟨?pair, ?lost, ?hwm, ?age⟩, ?macLo, ?macHi, ?macRefused, ?ctrl, ?lanes, ?egress⟩
  case pair =>
    intro s who b i o hlo hi hup hreach
    obtain ⟨ho, h4⟩ := pairLo_offset hlo
    have hread := accessRead_regAddr hi ho h4 hup hreach
    rw [readAt_of_pairLo hlo] at hread
    exact hread
  case lost =>
    exact fun s who hup hreach =>
      accessRead_of_unpaired (b := .policy) (o := 0x54) (by decide) (by decide) (by decide) (by decide) (by decide) hup hreach
  case hwm =>
    exact fun s who hup hreach =>
      accessRead_of_unpaired (b := .step) (o := 0x38) (by decide) (by decide) (by decide) (by decide) (by decide) hup hreach
  case age =>
    exact fun s who hup hreach =>
      accessRead_of_unpaired (b := .pwr) (o := 0x44) (by decide) (by decide) (by decide) (by decide) (by decide) hup hreach
  case macLo => exact fun s v hup => exec_hostMacLoWrite hup
  case macHi => exact fun s v hup hzero hgroup hv => exec_hostMacHiWrite_of_usable hup (macUsable_eq_true.2 ⟨hzero, hgroup⟩) hv
  case macRefused => exact fun s v hup h => exec_hostMacHiWrite_of_unusable hup (macUsable_eq_false.2 h)
  case ctrl =>
    intro s v hup hlow hhigh hlanes
    rw [exec_hostCtrlWrite hup hlow hhigh, hostCtrl_of_same_lanes ((bit_lanes_stored v).trans hlanes)]
    rfl
  case lanes =>
    intro s v hup hlow hhigh hlink hlanes
    have hexec := exec_hostCtrlWrite hup hlow hhigh
    rw [hostCtrl_of_lanes hlink (by rwa [bit_lanes_stored])] at hexec
    refine answers_of_eq hexec ⟨?_, eventOnly_setAccess _ (eventOnly_raiseEv _ _ _ _)⟩
    exact congrArg HostPort.link (State.raiseEv_host _ _ _ _)
  case egress =>
    intro s v hup hstandby hacc
    exact accessWrite_of_accepts s .urhild .host 0 0x78 _ v (by decide) (by decide) (by decide) (by simp [hup]) regDesc_hostEgrCfg rfl hacc
      (.inl rfl)

end Sys2Proof.Machine
end
